-- ==== Sys2Proof/Word.lean ====
section
/-!
DEFINITION. The word types of the VX920 and the small fixed name sets every other file uses.
-/

namespace Sys2Proof.Machine

/-- A byte; byte 0 of a field is the byte at the lowest address (R12). -/
abbrev Byte := BitVec 8
/-- A control register's value lives in 16 bits (R350). -/
abbrev Half := BitVec 16
/-- A register dword (R345). -/
abbrev Word := BitVec 32
/-- A 64-bit quantity (epoch numbers R32, acceptance stamps R42). -/
abbrev DWord := BitVec 64

/-- The fifteen BAR0 blocks in block-index order (Table 15.1, R344). -/
inductive Blk where
  | top | pwr | mbx | evr | scr | dig | dp | map | med | str | mlk | fe | rdm | ubl | cip
  deriving DecidableEq, Repr

/-- The two requesters of the register model (R346). -/
inductive Requester where
  | head     -- the head CPU over PCI Express
  | cluster  -- the control cluster over the register bridge
  deriving DecidableEq, Repr

/-- Where a register write comes in: BAR0, BAR2, or a fabric port (R28, R359). -/
inductive RegPath where
  | bar0 | bar2 | fabric
  deriving DecidableEq, Repr

/-- The two storage domains (R6 level 5, R7). -/
inductive SD where
  | a | b
  deriving DecidableEq, Repr

/-- The four power states (R413). -/
inductive PState where
  | p0 | p1 | p2 | p3
  deriving DecidableEq, Repr

/-- The two heartbeat paths (R318). -/
inductive HbPath where
  | link  -- the HEARTBEAT control frame on the Ubius link
  | pair  -- the serial frame on the heartbeat pair
  deriving DecidableEq, Repr

/-- The two flash layers (R166). -/
inductive Layer where
  | skim | finish
  deriving DecidableEq, Repr

end Sys2Proof.Machine
end

