-- ==== Sys2Proof/Machine/Table.lean ====
section
/-!
DEFINITION. Plain-data containers: sparse tables with rising keys, byte memories in canonical form,
and one value per block, requester or domain.
-/

namespace Sys2Proof.Machine

/-- A sparse table: key and value pairs, keys strictly rising. -/
abbrev Table (α : Type) := List (Nat × α)

/-- The value at a key, if the table lists it. -/
def Table.find {α : Type} : Table α → Nat → Option α
  | [], _ => none
  | (k, v) :: t, n => if k = n then some v else if n < k then none else Table.find t n

/-- The value at a key, or `d` where the table lists none. -/
def Table.getD {α : Type} (t : Table α) (n : Nat) (d : α) : α := (Table.find t n).getD d

/-- Write a key, keeping the keys rising. -/
def Table.put {α : Type} : Table α → Nat → α → Table α
  | [], n, v => [(n, v)]
  | (k, w) :: t, n, v =>
    if k = n then (n, v) :: t else if n < k then (n, v) :: (k, w) :: t else (k, w) :: Table.put t n v

/-- Remove a key. -/
def Table.del {α : Type} : Table α → Nat → Table α
  | [], _ => []
  | (k, w) :: t, n => if k = n then t else if n < k then (k, w) :: t else (k, w) :: Table.del t n

/-- The listed values, in key order. -/
def Table.vals {α : Type} (t : Table α) : List α := t.map Prod.snd

/-- The listed keys, rising. -/
def Table.keys {α : Type} (t : Table α) : List Nat := t.map Prod.fst

/-- Change a listed value. -/
def Table.upd {α : Type} (t : Table α) (n : Nat) (f : α → α) : Table α :=
  match Table.find t n with
  | some v => Table.put t n (f v)
  | none => t

/-- Change every listed value. -/
def Table.mapV {α β : Type} (f : α → β) (t : Table α) : Table β := t.map fun p => (p.1, f p.2)

/-- Keep the entries whose key and value pass. -/
def Table.keep {α : Type} (f : Nat → α → Bool) (t : Table α) : Table α := t.filter fun p => f p.1 p.2

/-- Keys strictly rising. -/
def Table.wf {α : Type} : Table α → Bool
  | [] => true
  | [_] => true
  | (k, _) :: (n, w) :: t => decide (k < n) && Table.wf ((n, w) :: t)

/-- The lowest key from `n` up, within `fuel` tries, that the table does not list. -/
def Table.free {α : Type} (t : Table α) : Nat → Nat → Nat
  | 0, n => n
  | fuel + 1, n => if (Table.find t n).isNone then n else Table.free t fuel (n + 1)

/-- A byte memory: listed cells, addresses strictly rising, no listed byte equal to 0.
An unlisted address reads 0 (assumption 3). -/
abbrev Memory := List Host.Cell

/-- The byte at an address. -/
def Memory.read : Memory → Nat → Byte
  | [], _ => 0
  | (k, v) :: t, n => if k = n then v else if n < k then 0 else Memory.read t n

/-- Write one byte; writing 0 removes the cell. -/
def Memory.write : Memory → Nat → Byte → Memory
  | [], n, v => if v = 0 then [] else [(n, v)]
  | (k, w) :: t, n, v =>
    if k = n then (if v = 0 then t else (n, v) :: t)
    else if n < k then (if v = 0 then (k, w) :: t else (n, v) :: (k, w) :: t)
    else (k, w) :: Memory.write t n v

/-- Write consecutive bytes from an address up. -/
def Memory.writeAll (m : Memory) (n : Nat) : List Byte → Memory
  | [] => m
  | b :: bs => Memory.writeAll (Memory.write m n b) (n + 1) bs

/-- `len` consecutive bytes from an address up. -/
def Memory.readN (m : Memory) (n : Nat) : Nat → List Byte
  | 0 => []
  | len + 1 => Memory.read m n :: Memory.readN m (n + 1) len

/-- The canonical form: addresses strictly rising and no cell that reads as an unlisted one does. -/
def Memory.wf : Memory → Bool
  | [] => true
  | [(_, v)] => decide (v ≠ 0)
  | (k, v) :: (n, w) :: t => decide (v ≠ 0) && decide (k < n) && Memory.wf ((n, w) :: t)

/-- One value per block. -/
structure PerBlk (α : Type) where
  top : α
  pwr : α
  mbx : α
  evr : α
  scr : α
  dig : α
  dp : α
  map : α
  med : α
  str : α
  mlk : α
  fe : α
  rdm : α
  ubl : α
  cip : α
  deriving DecidableEq, Repr

/-- Read one block's value. -/
def PerBlk.get {α : Type} (t : PerBlk α) : Blk → α
  | .top => t.top | .pwr => t.pwr | .mbx => t.mbx | .evr => t.evr | .scr => t.scr
  | .dig => t.dig | .dp => t.dp | .map => t.map | .med => t.med | .str => t.str
  | .mlk => t.mlk | .fe => t.fe | .rdm => t.rdm | .ubl => t.ubl | .cip => t.cip

/-- Write one block's value. -/
def PerBlk.set {α : Type} (t : PerBlk α) (b : Blk) (v : α) : PerBlk α :=
  match b with
  | .top => { t with top := v } | .pwr => { t with pwr := v } | .mbx => { t with mbx := v }
  | .evr => { t with evr := v } | .scr => { t with scr := v } | .dig => { t with dig := v }
  | .dp => { t with dp := v } | .map => { t with map := v } | .med => { t with med := v }
  | .str => { t with str := v } | .mlk => { t with mlk := v } | .fe => { t with fe := v }
  | .rdm => { t with rdm := v } | .ubl => { t with ubl := v } | .cip => { t with cip := v }

/-- One value per requester (banked registers, R349). -/
structure PerReq (α : Type) where
  head : α
  cluster : α
  deriving DecidableEq, Repr

/-- Read one requester's copy. -/
def PerReq.get {α : Type} (t : PerReq α) : Requester → α
  | .head => t.head
  | .cluster => t.cluster

/-- Write one requester's copy. -/
def PerReq.set {α : Type} (t : PerReq α) (r : Requester) (v : α) : PerReq α :=
  match r with
  | .head => { t with head := v }
  | .cluster => { t with cluster := v }

/-- One value per storage domain. -/
structure PerSD (α : Type) where
  a : α
  b : α
  deriving DecidableEq, Repr

/-- Read one domain's value. -/
def PerSD.get {α : Type} (t : PerSD α) : SD → α
  | .a => t.a
  | .b => t.b

/-- Write one domain's value. -/
def PerSD.set {α : Type} (t : PerSD α) (d : SD) (v : α) : PerSD α :=
  match d with
  | .a => { t with a := v }
  | .b => { t with b := v }

/-- Change one domain's value. -/
def PerSD.upd {α : Type} (t : PerSD α) (d : SD) (f : α → α) : PerSD α := PerSD.set t d (f (PerSD.get t d))

/-- Change one element of a list by its index; an index beyond the list changes nothing. -/
def updAt {α : Type} (l : List α) (i : Nat) (f : α → α) : List α := l.modify i f

end Sys2Proof.Machine
end

