-- ==== Sys2Proof/Machine/Bits.lean ====
section
/-!
DEFINITION. Byte strings, little-endian fields (R12, R13), bit fields, signed values, the CRC-64 of
Table 05.5, and the arithmetic over GF(2^8) that parity (R189) and AES (R235) use.
-/

namespace Sys2Proof.Machine

/-- The low `n` bytes of a number, byte 0 first (R13). -/
def leBytes : Nat → Nat → List Byte
  | 0, _ => []
  | n + 1, v => BitVec.ofNat 8 v :: leBytes n (v / 256)

/-- The number whose little-endian bytes these are (R13). -/
def leNat : List Byte → Nat
  | [] => 0
  | b :: bs => b.toNat + 256 * leNat bs

/-- The number whose big-endian bytes these are (fields of published standards, R13). -/
def beNat (bs : List Byte) : Nat := leNat bs.reverse

/-- The big-endian bytes of a number. -/
def beBytes (n v : Nat) : List Byte := (leBytes n v).reverse

/-- `n` zero bytes. -/
def zeros (n : Nat) : List Byte := List.replicate n 0

/-- `len` bytes of a string from an offset; bytes beyond its end are left out. -/
def slice (l : List Byte) (off len : Nat) : List Byte := (l.drop off).take len

/-- A string cut or zero-padded to a length. -/
def fit (l : List Byte) (n : Nat) : List Byte := l.take n ++ zeros (n - l.length)

/-- Byte-wise exclusive or, as long as the shorter string. -/
def xorBytes (x y : List Byte) : List Byte := List.zipWith (· ^^^ ·) x y

/-- Put bytes into a string at an offset, keeping its length. -/
def patch (l : List Byte) (off : Nat) (bs : List Byte) : List Byte :=
  l.take off ++ bs.take (l.length - off) ++ l.drop (off + bs.length)

/-- Every byte is zero. -/
def allZero (l : List Byte) : Bool := l.all (· = 0)

/-- A little-endian field of `n` bytes at an offset. -/
def leAt (l : List Byte) (off n : Nat) : Nat := leNat (slice l off n)

/-- Bits [hi:lo] of a number (R11). -/
def bitsOf (v hi lo : Nat) : Nat := (v >>> lo) % 2 ^ (hi + 1 - lo)

/-- Bit `n` of a number. -/
def bitOf (v n : Nat) : Bool := v.testBit n

/-- The number 1 for true. -/
def b2n (b : Bool) : Nat := if b then 1 else 0

/-- The signed value of a byte. -/
def sbyte (b : Byte) : Int := b.toInt

/-- Saturate at an unsigned 32-bit maximum. -/
def sat32 (n : Nat) : Word := if n < 2 ^ 32 then BitVec.ofNat 32 n else BitVec.allOnes 32

/-- One step of the reflected CRC-64 of Table 05.5: the polynomial 0xAD93_D235_94C9_3659 in
reflected form. -/
def crc64Bit (c : Nat) : Nat :=
  if c % 2 = 1 then (c >>> 1) ^^^ 0x9A6C9329AC4BC9B5 else c >>> 1

/-- Eight steps of the CRC: one byte. -/
def crc64Byte (c : Nat) (b : Byte) : Nat :=
  crc64Bit (crc64Bit (crc64Bit (crc64Bit (crc64Bit (crc64Bit (crc64Bit (crc64Bit (c ^^^ b.toNat))))))))

/-- CRC-64 of Table 05.5 (R122): initial value and final XOR all ones, input and output reflected. -/
def crc64 (l : List Byte) : DWord :=
  BitVec.ofNat 64 ((l.foldl crc64Byte 0xFFFFFFFFFFFFFFFF) ^^^ 0xFFFFFFFFFFFFFFFF)

/-- One doubling in GF(2^8) modulo `x^8 + poly`. -/
def gfDouble (poly a : Nat) : Nat :=
  let d := (a <<< 1) % 256
  if a % 256 ≥ 128 then d ^^^ poly else d

/-- Multiplication in GF(2^8) modulo `x^8 + poly`, over the eight bits of `b`. -/
def gfMulAux (poly : Nat) : Nat → Nat → Nat → Nat
  | 0, _, _ => 0
  | n + 1, a, b => (if b % 2 = 1 then a else 0) ^^^ gfMulAux poly n (gfDouble poly a) (b / 2)

/-- Multiplication in GF(2^8): `poly` is 0x1D for parity (0x11D, R189) and 0x1B for AES (FIPS 197). -/
def gfMul (poly a b : Nat) : Nat := gfMulAux poly 8 (a % 256) (b % 256)

/-- A power in GF(2^8). -/
def gfPow (poly a : Nat) : Nat → Nat
  | 0 => 1
  | n + 1 => gfMul poly a (gfPow poly a n)

/-- The inverse in GF(2^8), as the power 254; 0 has inverse 0. -/
def gfInv (poly a : Nat) : Nat := gfPow poly a 254

/-- Saturation of an exact value to the signed 32-bit range (R339). -/
def satI32 (x : Int) : Int := max (-2147483648) (min 2147483647 x)

/-- The CRC field check: the 8 bytes at the end of a string against the CRC-64 of the bytes before. -/
def crcOk (l : List Byte) (n : Nat) : Bool := leAt l n 8 = (crc64 (l.take n)).toNat

/-- ASCII text as bytes. -/
def ascii (t : String) : List Byte := t.toList.map fun c => BitVec.ofNat 8 c.toNat

end Sys2Proof.Machine
end

