-- ==== Sys2Proof/Machine/Types.lean ====
section
/-!
DEFINITION. The small records and name sets that commands carry and State holds alike: locators,
capsules, frames, media commands and their outcomes, and the layouts the manual gives them.
-/

namespace Sys2Proof.Machine

/-- The number of a storage domain: 0 Domain A, 1 Domain B (the SD bit of every format). -/
def SD.num : SD → Nat
  | .a => 0
  | .b => 1

/-- The storage domain an SD bit names. -/
def SD.ofBit (n : Nat) : SD := if n % 2 = 1 then .b else .a

/-- The other storage domain. -/
def SD.other : SD → SD
  | .a => .b
  | .b => .a

/-- The number of a block (R344). -/
def Blk.num : Blk → Nat
  | .top => 0 | .pwr => 1 | .mbx => 2 | .evr => 3 | .scr => 4 | .dig => 5 | .dp => 6 | .map => 7
  | .med => 8 | .str => 9 | .mlk => 10 | .fe => 11 | .rdm => 12 | .ubl => 13 | .cip => 14

/-- The fifteen blocks in index order. -/
def Blk.all : List Blk :=
  [.top, .pwr, .mbx, .evr, .scr, .dig, .dp, .map, .med, .str, .mlk, .fe, .rdm, .ubl, .cip]

/-- An NVMe completion status: status code type and status code. -/
structure Status where
  sct : Nat
  sc : Nat
  deriving DecidableEq, Repr

/-- The 48-bit stored-granule locator, LOC (Table 06.1). -/
structure Loc where
  /-- Domain segment number, bits [47:24]. -/
  seg : Nat
  /-- Pack index in the segment, bits [23:12]. -/
  pidx : Nat
  /-- Offset in units of 16 B, bits [11:0]. -/
  off : Nat
  deriving DecidableEq, Repr

/-- LOC as a 48-bit number (Table 06.1). -/
def Loc.num (l : Loc) : Nat := l.seg * 2 ^ 24 + l.pidx * 2 ^ 12 + l.off

/-- LOC from its 48-bit number. -/
def Loc.ofNum (n : Nat) : Loc := ⟨bitsOf n 47 24, bitsOf n 23 12, bitsOf n 11 0⟩

/-- The domain pack number, LOC bits [47:12] (R134). -/
def Loc.pack (l : Loc) : Nat := l.seg * 2 ^ 12 + l.pidx

/-- A host queue: the host controller and the queue identifier (0 is the admin queue). -/
structure QId where
  cntlid : Nat
  qid : Nat
  deriving DecidableEq, Repr

/-- A command capsule as it reaches FE: the 64 B submission queue entry and the in-capsule data (R255). -/
structure Capsule where
  q : QId
  sqe : List Byte
  data : List Byte
  /-- The 128-bit host identifier of the issuing host controller. -/
  hostId : Nat
  /-- Forwarded from the peer: the origin tag of Table 13.5. -/
  origin : Option Nat
  deriving DecidableEq, Repr

/-- CDW `n` of a submission queue entry. -/
def Capsule.cdw (c : Capsule) (n : Nat) : Nat := leAt c.sqe (4 * n) 4

/-- The opcode, CDW0 [7:0]. -/
def Capsule.op (c : Capsule) : Nat := bitsOf (c.cdw 0) 7 0

/-- The fused-operation field, CDW0 [9:8]. -/
def Capsule.fuse (c : Capsule) : Nat := bitsOf (c.cdw 0) 9 8

/-- The command identifier, CDW0 [31:16]. -/
def Capsule.cid (c : Capsule) : Nat := bitsOf (c.cdw 0) 31 16

/-- NSID. -/
def Capsule.nsid (c : Capsule) : Nat := c.cdw 1

/-- Starting logical block of a read or write. -/
def Capsule.slba (c : Capsule) : Nat := leAt c.sqe 40 8

/-- Number of logical blocks of a read or write (the field is 0's based). -/
def Capsule.nblk (c : Capsule) : Nat := bitsOf (c.cdw 12) 15 0 + 1

/-- PRACT, CDW12 bit 29. -/
def Capsule.pract (c : Capsule) : Bool := bitOf (c.cdw 12) 29

/-- PRCHK, CDW12 [28:26]. -/
def Capsule.prchk (c : Capsule) : Nat := bitsOf (c.cdw 12) 28 26

/-- DEAC of Write Zeroes, CDW12 bit 25. -/
def Capsule.deac (c : Capsule) : Bool := bitOf (c.cdw 12) 25

/-- The initial logical block reference tag, CDW14 (48-bit formats: with CDW3 [15:0] above it). -/
def Capsule.ilbrt (c : Capsule) (lbaf : Nat) : Nat :=
  if lbaf = 4 then c.cdw 14 + 2 ^ 32 * bitsOf (c.cdw 3) 15 0 else c.cdw 14

/-- A response capsule (R255): where it goes, the completion, and the data moved to the host. -/
structure Response where
  q : QId
  cid : Nat
  status : Status
  dw0 : Nat
  data : List Byte
  /-- Sent with Send with Invalidate (keyed SGL sub type 0xF). -/
  inval : Bool
  deriving DecidableEq, Repr

/-- The mirror frame of Table 13.4. -/
structure MFrame where
  /-- FTYPE 0x02: a release frame. -/
  release : Bool
  sd : SD
  epoch16 : Nat
  mseq : Word
  offset : Nat
  data : List Byte
  /-- MHDR where the trailer's MARKER is set. -/
  mhdr : Option Nat
  deriving DecidableEq, Repr

/-- The frame header and data bytes that CHECK covers (Table 13.4). -/
def MFrame.body (f : MFrame) : List Byte :=
  [if f.release then 2 else 1, BitVec.ofNat 8 f.sd.num] ++ leBytes 2 f.epoch16 ++
  leBytes 4 f.mseq.toNat ++ leBytes 8 f.offset ++ leBytes 4 f.data.length ++ zeros 12 ++ f.data

/-- CHECK of Table 13.4. -/
def MFrame.check (f : MFrame) : DWord := crc64 f.body

/-- The whole frame: header, data and trailer (Table 13.4). -/
def MFrame.bytes (f : MFrame) : List Byte :=
  f.body ++ [if f.mhdr.isSome then 1 else 0] ++ zeros 7 ++ leBytes 8 (f.mhdr.getD 0) ++
  leBytes 8 f.check.toNat ++ zeros 8

/-- Media command opcodes (Table 09.1) and the admin commands of R214. -/
inductive MOp where
  | read | program | erase | fold | fence | descr | temp
  | admin  -- an admin command of R214
  deriving DecidableEq, Repr

/-- The opcode of a media command (Table 09.1); an admin command's is not of that table. -/
def MOp.code : MOp → Nat
  | .read => 0x92 | .program => 0x95 | .erase => 0x98 | .fold => 0x9A | .fence => 0x9C | .descr => 0x9E | .temp => 0xA0
  | .admin => 0x09

/-- The data length of a media command (Table 09.1). -/
def MOp.dataLen : MOp → Nat
  | .read | .program => 66048
  | .fold => 16
  | .descr => 4096
  | .erase | .fence | .temp | .admin => 0

/-- Outcome codes of media commands (Table 09.4, R222): success, the status codes of type 0x7, the
protocol class, the transport class, and a time out. -/
inductive MSt where
  | ok | erased | uncorrectable | staleOwner | notOwner | domainMismatch | programFailed | eraseFailed
  | foldFailed | notErased | fenced | layerMismatch | range
  | invalidField | invalidOpcode | sequence   -- Invalid Field, Invalid Command Opcode, Command Sequence Error
  | transfer | internal                       -- Data Transfer Error, Internal Error
  deriving DecidableEq, Repr

/-- Classes of Table 09.4. -/
inductive MClass where
  | success | media | owner | write | protocol | transport
  deriving DecidableEq, Repr

/-- The class of a status (Table 09.4, R222). -/
def MSt.cls : MSt → MClass
  | .ok => .success
  | .erased | .uncorrectable => .media
  | .staleOwner | .notOwner | .domainMismatch | .fenced => .owner
  | .programFailed | .eraseFailed | .foldFailed | .notErased => .write
  | .layerMismatch | .range | .invalidField | .invalidOpcode | .sequence => .protocol
  | .transfer | .internal => .transport

/-- The status code of Table 09.4 (0 for a status of another type). -/
def MSt.code : MSt → Nat
  | .erased => 0xD0 | .uncorrectable => 0xD1 | .staleOwner => 0xD2 | .notOwner => 0xD3
  | .domainMismatch => 0xD4 | .programFailed => 0xD5 | .eraseFailed => 0xD6 | .foldFailed => 0xD7
  | .notErased => 0xD8 | .fenced => 0xD9 | .layerMismatch => 0xDA | .range => 0xDB
  | .ok | .invalidField | .invalidOpcode | .sequence | .transfer | .internal => 0

/-- The DOM field of CDW3 (Table 09.1). -/
inductive Dom where
  | sd (d : SD)
  | vault
  deriving DecidableEq, Repr

/-- DOM as a two-bit number: 0b00, 0b01, 0b11. -/
def Dom.num : Dom → Nat
  | .sd d => d.num
  | .vault => 3

/-- What the controller issued a media command for. -/
inductive Why where
  | fetch (id : Nat)                   -- a pack read for the read buffer entry `id`
  | slot (stripe row pos : Nat)        -- a pack, fill or parity program of a stripe row
  | erase                              -- an erase of a pending segment
  | fold (stripe pos : Nat)            -- a fold of a stripe member (R172)
  | fence (d : SD)                     -- an Owner Fence (R229)
  | descr                              -- the descriptor read of admission (R226)
  | temp                               -- a temperature poll (R181)
  | vault                              -- a vault or snag-log image
  | admin                              -- an admin command
  deriving DecidableEq, Repr

/-- A media command (Tables 09.1, 09.2). -/
structure MCmd where
  port : Nat
  op : MOp
  dom : Dom
  oepoch : Word
  pseg : Nat
  pidx : Nat
  finish : Bool
  soft : Bool
  rset : Nat
  offs : List Byte
  tpseg : Nat
  image : List Byte
  why : Why
  /-- CDW0 opcode and CDW1 NSID. -/
  opcode : Nat
  nsid : Nat
  /-- What the reserved bits of the command hold; a DOM of 0b10 counts among them. -/
  rsvd : Nat
  /-- Bytes that the data descriptor names. -/
  len : Nat
  deriving DecidableEq, Repr

/-- A media command's completion: status, DW0 and returned data. -/
structure MRes where
  st : MSt
  dw0 : Nat
  data : List Byte
  deriving DecidableEq, Repr

/-- Who sent the media command a module executes: this controller, by a place in MLK's list of outstanding commands or, where MLK
has retired its identifier, in the list of those (R223); or the peer, over the module's other port (R214). -/
inductive MSrc where
  | own (i : Nat)
  | late (i : Nat)
  | peer (c : MCmd)
  deriving DecidableEq, Repr

/-- How far a command that fetches an offload descriptor takes the message: to its end, or only until its stream is bound, from where
the cycles of the shared pool run it (R233); and whether its write to head memory succeeds. -/
structure OffRun where
  whole : Bool
  dstOk : Bool
  deriving DecidableEq, Repr

/-- Why a module was refused at admission: CAUSE of R226 (0 none). -/
abbrev Cause := Nat

/-- The stages a granule read can fail at, and its success. -/
inductive GOut where
  | good (bytes : List Byte)
  | format
  | check
  deriving DecidableEq, Repr

end Sys2Proof.Machine
end

