-- ==== Sys2Proof/Machine/MetaState.lean ====
section
/-!
DEFINITION. The metadata of one storage domain: root table, map pages, reference records, segment and
stripe tables, loss map, full index, reservations and cursors; and the deltas that change them.
-/

namespace Sys2Proof.Machine

/-- The root record (Table 06.4); its key in the root table is ROOT. -/
structure RootRec where
  /-- KIND: 0 volume, 1 snapshot, 2 clone. -/
  kind : Nat
  isSealed : Bool
  deleting : Bool
  kdom : Nat
  depth : Nat
  /-- MPID of the top directory page. -/
  top : Nat
  parent : Option Nat
  /-- Size in granules. -/
  size : Nat
  /-- POINT, the snapshot point. -/
  point : Nat
  createEpoch : DWord
  deriving DecidableEq, Repr

/-- A map page of any level (R139, R141): LEVEL, SHARE and the entries that are not zero. -/
structure Page where
  level : Nat
  share : Nat
  ents : Table DWord
  deriving DecidableEq, Repr

/-- STATE [1:0] of a reference record (Table 04.2). -/
inductive RefSt where
  | live | freePending | freed | lost
  deriving DecidableEq, Repr

/-- A reference record (Table 04.2) with its INDEX fields (Table 06.8). -/
structure RefRec where
  fp : List Byte
  count : Nat
  ddom : Nat
  st : RefSt
  fpBad : Bool
  sat : Bool
  /-- INDEX bit 3: stored raw. -/
  raw : Bool
  /-- The successor pack of a chained granule: domain pack number (SUCC). -/
  succ : Option Nat
  /-- Epoch in which COUNT last became 0 (R103). -/
  zeroAt : DWord
  /-- Stored bytes of the granule's stored form, fill included (used to find its end). -/
  size : Nat
  /-- A copy whose source's relocation has not ended (R174). -/
  copyOf : Option Nat
  deriving DecidableEq, Repr

/-- COUNT's limit (R102, R158). -/
def countMax : Nat := 0xFFFF0000

/-- A back-reference record (R159): the page, the entry index and the LOC named. -/
structure BackRef where
  mpid : Nat
  idx : Nat
  loc : Nat
  deriving DecidableEq, Repr

/-- A segment table entry (Table 07.1). -/
structure SegEnt where
  next : Option Nat
  port : Nat
  pseg : Nat
  deriving DecidableEq, Repr

/-- STATE [2:0] of a physical segment record (Table 07.2). -/
inductive PSegSt where
  | free | allocated | pendingErase | erasing | retired
  deriving DecidableEq, Repr

/-- A physical segment record (Table 07.2). The empty stamp has TMIN 127 and TMAX −128 (R164). -/
structure PSegRec where
  hour : Nat
  tmin : Int
  tmax : Int
  erases : Nat
  st : PSegSt
  finish : Bool
  sd : SD
  seg : Nat
  /-- The epoch of the change that made it pending-erase (Table 07.3). -/
  changed : DWord
  deriving DecidableEq, Repr

/-- A physical segment after an erase, or at first admission (R164). -/
def PSegRec.fresh (finish : Bool) : PSegRec := ⟨0, 127, -128, 0, .free, finish, .a, 0, 0⟩

/-- The stamp is the empty stamp (R164). -/
def PSegRec.empty (p : PSegRec) : Bool := p.tmin = 127 ∧ p.tmax = -128

/-- STATE of a stripe record (Table 08.1). -/
inductive StripeSt where
  | formed | opened | closed | broken | freed
  deriving DecidableEq, Repr

/-- A stripe record (Table 08.1). -/
structure Stripe where
  k : Nat
  pq : Bool
  finish : Bool
  isMeta : Bool
  st : StripeSt
  gen : Nat
  /-- MISSING: member positions unavailable. -/
  missing : List Nat
  /-- ROWS written. -/
  rows : Nat
  /-- MEMBER: domain segment number of each position. -/
  members : List Nat
  /-- Data slots taken, successors among them, as row × 32 + data index (R169). -/
  used : List Nat
  /-- Place in the order of closure (R172). -/
  closedAt : Nat
  deriving DecidableEq, Repr

/-- Parity members p (R186). -/
def Stripe.p (t : Stripe) : Nat := if t.pq then 2 else 1

/-- Stripe width w (R186). -/
def Stripe.w (t : Stripe) : Nat := t.k + t.p

/-- A loss map entry (R207). -/
structure LossEnt where
  cause : Nat
  blocks : Nat
  epoch : DWord
  deriving DecidableEq, Repr

/-- A registrant (R268). -/
structure Registrant where
  hostId : Nat
  key : Nat
  deriving DecidableEq, Repr

/-- The reservation state of a namespace (R268). -/
structure Resv where
  regs : List Registrant
  holder : Option Nat
  /-- Reservation type, 1 to 6 of NVMe. -/
  rtype : Nat
  ptpl : Bool
  /-- Generation of the registrant list. -/
  gen : Nat
  deriving DecidableEq, Repr

/-- No registrant and no reservation. -/
def Resv.none : Resv := ⟨[], Option.none, 0, false, 0⟩

/-- A shape of a storage domain (R186). -/
structure Shape where
  pq : Bool
  k : Nat
  gen : Nat
  deriving DecidableEq, Repr

/-- A cursor of a background pass: three numbers named by the rule that uses it. -/
structure Cursor where
  x : Nat
  y : Nat
  z : Nat
  deriving DecidableEq, Repr

/-- The progress record of a Format NVM or Sanitize (Table 11.9). -/
structure Progress where
  op : Nat
  action : Nat
  phase : Nat
  lbaf : Nat
  nsid : Nat
  cntlid : Nat
  prog : Nat
  startEpoch : DWord
  cursor : Nat
  /-- CID and queue of the command to complete (Format NVM). -/
  cid : Nat
  deriving DecidableEq, Repr

/-- A namespace (R262, R263). -/
structure Namespace where
  root : Nat
  sd : SD
  kdom : Nat
  lbaf : Nat
  /-- Fast acknowledgement (R50). -/
  fast : Bool
  apptag : Nat
  qos : Option Nat
  /-- Host controllers, by CNTLID, that the namespace is attached to. -/
  attached : List Nat
  /-- The wrapped identity head software gave (NS_CREATE operands kept for ROOT_LIST and Identify). -/
  uuid : List Byte
  deriving DecidableEq, Repr

/-- Dedup mode (R91). -/
inductive DMode where
  | off | on | verify
  deriving DecidableEq, Repr

/-- A key domain: dedup mode and fingerprint key (R91, R94), current slot and state. -/
structure KDom where
  mode : DMode
  modeNext : Option DMode
  fpKey : List Byte
  /-- Current at-rest slot, global number (R239). -/
  slot : Nat
  /-- Old slots still named by live packs (R239). -/
  oldSlots : List Nat
  deriving DecidableEq, Repr

/-- A replication record (Table 12.4) with its data. -/
structure Rec where
  rtype : Nat
  last : Bool
  nblk : Nat
  root : Nat
  stamp : Nat
  slba : Nat
  set : Nat
  data : List Byte
  deriving DecidableEq, Repr

/-- A replication attachment (R297 to R303). -/
structure Attach where
  /-- This array is the source. -/
  source : Bool
  sd : SD
  /-- The group: root numbers by group index. -/
  roots : List Nat
  sync : Bool
  /-- The loss policy is DEGRADE (R301). -/
  degrade : Bool
  slot : Nat
  /-- Identity of the other array. -/
  array : List Byte
  qp : Nat
  /-- Number of the set being filled. -/
  set : Nat
  /-- Sets cut and not acknowledged by the target: number and cut stamp. -/
  cuts : List (Nat × Nat)
  /-- Epochs since the last cut, and the last stamp of the domain at the last boundary. -/
  age : Nat
  mark : Nat
  /-- REPL_INTERVAL in epochs, REPL_BACKLOG in 1/256 of the dust sheet, REPL_SYNC_TIMEOUT in ms. -/
  interval : Nat
  backlog : Nat
  syncTo : Nat
  /-- Highest stamp shipped, and highest that a persistence FLUSH response covers. -/
  shipped : Nat
  durable : Nat
  /-- Last set acknowledged by the target, and its cut. -/
  acked : Nat × Nat
  /-- Snapshots of the group taken at cuts, oldest first: set and snapshot roots. -/
  snaps : List (Nat × List Nat)
  /-- A resync whose set has not been shipped (R302). -/
  resync : Bool
  /-- Next MSN of a message. -/
  msn : Nat
  /-- Target: last stamp applied by group index; records of the command being gathered; control word. -/
  applied : Table Nat
  gather : List Rec
  word : Nat
  /-- Target: the range of its window in the landing area, base and length. -/
  win : Nat × Nat
  detached : Bool
  deriving DecidableEq, Repr

/-- An attachment whose queue pairs are to be re-established (R303): no INDEX is 65,536; shipping resumes from the last acknowledged cut,
and the target gathers a command's records anew. -/
def noQp : Nat := 65536
def Attach.moved (a : Attach) : Attach := { a with qp := noQp, shipped := if a.source then a.acked.2 else a.shipped, gather := [] }

/-- A recorded request (R373): RID, opcode and response. -/
structure RidRec where
  rid : Nat
  sd : Option SD
  op : Nat
  resp : List Byte
  /-- Digest of the parameters. -/
  params : List Byte
  deriving DecidableEq, Repr

/-- A valid entry of a full-index page: DDOM above F, and LOC (R104). -/
structure FullEnt where
  key : Nat
  loc : Nat
  deriving DecidableEq, Repr

/-- An index page: its entries, none where VALID is 0, and the overflow page its last entry names (R104). -/
structure IdxPage where
  ents : List (Option FullEnt)
  next : Option Nat
  deriving DecidableEq, Repr

/-- The metadata of one storage domain. -/
structure Meta where
  roots : Table RootRec
  pages : Table Page
  /-- The next MPID; MPIDs are never reused (R141). -/
  nextMpid : Nat
  /-- Reference records by LOC (R101, R157). -/
  refs : Table RefRec
  /-- Back-reference logs by domain segment number, oldest first (R159). -/
  backlog : Table (List BackRef)
  segs : Table SegEnt
  stripes : Table Stripe
  /-- The next stripe number; never reused (R187). -/
  nextStripe : Nat
  loss : Table LossEnt
  /-- The full index (R104): its pages by number, and P, the number of pages that F_LO selects from. -/
  idx : Table IdxPage
  idxP : Nat
  /-- The deleted root for which a page with SHARE 0 is freed (R156). -/
  freeing : Table Nat
  /-- The flash location of pages, by MPID (R141): domain pack number × 16 + place in the metadata pack. -/
  locs : Table Nat
  resv : Table Resv
  shape : Shape
  /-- The shape that RECOAT_START has set, until the boundary at which it takes effect (R210). -/
  shapeNext : Option Shape
  /-- Highest SLOT_EPOCH used, by key domain (R244). -/
  slotEpochs : Table Nat
  /-- Out of service: a metadata slot was lost (R209). -/
  lost : Bool
  rebuild : Cursor
  gc : Cursor
  coat : Cursor
  recoat : Cursor
  /-- The next place in the order of closure (R172). -/
  nextClose : Nat
  /-- The namespaces of the domain (R262), its attachments as the epoch state keeps them (R303), its recorded requests
  (R373), its progress record (R274) and the stamp high-water mark (R42). -/
  ns : Table Namespace
  atts : Table Attach
  rids : List RidRec
  prog : Option Progress
  stampHi : Nat
  /-- Granules of accepted units whose deltas were not recorded when the log was sealed: stamp, unit and granule (R50, R58). -/
  opens : List (Nat × Nat × Nat)
  deriving DecidableEq, Repr

/-- A domain before commissioning. The shape is a value ARRAY_COMMISSION replaces (assumption 11). -/
def Meta.empty : Meta where
  roots := []
  pages := []
  nextMpid := 0
  refs := []
  backlog := []
  segs := []
  stripes := []
  nextStripe := 0
  loss := []
  idx := []
  idxP := 0
  freeing := []
  locs := []
  resv := []
  shape := ⟨false, 4, 0⟩
  shapeNext := none
  slotEpochs := []
  lost := false
  rebuild := ⟨0, 0, 0⟩
  gc := ⟨0, 0, 0⟩
  coat := ⟨0, 0, 0⟩
  recoat := ⟨0, 0, 0⟩
  nextClose := 0
  ns := []
  atts := []
  rids := []
  prog := none
  stampHi := 0
  opens := []

/-- A metadata delta (R34, R161): one structure takes a new value, or leaves its table. -/
inductive Delta where
  | root (id : Nat) (v : Option RootRec)
  | page (mpid : Nat) (v : Option Page)
  | pageAt (mpid : Nat) (v : Option Nat)        -- the flash location of a page (R141)
  | freeing (mpid : Nat) (v : Option Nat)       -- a page is freed for a deleted root (R156)
  | entry (mpid idx : Nat) (v : DWord)          -- one entry of a page
  | mpidNext (n : Nat)
  | ref (loc : Nat) (v : Option RefRec)
  | back (seg : Nat) (r : BackRef)              -- a record appended to a back-reference log
  | backDrop (seg : Nat)                        -- a log dropped with its freed segment
  | seg (n : Nat) (v : Option SegEnt)
  | pseg (port pseg : Nat) (v : PSegRec)
  | stripe (n : Nat) (v : Option Stripe)
  | stripeNext (n : Nat)
  | loss (loc : Nat) (v : Option LossEnt)
  | full (key : Nat) (v : Option Nat)           -- insert, move or invalidate a full-index entry (R104)
  | fullDrop (key : Nat)                        -- a dropped insert (R99, R104)
  | idxPages (n : Nat)                          -- P of the full index (R104)
  | resv (nsid : Nat) (v : Resv)
  | shape (v : Shape)                           -- in force from here on (R210)
  | shapeNext (v : Shape)                       -- in force from the next boundary on (R210)
  | slotEpoch (kdom n : Nat)
  | lost (v : Bool)
  | cursor (which : Nat) (v : Cursor)           -- 0 rebuild, 1 garbage collection, 2 second coat, 3 recoat
  | closeNext (n : Nat)
  | progress (v : Option Progress)              -- the progress record of R274
  | stamp (n : DWord)                           -- the highest stamp issued (R42)
  | opens (l : List (Nat × Nat × Nat))          -- granules accepted and not recorded at the seal (R50, R58)
  | ns (nsid : Nat) (v : Option Namespace)
  | attach (id : Nat) (v : Option Attach)
  | rid (r : RidRec)                            -- a recorded request (R373)
  | owner (head : Nat) (oepoch : Word)          -- the ownership record (R442)
  deriving DecidableEq, Repr

/-- Set or remove a table's key. -/
def Table.setOpt {α : Type} (t : Table α) (n : Nat) : Option α → Table α
  | some v => Table.put t n v
  | none => Table.del t n

/-- Write one entry of a page; a zero entry is not listed. -/
def Page.setEnt (p : Page) (i : Nat) (v : DWord) : Page :=
  { p with ents := if v = 0 then Table.del p.ents i else Table.put p.ents i v }

/-- One entry of a page. -/
def Page.ent (p : Page) (i : Nat) : DWord := Table.getD p.ents i 0

/-! ### The full index (R104, R105) -/

/-- The index page that F_LO selects, as R96 with P in place of NB. -/
def Meta.idxHome (m : Meta) (key : Nat) : Nat := (key % 2 ^ 64) * m.idxP / 2 ^ 64

/-- A page and the overflow pages chained to it. -/
def Meta.idxChain (m : Meta) : Nat → Nat → List Nat
  | 0, _ => []
  | fuel + 1, n => n :: (match (Table.find m.idx n).bind (·.next) with
    | some k => m.idxChain fuel k
    | none => [])

/-- The pages in which a key can stand. -/
def Meta.idxPagesOf (m : Meta) (key : Nat) : List Nat := m.idxChain (m.idx.length + 1) (m.idxHome key)

/-- An index page. -/
def Meta.idxPage (m : Meta) (n : Nat) : IdxPage := Table.getD m.idx n ⟨[], none⟩

/-- The LOC that the full index names for a key: its canonical copy (R105). -/
def Meta.fullAt (m : Meta) (key : Nat) : Option Nat :=
  (m.idxPagesOf key).findSome? fun n => (m.idxPage n).ents.findSome? fun e => e.bind fun x =>
    if x.key = key then some x.loc else none

/-- Entries of an index page; its last one names the overflow page where it has one. -/
def idxEnts : Nat := 128

/-- A page takes one more entry. -/
def IdxPage.room (p : IdxPage) : Bool :=
  p.ents.any (·.isNone) || decide (p.ents.length < (if p.next.isSome then idxEnts - 1 else idxEnts))

/-- Put an entry in the lowest place of a page that is free. -/
def IdxPage.add (p : IdxPage) (e : FullEnt) : IdxPage :=
  match p.ents.findIdx? (·.isNone) with
  | some i => { p with ents := p.ents.set i (some e) }
  | none => { p with ents := p.ents ++ [some e] }

/-- Insert, move or invalidate the entry of a key. A page that is full chains to a new overflow page: its last entry moves there
and names the page from then on. -/
def Meta.fullPut (m : Meta) (key : Nat) (v : Option Nat) : Meta :=
  let is (e : Option FullEnt) : Bool := e.any fun x => x.key = key
  let l := m.idxPagesOf key
  match l.find? (fun n => (m.idxPage n).ents.any is), v with
  | some n, _ =>
    let p := m.idxPage n
    { m with idx := Table.put m.idx n { p with ents := p.ents.map fun e => if is e then v.map (FullEnt.mk key) else e } }
  | none, none => m
  | none, some loc =>
    match l.find? fun n => (m.idxPage n).room with
    | some n => { m with idx := Table.put m.idx n ((m.idxPage n).add ⟨key, loc⟩) }
    | none =>
      let n := l.getLastD (m.idxHome key)
      let p := m.idxPage n
      let k := m.idx.foldl (fun a x => max a (x.1 + 1)) m.idxP
      { m with idx := Table.put (Table.put m.idx n ⟨p.ents.dropLast, some k⟩) k ⟨[p.ents.getLastD none, some ⟨key, loc⟩], none⟩ }

/-- What a full-index delta does to the index pages; a dropped insert changes nothing (R104). -/
def Meta.applyFull (m : Meta) : Delta → Meta
  | .full k v => m.fullPut k v
  | _ => m

/-- What a delta does to the metadata of its domain. Full-index deltas are applied to the index pages in
the background (R104), by `Meta.applyFull`. -/
def Meta.apply (m : Meta) : Delta → Meta
  | .root id v => { m with roots := Table.setOpt m.roots id v }
  | .page id v => { m with pages := Table.setOpt m.pages id v }
  | .pageAt id v => { m with locs := Table.setOpt m.locs id v }
  | .freeing id v => { m with freeing := Table.setOpt m.freeing id v }
  | .entry id i v => { m with pages := Table.upd m.pages id (fun p => p.setEnt i v) }
  | .mpidNext n => { m with nextMpid := n }
  | .ref l v => { m with refs := Table.setOpt m.refs l v }
  | .back g r => { m with backlog := Table.put m.backlog g (Table.getD m.backlog g [] ++ [r]) }
  | .backDrop g => { m with backlog := Table.del m.backlog g }
  | .seg n v => { m with segs := Table.setOpt m.segs n v }
  | .pseg _ _ _ => m
  | .stripe n v => { m with stripes := Table.setOpt m.stripes n v }
  | .stripeNext n => { m with nextStripe := n }
  | .loss l v => { m with loss := Table.setOpt m.loss l v }
  | .full _ _ => m
  | .fullDrop _ => m
  | .idxPages n => { m with idxP := n }
  | .resv n v => { m with resv := Table.put m.resv n v }
  | .shape v => { m with shape := v, shapeNext := none }
  | .shapeNext v => { m with shapeNext := some v }
  | .slotEpoch k n => { m with slotEpochs := Table.put m.slotEpochs k n }
  | .lost v => { m with lost := v }
  | .cursor w v =>
    match w with
    | 0 => { m with rebuild := v }
    | 1 => { m with gc := v }
    | 2 => { m with coat := v }
    | _ => { m with recoat := v }
  | .closeNext n => { m with nextClose := n }
  | .progress v => { m with prog := v }
  | .stamp n => { m with stampHi := n.toNat }
  | .opens l => { m with opens := l }
  | .ns n v => { m with ns := Table.setOpt m.ns n v }
  | .attach n v => { m with atts := Table.setOpt m.atts n v }
  | .rid r => { m with rids := let l := m.rids ++ [r]; l.drop (l.length - 4096) }
  | .owner _ _ => m

/-- What a delta does where nothing is left to the background: on flash, at a restart and in the peer's shadow (R104, R161, R316). -/
def Meta.applyAll (m : Meta) (x : Delta) : Meta := (m.apply x).applyFull x

/-- A sealed or current delta log: its epoch, the owner epoch it was written under (R444), and its
deltas in order. -/
structure DLog where
  epoch : DWord
  oepoch : Word
  deltas : List Delta
  deriving DecidableEq, Repr

end Sys2Proof.Machine
end

