-- ==== Sys2Proof/Machine/DataState.lean ====
section
/-!
DEFINITION. The state of the datapath blocks: FE, DP, MAP, MED, STR, MLK with its modules, and CIP.
-/

namespace Sys2Proof.Machine

/-! ### FE -/

/-- An event of Table 11.7 kept or waiting: type, information and log page. -/
structure AEvent where
  etype : Nat
  info : Nat
  page : Nat
  deriving DecidableEq, Repr

/-- A host controller (R252) and what it keeps. -/
structure HostCtl where
  hostId : Nat
  /-- Keep alive timeout in units of 100 ms. -/
  kato : Nat
  discovery : Bool
  /-- CC, the controller configuration property. -/
  cc : Nat
  /-- Feature values set by Set Features, by feature identifier. -/
  feats : Table Nat
  /-- CIDs of outstanding Asynchronous Event Requests, oldest first. -/
  aers : List Nat
  /-- Events kept, one for each type and information pair (R271). -/
  kept : List AEvent
  /-- Page 0x04: the changed namespaces. -/
  changedNs : List Nat
  /-- Page 0x80: reservation notifications. -/
  resvLog : List (List Byte)
  /-- Page 0xC0: the latest 64 health entries of 16 B. -/
  healthLog : List (List Byte)
  /-- Page 0x01: the latest 64 error entries, newest first: CID, status. -/
  errLog : List (Nat × Status)
  /-- Aborts outstanding (ACL 3, R270). -/
  aborts : Nat
  /-- Media errors counted for page 0x02 (R258). -/
  mediaErrs : Nat
  deriving DecidableEq, Repr

/-- One NVMe queue of a host controller. -/
structure Queue where
  q : QId
  size : Nat
  /-- ACC: capsules accepted since creation, modulo 2^32 (R48). -/
  acc : Word
  /-- Capsules received since creation, modulo 2^32. -/
  received : Word
  /-- The queue pair context INDEX that carries it. -/
  qp : Nat
  /-- The queue pair is in the error state (R55). -/
  err : Bool
  deriving DecidableEq, Repr

/-- Data block size of an LBA format (Table 11.5). -/
def lbaData (lbaf : Nat) : Nat := if lbaf = 0 ∨ lbaf = 2 then 512 else 4096

/-- Metadata size of an LBA format (Table 11.5). -/
def lbaMeta (lbaf : Nat) : Nat := if lbaf = 2 ∨ lbaf = 3 then 8 else if lbaf = 4 then 16 else 0

/-- Logical blocks in a granule. -/
def blocksPer (lbaf : Nat) : Nat := 4096 / lbaData lbaf

/-- One atomic unit of an accepted write, Write Zeroes or deallocation (R53). -/
structure Unit where
  /-- UIDX. -/
  idx : Nat
  slba : Nat
  nblk : Nat
  /-- Offset of the entry header in the dust sheet. -/
  hdr : Nat
  /-- First data slot, in units of 4 KiB. -/
  slot : Nat
  /-- Past its data-complete point. -/
  complete : Bool
  /-- Abandoned without reaching it (R53, R55). -/
  abandoned : Bool
  /-- MSEQ of the mirror frame that carries its marker. -/
  mseq : Option Word
  /-- UBL has validated the peer's acknowledgement of that frame (R73). -/
  acked : Bool
  /-- Granules whose deltas are not recorded yet. -/
  left : Nat
  deriving DecidableEq, Repr

/-- An in-flight write table entry (R259): one per granule of an accepted write unit. -/
structure InFl where
  sd : SD
  stamp : Nat
  nsid : Nat
  unitIdx : Nat
  gran : Nat
  /-- First block of the granule that the write covers, and how many. -/
  blk : Nat
  nblk : Nat
  /-- The granule's dust-sheet slot. -/
  slot : Nat
  complete : Bool
  /-- ETYPE of the unit: 1 write, 2 Write Zeroes, 3 deallocation. -/
  etype : Nat
  /-- The landing check value of the granule's landed bytes (R75, R122). -/
  check : DWord
  deriving DecidableEq, Repr

/-- What a command's result is made of while it runs. -/
structure Cmd where
  sd : SD
  stamp : Nat
  cap : Capsule
  /-- The root of its namespace at acceptance. -/
  root : Option Nat
  /-- Units of a write, in order. -/
  units : List Unit
  /-- Host data received so far, in order. -/
  host : List Byte
  /-- Granule pieces landed so far. -/
  landed : Nat
  /-- Stamps taken in other domains by a command whose scope spans both (R48, R51). -/
  stamps : List (SD × Nat)
  /-- Forwarded parts not completed: origin tags. -/
  tags : List Nat
  /-- The command has passed its first presentation (R56, R260). -/
  started : Bool
  /-- Waiting at FE behind a lower-stamped unit (R260). -/
  held : Bool
  /-- Verified granules of a read: granule number and bytes. -/
  grans : Table (List Byte)
  /-- Blocks found unreadable. -/
  failed : Bool
  /-- The result, once it is decided. -/
  status : Option Status
  dw0 : Nat
  /-- Data for the host that is not read data. -/
  out : List Byte
  /-- The response has been posted, or dropped with its queue pair (R55). -/
  posted : Bool
  deriving DecidableEq, Repr

/-- A capsule not accepted yet, and the data it needs before it is stamped: a fence list (R47) or the parameters of a reservation
command (R44). -/
structure Waiting where
  cap : Capsule
  /-- The epoch in which it arrived. -/
  epoch : DWord
  /-- What has been fetched for it, and whether its RDMA READ has been posted. -/
  data : List Byte
  asked : Bool
  deriving DecidableEq, Repr

/-- A fence that waits for its fence point or for its before set (R48). -/
structure Fence where
  cap : Capsule
  /-- The entries (SQID, SUBC). -/
  ents : List (Nat × Word)
  /-- The stamps taken at the fence point, by domain; none before it. -/
  point : Option (List (SD × Nat))
  /-- Commands of the queue that follow it were released early (R49). -/
  lost : Bool
  deriving DecidableEq, Repr

/-- A command forwarded to the owner and not completed (R317). -/
structure Fwd where
  tag : Nat
  cap : Capsule
  sd : SD
  /-- Host data of a read moved so far. -/
  data : List Byte
  /-- CID and queue of an Abort that waits for the owner's answer (R270). -/
  abort : Option (QId × Nat)
  deriving DecidableEq, Repr

/-- FE. -/
structure FeState where
  /-- The last stamp issued, by domain (R42, R259). -/
  stamp : PerSD DWord
  hosts : Table HostCtl
  queues : List Queue
  ns : Table Namespace
  waiting : List Waiting
  cmds : List Cmd
  inflight : List InFl
  fences : List Fence
  fwd : List Fwd
  nextTag : Nat
  /-- Commands held for a domain in a handover or service gap (R58, R328). -/
  gap : PerSD Bool
  /-- The open progress record (R274). -/
  progress : Option Progress
  /-- The record is one the peer runs; the peer has done its part of the present phase (R273, R274). -/
  recordPeer : Bool
  peerDone : Bool
  /-- Page 0x81: the last Sanitize: SSTAT and progress. -/
  sanitize : Nat × Nat
  /-- CHGCNT of the ANA log page (R267). -/
  anaCount : DWord
  /-- The NQN of the subsystem (R252), set at commissioning. -/
  nqn : List Byte
  responses : List Response
  deriving DecidableEq, Repr

/-! ### DP -/

/-- Where a granule's lookup stands. -/
inductive Look where
  | none | issued | hit (loc : Nat) | miss
  deriving DecidableEq, Repr

/-- A lane result (R68, R123). -/
inductive Lane where
  | stream (b : List Byte)
  | noGain
  deriving DecidableEq, Repr

/-- The packer's decision. -/
inductive Dec where
  | none | hit (loc : Nat) | zero | miss (loc : Nat) (succ : Option Nat)
  deriving DecidableEq, Repr

/-- A granule in the write side (R67 to R69). -/
structure Gran where
  sd : SD
  stamp : Nat
  unitIdx : Nat
  nsid : Nat
  root : Nat
  kdom : Nat
  gran : Nat
  /-- The dust-sheet slot, and whether the merge built it. -/
  slot : Nat
  merged : Bool
  /-- The granule's bytes; none while a partial granule waits for its merge. -/
  bytes : Option (List Byte)
  /-- Blocks unreadable at the merge (R67). -/
  bad : Nat
  mode : DMode
  /-- The order of entry g; the lane is g mod 8 (R68). -/
  lane : Nat
  fp : Option (List Byte)
  check : DWord
  result : Option Lane
  look : Look
  /-- Byte-verify outcome of a provisional hit (R74). -/
  verify : Option Bool
  dec : Dec
  /-- ETYPE 2 and 3 granules carry no data: the entry type they write. -/
  unmap : Option Nat
  /-- Its insert in the hot index, whose full-index delta goes with the map delta: whether the insert was dropped (R99, R104). -/
  indexed : Option Bool
  deriving DecidableEq, Repr

/-- A hot-index entry (Table 04.1). -/
structure HotEnt where
  tag : List Byte
  loc : Nat
  ddom : Nat
  valid : Bool
  sd : SD
  src : Bool
  insEpoch : Nat
  hits : Nat
  deriving DecidableEq, Repr

/-- A source entry of a journal record (Table 08.3). -/
structure Src where
  kind : Nat
  addr : Nat
  deriving DecidableEq, Repr

/-- A granule in an open pack: its LOC and the bytes it took. -/
structure PGran where
  off : Nat
  raw : Bool
  loc : Nat
  deriving DecidableEq, Repr

/-- A pack being filled or closed (R71, R126 to R129). -/
structure Pack where
  sd : SD
  kdom : Nat
  /-- A garbage-collection or recoat stream: placed in the finish layer. -/
  copy : Bool
  stripe : Nat
  row : Nat
  didx : Nat
  seg : Nat
  pidx : Nat
  opened : DWord
  body : List Byte
  rct : List (Nat × DWord)
  srcs : List Src
  chainOut : Bool
  finish : Bool
  deriving DecidableEq, Repr

/-- A delta of DP or of a background pass that waits at the Delta recording point (R69, R147). -/
inductive Pend where
  | gran (id : Nat)
  | relink (sd : SD) (root gran x c : Nat)
  deriving DecidableEq, Repr

/-- A pack fetch in an MLK read buffer, with the reads it serves (R77 to R82). -/
structure Fetch where
  sd : SD
  /-- Domain pack number. -/
  pack : Nat
  port : Nat
  pseg : Nat
  finish : Bool
  /-- A speculative read not confirmed yet (R80). -/
  spec : Bool
  /-- Cancelled, its pack still to be freed (R81). -/
  dropped : Bool
  /-- Held for a read buffer of its port (Table 03.3). -/
  queued : Bool
  /-- Ladder step of the current attempt (R182). -/
  step : Nat
  image : Option (List Byte)
  /-- A status held or failed with. -/
  st : Option MSt
  /-- Released to CIP (R81). -/
  released : Bool
  /-- Plaintext body and raw check table once the tag has verified (R77). -/
  plain : Option (List Byte × List Byte)
  /-- The reads served once it is authoritative: stamp and granule. -/
  users : List (Nat × Nat)
  deriving DecidableEq, Repr

/-- A read's granule on its way (R41): its authoritative entry once resolved. -/
structure RGran where
  sd : SD
  stamp : Nat
  gran : Nat
  root : Nat
  entry : Option DWord
  /-- The guessed fetch (R80). -/
  guess : Option Nat
  /-- Blocks taken from the dust sheet (R75). -/
  laid : List (Nat × List Byte)
  deriving DecidableEq, Repr

/-- DP. -/
structure DpState where
  kdoms : Table KDom
  grans : Table Gran
  nextGran : Nat
  /-- Granules entered since DP was enabled (R68). -/
  entered : Nat
  /-- Open packs, one for each stream. -/
  packs : List Pack
  closed : List Pack
  pend : List Pend
  fetches : Table Fetch
  nextFetch : Nat
  rgrans : List RGran
  /-- Hot index buckets that hold an entry (R96). -/
  hot : Table (List HotEnt)
  /-- NB of the hot index region (R96). -/
  nb : Nat
  /-- Full-index deltas not applied to pages yet, oldest first, with their domain (R104). -/
  fullQ : List (SD × Delta)
  /-- Second-coat credit left in this epoch (R110). -/
  coatLeft : Nat
  deriving DecidableEq, Repr

/-! ### MAP -/

/-- One way of a map cache set (R143 to R145). -/
structure Line where
  /-- (SD, MPID). -/
  tag : Option (SD × Nat)
  age : Nat
  /-- VALID and DIRTY of the 16 sectors, one bit each. -/
  valid : Nat
  dirty : Nat
  /-- The root of the most recent access, and the number of the leaf on its path (R152). -/
  seen : Option (Nat × Nat)
  deriving DecidableEq, Repr

/-- An eviction buffer entry (R146): the tag and the sectors it holds. -/
structure Evb where
  sd : SD
  mpid : Nat
  sectors : Nat
  deriving DecidableEq, Repr

/-- A way of the on-chip hint table: VALID, TAG, SD, BASE and CODES of Table 06.7, and its 2-bit AGE (R151). -/
structure Hint where
  valid : Bool
  tag : Nat
  sd : SD
  base : Nat
  codes : List Nat
  age : Nat
  deriving DecidableEq, Repr

/-- A set of the hint table at reset: way `i` has AGE `i` (assumption 11). -/
def resetHints : List Hint := (List.range 4).map fun i => ⟨false, 0, .a, 0, [], i⟩

/-- A set of the map cache at reset: way `i` has AGE `i` (assumption 11). -/
def resetSet : List Line := (List.range 12).map fun i => ⟨none, i, 0, 0, none⟩

/-- The place of the metadata key among the key domains, above the 256 of R89: Terzan keeps metadata packs under a key of their own,
which no command names (DESIGN CHOICE, assumption 108). -/
abbrev metaKdom : Nat := 256

/-- A checkpoint being written (R142, R161): the number of logs it covers, the pages still to be packed, and the metadata packs that
carry the others. -/
structure CkptWork where
  logs : Nat
  todo : List Nat
  packs : List Nat
  deriving DecidableEq, Repr

/-- MAP. -/
structure MapState where
  /-- Live metadata of both domains: what this controller holds of a domain it owns. -/
  live : PerSD Meta
  /-- The metadata on flash as of the last checkpoint (R161). -/
  flash : PerSD Meta
  /-- The physical segment records on flash (R162, R444). -/
  flashSeg : Table PSegRec
  ckpt : PerSD DWord
  /-- The delta log being written, and the sealed ones no checkpoint covers, oldest first. -/
  log : PerSD DLog
  logs : PerSD (List DLog)
  /-- The checkpoint in progress (R161). -/
  work : PerSD (Option CkptWork)
  /-- Pages in the HBM tier and in the DDR5 tier, oldest first, and the pages for which the DDR5 tier has room (R142). -/
  hbm : List (SD × Nat)
  ddr : List (SD × Nat)
  ddrCap : Nat
  sets : Table (List Line)
  walk : Table (Nat × Nat)
  evb : List Evb
  hints : Table (List Hint)
  /-- The HBM part of the hint table: entries of 16 B by index (R151). -/
  hbmHints : Table (List Byte)
  en : Bool
  wt : Bool
  invalidated : Bool
  /-- BUSY with an INVALIDATE (1) or FLUSH (2). -/
  busy : Nat
  lastOp : Nat
  refused : Bool
  reason : Nat
  deriving DecidableEq, Repr

/-! ### MED -/

/-- A buffered control register: the applied value and the values pending for the nearer and the later
boundary (R35, R353, R355). -/
structure Cfg where
  value : Half
  near : Option Half
  far : Option Half
  deriving DecidableEq, Repr

/-- The newest value: the pending one if there is one (R353). -/
def Cfg.newest (c : Cfg) : Half := (c.far <|> c.near).getD c.value

/-- A register at its reset value. -/
def Cfg.reset (v : Half) : Cfg := ⟨v, none, none⟩

/-- The open and the next stripe of a storage domain, layer and kind (R168). -/
structure Formed where
  sd : SD
  finish : Bool
  isMeta : Bool
  opened : Option Nat
  next : Option Nat
  deriving DecidableEq, Repr

/-- The last Media Temperature report (R181, R219). -/
structure Temps where
  hi : Int
  lo : Int
  ctl : Int
  deriving DecidableEq, Repr

/-- A garbage-collection victim (R173, R206): priority 0 broken stripes, 1 trowel fallbacks, 2 refresh,
3 wear levelling, 4 scored or recoat. -/
structure Victim where
  sd : SD
  stripe : Nat
  prio : Nat
  /-- Taken for recoat (R210). -/
  recoat : Bool
  /-- 0 queued, 1 being copied, 2 every granule copied. -/
  stage : Nat
  deriving DecidableEq, Repr

/-- A granule copied by garbage collection: source and copy (R174). -/
structure Copied where
  sd : SD
  src : Nat
  dst : Nat
  stripe : Nat
  /-- Relocation of the source has ended. -/
  done : Bool
  deriving DecidableEq, Repr

/-- A fold of one stripe member under way (R172). -/
structure Folding where
  sd : SD
  stripe : Nat
  pos : Nat
  port : Nat
  src : Nat
  dst : Nat
  /-- Failures so far of this member. -/
  fails : Nat
  /-- The fold report, once the fold has completed. -/
  report : Option (List Byte)
  deriving DecidableEq, Repr

/-- A substitution that is due (R171): the segment, its physical segment, and the images held in program staging. -/
structure Sub where
  sd : SD
  seg : Nat
  port : Nat
  pseg : Nat
  staged : List (Nat × List Byte)
  deriving DecidableEq, Repr

/-- A module serial the array configuration knows (R226, R275). -/
structure Serial where
  serial : List Byte
  vsegs : Nat
  ssegs : Nat
  /-- Marked for erase (R275). -/
  erase : Bool
  /-- The image recorded for the serial (R388): its version string FWSTR and the digest of the image. -/
  image : Option (List Byte × List Byte)
  deriving DecidableEq, Repr

/-- What Terzan keeps of one module for the health conditions (R184), with the RTC times of what it counts. -/
structure ModStats where
  /-- Authoritative reads of the last hour, and whether each needed step 1 of the ladder or a later one. -/
  reads : List (Nat × Bool)
  /-- Ladder failures of the last 48 hours. -/
  fails : List Nat
  /-- Erases of finish segments of the last 30 days. -/
  erases : List Nat
  /-- Since when the reports show a die temperature above the warning temperature. -/
  hot : Option Nat
  deriving DecidableEq, Repr

/-- Nothing counted yet. -/
def ModStats.empty : ModStats := ⟨[], [], [], none⟩

/-- MED. -/
structure MedState where
  /-- Physical segment records, keyed port × 2^20 + PSEG (Table 07.2). -/
  pseg : Table PSegRec
  /-- Pins: reads outstanding on a physical segment, same key (R70). -/
  pins : Table Nat
  /-- 32-bit read counts, same key (R179). -/
  reads : Table Nat
  formed : List Formed
  cards : Table (List Byte)
  /-- Card selectors by port (R180): bits [2:0] card, bit 8 VALID; a write applies at a commit epoch boundary. -/
  sels : Table Cfg
  temps : Table Temps
  victims : List Victim
  copied : List Copied
  folds : List Folding
  subs : List Sub
  /-- Packs of copy spent this epoch: garbage collection and recoat. -/
  gcSpent : Nat
  recoatSpent : Nat
  rebuildSpent : Nat
  /-- RTC time of the last wear-levelling victim, by port (R178). -/
  wearAt : Table Nat
  /-- Pending-erase segments whose wait has been counted (R167), by the key of `pseg`. -/
  deferred : List Nat
  /-- Health events raised, as (port, code), and the statistics they rest on, by port (R184). -/
  health : List (Nat × Nat)
  stats : Table ModStats
  serials : List Serial
  vsegs : Nat
  ssegs : Nat
  /-- Commissioned: there is an array configuration (R226). -/
  commissioned : Bool
  /-- RTC_UNSET already set since the always-on domain was powered (R165). -/
  rtcFallback : Bool
  /-- URGENT: free finish stripes computed at the last boundary (R176). -/
  freeStripes : PerSD Nat
  /-- The hold-up the board provides, in ms (R453). -/
  holdup : Nat
  deriving DecidableEq, Repr

/-! ### STR -/

/-- An accumulator (R190). -/
structure Row where
  sd : SD
  stripe : Nat
  row : Nat
  accP : List Byte
  accQ : List Byte
  /-- Data indexes folded, and member positions whose program completed. -/
  folded : List Nat
  done : List Nat
  parityIssued : Bool
  deriving DecidableEq, Repr

/-- A journal record (Table 08.2) with its source entries. -/
structure JRec where
  /-- TYPE: 1 PACK, 2 ROW_CLOSE, 3 META_PACK. -/
  typ : Nat
  chainOut : Bool
  stripe : Nat
  row : Nat
  didx : Nat
  slot : Nat
  nonce : List Byte
  tag : List Byte
  srcs : List Src
  epoch : DWord
  body : List Byte
  /-- Where the record begins in its ring. -/
  pos : Nat
  deriving DecidableEq, Repr

/-- A ROW_CLOSE record: the header alone (R192). -/
def rowClose (n row : Nat) (e : DWord) : JRec := ⟨2, false, n, row, 0, 0, [], [], [], e, [], 0⟩

/-- LEN of a journal record in bytes (Table 08.2). -/
def JRec.len (r : JRec) : Nat := 64 + 8 * r.srcs.length + r.body.length

/-- The record's bytes (Tables 08.2 and 08.3). -/
def JRec.bytes (r : JRec) : List Byte :=
  [BitVec.ofNat 8 r.typ, if r.chainOut then 1 else 0] ++ leBytes 2 (r.len / 8) ++ leBytes 4 r.stripe ++
  leBytes 2 r.row ++ [BitVec.ofNat 8 r.didx, 0] ++ leBytes 2 r.slot ++ fit r.nonce 12 ++ fit r.tag 16 ++
  leBytes 2 r.srcs.length ++ leBytes 6 r.epoch.toNat ++ zeros 14 ++
  r.srcs.flatMap (fun e => leBytes 8 (e.kind * 2 ^ 61 + e.addr)) ++ r.body

/-- STR. -/
structure StrState where
  rows : List Row
  /-- Journal records by domain, oldest first (R191). -/
  journal : PerSD (List JRec)
  /-- The ring size in bytes (R191). -/
  ring : Nat
  /-- Byte position in the ring of the next record, by domain. -/
  jpos : PerSD Nat
  deriving DecidableEq, Repr

/-! ### MLK and the modules -/

/-- A port of MLK (MLK_PORT_STATE_m) and where admission stands. -/
structure Port where
  /-- STATE: 0 empty, 1 admitting, 2 present, 3 absent, 4 failed, 5 refused. -/
  state : Nat
  cause : Nat
  rate : Nat
  width : Nat
  ownA : Bool
  ownB : Bool
  /-- The admission step reached (R226). -/
  step : Nat
  /-- Descriptor reads that failed in step 3. -/
  descrFails : Nat
  /-- RTC times of the latest command timeouts (R224). -/
  timeouts : List Nat
  /-- Power enable of the sideband (R215). -/
  power : Bool
  deriving DecidableEq, Repr

/-- A port with no module. -/
def Port.empty : Port := ⟨0, 0, 0, 0, false, false, 0, 0, [], false⟩

/-- A port whose admission begins: its module is powered through the sideband (R226 step 1). -/
def Port.admitting (p : Port) : Port := { Port.empty with state := 1, power := true, timeouts := p.timeouts }

/-- What a slot of a module holds: an image, or a torn slot in no defined state (R219). -/
inductive SlotSt where
  | image (b : List Byte)
  | torn
  deriving DecidableEq, Repr

/-- The module wired to a port (R214 to R229). -/
structure Module where
  /-- The 4,096 B descriptor (Table 09.5). -/
  desc : List Byte
  /-- VSEGS and SSEGS once a split is recorded (R218). -/
  split : Option (Nat × Nat)
  /-- Slots that are not erased, keyed PSEG × 4096 + PIDX. -/
  slots : Table SlotSt
  /-- Domain tags by PSEG (R220). -/
  tags : Table Dom
  oepoch : PerSD Word
  /-- OPORT: the head index of the owner's port (R227). -/
  oport : PerSD (Option Nat)
  temps : Temps
  /-- Firmware: the running version, and the image held in slot 2 (R410). -/
  fw : List Byte
  fwStaged : Option (List Byte)
  fwOld : Option (List Byte)
  /-- The dust-sheet partition of the vault region: the chunk of each group that lies here (R197). -/
  vault : Table (List Byte)
  deriving DecidableEq, Repr

/-- A media command that MLK has taken; its completion once it has one. -/
structure Out where
  cmd : MCmd
  res : Option MRes
  /-- Completed by MLK itself: the local FENCED outcome (R463), or a port out of service (R224). -/
  loc : Bool
  /-- The queue pair it has been submitted to: 0 admin, 1 to 8 I/O; none while it waits for an entry (R214). -/
  queue : Option Nat
  deriving DecidableEq, Repr

/-- MLK. -/
structure MlkState where
  ports : Table Port
  out : List Out
  /-- Commands whose identifiers have been retired while the module may still execute them (R223, R463). -/
  late : List MCmd
  /-- The controller has stopped issuing for the domain (R222). -/
  stopped : PerSD Bool
  mods : Table Module
  /-- Ports and outcomes of vault commands that completed, for the flush that waits for them. -/
  vaultRes : List (Nat × MSt)
  deriving DecidableEq, Repr

/-! ### CIP -/

/-- A key slot (R236, R240 to R245). -/
structure KSlot where
  /-- STATE: 0 empty, 1 loaded, 2 loaded with a rewrite pending, 3 zeroizing. -/
  state : Nat
  usage : Nat
  /-- KLEN: true is AES-256. -/
  klen : Bool
  /-- NPOL: true is DRBG policy. -/
  npol : Bool
  /-- The key register new streams bind, and the older one while streams hold it. -/
  key : List Byte
  oldKey : List Byte
  slotEpoch : Nat
  counter : Nat
  /-- The epoch whose copy or checkpoint makes SLOT_EPOCH safe; none once it is (R244). -/
  safeWait : Option DWord
  fixed : List Byte
  count : Nat
  draws : Nat
  deriving DecidableEq, Repr

/-- An empty slot. -/
def KSlot.empty : KSlot := ⟨0, 0, false, false, [], [], 0, 0, none, [], 0, 0⟩

/-- A user page (R249). -/
structure UPage where
  owner : Nat
  assigned : Bool
  sqBase : Nat
  sqSize : Nat
  cqBase : Nat
  cqSize : Nat
  sqTail : Nat
  sqHead : Nat
  cqHead : Nat
  cqTail : Nat
  phase : Bool
  intEn : Bool
  /-- PG_STATUS: SEQ and events as (bit, latest SEQ, aged). -/
  seq : Byte
  events : List (Nat × Byte × Bool)
  /-- Completions held while the completion ring is full, each with FLAGS.INT of its descriptor. -/
  heldCpl : List (Bool × List Byte)
  deriving DecidableEq, Repr

/-- A page that has never been assigned. -/
def UPage.empty : UPage :=
  ⟨0, false, 0, 0, 0, 0, 0, 0, 0, 0, false, false, 0, [], []⟩

/-- What an offload message ends with: reason, output, nonce, tag. -/
structure OffOut where
  reason : Nat
  out : List Byte
  nonce : List Byte
  tag : List Byte
  deriving DecidableEq, Repr

/-- A message in progress in the shared pool (R233, R240): what its descriptor says, the key it has bound, and its place. -/
structure Stream where
  page : Nat
  /-- Ring index of its descriptor, its destination and FLAGS.INT. -/
  didx : Nat
  dst : Nat
  int : Bool
  dstOk : Bool
  slot : Nat
  mode : Nat
  dec : Bool
  key : List Byte
  nonce : List Byte
  aad : List Byte
  tag : List Byte
  /-- Declared length, and what the source list gives beside it: more, or a read that failed. -/
  len : Nat
  long : Bool
  srcOk : Bool
  /-- Data not yet given to a core. -/
  todo : List Byte
  /-- Chaining value, counter block or tweak, GHASH accumulator, and bytes processed. -/
  chain : List Byte
  ctr : Nat
  ghash : Nat
  count : Nat
  /-- Output in the offload hold. -/
  out : List Byte
  /-- How the message has ended, until its completion is posted in ring order; none while it is bound. -/
  res : Option OffOut
  deriving DecidableEq, Repr

/-- CIP. -/
structure CipState where
  slots : Table KSlot
  pages : Table UPage
  /-- Drawn DRBG values ready, at most 64 (R245). -/
  ready : Nat
  /-- Zeroizes whose last step has not been reached: global slots (R241). -/
  zeroizing : List Nat
  /-- Bytes CIP wrote to head memory: address and data, oldest first. -/
  dma : List (Nat × List Byte)
  /-- The stream table, in the order of binding, with ended messages whose completion is not posted (R233). -/
  streams : List Stream
  /-- The place of the stream that had the last core position. -/
  turn : Nat
  deriving DecidableEq, Repr

end Sys2Proof.Machine
end

