-- ==== Sys2Proof/Machine/CtlState.lean ====
section
/-!
DEFINITION. The registers every block has (R348), the counters, and the state of TOP, EVR, MBX and UBL.
-/

namespace Sys2Proof.Machine

/-- The 32-bit read-only counters of Tables 03.11, 04.3, 05.10, 07.10, 08.6, 09.7, 10.5, 11.10, 12.5,
13.10, 14.7 and 20.4, in address order. -/
inductive Ctr where
  | evrMark | evrDropped | evrFlushes | scrSamples
  | scrMissed | scrSaturated | dpRaIssued | dpRaConfirmed
  | dpRaDropped | dpSpecDiscarded | dpDedupHits | dpDedupRefused
  | dpDedupZero | dpVerifyMismatch | dpCoatRelinked | dpNoGain
  | dpChained | dpDecodeFormat | dpDecodeCheck | medFoldsDone
  | medGcStripes | medGcPacks | medLadderSteps | medLadderFailed
  | medSubstituted | medEraseDeferred | strDegradedReads | strPacksRebuilt
  | strLossGranules | strRowsReplayed | strRecoatPacks | mlkTimeouts
  | mlkOwnerRejects | mlkFenced | mlkRetrains | mlkProtocol
  | feAccepted | feForwarded | feOverlapHolds | feSameqOverlap
  | feAbortCaught | fePiErrors | feResvConflict | rdmCtxMiss
  | rdmParked | rdmParkDropped | rdmStaleQpn | rdmErrDropped
  | rdmQpErrors | rdmScrimRetx | rdmCnpReceived | ublEpochHolds
  | ublMirrorMismatch | ublFlitRetry | ublRetrains | ublHbMisses
  | ublRehearsals | ublRehearsalPostponed | cipMsgDone | cipTagFail
  | cipLengthErr | cipZeroizeAbort | cipNonceExhausted | cipDrbgWait
  deriving DecidableEq, Repr

/-- The BAR0 address of a counter. -/
def Ctr.addr : Ctr → Nat
  | .evrMark => 0x00300108
  | .evrDropped => 0x00300110
  | .evrFlushes => 0x00300114
  | .scrSamples => 0x00400110
  | .scrMissed => 0x00400114
  | .scrSaturated => 0x00400118
  | .dpRaIssued => 0x00600110
  | .dpRaConfirmed => 0x00600114
  | .dpRaDropped => 0x00600118
  | .dpSpecDiscarded => 0x0060011C
  | .dpDedupHits => 0x00600130
  | .dpDedupRefused => 0x00600134
  | .dpDedupZero => 0x00600138
  | .dpVerifyMismatch => 0x0060013C
  | .dpCoatRelinked => 0x00600140
  | .dpNoGain => 0x00600150
  | .dpChained => 0x00600154
  | .dpDecodeFormat => 0x00600158
  | .dpDecodeCheck => 0x0060015C
  | .medFoldsDone => 0x00800110
  | .medGcStripes => 0x00800114
  | .medGcPacks => 0x00800118
  | .medLadderSteps => 0x0080011C
  | .medLadderFailed => 0x00800120
  | .medSubstituted => 0x00800124
  | .medEraseDeferred => 0x00800128
  | .strDegradedReads => 0x00900110
  | .strPacksRebuilt => 0x00900114
  | .strLossGranules => 0x00900118
  | .strRowsReplayed => 0x0090011C
  | .strRecoatPacks => 0x00900120
  | .mlkTimeouts => 0x00A00110
  | .mlkOwnerRejects => 0x00A00114
  | .mlkFenced => 0x00A00118
  | .mlkRetrains => 0x00A0011C
  | .mlkProtocol => 0x00A00120
  | .feAccepted => 0x00B00110
  | .feForwarded => 0x00B00114
  | .feOverlapHolds => 0x00B00118
  | .feSameqOverlap => 0x00B0011C
  | .feAbortCaught => 0x00B00120
  | .fePiErrors => 0x00B00124
  | .feResvConflict => 0x00B00128
  | .rdmCtxMiss => 0x00C00140
  | .rdmParked => 0x00C00144
  | .rdmParkDropped => 0x00C00148
  | .rdmStaleQpn => 0x00C0014C
  | .rdmErrDropped => 0x00C00150
  | .rdmQpErrors => 0x00C00154
  | .rdmScrimRetx => 0x00C00158
  | .rdmCnpReceived => 0x00C0015C
  | .ublEpochHolds => 0x00D00110
  | .ublMirrorMismatch => 0x00D00114
  | .ublFlitRetry => 0x00D00118
  | .ublRetrains => 0x00D0011C
  | .ublHbMisses => 0x00D00120
  | .ublRehearsals => 0x00D00124
  | .ublRehearsalPostponed => 0x00D00128
  | .cipMsgDone => 0x00E00110
  | .cipTagFail => 0x00E00114
  | .cipLengthErr => 0x00E00118
  | .cipZeroizeAbort => 0x00E0011C
  | .cipNonceExhausted => 0x00E00120
  | .cipDrbgWait => 0x00E00124

/-- Every counter, in address order. -/
def Ctr.all : List Ctr :=
  [.evrMark, .evrDropped, .evrFlushes, .scrSamples, .scrMissed,
   .scrSaturated, .dpRaIssued, .dpRaConfirmed, .dpRaDropped, .dpSpecDiscarded,
   .dpDedupHits, .dpDedupRefused, .dpDedupZero, .dpVerifyMismatch, .dpCoatRelinked,
   .dpNoGain, .dpChained, .dpDecodeFormat, .dpDecodeCheck, .medFoldsDone,
   .medGcStripes, .medGcPacks, .medLadderSteps, .medLadderFailed, .medSubstituted,
   .medEraseDeferred, .strDegradedReads, .strPacksRebuilt, .strLossGranules, .strRowsReplayed,
   .strRecoatPacks, .mlkTimeouts, .mlkOwnerRejects, .mlkFenced, .mlkRetrains,
   .mlkProtocol, .feAccepted, .feForwarded, .feOverlapHolds, .feSameqOverlap,
   .feAbortCaught, .fePiErrors, .feResvConflict, .rdmCtxMiss, .rdmParked,
   .rdmParkDropped, .rdmStaleQpn, .rdmErrDropped, .rdmQpErrors, .rdmScrimRetx,
   .rdmCnpReceived, .ublEpochHolds, .ublMirrorMismatch, .ublFlitRetry, .ublRetrains,
   .ublHbMisses, .ublRehearsals, .ublRehearsalPostponed, .cipMsgDone, .cipTagFail,
   .cipLengthErr, .cipZeroizeAbort, .cipNonceExhausted, .cipDrbgWait]

/-- An event bit of a STATUS register: its latest SEQ and whether it is aged (R356). -/
structure Event where
  bit : Nat
  seq : Byte
  aged : Bool
  deriving DecidableEq, Repr

/-- The common registers of one block (Table 15.3). -/
structure BlkSt where
  /-- ENABLE as it reads. -/
  enable : Bool
  /-- ENABLED. -/
  enabled : Bool
  draining : Bool
  /-- A datapath block just enabled accepts its first work at the next boundary (R360). -/
  waits : Bool
  checking : Bool
  refused : Bool
  reason : Nat
  holder : Nat
  /-- STYLE and IND_ADDR, banked by requester (R349). -/
  style : PerReq Nat
  indAddr : PerReq Nat
  pendingAt : Half
  appliedAt : Half
  seq : Byte
  events : List Event
  deriving DecidableEq, Repr

/-- A block after reset: disabled unless `on`. -/
def BlkSt.reset (on : Bool) : BlkSt :=
  ⟨on, on, false, false, false, false, 0, 0, ⟨0, 0⟩, ⟨0, 0⟩, 0, 0, 0, []⟩

/-- The buffered control registers of the datapath blocks and the cage modes (Table 15.4). -/
structure CfgRegs where
  dpSpec : Cfg
  dpCoat : Cfg
  medGc : Cfg
  medCredit : Cfg
  strRebuild : Cfg
  strRecoat : Cfg
  rdmCc : Cfg
  ublRehearse : Cfg
  cage : List Cfg
  deriving DecidableEq, Repr

/-- Reset values of the register headings. -/
def CfgRegs.reset : CfgRegs :=
  ⟨.reset 0x0400, .reset 0x0100, .reset 0x4B08, .reset 0x0040, .reset 0x0020, .reset 0x0010,
   .reset 0x8374, .reset 0x00A8, List.replicate 4 (.reset 0)⟩

/-- A claimable resource (TOP_CLAIM_r). -/
structure Claim where
  holder : Nat
  refusedId : Nat
  reason : Nat
  deriving DecidableEq, Repr

/-- A general timer (Table 15.8). -/
structure Timer where
  en : Bool
  periodic : Bool
  loadLo : Half
  loadHi : Half
  count : Word
  deriving DecidableEq, Repr

/-- The fabric's slot table (R26, R27): the reserved slots as (slot, source port, destination port), what replaces them at the next
boundary, the class of unreserved traffic served last at each destination port, and the half of the alignment period that the next
scr-cycle is. -/
structure Fabric where
  table : List (Nat × Nat × Nat)
  next : Option (List (Nat × Nat × Nat))
  turn : List Nat
  half : Bool
  /-- Enables of DP so far. -/
  plans : Nat
  deriving DecidableEq, Repr

/-- TOP. -/
structure TopState where
  epoch : DWord
  /-- The epoch timer runs (R32). -/
  running : Bool
  epochHi : PerReq Word
  /-- The dword that the bridge returned to the requester's last read. -/
  readData : PerReq Word
  intEn : Half
  violations : Word
  violLast : Word
  vaultPart : Half
  claims : List Claim
  timers : List Timer
  /-- FUNC of TOP_PINMUX_g. -/
  pinmux : List Nat
  /-- Bits [3:0] of the board record (R461). -/
  board : Nat
  /-- TOP_RESET_CAUSE. -/
  resetCause : Word
  /-- TOP_START_STATE: PHASE, FAILED, DUMP_PARTIAL, PEER_DECLARED (R441). -/
  phase : Nat
  failed : Bool
  /-- OWN_A and OWN_B: domains taken at phase 4. -/
  took : PerSD Bool
  dumpPartial : Bool
  peerDeclared : Bool
  /-- The head index the board straps (0 or 1). -/
  head : Nat
  fab : Fabric
  deriving DecidableEq, Repr

/-- A snag log record (Table 20.1). -/
structure Snag where
  rnum : Word
  epoch : DWord
  cycle : Nat
  source : Nat
  code : Nat
  rep : Nat
  lastDelta : Nat
  sd : Option SD
  port : Nat
  arg : List Byte
  deriving DecidableEq, Repr

/-- The record's 32 bytes (Table 20.1). -/
def Snag.bytes (r : Snag) : List Byte :=
  leBytes 4 r.rnum.toNat ++ leBytes 6 r.epoch.toNat ++ leBytes 3 r.cycle ++ leBytes 1 r.source ++
  leBytes 2 r.code ++ leBytes 2 r.rep ++ leBytes 2 r.lastDelta ++
  leBytes 1 (match r.sd with | none => 0 | some d => 2 + d.num) ++ leBytes 1 r.port ++ fit r.arg 10

/-- EVR. -/
structure EvrState where
  log : List Snag
  nextRnum : Word
  /-- Events in the input queue, oldest first, not entered yet (R429). -/
  inq : List Snag
  flushing : Bool
  /-- A CLEAR written with FLUSH, held until the flush ends (R432). -/
  heldClear : Bool
  /-- Header and records of the image being flushed, as frozen; its programs have been issued. -/
  image : List Byte
  issued : Bool
  /-- Flushes since the partition was formatted, and the place of the next image in it (R434): both follow from what the
  partition holds, so a reset keeps them. -/
  flushNum : Word
  used : Nat
  /-- The partition is being erased (R434). -/
  erasing : Bool
  /-- The image presented at 0x0010_0000 (R435). -/
  presented : List Byte
  deriving DecidableEq, Repr

/-- What a mailbox command that runs on waits for. -/
inductive WaitFor where
  /-- Every snapshot sealed (R155): POINT and the snapshot roots. -/
  | sealed (point : Nat) (roots : List Nat)
  /-- Every unit accepted for a root recorded or abandoned, before it is deleted (R156). -/
  | quiet (root : Nat)
  /-- The admission of a port (R226). -/
  | port (n : Nat)
  /-- The split of every module that waited for it (R226 step 4). -/
  | splits
  /-- The end of a slot's zeroize (R241). -/
  | slot (n : Nat)
  deriving DecidableEq, Repr

/-- A mailbox command that runs on: what it waits for, its domain, and the objects it holds (R376). -/
structure CmdWait where
  what : WaitFor
  sd : Option SD
  objs : List (Nat × Nat)
  deriving DecidableEq, Repr

/-- A mailbox channel (R366 to R371). -/
structure Chan where
  opcode : Half
  len : Nat
  /-- STATE: 0 IDLE, 1 BUSY, 2 DONE. -/
  state : Nat
  rseq : Byte
  taken : Byte
  intEn : Bool
  /-- Request area, page offsets 0x100 to 0x7FF, as written. -/
  req : List Byte
  /-- Request as taken at the doorbell. -/
  cur : List Byte
  /-- The two response banks. -/
  bank0 : List Byte
  bank1 : List Byte
  /-- The response of the request taken, once its command has made it and before it is posted. -/
  ready : Option (List Byte)
  /-- The opcode taken. -/
  op : Nat
  /-- What the command that runs waits for before it is answered, with the domain it acts on and the objects it holds. -/
  wait : Option CmdWait
  deriving DecidableEq, Repr

/-- A channel at reset. -/
def Chan.reset : Chan := ⟨0, 0, 0, 0, 0, false, [], [], [], [], none, 0, none⟩

/-- MBX. -/
structure MbxState where
  chans : Table Chan
  ntf : Table (List Byte)
  prod : Nat
  cons : Nat
  lost : Word
  ntfInt : Bool
  rids : List RidRec
  /-- Objects held by commands that run, as (kind, number) (R376). -/
  running : List (Nat × Nat)
  deriving DecidableEq, Repr

/-- A sealed epoch that awaits its acknowledgement (R37, R38, R315). -/
structure EpochWait where
  log : DLog
  mseqLast : Word
  digest : List Byte
  mismatches : Nat
  retrains : Nat
  /-- Sent; withheld epochs of a rehearsal are not (R329). -/
  sent : Bool
  deriving DecidableEq, Repr

/-- A dust-sheet entry (Table 13.3), keyed by the offset of its header. -/
structure Entry where
  etype : Nat
  sd : SD
  part : Bool
  fast : Bool
  uidx : Nat
  nsid : Nat
  stamp : Nat
  slba : Nat
  nblk : Nat
  data : Nat
  epoch : DWord
  marked : Bool
  /-- Data slots that follow the header. -/
  nslots : Nat
  /-- Epoch of the last delta recorded for the unit (R39 step 12). -/
  recAt : DWord
  deriving DecidableEq, Repr

/-- The header's 64 bytes (Table 13.3). -/
def Entry.bytes (e : Entry) : List Byte :=
  [BitVec.ofNat 8 e.etype, BitVec.ofNat 8 (e.sd.num + 2 * b2n e.part + 4 * b2n e.fast)] ++ leBytes 2 e.uidx ++
  leBytes 4 e.nsid ++ leBytes 8 e.stamp ++ leBytes 8 e.slba ++ leBytes 4 e.nblk ++ zeros 4 ++
  leBytes 8 e.data ++ leBytes 8 e.epoch.toNat ++ zeros 8 ++ leBytes 8 (if e.marked then e.stamp else 0)

/-- Read a header back; an entry type outside Table 13.3 is no header. -/
def Entry.ofBytes (b : List Byte) : Option Entry :=
  let t := leAt b 0 1
  if b.length = 64 ∧ (t = 1 ∨ t = 2 ∨ t = 3) then
    some ⟨t, SD.ofBit (leAt b 1 1), bitOf (leAt b 1 1) 1, bitOf (leAt b 1 1) 2, leAt b 2 2, leAt b 4 4,
      leAt b 8 8, leAt b 16 8, leAt b 24 4, leAt b 32 8, BitVec.ofNat 64 (leAt b 40 8),
      decide (leAt b 56 8 = leAt b 8 8 ∧ leAt b 8 8 ≠ 0), 0, 0⟩
  else none

/-- Outgoing mirror flow of one storage domain (R311, R312). -/
structure MTx where
  mseq : Word
  /-- Frames not acknowledged, in MSEQ order. -/
  unacked : List MFrame
  /-- CHECKs of the frames of each epoch not copied yet, by EPOCH16, in MSEQ order (R313). -/
  checks : Table (List DWord)
  deriving DecidableEq, Repr

/-- Incoming mirror flow of one storage domain (R311 to R313). -/
structure MRx where
  /-- MSEQ of the last frame written. -/
  mseq : Word
  /-- Offsets of entry headers received and not released. -/
  hdrs : List Nat
  /-- Journal records received and not overwritten: offset and length, oldest first. -/
  jour : List (Nat × Nat)
  checks : Table (List DWord)
  deriving DecidableEq, Repr

/-- A delta log of the peer's domain arriving in EPOCH frames. -/
structure ERx where
  log : Option DLog
  /-- EPOCH_END has arrived: the count of deltas and MSEQ_LAST. -/
  fin : Option (Nat × Word)
  deriving DecidableEq, Repr

/-- A flit in the replay buffer: FSEQ and how often it was replayed (R307). -/
structure Flit where
  fseq : Half
  replays : Nat
  deriving DecidableEq, Repr

/-- Heartbeat state of one path (R318, R320). -/
structure HbSt where
  hseqTx : Half
  hseqRx : Half
  /-- A valid frame arrived in this period. -/
  seen : Bool
  /-- Consecutive periods missed. -/
  misses : Nat
  deriving DecidableEq, Repr

/-- An arriving EPOCH frame: part of a delta log, with its end's count of deltas and MSEQ_LAST where it is EPOCH_END, or a
part of the shadow tables (R313, R327). -/
inductive EFrame where
  | log (epoch : DWord) (oepoch : Word) (part : List Delta) (fin : Option (Nat × Word))
  | shadow (m : Meta) (epoch : DWord)
  deriving DecidableEq, Repr

/-- A NAK of the peer: for a flit, naming the FSEQ it expects, or for a mirror frame that failed its CHECK (R307, R312). -/
inductive Nak where
  | flit (fseq : Half)
  | mirror (d : SD) (mseq : Word)
  deriving DecidableEq, Repr

/-- A frame sent to the peer. -/
inductive TxFrame where
  | mirror (f : MFrame)
  | mirrorAck (d : SD) (mseq : Word)
  | mirrorNak (d : SD) (mseq : Word)
  | flitNak (fseq : Half)
  | epochLog (d : SD) (log : DLog) (mseqLast : Word)
  | epochAck (d : SD) (epoch : DWord) (digest : List Byte)
  | shadow (d : SD) (m : Meta) (epoch : DWord)
  | hello (head : Nat) (level version : Nat) (array : List Byte)
  | heartbeat (p : HbPath) (bytes : List Byte)
  | tone                                    -- the fault tone of R319
  | fwdCmd (tag : Nat) (c : Capsule)
  | fwdData (tag off : Nat) (b : List Byte)
  | fwdCpl (tag : Nat) (st : Status) (dw0 : Nat)
  | fwdAbort (tag : Nat)
  | fwdAbortRsp (tag : Nat) (caught : Bool)
  | message (kind : Nat) (d : SD) (b : List Byte)
  deriving DecidableEq, Repr

/-- The flow class of a frame (Table 13.2); none for what goes on the heartbeat pair. -/
def TxFrame.cls : TxFrame → Option Nat
  | .mirrorAck _ _ | .mirrorNak _ _ | .flitNak _ | .epochAck _ _ _ | .hello _ _ _ _ | .heartbeat .link _ => some 0
  | .mirror _ => some 1
  | .epochLog _ _ _ | .shadow _ _ _ => some 2
  | .fwdCmd _ _ | .fwdData _ _ _ | .fwdCpl _ _ _ | .fwdAbort _ | .fwdAbortRsp _ _ => some 3
  | .message _ _ _ => some 4
  | .heartbeat .pair _ | .tone => none

/-- A flow class at the sender (R308): the frames that wait, the flits already sent of the first of them, and the flits of credit
held for the peer's receive buffer. -/
structure Flow where
  queue : List TxFrame
  sent : Nat
  credit : Nat
  deriving DecidableEq, Repr

/-- The flit layer of the Ubius link (R306 to R308). -/
structure LinkSt where
  /-- The five classes of Table 13.2. -/
  flows : List Flow
  /-- The place in the round of 32 flit times, and the class last served by the round-robin. -/
  time : Nat
  turn : Nat
  /-- Half a flit time is left over from the last scr-cycle. -/
  half : Bool
  /-- FSEQ of the last flit sent and of the last received in order. -/
  fseqTx : Half
  fseqRx : Half
  /-- The replay buffer, oldest first, and how many of its last flits are still to be sent again. -/
  replay : List Flit
  again : Nat
  /-- Flits received of each class whose credit has not been returned. -/
  owed : List Nat
  /-- Frames received from the peer; the model's own count. -/
  heard : Nat
  /-- Frames whose last flit has been sent. -/
  wire : List TxFrame
  deriving DecidableEq, Repr

/-- Own dust sheet (R310): entries by header offset, data slots by slot number. -/
structure Sheet where
  entries : Table Entry
  slots : Table (List Byte)
  /-- Size in units of 4 KiB that Terzan allocates (R197). -/
  size : Nat
  deriving DecidableEq, Repr

/-- A takeover under way (Table 13.7). -/
structure Takeover where
  sd : SD
  /-- The last step reached, 1 to 8. -/
  step : Nat
  rehearsal : Bool
  /-- Reached by fences, replays and re-entry of Table 13.7; the epoch it began with, for the prefix rule of step 7:
  replay has stopped at a unit without its marker. -/
  stopped : Bool
  deriving DecidableEq, Repr

/-- A handover under way (R328): role G (true) or T. -/
structure Handover where
  sd : SD
  giver : Bool
  step : Nat
  /-- Started by a command (0), a rehearsal (1), the return swap of a rehearsal (2) or an activation (3). -/
  why : Nat
  /-- The mailbox channel to answer. -/
  chan : Option Nat
  deriving DecidableEq, Repr

/-- UBL. -/
structure UblState where
  up : Bool
  /-- 0 down, 1 16 lanes, 2 24 lanes. -/
  lanes : Nat
  lost : Bool
  versionRefused : Bool
  tx : PerSD MTx
  rx : PerSD MRx
  erx : PerSD ERx
  /-- Mirror of the peer's dust sheet (R311). -/
  mirror : Memory
  sheet : Sheet
  /-- Size of the peer's dust sheet, in units of 4 KiB. -/
  peerSheet : Nat
  /-- Sealed epochs awaiting acknowledgement, oldest first. -/
  waits : PerSD (List EpochWait)
  /-- The copied-epoch pointer (R34). -/
  copied : PerSD DWord
  /-- The write hold of R38. -/
  hold : PerSD Bool
  /-- Shadow of the peer's domain (R316), and the copied logs no checkpoint covers. -/
  shadow : PerSD Meta
  shadowEpoch : PerSD DWord
  shadowLogs : PerSD (List DLog)
  hbLink : HbSt
  hbPair : HbSt
  /-- STATE this controller sends, and the peer's last STATE (Table 13.6). -/
  hbState : Nat
  peerState : Nat
  pairOk : Bool
  faultReport : Bool
  peerFailed : Bool
  /-- The 50 µs wait of head 1 runs (R323). -/
  delay : Bool
  battenOut : PerSD Bool
  battenIn : PerSD Bool
  breakIn : Bool
  breakOut : Bool
  own : PerSD Bool
  /-- Owner epoch of each domain, as far as known. -/
  oepoch : PerSD Word
  /-- OEPOCH as the peer's heartbeats last gave it (R442). -/
  peerOepoch : PerSD Word
  unmirrored : Bool
  /-- Fill of the peer: 0 none, 1 shadow and mirror being sent, 2 both sent (R327). -/
  filling : Nat
  /-- The peer is out of service or has declared itself. -/
  peerServing : Bool
  takeover : List Takeover
  handover : Option Handover
  rehearsing : Bool
  /-- The expectation of a break is armed (R322). -/
  expectBreak : Bool
  /-- The ownership record of the array configuration: head and owner epoch (R442). -/
  record : PerSD (Nat × Word)
  /-- The fault tone replaces heartbeat-pair frames (R319). -/
  tone : Bool
  /-- RTC value at which the next rehearsal is due (R329). -/
  nextRehearse : Nat
  /-- This controller has sent its restart notice (R411): its expectation of a break stays armed. -/
  holdsPeer : Bool
  /-- The last stamp that G sent with a domain (R328). -/
  lastStamp : PerSD Nat
  /-- Count and highest stamp of marked units that G sent (R329). -/
  expectUnits : PerSD (Option (Nat × Nat))
  /-- Head G gives in the next rehearsal (R329). -/
  rehearseG : Nat
  /-- The peer's head index equals this head's (R457). -/
  headClash : Bool
  /-- A digest rule asks for a retrain (R315). -/
  retrainDue : Bool
  /-- Lowest Ubius level the image declares, and what the peer advertises (R404). -/
  levelMin : Nat
  peerLevel : Nat
  peerVersion : Nat
  /-- Array identity and Terzan version this head gives in HELLO. -/
  array : List Byte
  version : Nat
  level : Nat
  /-- Frames handed to the link and to the heartbeat pair. -/
  sent : List TxFrame
  deriving DecidableEq, Repr

end Sys2Proof.Machine
end

