-- ==== Sys2Proof/Machine/UnitState.lean ====
section
/-!
DEFINITION. The state of PWR with the always-on domain, of SCR, and of RDM with replication.
-/

namespace Sys2Proof.Machine

/-! ### PWR and the always-on domain -/

/-- What was refused last on the way into a state (PWR_REFUSE_COUNT_s, PWR_REFUSE_LAST_s). -/
structure Refused where
  count : Word
  reason : Nat
  refuser : Nat
  row : Nat
  deriving DecidableEq, Repr

/-- PWR. Power states are 0 to 3 (R415). -/
structure PwrState where
  current : Nat
  target : Nat
  inflight : Bool
  pending : Option Nat
  lastReason : Nat
  /-- Terzan's preparation of the entry in flight has ended (R416 step 1). -/
  prepared : Bool
  retain : Half
  retLost : Nat
  /-- P1, P2, P3. -/
  refused : Table Refused
  savedEpoch : DWord
  rtc : DWord
  rtcSet : Bool
  /-- scr-cycles of the current microsecond, 100 to one. -/
  rtcSub : Nat
  p0Time : DWord
  wakeTime : DWord
  faultStatus : Word
  /-- Latched wake sources, rows of Table 19.5 from 1. -/
  wakes : List Nat
  /-- CRC-64 of the banks kept through the present P2 or P3 (R423). -/
  bankCrc : Table DWord
  /-- AVS targets in mV, rails 0 to 3 (R419, R426). -/
  avs : List Nat
  /-- Rails whose last write failed once (R419). -/
  avsTry : List Nat
  /-- Monitor readings: slack in ps of path-delay monitor n; kHz of ring oscillator n (R426). -/
  delays : Table Int
  rings : Table Nat
  replanDue : Bool
  /-- RTC value of the next re-plan. -/
  replanAt : DWord
  replanP0 : DWord
  /-- The always-on domain holds every other domain in reset (R25). -/
  pllHeld : Bool
  thermtrip : Bool
  /-- This controller enters or is in P3 under the park of R422; its peer is parked. -/
  parked : Bool
  peerParked : Bool
  /-- A park waits for BREAK_N (R422 step 3). -/
  parkWait : Bool
  /-- Power fail: 0 none, 1 PFAIL_N asserted and the dump runs, 2 dump ended. -/
  pfail : Nat
  /-- PFAIL_N was released before the dump ended. -/
  pfailReleased : Bool
  /-- Ethernet ports are up. -/
  ethUp : Bool
  deriving DecidableEq, Repr

/-! ### SCR -/

/-- A Screed loop: its descriptor words (Table 14.2), buffered writes, and what the words do not show. -/
structure Loop where
  words : List Word
  /-- Word writes not applied yet, by word number. -/
  buf : Table Word
  /-- Test index n of the next sample (R340). -/
  n : Nat
  prbs : Nat
  /-- The last b of PRBS-11; none before the first advance. -/
  last : Option Bool
  /-- The next sample is the first since the enable (R338). -/
  first : Bool
  deriving DecidableEq, Repr

/-- A loop at reset. -/
def Loop.empty : Loop := ⟨List.replicate 16 0, [], 0, 0x7FF, none, false⟩

/-- The capture buffer that SCR and RDM share: whose records it holds, and the records. -/
structure Capture where
  /-- 0 none, 0x10 Screed, 0x11 packet trace. -/
  owner : Nat
  recs : List (List Byte)
  deriving DecidableEq, Repr

/-- SCR. -/
structure ScrState where
  loops : Table Loop
  /-- Number of the next tick (R331). -/
  tick : Nat
  /-- Duty slot values by slot, token rates and tokens held by QoS group (R336). -/
  duty : Table Nat
  rate : Table Nat
  tokens : Table Nat
  /-- Latency targets of QoS groups, µs (QOS_GROUP_SET). -/
  qosTarget : Table Nat
  /-- Sum of completion latencies in µs and their number since the group's last sample (Table 14.3). -/
  lat : Table (Nat × Nat)
  /-- Die temperatures in Q16.16; a sensor not listed is unreadable. -/
  temps : Table Int
  /-- Loops due in the current tick that were not reached. -/
  late : List Nat
  capLoop : Nat
  capReason : Nat
  capHolder : Nat
  capDone : Bool
  cap : Capture
  deriving DecidableEq, Repr

/-! ### RDM -/

/-- The scrim header (Table 12.3). -/
structure Sxh where
  msn : Nat
  pidx : Nat
  npktM1 : Nat
  path : Nat
  retry : Bool
  rkey : Nat
  moff : Nat
  deriving DecidableEq, Repr

/-- What a packet asks for (Table 12.1); `other` is any option outside the table. -/
inductive PktOp where
  | send (c : Capsule)
  | sendInv (rkey : Nat)
  | write (rkey off : Nat) (data : List Byte)
  | readReq (rkey off len : Nat)
  | readResp (d : SD) (stamp : Nat) (data : List Byte)
  | flush (persist : Bool) (rkey off len : Nat)
  | atomicWrite (rkey off : Nat) (data : List Byte)
  | scrim (x : Sxh) (data : List Byte)
  | ack                     -- acknowledges every request up to the PSN
  | seqNak
  | accessNak
  | operNak
  | rnrNak
  | other
  deriving DecidableEq, Repr

/-- A packet for a queue pair. -/
structure Pkt where
  qpn : Nat
  psn : Nat
  port : Nat
  op : PktOp
  deriving DecidableEq, Repr

/-- Kinds of queue pair: an NVMe queue, a replication queue pair in native or compatibility mode, a scrim
queue pair (R254, R289, R293). -/
inductive QpKind where
  | nvme | native | compat | scrim
  deriving DecidableEq, Repr

/-- Completion statuses of work requests (R292). -/
inductive WcSt where
  | ok | flushed | retryExceeded | rnrExceeded | accessErr | operErr | invalidReq | localErr
  deriving DecidableEq, Repr

/-- What a requester work request does. -/
inductive WrOp where
  | read (d : SD) (stamp : Nat)      -- fetch of write data
  | write                             -- data to a host or to the target
  | send                              -- a response capsule or a message
  | flush (att upTo : Nat)            -- persistence FLUSH: covers records up to this stamp
  | atomicWrite (att set : Nat)
  | scrim                             -- a scrim message: its MSN stands in place of a PSN
  deriving DecidableEq, Repr

/-- A requester work request outstanding. -/
structure Wr where
  psn : Nat
  op : WrOp
  deriving DecidableEq, Repr

/-- A work completion: receive or requester. -/
structure Wc where
  recv : Bool
  psn : Nat
  st : WcSt
  deriving DecidableEq, Repr

/-- A scrim message arriving (R294, R295). -/
structure RMsg where
  npktM1 : Nat
  rkey : Nat
  moff : Nat
  bitmap : Nat
  complete : Bool
  deriving DecidableEq, Repr

/-- A scrim message that waits or is sent and not acknowledged (R296): the packets resent are not kept apart. -/
structure TMsg where
  msn : Nat
  npktM1 : Nat
  timeouts : Nat
  /-- Path of each packet. -/
  paths : List Nat
  /-- Work requests that end with it. -/
  bytes : List Byte
  deriving DecidableEq, Repr

/-- A scrim path (R293): number, local port, whether it is up, rate in bit/s. -/
structure Path where
  idx : Nat
  port : Nat
  up : Bool
  rate : Nat
  deriving DecidableEq, Repr

/-- A FLUSH or ATOMIC WRITE of the peer that waits for what it covers (R291). -/
structure RWait where
  psn : Nat
  persist : Bool
  /-- MSEQ that must be acknowledged, for persistence. -/
  mseq : Word
  atomic : Option (Nat × List Byte)
  deriving DecidableEq, Repr

/-- What RDM sends. -/
inductive RdmTx where
  | ack (qp psn : Nat)
  | seqNak (qp psn : Nat)
  | accessNak (qp psn : Nat)
  | invalidNak (qp psn : Nat)
  | readData (qp psn : Nat) (b : List Byte)
  | flushResp (qp psn : Nat)
  | atomicResp (qp psn : Nat)
  | cnp (qp : Nat)
  | scrimAck (qp msn : Nat)
  | scrimNak (qp msn bitmap : Nat)
  | scrimPkt (qp psn msn pidx path : Nat) (retry : Bool)
  | retransmit (qp psn : Nat)
  | message (qp msn : Nat) (b : List Byte)
  | flush (qp psn : Nat)
  | word (qp psn set : Nat)
  | cmReject (status : Nat)
  | cmAccept (qpn : Nat)
  deriving DecidableEq, Repr

/-- What waits its turn on a scrim queue pair (R291, R296): a message beyond the 64 outstanding, or a FLUSH or ATOMIC WRITE behind
messages that are not acknowledged, which it would not cover. -/
inductive SWait where
  | msg (m : TMsg)
  | ctl (x : RdmTx)
  deriving DecidableEq, Repr

/-- A queue pair context (R280, R281). -/
structure Qp where
  gen : Nat
  kind : QpKind
  q : Option QId
  att : Option Nat
  port : Nat
  mtu : Nat
  epsn : Nat
  npsn : Nat
  onChip : Bool
  pinned : Bool
  fetching : Bool
  /-- Order of the last use. -/
  used : Nat
  parked : List Pkt
  err : Bool
  wrs : List Wr
  /-- Receive work requests posted. -/
  recvs : Nat
  comps : List Wc
  retries : Nat
  rnrs : Nat
  retryMax : Nat
  rnrMax : Nat
  /-- Rate of the reaction point, bit/s (R279). -/
  rate : Nat
  paths : List Path
  base : Nat
  rmsgs : Table RMsg
  nextMsn : Nat
  tmsgs : List TMsg
  twait : List SWait
  /-- Scrim packets sent: the PSN of the next (R293). -/
  pkts : Nat
  rwaits : List RWait
  deriving DecidableEq, Repr

/-- A memory window (R286). -/
structure Window where
  isOpen : Bool
  key : Nat
  qp : Nat
  /-- Offset in the landing area, and length. -/
  base : Nat
  len : Nat
  /-- Remote write, remote read, ATOMIC WRITE, FLUSH as bits 0 to 3. -/
  rights : Nat
  deriving DecidableEq, Repr

/-- RDM. -/
structure RdmState where
  qps : Table Qp
  /-- Uses so far, for the order of last use. -/
  uses : Nat
  /-- GEN last given to each INDEX. -/
  gens : Table Nat
  /-- Contexts in the writeback queue, oldest first (R281). -/
  writeback : List Nat
  windows : Table Window
  landing : Memory
  /-- Bytes of the dust sheet set aside as the landing area. -/
  landingSize : Nat
  portUp : Table Bool
  atts : Table Attach
  traceReason : Nat
  traceHolder : Nat
  /-- Packets the responder acted on, for the GSI queue pair's private data and the wire. -/
  sent : List RdmTx
  deriving DecidableEq, Repr

end Sys2Proof.Machine
end

