-- ==== Sys2Proof/Machine/TrustState.lean ====
section
/-!
DEFINITION. The state of the security core with DIG, of the boot flash directory and firmware update, and of the vault.
-/

namespace Sys2Proof.Machine

/-! ### DIG and the security core -/

/-- A snoop tap (R383): its source (0 boot flash images, 1 the head CPU region), declared length and bytes seen. -/
structure DTap where
  source : Nat
  len : Nat
  seen : Nat
  deriving DecidableEq, Repr

/-- A digest context (R383). -/
structure DCtx where
  keyed : Bool
  /-- The 25 lanes of the Keccak state. -/
  st : List Nat
  /-- Absorbed bytes. -/
  count : Nat
  tail : List Byte
  tap : Option DTap
  /-- FINAL has completed the tail: ready to squeeze. -/
  finished : Bool
  deriving DecidableEq, Repr

/-- A cleared context. -/
def DCtx.clear (keyed : Bool) : DCtx := ⟨keyed, List.replicate 25 0, 0, [], none, false⟩

/-- A measurement log entry (Table 17.6). -/
structure LogEnt where
  reg : Nat
  event : Nat
  subject : Nat
  unmatched : Bool
  d : List Byte
  deriving DecidableEq, Repr

/-- The entry's 80 bytes. -/
def LogEnt.bytes (e : LogEnt) : List Byte :=
  leBytes 1 e.reg ++ leBytes 1 e.event ++ leBytes 2 e.subject ++ leBytes 1 (b2n e.unmatched) ++ zeros 11 ++
  e.d.take 64 ++ zeros (64 - e.d.length)

/-- What a digest operation returned to the security core: reason and data. -/
structure DigOut where
  reason : Nat
  data : List Byte
  deriving DecidableEq, Repr

/-- DIG with the state of the trust services. -/
structure DigState where
  ctxs : List DCtx
  /-- M0 to M23, 64 B each, and their extend counts (R386). -/
  m : List (List Byte)
  counts : List Word
  /-- The outcome of the last digest operation. -/
  last : DigOut
  alarmed : Bool
  recordSigned : Bool
  busError : Bool
  inputs : Nat
  /-- The boot counter of this boot; its stored value, none where the stored one is invalid; fuses blown (R392). -/
  bootCount : DWord
  stored : Option Nat
  fuses : Nat
  bootHi : PerReq Word
  /-- The first 1,024 extends, and whether more were made (R400). -/
  log : List LogEnt
  logFull : Bool
  /-- The wrap key and the export numbers outstanding (R394). -/
  wrapKey : List Byte
  exports : List Nat
  qseq : Nat
  /-- The signed boot record (R398). -/
  record : List Byte
  /-- The pair of 4 KiB message windows (R28): the last request of Terzan and the last answer to it; the rest of a window is zero
  (assumption 95). -/
  toSec : List Byte
  toTerzan : List Byte
  /-- The M5 request of this boot has been made (R387). -/
  m5 : Bool
  /-- Signatures made so far. -/
  signs : Nat
  deriving DecidableEq, Repr

/-! ### The boot flash and firmware update -/

/-- A head component's directory entry and slots (R402): STATE (Table 18.4) and the images, header included. -/
structure CompDir where
  state : Nat
  active : List Byte
  staged : List Byte
  fallback : List Byte
  /-- The rollback floor (R408). -/
  floor : Nat
  deriving DecidableEq, Repr

/-- A component with nothing in any slot. -/
def CompDir.empty : CompDir := ⟨0, [], [], [], 0⟩

/-- An entry of the staged manifest (Table 18.3). -/
structure ManEnt where
  comp : Nat
  version : Nat
  nand : Nat
  deriving DecidableEq, Repr

/-- The update state of a module by port: STATE of Table 18.8, the staged version, the FW string of the image. -/
structure ModUpd where
  state : Nat
  version : Nat
  fwstr : List Byte
  deriving DecidableEq, Repr

/-- An activation under way (R410, R411). -/
structure Act where
  comp : Nat
  /-- Module port, or the head G. -/
  target : Nat
  /-- Module: 1 committed and reset, waiting for admission; 2 committed back to slot 1. Head: 1 handover, 2 G restarts,
  3 HELLO accepted, 4 handing back. -/
  step : Nat
  /-- Ports still to come (TARGET 0xFF). -/
  rest : List Nat
  chan : Nat
  deriving DecidableEq, Repr

/-- A push under way on head 0 that waits for head 1 (R406). -/
structure Push where
  comp : Nat
  chan : Nat
  version : Nat
  /-- The image, header included. -/
  image : List Byte
  deriving DecidableEq, Repr

/-- The boot flash directory, staged images and activations. -/
structure UpdState where
  /-- Keyed by COMP, 0 to 3. -/
  dir : Table CompDir
  manifest : List ManEnt
  mods : Table ModUpd
  push : Option Push
  act : Option Act
  /-- Components whose fallback was restored and that Terzan has not announced (R407). -/
  restored : List Nat
  /-- Program and erase of the head CPU region is locked (R390). -/
  locked : Bool
  /-- HCPU_BOOT_REL. -/
  bootRel : Bool
  /-- Core 0 has been released (R30). -/
  core0 : Bool
  /-- Core 0 has released cores 1 to 31 (R30). -/
  cores : Bool
  /-- MBX has taken a doorbell from the head CPU on this boot (R408). -/
  doorbell : Bool
  deriving DecidableEq, Repr

/-! ### The vault -/

/-- A dump (R196, R197): where its chunks lie and what it holds. -/
structure Dump where
  /-- Ports and serials of the modules of the vault set it was written to, in port order. -/
  holders : List (List Byte)
  /-- Ended with DUMP_END. -/
  ended : Bool
  sheet : Sheet
  journal : PerSD (List JRec)
  jpos : PerSD Nat
  /-- The mirror of the peer's dust sheet, with the offsets of its unreleased entries. -/
  mirror : Memory
  hdrs : PerSD (List Nat)
  /-- Delta logs that no checkpoint covers: the controller's own and those copied from the peer. -/
  logs : PerSD (List DLog)
  peerLogs : PerSD (List DLog)
  progress : Option Progress
  /-- Slots of the mirror. -/
  peerSheet : Nat
  /-- Bytes in the dump, for the number of its groups. -/
  size : Nat
  /-- Chunks that do not read though their module is there: group × chunks in a group + place in it. -/
  lost : List Nat
  deriving DecidableEq, Repr

/-- What another dump or the peer's dump gives for a domain: the mirror's entries, data slots and journal. -/
structure MirrorDump where
  sheet : Sheet
  journal : List JRec
  logs : List DLog
  deriving DecidableEq, Repr

/-- The vault: the dust-sheet dump, and the recovery of a start. The snag-log images lie in the modules' slots. -/
structure VaultState where
  dump : Option Dump
  /-- Groups of the dump written so far (R197). -/
  dumping : Bool
  /-- Domains still to be restored at phase 5, with the step of R446 reached. -/
  restore : Table Nat
  /-- Fingerprint keys by key domain, wrapped under the device key store (R94). -/
  fpKeys : Table (List Byte)
  /-- The progress record as written to the dust-sheet partition (R274). -/
  progress : Option Progress
  deriving DecidableEq, Repr

end Sys2Proof.Machine
end

