-- ==== Sys2Proof/Syntax.lean ====
section
/-!
DEFINITION. The commands and events of the VX920: one constructor per row of the manual's table of operations and
events, with what each brings from outside as operands. The meaning of a row says what each operand is.
-/

namespace Sys2Proof

open Sys2Proof.Machine

/-- The rows of the table of operations and events, in its order. -/
inductive Instr where
  /-- A command capsule arrives complete at an Ethernet receive crossing; RDM checks ICRC and PSN and releases it to FE, waking the controller from P1 if it is there (R65). -/
  | capsuleReceived (icrcOk : Bool) (psn : Nat) (c : Capsule)
  /-- An RDMA READ response packet carrying fetched write data arrives; once its checks pass, its beats are released to be landed, mirrored and fingerprinted (R65). -/
  | rdmaReadResponse (icrcOk : Bool) (psnOk : Bool) (sd : SD) (stamp : Nat) (data : List Byte)
  /-- FE accepts a held or newly parsed command, issues its acceptance stamp, checks overlap and builds in-flight table entries (R42). -/
  | accept (q : QId)
  /-- A host Write runs through landing, mirroring, fingerprinting, lookup, compression, packing, encryption, parity and program (R39). -/
  | write (sd : SD) (stamp : Nat)
  /-- A host Read resolves map entries, fetches and opens packs, decompresses and checks granules, and returns the data (R41). -/
  | read (sd : SD) (stamp : Nat)
  /-- A host Flush completes once every lower-stamped write in its scope is held in both dust sheets (R51). -/
  | flush (sd : SD) (stamp : Nat)
  /-- A host Compare is stamped and ordered as a read and compares against the data R44 defines (R256). -/
  | compare (sd : SD) (stamp : Nat)
  /-- A host Write Zeroes writes UNMAPPED or ZERO entries, merging partial granules (R256). -/
  | writeZeroes (sd : SD) (stamp : Nat)
  /-- A host Dataset Management deallocate writes UNMAPPED entries for whole granules and zeros for partial ones (R257). -/
  | datasetManagement (sd : SD) (stamp : Nat)
  /-- A host Verify runs the read path to the Check stage and returns no data (R256). -/
  | verify (sd : SD) (stamp : Nat)
  /-- A host Ordering Fence is accepted and waits until its entries' submission counts are reached (R48). -/
  | orderingFence (q : QId) (data : List Byte)
  /-- Every entry of a waiting fence is satisfied; the fence takes its stamps and releases later commands of its queue (R48). -/
  | fencePointReached (q : QId) (cid : Nat)
  /-- A queue listed in a waiting fence is deleted or errors; the fence completes with Fence Source Lost and its queue is released (R49). -/
  | fenceSourceLost (q : QId) (cid : Nat)
  /-- A host Reservation Register changes the namespace's registrants in acceptance order (R268). -/
  | reservationRegister (sd : SD) (stamp : Nat)
  /-- A host Reservation Report returns the reservation state in acceptance order (R268). -/
  | reservationReport (sd : SD) (stamp : Nat)
  /-- A host Reservation Acquire takes or preempts a reservation in acceptance order (R268). -/
  | reservationAcquire (sd : SD) (stamp : Nat)
  /-- A host Reservation Release releases or clears a reservation in acceptance order (R268). -/
  | reservationRelease (sd : SD) (stamp : Nat)
  /-- A host Abort catches its target only if it has not started, otherwise reports not caught (R270). -/
  | abort (q : QId)
  /-- A host Get Log Page returns one of the supported log pages (R258). -/
  | getLogPage (q : QId)
  /-- A host Identify returns the requested controller or namespace data (R256). -/
  | identify (q : QId)
  /-- A host Set Features changes a supported feature or fails as not changeable (R256). -/
  | setFeatures (q : QId)
  /-- A host Get Features returns a supported feature value (R256). -/
  | getFeatures (q : QId)
  /-- A host posts an asynchronous event request, which takes a kept event or waits for one (R271). -/
  | asynchronousEventRequest (q : QId)
  /-- An event of Table 11.7 is delivered on an outstanding request or kept until one arrives (R271). -/
  | asynchronousEvent (cntlid : Nat) (e : AEvent)
  /-- A host Keep Alive restarts the host controller's keep alive timer (R256). -/
  | keepAlive (q : QId)
  /-- A host controller's keep alive timer expires; the controller ends and its queue pairs enter the error state (R252). -/
  | keepAliveTimeout (cntlid : Nat)
  /-- A host Format NVM opens a progress record and runs the format phases on its scope (R272). -/
  | formatNvm (q : QId)
  /-- A host Sanitize opens a progress record and crypto-erases or block-erases the whole subsystem (R273). -/
  | sanitize (q : QId)
  /-- A phase of a format or sanitize ends and the progress record moves to the next phase (R274). -/
  | formatPhaseDone (bad : List Nat)
  /-- A host Connect creates an admin or I/O queue on a host controller, or fails with Controller Busy (R252). -/
  | connect (qp : Nat)
  /-- A host Property Set writes a controller property (R256). -/
  | propertySet (q : QId)
  /-- A host Property Get reads a controller property (R256). -/
  | propertyGet (q : QId)
  /-- A host Disconnect ends a queue; disconnecting the admin queue ends the host controller (R252). -/
  | disconnect (q : QId)
  /-- An RDMA_CM connection request takes a queue-pair context or is rejected with No Resources (R254). -/
  | rdmaCmConnectRequest (kind : QpKind) (port : Nat) (mtu : Nat) (paths : List Nat)
  /-- A partial granule in the merge queue is merged with its base and enters the write side in a free slot (R67). -/
  | merge (id : Nat)
  /-- DP presents a granule's KMAC256 fingerprint and landing check value after its last beat (R92). -/
  | fingerprint (id : Nat)
  /-- A hot-index bucket returns from HBM and DP decides hit or miss for the fingerprint (R98). -/
  | lookupResult (id : Nat)
  /-- A compress lane puts a compressed granule or NO_GAIN into the unit hold buffer and takes its next granule (R68). -/
  | laneResult (id : Nat)
  /-- The byte-verify read of a provisional hit returns and is compared with the landed beats (R74). -/
  | verifyCompare (id : Nat)
  /-- At the join of its inputs the packer appends a missed granule or discards the output of a hit (R69). -/
  | packerDecision (id : Nat)
  /-- MAP writes a map, reference or allocation delta into its sector once the sector is valid and no hold applies (R147). -/
  | deltaRecorded (i : Nat)
  /-- A write through a shared page copies the page under the copy rule once its sectors are installed (R153). -/
  | pageCopy (d : SD) (root : Nat) (gran : Nat)
  /-- A pack closes when full or when Terzan closes it and is presented to CIP (R71). -/
  | packClose (d : SD) (kdom : Nat) (copy : Bool) (terzan : Bool)
  /-- A pack that has been open for four commit epochs closes and is padded (R71). -/
  | packAgeClose (d : SD) (kdom : Nat) (copy : Bool)
  /-- CIP draws a nonce and encrypts and authenticates a closed pack, multicasting it to STR and MLK (R246). -/
  | packEncrypt
  /-- A dust-sheet entry is released once its packs and parity are programmed and its epoch copied, and a release frame is sent (R39). -/
  | dustSheetRelease (hdr : Nat)
  /-- A command's response capsule is built and sent once its completion condition holds and lower-stamped overlapping completions are posted (R73). -/
  | completionPosted (sd : SD) (stamp : Nat) (us : Nat)
  /-- A map sector fetched from HBM arrives and is installed, giving the authoritative entry (R143). -/
  | sectorInstall (d : SD) (mpid : Nat) (sector : Nat)
  /-- A fetched pack, once confirmed, is released from the MLK read buffer to CIP, or freed if cancelled (R77). -/
  | packRelease (id : Nat)
  /-- CIP authenticates and decrypts a pack and releases plaintext only if the tag verifies (R247). -/
  | packOpen (id : Nat)
  /-- A decompress lane decodes a granule and verifies its check value before release to RDM (R124). -/
  | decode (id : Nat) (stamp : Nat) (gran : Nat)
  /-- A failed pack read climbs to the next step of the read-retry ladder (R182). -/
  | readRetry (id : Nat)
  /-- STR reconstructs a slot on a missing member from k available slots of its row (R200). -/
  | degradedRead (id : Nat) (bad : List Nat)
  /-- Every 16,000 cfg-cycles the epoch number advances, buffered configuration applies and delta logs are sealed and copied (R34). -/
  | epochBoundary
  /-- The peer's EPOCH_ACK arrives; equal digests advance the copied-epoch pointer, differing ones resend the log (R34). -/
  | epochAck (d : SD) (epoch : DWord) (digest : List Byte)
  /-- The peer receives a MIRROR frame, checks it and writes its data and marker into the mirror in MSEQ order (R311). -/
  | mirrorFrame (f : MFrame) (check : DWord)
  /-- A MIRROR_ACK control frame arrives and UBL validates it for the frames it covers (R312). -/
  | mirrorAck (d : SD) (mseq : Word)
  /-- The peer receives a release frame and releases the named mirror entries (R312). -/
  | releaseFrame (f : MFrame) (check : DWord)
  /-- The peer receives EPOCH frames of a delta log and, on EPOCH_END with all mirror frames, returns its digest (R313). -/
  | epochFrame (d : SD) (x : EFrame)
  /-- A flit fails correction or CRC; the receiver discards it and later flits and sends a NAK (R307). -/
  | flitError (fseq : Half)
  /-- A NAK control frame is received and the sender replays from the named flit (R307). -/
  | nak (n : Nak)
  /-- A flit replayed 16 times, or a digest mismatch rule, retrains the Ubius link (R307). -/
  | linkRetrain (groups : Nat)
  /-- The Ubius link has been down for 100 ms and is lost; head 1 then yields (R307). -/
  | linkLost
  /-- A HELLO frame arrives at link-up and is accepted or refused by array identity, level and head index (R309). -/
  | hello (head : Nat) (level : Nat) (version : Nat) (array : List Byte) (cert : List Byte)
  /-- The owner receives a forwarded command and stamps and runs it (R317). -/
  | forwardCmd (tag : Nat) (c : Capsule)
  /-- A forwarded DATA frame carries write data to the owner or read data to the origin (R317). -/
  | forwardData (tag : Nat) (off : Nat) (b : List Byte)
  /-- A forwarded completion returns to the origin, which posts it to the host (R317). -/
  | forwardCpl (tag : Nat) (st : Status) (dw0 : Nat)
  /-- The owner receives a forwarded Abort and answers caught or not caught (R270). -/
  | forwardAbort (tag : Nat)
  /-- The origin receives the owner's Abort answer and completes the Abort (R270). -/
  | forwardAbortRsp (tag : Nat) (caught : Bool)
  /-- A Terzan MESSAGE frame arrives carrying a notification, sanitize, handover, park or rehearsal step (R308). -/
  | messageFrame (kind : Nat) (d : SD) (b : List Byte)
  /-- A 1 ms heartbeat period ends; the controller sends its frames and counts misses, declaring the peer failed after three on both paths (R320). -/
  | heartbeatPeriod
  /-- A heartbeat frame with valid CRC and higher HSEQ arrives on one path (R318). -/
  | heartbeat (path : HbPath) (b : List Byte)
  /-- A receiver recognises the peer's fault tone after 250 µs, an explicit fault report (R319). -/
  | faultTone
  /-- Head 1's 50 µs wait after its declaration conditions ends; it acts only if BREAK_N is not asserted (R323). -/
  | declarationDelay
  /-- The survivor breaks the failed head, seizes the batten line, fences, replays and resumes service of its domain (R325). -/
  | takeover (d : SD) (level : Bool) (gap : Nat)
  /-- BATTEN_x_IN still reads high 5 µs after the break; the survivor keeps commands held (R325). -/
  | battenStuck (d : SD)
  /-- 2 µs after asserting a batten output the head samples the input again and head 1 withdraws if it reads high (R321). -/
  | battenRecheck (d : SD) (level : Bool)
  /-- BREAK_N is asserted; pad logic idles MLK and forces battens low, and an unexpected break parks the controller (R322). -/
  | breakAsserted
  /-- BREAK_N is released and the pad-logic effects of the break end (R322). -/
  | breakDeasserted
  /-- The owner sends shadow tables and unreleased entries to a rejoining peer until a digest matches (R327). -/
  | fill
  /-- A handover drain exceeds 100 ms and the handover is aborted (R328). -/
  | handoverAbortTimeout
  /-- Every INTERVAL hours head 0 starts a rehearsal takeover that swaps the domains, or postpones it (R329). -/
  | rehearsal
  /-- Mailbox command that moves a domain from its owner to the peer without a service gap (R328). -/
  | domainHandover (chan : Option Nat) (d : SD) (level : Bool)
  /-- Mailbox command that releases the break on a peer and starts its fill (R327). -/
  | breakRelease (c : Nat)
  /-- An RDMA packet arrives for a queue pair and is checked, parked, dropped or processed under IBTA RC rules (R278). -/
  | rdmaPacket (icrcOk : Bool) (p : Pkt)
  /-- A fetched QP context arrives from DDR5, is installed and its parked packets resume in PSN order (R282). -/
  | contextInstalled (i : Nat)
  /-- A queue pair enters the error state and its work requests complete with flush status in order (R292). -/
  | qpError (i : Nat) (cause : Option WcSt)
  /-- A responder answers an RDMA FLUSH once every covered write meets its selectivity (R291). -/
  | rdmaFlush (i : Nat)
  /-- An 8 B ATOMIC WRITE is placed indivisibly after covered writes are visible (R291). -/
  | rdmaAtomicWrite (i : Nat)
  /-- A SEND with Invalidate from the bound peer revokes the named window (R288). -/
  | sendWithInvalidate (icrcOk : Bool) (qpn : Nat) (psn : Nat) (port : Nat) (rkey : Nat)
  /-- A received CNP cuts the path's rate to (16 − CUT)/16 (R279). -/
  | cnp (i : Nat) (path : Nat)
  /-- A RAISE_US interval passes without a CNP and the path's rate rises by one step (R279). -/
  | rateRaise (i : Nat) (path : Nat)
  /-- A scrim data packet is checked and placed by offset, its arrival bit set (R294). -/
  | scrimPacket (icrcOk : Bool) (qpn : Nat) (psn : Nat) (port : Nat) (x : Sxh) (data : List Byte)
  /-- Every packet of a scrim message is placed; its receive completion is posted and a complete acknowledgement sent (R295). -/
  | scrimComplete (i : Nat) (msn : Nat)
  /-- The requester receives a scrim complete acknowledgement and retires the message (R296). -/
  | scrimAck (i : Nat) (msn : Nat)
  /-- The requester receives a scrim NAK and resends the packets its bitmap shows missing (R296). -/
  | scrimNak (i : Nat) (msn : Nat) (bitmap : Nat)
  /-- A scrim message's timeout expires; its last packet is resent with RETRY, or after 7 timeouts the queue pair errors (R296). -/
  | scrimTimeout (i : Nat) (msn : Nat)
  /-- A scrim path's local port loses link and the path is removed (R296). -/
  | pathDown (i : Nat) (path : Nat)
  /-- An Ethernet port is taken down and its queue pairs enter the error state (R292). -/
  | portLinkDown (port : Nat)
  /-- Terzan cuts a replication consistency set at the first stamp of a chosen epoch (R300). -/
  | consistencySetCut (id : Nat)
  /-- A sealed set is shipped and ended with SET_END, a persistence FLUSH and an ATOMIC WRITE of the set number (R300). -/
  | consistencySetShip (id : Nat)
  /-- The target sees the control word change and takes a snapshot of every target root (R300). -/
  | controlWordChange (id : Nat)
  /-- The target receives a replication message, checks its tag and applies its records in stamp order (R298). -/
  | replicationMessage (id : Nat) (msn : Nat) (src : List Byte) (wire : List Byte)
  /-- No persistence FLUSH response arrives within REPL_SYNC_TIMEOUT and the loss policy applies (R301). -/
  | replSyncTimeout (id : Nat)
  /-- An asynchronous attachment's held dust sheet would exceed REPL_BACKLOG and it enters resync (R302). -/
  | resync (id : Nat)
  /-- CIP fetches an offload descriptor, runs the message and posts its completion in ring order (R250). -/
  | offloadMessage (p : Nat) (desc : List Byte) (src : Option (List Byte)) (aad : List Byte) (tag : List Byte) (run : Machine.OffRun)
  /-- The last marked block of a zeroized slot leaves its core and the slot becomes empty (R241). -/
  | zeroizeDone (slot : Nat)
  /-- The delta recording a new SLOT_EPOCH is copied or checkpointed and packs under the slot may draw nonces (R244). -/
  | nonceSafe (slot : Nat)
  /-- Every 1,000 scr-cycles Screed snapshots inputs, applies descriptor writes and evaluates due loops (R332). -/
  | screedTick (temps : List (Nat × Int)) (late : Bool)
  /-- Cycle 999 of a tick passes with a due loop not evaluated, which counts as a missed sample (R333). -/
  | loopDeadlineMiss
  /-- Writing SCR_CAP_CTRL.EN to 1 claims the capture buffer and starts capture, or is refused (R341). -/
  | captureStart (r : Requester) (loop : Nat)
  /-- Writing SCR_CAP_CTRL.EN to 0 stops capture and releases the claim (R341). -/
  | captureStop (r : Requester) (loop : Nat)
  /-- Capture reaches 4,096 records, stops and releases the claim (R341). -/
  | captureFull
  /-- Writing RDM_TRACE_CTRL.EN to 1 claims the capture buffer for packet trace, or is refused (R304). -/
  | traceStart (r : Requester)
  /-- Writing RDM_TRACE_CTRL.EN to 0 stops the trace and releases the claim (R304). -/
  | traceStop (r : Requester)
  /-- The trace fills the capture buffer and releases the claim (R304). -/
  | traceFull
  /-- Map cache operation that clears every tag, VALID bit and the walk cache, or is refused (R148). -/
  | invalidate (r : Requester)
  /-- Map cache operation FLUSH that sets write-through and writes back every dirty sector (R148). -/
  | mapFlush (r : Requester)
  /-- Map cache operation DISABLE that turns the cache off, or is refused with DIRTY_LINES (R148). -/
  | mapDisable (r : Requester)
  /-- Map cache operation ENABLE that turns the cache on in write-back, or is refused (R148). -/
  | mapEnable (r : Requester)
  /-- Map cache operation WRITEBACK that clears write-through (R148). -/
  | writeback (r : Requester)
  /-- An INVALIDATE completes after 24,576 dp-cycles and sets INVALIDATED and OP_DONE (R148). -/
  | invalidateDone
  /-- A map FLUSH completes when MAP_DIRTY_SECTORS reaches zero and sets OP_DONE (R148). -/
  | flushComplete
  /-- The HBM tier acknowledges the oldest eviction-buffer writeback and frees its entry (R146). -/
  | evictionWritebackAck
  /-- Every unit of a source stamped below a snapshot's POINT has recorded or been abandoned, and the snapshot is sealed (R155). -/
  | snapshotSealed (d : SD) (root : Nat)
  /-- Terzan frees a page of a deleted root whose SHARE reached zero, cascading to children and references (R156). -/
  | pageFree (d : SD) (mpid : Nat)
  /-- The second coat examines one map entry and may present a relink delta (R107). -/
  | secondCoatExamine (d : SD)
  /-- MAP applies a relink delta as a conditional update moving one reference to the canonical copy (R108). -/
  | relink (i : Nat)
  /-- Terzan reloads hot-index entries of a domain from the full index in the background (R100). -/
  | hotIndexReload (d : SD) (ddom : Nat) (fp : List Byte)
  /-- Full-index deltas are applied to index pages in the background in epoch order (R104). -/
  | fullIndexDeltaApply
  /-- A module executes Media Raw Read and returns the slot image, ERASED or UNCORRECTABLE (R219). -/
  | mediaRawRead (port : Nat) (src : MSrc) (bits : Nat) (unc : Bool)
  /-- A module executes Media Raw Program into an erased slot and returns its die temperature (R219). -/
  | mediaRawProgram (port : Nat) (src : MSrc) (st : MSt) (temp : Int)
  /-- A module erases a whole segment and clears its domain tag (R219). -/
  | mediaErase (port : Nat) (src : MSrc) (ok : Bool) (temp : Int)
  /-- A module copies every programmed slot of a skim segment to a finish segment and returns a fold report (R219). -/
  | mediaFold (port : Nat) (src : MSrc) (tmin : Int) (tmax : Int) (fail : Option Nat)
  /-- A module accepts or refuses an Owner Fence and on acceptance stops older-epoch commands and records the new owner (R228). -/
  | ownerFence (port : Nat) (src : MSrc) (stopped : List (Nat × Nat))
  /-- A module returns its 4,096 B descriptor (R219). -/
  | mediaDescriptorRead (port : Nat) (src : MSrc) (ok : Bool)
  /-- A module returns its die and controller temperatures (R219). -/
  | mediaTemperature (port : Nat) (src : MSrc) (hi : Int) (lo : Int) (ctl : Int)
  /-- Feature 0xC0 written to a module records its vault, skim and finish split for life (R218). -/
  | layerSplit (port : Nat) (src : MSrc)
  /-- A media command completion reaches MLK, which acts on its status class (R222). -/
  | mediaCommandCompletion (i : Nat)
  /-- A media command's timeout expires; MLK aborts it and treats it as a failed attempt of its kind (R223). -/
  | commandTimeout (i : Nat)
  /-- A module is failed by timeouts, fatal status or link loss; MLK stops issuing and stripes mark it missing (R224). -/
  | moduleFailed (port : Nat) (cause : Nat)
  /-- A module's sideband presence drops and the module is failed at once unless absent (R215). -/
  | presenceDrop (port : Nat)
  /-- A media link goes down and retrains, and the module fails if it does not return within 100 ms (R224). -/
  | mediaLinkDown (port : Nat) (back : Option (Nat × Nat))
  /-- A media port reaches link-up and admission continues with queue creation (R226). -/
  | linkUp (port : Nat) (rate : Nat) (width : Nat) (new : Option Module)
  /-- A head admits a module on its port: queues, descriptor, split, fence, erase and shade card (R226). -/
  | admission (port : Nat)
  /-- Link-up is not reached 1 s after power-on and the module is refused with cause 8 (R226). -/
  | admissionTimeout (port : Nat)
  /-- A module absent for 900 s becomes failed (R199). -/
  | absentTimeout (port : Nat)
  /-- An absent module returns; interrupted segments are substituted and MISSING bits cleared (R201). -/
  | moduleReturn (port : Nat) (temp : Int)
  /-- A failed program leads MED to retire the segment, copy its packs to a new one and record the remap (R171). -/
  | substitution (i : Nat) (ok : Bool) (temp : Int)
  /-- The trowel pass takes the oldest closed skim stripe and folds it or sends it to garbage collection (R172). -/
  | trowelPass (d : SD)
  /-- A member fold completes and MED records the remap and moves the skim segment to pending-erase (R172). -/
  | foldComplete (i : Nat)
  /-- Garbage collection takes the next victim from its queue or by score (R173). -/
  | gcVictim (d : SD)
  /-- Garbage collection reads a live granule and appends its stored form to a finish stripe (R174). -/
  | gcCopy (d : SD)
  /-- Once a copy stripe closes, MAP processes the back-reference log moving references to the copy (R160). -/
  | relocation (i : Nat)
  /-- Every granule of a victim is freed and its segments move to pending-erase (R174). -/
  | stripeFreed (d : SD) (n : Nat)
  /-- A pending-erase segment, once covered by a checkpoint and unpinned, starts erasing (R167). -/
  | eraseIssue (port : Nat) (pseg : Nat)
  /-- MED forms a next stripe, or retries formation at boundaries, erases, frees and admissions (R168). -/
  | stripeFormation (d : SD) (finish : Bool) (isMeta : Bool)
  /-- At most hourly per module, an erase-count spread beyond 5 % queues a wear-levelling victim (R178). -/
  | wearLevelling (port : Nat) (finish : Bool)
  /-- A segment's read count reaches its limit or its age bucket reaches 3 and its stripe is queued for refresh (R179). -/
  | refreshQueued (port : Nat) (pseg : Nat)
  /-- Every 100 ms MED requests a Media Temperature report from each module (R181). -/
  | temperaturePoll (port : Nat)
  /-- A health condition becomes true or clears and the event is sent to head software and hosts (R184). -/
  | healthEvent (port : Nat) (code : Nat) (raised : Bool)
  /-- Rebuild reconstructs and programs one slot of a failed member, remapping after the last row (R203). -/
  | rebuildSlot (d : SD) (bad : List Nat) (ok : Bool) (temp : Int)
  /-- Recoat collects a closed finish stripe of an older generation into new-shape stripes (R210). -/
  | recoatCopy (d : SD)
  /-- No stripe of an older generation remains and recoat completion is recorded (R211). -/
  | recoatComplete (d : SD)
  /-- Terzan replays each open journal row at restart or takeover, regenerating and programming its slots (R195). -/
  | journalReplay (d : SD) (n : Nat) (row : Nat) (temp : Int)
  /-- Writing <BLK>_ENABLE.ENABLE to 1 starts the block's 256 cfg-cycle consistency check (R360). -/
  | blockEnable (r : Requester) (b : Blk) (al : Nat) (w : Word)
  /-- The 256 cfg-cycle check ends and the block is enabled or refused (R360). -/
  | consistencyCheckDone (b : Blk)
  /-- Writing <BLK>_ENABLE.ENABLE to 0 is refused or starts the block's drain (R361). -/
  | blockDisable (r : Requester) (b : Blk) (al : Nat) (w : Word)
  /-- A draining block finishes its held work, releases its claims and clears ENABLED (R361). -/
  | drainEnd (b : Blk)
  /-- A write to <BLK>_ATOMIC_MODE sets the requester's helper style for the block (R351). -/
  | atomicModeWrite (r : Requester) (b : Blk) (w : Word)
  /-- A write to <BLK>_STATUS_ACK clears events at or before its SEQ when accepted (R356). -/
  | statusAck (r : Requester) (b : Blk) (w : Word)
  /-- A write to <BLK>_IND_ADDR sets the requester's indirect address (R357). -/
  | indAddrWrite (r : Requester) (b : Blk) (w : Word)
  /-- A read of <BLK>_IND_DATA returns the dword at IND_ADDR and advances IND_ADDR by 4 (R357). -/
  | indDataRead (r : Requester) (b : Blk)
  /-- A write of <BLK>_IND_DATA writes the dword at IND_ADDR and advances IND_ADDR by 4 (R357). -/
  | indDataWrite (r : Requester) (b : Blk) (w : Bool × Word)
  /-- A read of TOP_EPOCH_LO returns the low half and latches the high half for the requester (R33). -/
  | epochLoRead (r : Requester)
  /-- A read of DIG_BOOT_COUNT_LO returns the low half and latches the high half for the requester (R349). -/
  | bootCountLoRead (r : Requester)
  /-- A write to a register without a row of its own sets its RW fields at their apply boundary (R354). -/
  | registerWrite (r : Requester) (via : RegPath) (late : Bool) (a : Nat) (w : Word)
  /-- Writing TOP_VIOL_CLEAR.CLEAR sets TOP_VIOLATIONS and TOP_VIOL_LAST to zero (R359). -/
  | violClear (r : Requester) (w : Word)
  /-- A write to TOP_VAULT_PART sets the snag-log partition or is refused while the vault is claimed (R363). -/
  | vaultPartWrite (r : Requester) (al : Nat) (w : Word)
  /-- Writing TOP_TIMER_CTRL_n.EN to 1 claims and starts a general timer (R362). -/
  | timerStart (r : Requester) (al : Nat) (n : Nat) (w : Word)
  /-- Writing TOP_TIMER_CTRL_n.EN to 0 stops a timer and releases the claim (R362). -/
  | timerStop (r : Requester) (al : Nat) (n : Nat) (w : Word)
  /-- A general timer reaches 0, sets its TOP_STATUS bit and reloads if periodic (R461). -/
  | timerExpiry (n : Nat)
  /-- A write to TOP_PINMUX_g claims or releases a sideband pin group for a function (R362). -/
  | pinmuxWrite (r : Requester) (al : Nat) (g : Nat) (w : Word)
  /-- Writing TOP_RESET with KEY 0x4B1D sends STATE 4 and starts a full-chip reset (R439). -/
  | topReset (r : Requester) (w : Word)
  /-- Writing PG_SQ_TAIL posts new offload descriptors for CIP to fetch (R249). -/
  | pgSqTail (p : Nat) (v : Word)
  /-- Writing PG_CQ_HEAD returns completion entries to CIP (R249). -/
  | pgCqHead (p : Nat) (v : Word)
  /-- Writing PG_STATUS_ACK clears page events at or before its SEQ (R356). -/
  | pgStatusAck (p : Nat) (v : Word)
  /-- Writing PG_ZEROIZE zeroizes the selected slots of the page (R241). -/
  | pgZeroize (p : Nat) (v : Word)
  /-- A doorbell write with the expected sequence number takes the request and makes the channel BUSY (R368). -/
  | mbDoorbell (r : Requester) (c : Nat) (w : Word)
  /-- Terzan posts a response; the bank becomes readable, RSEQ advances and STATE becomes DONE (R369). -/
  | responsePosted (c : Nat)
  /-- Writing MB_RSP_ACK with RSEQ returns a DONE channel to IDLE (R370). -/
  | mbRspAck (r : Requester) (c : Nat) (w : Word)
  /-- Terzan writes a notification entry and advances PROD, or counts it lost when the ring is full (R378). -/
  | notification (code : Nat) (raised : Bool) (sd : Option SD) (port : Nat) (arg : List Byte)
  /-- Writing MB_NTF_CONS consumes notification entries (R378). -/
  | mbNtfCons (r : Requester) (w : Word)
  /-- Mailbox command that does nothing and returns success (R377). -/
  | nop (c : Nat)
  /-- Mailbox command that returns the versions and levels of the controller (R377). -/
  | versionGet (c : Nat)
  /-- Mailbox command that commissions the array and splits waiting modules (R377). -/
  | arrayCommission (c : Nat) (nqn : List Byte) (array : List Byte) (pq : Bool) (k : Nat) (vsegs : Nat) (ssegs : Nat) (holdup : Nat)
  /-- Mailbox command that sets the 64-bit RTC and returns the previous value (R377). -/
  | rtcSet (c : Nat) (v : DWord)
  /-- Mailbox command that creates a volume root (R377). -/
  | volCreate (c : Nat)
  /-- Mailbox command that deletes a volume and starts freeing its pages (R156). -/
  | volDelete (c : Nat) (root : Nat)
  /-- Mailbox command that grows a volume, adding top pages as needed (R139). -/
  | volResize (c : Nat) (root : Nat) (size : Nat)
  /-- Mailbox command that creates a namespace on a root (R262). -/
  | nsCreate (c : Nat)
  /-- Mailbox command that deletes an unattached namespace (R377). -/
  | nsDelete (c : Nat) (nsid : Nat)
  /-- Mailbox command that attaches a namespace to host controllers (R262). -/
  | nsAttach (c : Nat) (nsid : Nat) (cntlids : List Nat)
  /-- Mailbox command that detaches a namespace from host controllers (R262). -/
  | nsDetach (c : Nat) (nsid : Nat) (cntlids : List Nat)
  /-- Mailbox command that assigns a namespace to a QoS group (R336). -/
  | nsQosSet (c : Nat) (nsid : Nat) (group : Nat)
  /-- Mailbox command that sets a QoS group's latency target (R342). -/
  | qosGroupSet (c : Nat) (group : Nat) (us : Nat)
  /-- Mailbox command that takes a snapshot point and creates snapshot roots, responding once sealed (R154). -/
  | snapTake (c : Nat)
  /-- Mailbox command that deletes a snapshot root (R156). -/
  | snapDelete (c : Nat) (root : Nat)
  /-- Mailbox command that creates a writable clone of a sealed snapshot (R156). -/
  | cloneCreate (c : Nat) (root : Nat)
  /-- Mailbox command that writes root records to a head buffer (R377). -/
  | rootList (c : Nat) (d : SD) (start : Nat) (addr : Nat) (len : Nat) (dmaOk : Bool)
  /-- Mailbox command that creates a key domain and generates its keys on both heads (R94). -/
  | kdomCreate (c : Nat) (kdom : Nat) (mode : DMode)
  /-- Mailbox command that deletes an unused key domain and zeroizes its keys (R94). -/
  | kdomDelete (c : Nat) (kdom : Nat)
  /-- Mailbox command that sets a dedup domain's mode from the next boundary (R91). -/
  | kdomModeSet (c : Nat) (kdom : Nat) (mode : DMode)
  /-- Mailbox command that rotates a key domain's at-rest key into a new slot (R239). -/
  | kdomRotate (c : Nat) (kdom : Nat)
  /-- Mailbox command that unwraps a key into a slot, waiting for the older register if needed (R240). -/
  | keyLoad (c : Nat)
  /-- Mailbox command that draws a key from the DRBG into a slot (R238). -/
  | keyGenerate (c : Nat) (slot : Nat) (usage : Nat) (klen : Bool) (npol : Bool)
  /-- Mailbox command that zeroizes a slot (R241). -/
  | keyZeroize (c : Nat) (slot : Nat)
  /-- Mailbox command that sets the owner of an empty cipher page (R236). -/
  | pageOwnerSet (c : Nat) (page : Nat) (owner : Nat)
  /-- Mailbox command that sets a page's ring bases and sizes (R249). -/
  | pageAssign (c : Nat) (page : Nat) (sqBase : Nat) (sqSize : Nat) (cqBase : Nat) (cqSize : Nat) (intEn : Bool)
  /-- Mailbox command that attaches a consistency group for replication (R297). -/
  | replAttach (c : Nat) (qpn : Option Nat) (base : Nat) (len : Nat)
  /-- Mailbox command that detaches a replication attachment (R377). -/
  | replDetach (c : Nat) (id : Nat)
  /-- Mailbox command that returns an attachment's mode, cut, set and backlog (R377). -/
  | replStatus (c : Nat) (id : Nat)
  /-- Mailbox command that opens a memory window and returns its rkey (R286). -/
  | windowOpen (c : Nat) (qpn : Nat) (base : Nat) (len : Nat) (rights : Nat)
  /-- Mailbox command that revokes a window, completing after in-flight placements finish (R288). -/
  | windowRevoke (c : Nat) (rkey : Nat)
  /-- Mailbox command that returns raised health events per module (R377). -/
  | healthList (c : Nat) (port : Nat)
  /-- Mailbox command that returns each port's state, serial and firmware (R377). -/
  | moduleList (c : Nat)
  /-- Mailbox command that makes a module absent (R199). -/
  | moduleRemove (c : Nat) (port : Nat)
  /-- Mailbox command that admits a module on a port (R226). -/
  | moduleAdmit (c : Nat) (port : Nat)
  /-- Mailbox command that writes loss-map entries to a head buffer (R208). -/
  | lossList (c : Nat) (d : SD) (cursor : Nat) (addr : Nat) (len : Nat) (dmaOk : Bool)
  /-- Mailbox command that sets a new data shape for a domain and starts recoat (R210). -/
  | recoatStart (c : Nat) (d : SD) (pq : Bool) (k : Nat)
  /-- Mailbox command that checks an image and stages it through both heads (R406). -/
  | updatePush (c : Option Nat) (image : List Byte) (dmaOk : Bool) (bad : List Nat)
  /-- Mailbox command that returns running, staged and fallback versions (R412). -/
  | updateStatus (c : Nat) (peer : List Byte)
  /-- Mailbox command that activates staged module or head components (R409). -/
  | updateActivate (c : Option Nat) (temp : Int)
  /-- A module is not confirmed within 600 s of reset and is committed back to slot 1 (R410). -/
  | moduleConfirmTimeout
  /-- No HELLO from restarted G within 300 s; T declares G failed (R411). -/
  | restartHelloTimeout
  /-- Terzan confirms a trial image, sets IDLE and raises the component's floor (R408). -/
  | healthConfirm (filled : Bool)
  /-- A component still in TRIAL 600 s after release is set to FAILED and UPDATE_FALLBACK is posted (R408). -/
  | trialTimeout (c : Nat)
  /-- Mailbox command that builds and signs a quote with the verifier's nonce (R399). -/
  | attestQuote (c : Nat) (nonce : List Byte) (addr : Nat) (len : Nat) (dmaOk : Bool)
  /-- Mailbox command that returns the signed boot record (R398). -/
  | attestRecordGet (c : Nat) (addr : Nat) (len : Nat) (dmaOk : Bool)
  /-- Mailbox command that writes the device and CA certificates (R397). -/
  | certGet (c : Nat) (addr : Nat) (len : Nat) (dmaOk : Bool)
  /-- The primer ROM clears DIG, advances the boot counter, verifies and measures images and releases core 0 and the head CPU (R389). -/
  | primerRom (rom : List Byte) (config : Nat) (counterOk : Bool) (acts : Nat) (bad : List Nat) (badFall : List Nat)
  /-- Digest engine operation that clears a context, optionally keyed (R383). -/
  | start (ctx : Nat) (keyed : Option Nat)
  /-- Digest engine operation that absorbs one 136 B block (R383). -/
  | absorb (ctx : Nat) (block : List Byte)
  /-- Digest engine operation that binds a context to a snoop source with a declared length (R383). -/
  | tap (ctx : Nat) (source : Nat) (len : Nat)
  /-- Digest engine operation that ends a tap and checks the bytes seen against LEN (R385). -/
  | untap (ctx : Nat) (bytes : List Byte)
  /-- Digest engine operation that completes the tail block with supplied padding (R385). -/
  | final (ctx : Nat) (pad : List Byte)
  /-- Digest engine operation that returns output bytes from a finished context (R383). -/
  | squeeze (ctx : Nat) (n : Nat)
  /-- Digest engine operation that extends a measurement register (R386). -/
  | extend (i : Nat) (input : List Byte) (event : Nat) (subject : Nat) (unmatched : Bool)
  /-- Terzan asks the trust services to extend a register, which they accept or refuse (R387). -/
  | extendRequest (reg : Nat) (event : Nat) (subject : Nat) (unmatched : Bool) (d : List Byte)
  /-- Digest engine operation that exports a context raw or as a wrapped blob (R393). -/
  | save (ctx : Nat) (wrapped : Bool)
  /-- Digest engine operation that imports an outstanding wrapped blob once (R394). -/
  | restore (ctx : Nat) (blob : List Byte)
  /-- The trust services sign the boot record when Terzan reports readiness (R398). -/
  | bootRecordSign
  /-- 60 s after core 0's release without Terzan's report, the boot record is signed (R398). -/
  | bootRecordTimeout
  /-- A security alarm input or private-bus error clears the digest engine's state and measurement registers (R391). -/
  | secAlarm (inputs : Nat) (busError : Bool)
  /-- Writing PWR_PSTATE_REQ starts a transition, becomes pending, replaces or cancels a request (R415). -/
  | pstateRequest (r : Requester) (w : Word)
  /-- PWR runs a power-state entry: preparation, conditions, domain switching and regulator requests (R416). -/
  | pstateEntry (prep : Bool)
  /-- PWR runs an exit to P0 and Terzan reloads the map cache and retained banks (R416). -/
  | pstateExit (bad : List Nat) (codeOk : Bool)
  /-- An AVSBus write is not acknowledged or settled in time and is retried or fails with REGULATOR_NAK (R419). -/
  | regulatorTimeout (r : Nat)
  /-- A latched wake source starts an exit to P0, after any entry in flight (R420). -/
  | wake (src : Nat)
  /-- A head asks its peer to break it and enters P3, or is refused if BREAK_N is not asserted within 10 ms (R422). -/
  | park
  /-- After boot and every 30 days Terzan reads the monitors and re-plans each rail's voltage (R426). -/
  | ageingReplan (delays : List Int) (rings : List Nat) (reads : List (List Int))
  /-- A path-delay monitor's slack falls below 10 ps and its rail is raised at once (R427). -/
  | slackLow (n : Nat) (r : Nat) (slack : Int)
  /-- The always-on domain sees the root PLL lose lock, records it and holds every other domain in reset (R25). -/
  | pllLossOfLock
  /-- The root PLL has been locked again for 1 ms and the reset is released (R25). -/
  | pllRelock
  /-- PFAIL_N is asserted; admission closes, the snag log flushes and the dust sheet is dumped (R445). -/
  | pfail
  /-- PFAIL_N is released during a dump; the dump completes then a full-chip reset follows (R445). -/
  | pfailRelease
  /-- The dust-sheet dump finishes and writes DUMP_END in every vault module of the set (R445). -/
  | dumpEnd
  /-- The board asserts RESET_N and a full-chip reset runs (R438). -/
  | resetN (head : Nat)
  /-- The always-on supply rises and resets every domain (R438). -/
  | powerOnReset (head : Nat)
  /-- The head CPU asserts PERST_N, resetting only the PCIe endpoint domain (R438). -/
  | perstN
  /-- An always-on sensor reads above 115 °C for 1 ms and THERMTRIP_N is asserted and latched (R459). -/
  | thermtrip
  /-- The start sequence moves to its next phase, or fails and sends the fault tone (R441). -/
  | startPhase (ok : Bool) (levels : Nat) (sheet : Nat) (peerSheet : Nat) (landing : Nat)
  /-- No peer HELLO or heartbeat within 300 s of phase 6; the controller declares the peer failed (R443). -/
  | startHelloTimeout (ck : Meta)
  /-- At phase 5 Terzan restores each owned domain from the dump in order (R446). -/
  | vaultRestore (d : SD) (mirror : Option MirrorDump) (ck : Option Meta) (lost : List Nat)
  /-- EVR enters a queued event as a new record or folds it into the last one (R429). -/
  | snagEvent
  /-- Writing EVR_CTRL.FLUSH requests a flush of the snag log to the vault (R433). -/
  | evrFlush (r : Requester) (v : Half)
  /-- Writing EVR_CTRL.CLEAR empties the snag log (R432). -/
  | evrClear (r : Requester) (v : Half)
  /-- EVR freezes the log and programs its image into the vault set (R434). -/
  | snagFlush
  /-- Every flush program completes, fails or times out and the flush ends with FLUSH_DONE or FLUSH_FAILED (R434). -/
  | snagFlushEnd
  /-- Terzan erases a full snag-log partition segment when no flush runs (R434). -/
  | evrPartitionErase
  /-- The Ubius link drops below 16 lanes while heartbeats still arrive; UBL_UP clears, forwarded commands and protected completions are held and the R38 hold takes force (R324). -/
  | ubiusLinkDown
  /-- A requester's local ACK timer or RNR timer expires on an RC queue pair; the requester retransmits, or the queue pair enters the error state once the retry count is exceeded (R292). -/
  | localAckTimeout (i : Nat) (rnr : Bool)
  /-- Terzan writes a checkpoint record naming the latest epoch whose changes are all on flash, freeing the delta logs it covers (R161). -/
  | checkpoint (d : SD) (n : Nat)
  /-- The control cluster suffers a fatal fault; the always-on domain replaces heartbeat frames with the fault tone so that the peer breaks the controller and takes over (R319). -/
  | fatalFault (cls : Nat) (core : Nat)
  /-- Restarted head G sends no confirmation within 600 s of its start; head T asserts BREAK_DRV_N again, keeps both domains and completes with HEALTH_UNCONFIRMED (R411). -/
  | activationConfirmTimeout
  /-- The 1 s expectation of a break that G armed for a rehearsal runs out, so that any later break is unexpected (R329). -/
  | breakExpectationExpiry
  deriving DecidableEq, Repr

end Sys2Proof
end

