-- ==== Sys2Proof/Decode.lean ====
section
/-!
DEFINITION. What a word of the table spells. The table of operations and events gives no row any bits: a command is not
read from a word but arrives with its operands (assumption 12).
-/

namespace Sys2Proof

/-- The command a word spells by the table's bits: none, since no row has any. -/
def decodeTableWord (_nbits _w : Nat) : Option Instr := none

end Sys2Proof
end

