-- ==== Sys2Proof/Machine/Avaraun.lean ====
section
/-!
DEFINITION. The Avaraun codec (R113 to R125): prediction, symbols, mode choice, the frequency table,
the sixteen interleaved rANS coders, and the decoder with its failures.
-/

namespace Sys2Proof.Machine

/-- The predictor state: the order-1 table T and the bytes already seen, newest first. -/
structure Pred where
  tab : List Byte
  /-- The last bytes, newest first; at most eight are kept. -/
  back : List Byte
  /-- The granule offset of the next byte. -/
  pos : Nat
  deriving DecidableEq, Repr

/-- The predictor at the start of a granule (R115): T all zero and nothing seen. -/
def Pred.start : Pred := ⟨zeros 256, [], 0⟩

/-- The prediction of the next byte under a mode (Table 05.3A). A byte before the granule reads 0. -/
def Pred.predict (p : Pred) (mode : Nat) : Byte :=
  match mode % 4 with
  | 0 => p.tab.getD (p.back.headD 0).toNat 0
  | 1 => p.back.getD 1 0
  | 2 => p.back.getD 3 0
  | _ => p.back.getD 7 0

/-- Take the next byte: T learns it and it joins the history (R115). -/
def Pred.push (p : Pred) (x : Byte) : Pred :=
  ⟨p.tab.set (p.back.headD 0).toNat x, (x :: p.back).take 8, p.pos + 1⟩

/-- The symbol of a residue (R116). -/
def zigzag (r : Byte) : Nat :=
  if r.toInt ≥ 0 then 2 * r.toNat else 2 * (256 - r.toNat) - 1

/-- The residue of a symbol, as a byte to add (R124). -/
def unzigzag (s : Nat) : Byte :=
  if s % 2 = 0 then BitVec.ofNat 8 (s / 2) else BitVec.ofNat 8 (256 - (s + 1) / 2)

/-- The position of the highest set bit plus one; 0 for 0 (R117). -/
def bitlen (s : Nat) : Nat := if s = 0 then 0 else s.log2 + 1

/-- The symbols of a run of bytes under the four modes, and the predictor after it. -/
def tileSyms : Pred → List Byte → List (Nat × Nat × Nat × Nat) × Pred
  | p, [] => ([], p)
  | p, x :: xs =>
    let s (m : Nat) := zigzag (x - p.predict m)
    let (rest, p') := tileSyms (p.push x) xs
    ((s 0, s 1, s 2, s 3) :: rest, p')

/-- One mode's symbol of the four. -/
def modeSym (m : Nat) (q : Nat × Nat × Nat × Nat) : Nat :=
  match m with
  | 0 => q.1
  | 1 => q.2.1
  | 2 => q.2.2.1
  | _ => q.2.2.2

/-- The cost E of a mode over a tile (R117 step 1). -/
def modeCost (m : Nat) (l : List (Nat × Nat × Nat × Nat)) : Nat :=
  l.foldl (fun e q => e + 1 + bitlen (modeSym m q)) 0

/-- The mode with the lowest cost, the lowest number among equals (R117 steps 2 and 3). -/
def bestMode (l : List (Nat × Nat × Nat × Nat)) : Nat :=
  let e0 := modeCost 0 l
  let e1 := modeCost 1 l
  let e2 := modeCost 2 l
  let e3 := modeCost 3 l
  let m := min (min e0 e1) (min e2 e3)
  if e0 = m then 0 else if e1 = m then 1 else if e2 = m then 2 else 3

/-- The modes and symbols of `n` tiles. -/
def encodeTiles : Nat → Pred → List Byte → List Nat × List Nat
  | 0, _, _ => ([], [])
  | n + 1, p, x =>
    let (q, p') := tileSyms p (x.take 256)
    let m := bestMode q
    let (ms, ss) := encodeTiles n p' (x.drop 256)
    (m :: ms, q.map (modeSym m) ++ ss)

/-- The exact count of each of the 256 symbols (R118). -/
def symCounts (s : List Nat) : Array Nat :=
  s.foldl (fun a v => a.modify v (· + 1)) (Array.replicate 256 0)

/-- The cumulative frequencies c (R118). -/
def cumul (f : Array Nat) : Array Nat :=
  (f.foldl (fun (p : Array Nat × Nat) v => (p.1.push p.2, p.2 + v)) (#[], 0)).1

/-- The frequency table bytes (Table 05.3). -/
def freqTable (f : Array Nat) : List Byte :=
  let top := (List.range 256).foldl (fun m s => if f.getD s 0 ≠ 0 then s else m) 0
  let nb := top / 8 + 1
  let bm := (List.range nb).map fun i =>
    BitVec.ofNat 8 ((List.range 8).foldl (fun v k => if f.getD (8 * i + k) 0 ≠ 0 then v + 2 ^ k else v) 0)
  let codes := (List.range 256).flatMap fun s =>
    let v := f.getD s 0
    if v = 0 then []
    else if v - 1 < 128 then [BitVec.ofNat 8 (v - 1)]
    else [BitVec.ofNat 8 ((v - 1) % 128 + 128), BitVec.ofNat 8 ((v - 1) / 128)]
  BitVec.ofNat 8 nb :: bm ++ codes

/-- One encoding step of one coder (R120): the new state and the word emitted, if any. -/
def ransPut (f c : Array Nat) (st q : Nat) : Nat × Option Nat :=
  let fq := f.getD q 1
  let (st1, w) := if st ≥ fq * 2 ^ 20 then (st / 65536, some (st % 65536)) else (st, none)
  (st1 / fq * 4096 + st1 % fq + c.getD q 0, w)

/-- Encode the symbols from the last to the first, over the sixteen states; the words come out in
decoding order (R119, R120). -/
def ransEncode (f c : Array Nat) (s : List Nat) : Array Nat × List Nat :=
  ((s.zipIdx).reverse.foldl (fun (p : Array Nat × List Nat) (q, i) =>
    let k := i % 16
    let (st, w) := ransPut f c (p.1.getD k 65536) q
    (p.1.set! k st, match w with | some v => v :: p.2 | none => p.2))
    (Array.replicate 16 65536, []))

/-- The encoder of R120: the stream, or none for NO_GAIN (R123). -/
def avaEncode (x : List Byte) (check : DWord) : Option (List Byte) :=
  let (modes, syms) := encodeTiles 16 Pred.start x
  let f := symCounts syms
  let (st, words) := ransEncode f (cumul f) syms
  let modeBits := (modes.zipIdx).foldl (fun v (m, t) => v + m * 4 ^ t) 0
  let rest := freqTable f ++ st.toList.flatMap (leBytes 4) ++ words.flatMap (leBytes 2)
  let len := 16 + rest.length
  if len > 3840 then none
  else some ([0xA1, 0x00] ++ leBytes 2 len ++ leBytes 4 modeBits ++ leBytes 8 check.toNat ++ rest)

/-- The frequency table as the decoder reads it: counts, total and the position after it; none is a
format error (R124). -/
def readFreqs (b : Array Byte) (nb : Nat) : Option (Array Nat × Nat) :=
  let byte (i : Nat) := (b.getD i 0).toNat
  let step (st : Option (Array Nat × Nat × Nat)) (s : Nat) : Option (Array Nat × Nat × Nat) :=
    match st with
    | none => none
    | some (f, pos, tot) =>
      if s < 8 * nb ∧ (byte (17 + s / 8)).testBit (s % 8) then
        if pos ≥ b.size then none
        else
          let v := byte pos
          if v ≥ 0x80 then
            if pos + 1 ≥ b.size then none
            else
              let w := v % 128 + byte (pos + 1) * 128
              if w > 4095 then none else some (f.push (w + 1), pos + 2, tot + w + 1)
          else some (f.push (v + 1), pos + 1, tot + v + 1)
      else some (f.push 0, pos, tot)
  match (List.range 256).foldl step (some (#[], 17 + nb, 0)) with
  | none => none
  | some (f, pos, tot) => if tot = 4096 then some (f, pos) else none

/-- The symbol whose slot range holds `slot` (R124). -/
def slotSym (f c : Array Nat) (slot : Nat) : Nat :=
  (List.range 256).foldl (fun r s => if c.getD s 0 ≤ slot ∧ slot < c.getD s 0 + f.getD s 0 then s else r) 0

/-- The decoding loop of R124 over the remaining granule bytes: the bytes in reverse order, the final
states and the position, or none for a format error. -/
def ransDecode (b : Array Byte) (f c : Array Nat) (modes len : Nat) :
    Nat → Array Nat → Nat → Pred → List Byte → Option (List Byte × Array Nat × Nat)
  | 0, st, pos, _, acc => some (acc, st, pos)
  | n + 1, st, pos, p, acc =>
    let i := p.pos
    let k := i % 16
    let x := st.getD k 0
    let slot := x % 4096
    let s := slotSym f c slot
    let x1 := f.getD s 0 * (x / 4096) + slot - c.getD s 0
    let m := (modes / 4 ^ (i / 256)) % 4
    let y := p.predict m + unzigzag s
    if x1 < 65536 then
      if pos + 2 > len then none
      else
        let w := (b.getD pos 0).toNat + 256 * (b.getD (pos + 1) 0).toNat
        ransDecode b f c modes len n (st.set! k (x1 * 65536 + w)) (pos + 2) (p.push y) (y :: acc)
    else ransDecode b f c modes len n (st.set! k x1) pos (p.push y) (y :: acc)

/-- The decoder of R124 over the bytes held for a granule. -/
def avaDecode (bytes : List Byte) : GOut :=
  let b := bytes.toArray
  let byte (i : Nat) := (b.getD i 0).toNat
  let len := leAt bytes 2 2
  let nb := byte 16
  if b.size < 16 ∨ byte 0 ≠ 0xA1 ∨ byte 1 ≠ 0 then .format
  else if len < 84 ∨ len > 3840 ∨ len > b.size then .format
  else if nb = 0 ∨ nb > 32 then .format
  else
    match readFreqs b nb with
    | none => .format
    | some (f, pos) =>
      let st := (List.range 16).map fun k => leAt bytes (pos + 4 * k) 4
      let pos := pos + 64
      if st.any (· < 65536) ∨ pos > len ∨ (len - pos) % 2 ≠ 0 then .format
      else
        match ransDecode b f (cumul f) (leAt bytes 4 4) len 4096 st.toArray pos Pred.start [] with
        | none => .format
        | some (acc, fin, pos) =>
          if pos ≠ len ∨ fin.any (· ≠ 65536) then .format
          else
            let x := acc.reverse
            if (crc64 x).toNat = leAt bytes 8 8 then .good x else .check

/-- The raw check table of a pack (Table 05.6): used entries in increasing OFFSET, then unused ones. -/
def rctBytes (l : List (Nat × DWord)) : List Byte :=
  let used := l.take 16 |>.flatMap fun (o, c) => leBytes 2 o ++ zeros 6 ++ leBytes 8 c.toNat
  used ++ (List.replicate (16 - l.length) ([0xFF, 0xFF] ++ zeros 14)).flatten

/-- The CHECK a raw check table holds for an offset (R125). -/
def rctFind (rct : List Byte) (off : Nat) : Option DWord :=
  (List.range 16).findSome? fun i =>
    if leAt rct (16 * i) 2 = off ∧ off ≠ 0xFFFF then some (BitVec.ofNat 64 (leAt rct (16 * i + 8) 8)) else none

/-- A raw granule's check against its raw check table entry (R125): a missing entry fails. Fewer than 4,096 bytes fail the check too
and are no format error (DESIGN CHOICE, assumption 126). -/
def rawDecode (bytes : List Byte) (rct : List Byte) (off : Nat) : GOut :=
  if bytes.length < 4096 then .check
  else
    let x := bytes.take 4096
    match rctFind rct off with
    | some c => if crc64 x = c then .good x else .check
    | none => .check

/-- The stored size of a stream or raw granule: LEN rounded up to a multiple of 16 B (R126). -/
def storedSize (n : Nat) : Nat := (n + 15) / 16 * 16

/-- The stored form as pack bytes, with its fill (R126). -/
def storedForm (b : List Byte) : List Byte := fit b (storedSize b.length)

end Sys2Proof.Machine
end

