-- ==== Sys2Proof/Machine/Crypto.lean ====
section
/-!
DEFINITION. The published algorithms the engines compute (R20, Table 00.9): Keccak-f[1600], SHAKE256 and
KMAC256 (FIPS 202, SP 800-185), AES and its modes (FIPS 197, SP 800-38A, 38D, 38E). PRESUMED from those
standards, which the manual names and does not restate (assumption 6).
-/

namespace Sys2Proof.Machine

/-! ### Keccak -/

/-- The 64-bit mask. -/
def m64 : Nat := 0xFFFFFFFFFFFFFFFF

/-- Rotate a 64-bit lane left. -/
def rotl64 (x n : Nat) : Nat := ((x <<< n) &&& m64) ||| (x >>> (64 - n))

/-- The rotation offsets of rho, lane x + 5 y. -/
def keccakRho : List Nat :=
  [0, 1, 62, 28, 27, 36, 44, 6, 55, 20, 3, 10, 43, 25, 39, 41, 45, 15, 21, 8, 18, 2, 61, 56, 14]

/-- The round constants of iota. -/
def keccakRC : List Nat :=
  [0x0000000000000001, 0x0000000000008082, 0x800000000000808A, 0x8000000080008000,
   0x000000000000808B, 0x0000000080000001, 0x8000000080008081, 0x8000000000008009,
   0x000000000000008A, 0x0000000000000088, 0x0000000080008009, 0x000000008000000A,
   0x000000008000808B, 0x800000000000008B, 0x8000000000008089, 0x8000000000008003,
   0x8000000000008002, 0x8000000000000080, 0x000000000000800A, 0x800000008000000A,
   0x8000000080008081, 0x8000000000008080, 0x0000000080000001, 0x8000000080008008]

/-- Lane `i` of a state. -/
def lane (a : List Nat) (i : Nat) : Nat := a.getD i 0

/-- The column parities of theta. -/
def keccakCols (a : List Nat) : List Nat :=
  (List.range 5).map fun x =>
    lane a x ^^^ lane a (x + 5) ^^^ lane a (x + 10) ^^^ lane a (x + 15) ^^^ lane a (x + 20)

/-- theta. -/
def keccakTheta (a : List Nat) : List Nat :=
  let c := keccakCols a
  let d := (List.range 5).map fun x => lane c ((x + 4) % 5) ^^^ rotl64 (lane c ((x + 1) % 5)) 1
  (List.range 25).map fun i => lane a i ^^^ lane d (i % 5)

/-- rho and pi. -/
def keccakRhoPi (a : List Nat) : List Nat :=
  (List.range 25).map fun i =>
    let j := (i % 5 + 3 * (i / 5)) % 5 + 5 * (i % 5)
    rotl64 (lane a j) (lane keccakRho j)

/-- chi and iota. -/
def keccakChiIota (rc : Nat) (b : List Nat) : List Nat :=
  (List.range 25).map fun i =>
    let y := 5 * (i / 5)
    let v := lane b i ^^^ ((m64 ^^^ lane b (y + (i + 1) % 5)) &&& lane b (y + (i + 2) % 5))
    if i = 0 then v ^^^ rc else v

/-- One round (one cc-cycle, R383). -/
def keccakRound (a : List Nat) (rc : Nat) : List Nat := keccakChiIota rc (keccakRhoPi (keccakTheta a))

/-- Keccak-f[1600]: 24 rounds. -/
def keccakF (a : List Nat) : List Nat := keccakRC.foldl keccakRound a

/-- The zero state. -/
def keccakZero : List Nat := List.replicate 25 0

/-- The 8-byte words of a string. -/
def words64 : Nat → List Byte → List Nat
  | 0, _ => []
  | n + 1, l => leNat (l.take 8) :: words64 n (l.drop 8)

/-- Absorb one whole 136-byte block. -/
def keccakAbsorb (a : List Nat) (block : List Byte) : List Nat :=
  keccakF (List.zipWith (· ^^^ ·) a (words64 17 block ++ List.replicate 8 0))

/-- The 200 bytes of a state. -/
def keccakBytes (a : List Nat) : List Byte := (a.map (leBytes 8)).flatten

/-- Absorb `n` whole blocks. -/
def keccakAbsorbN : Nat → List Nat → List Byte → List Nat
  | 0, a, _ => a
  | n + 1, a, l => keccakAbsorbN n (keccakAbsorb a (l.take 136)) (l.drop 136)

/-- Squeeze `n` blocks of output. -/
def keccakSqueezeN : Nat → List Nat → List Byte
  | 0, _ => []
  | n + 1, a => (keccakBytes a).take 136 ++ keccakSqueezeN n (keccakF a)

/-- pad10*1 with the domain byte, to the end of the last block: for a message that ends at offset
`t` of its last block (R384). -/
def keccakPad (dom : Nat) (t : Nat) : List Byte :=
  if t = 135 then [BitVec.ofNat 8 (dom + 0x80)]
  else BitVec.ofNat 8 dom :: (zeros (134 - t) ++ [0x80])

/-- The sponge with rate 136 and a domain byte. -/
def sponge (dom : Nat) (msg : List Byte) (out : Nat) : List Byte :=
  let p := msg ++ keccakPad dom (msg.length % 136)
  (keccakSqueezeN (out / 136 + 1) (keccakAbsorbN (p.length / 136) keccakZero p)).take out

/-- SHAKE256 with `out` bytes of output. -/
def shake256 (msg : List Byte) (out : Nat) : List Byte := sponge 0x1F msg out

/-- The bytes of a number without leading zeros, most significant first, at least one. -/
def minBytes (n : Nat) : List Byte :=
  if n < 256 then beBytes 1 n else if n < 65536 then beBytes 2 n
  else if n < 16777216 then beBytes 3 n else beBytes 8 n

/-- left_encode of SP 800-185. -/
def leftEncode (n : Nat) : List Byte := BitVec.ofNat 8 (minBytes n).length :: minBytes n

/-- right_encode of SP 800-185. -/
def rightEncode (n : Nat) : List Byte := minBytes n ++ [BitVec.ofNat 8 (minBytes n).length]

/-- encode_string. -/
def encodeString (l : List Byte) : List Byte := leftEncode (8 * l.length) ++ l

/-- bytepad to 136. -/
def bytepad (l : List Byte) : List Byte :=
  let p := leftEncode 136 ++ l
  p ++ zeros ((136 - p.length % 136) % 136)

/-- KMAC256 (SP 800-185): key, data, output length in bytes, customisation. -/
def kmac256 (key msg : List Byte) (out : Nat) (custom : List Byte) : List Byte :=
  sponge 0x04
    (bytepad (encodeString (ascii "KMAC") ++ encodeString custom) ++ bytepad (encodeString key)
      ++ msg ++ rightEncode (8 * out)) out

/-! ### AES -/

/-- One bit of the S-box's affine map. -/
def rotl8 (x n : Nat) : Nat := ((x <<< n) % 256) ||| (x >>> (8 - n))

/-- The AES S-box of FIPS 197. -/
def aesSbox (x : Nat) : Nat :=
  let i := gfInv 0x1B x
  i ^^^ rotl8 i 1 ^^^ rotl8 i 2 ^^^ rotl8 i 3 ^^^ rotl8 i 4 ^^^ 0x63

/-- The inverse S-box. -/
def aesInvSbox (x : Nat) : Nat :=
  gfInv 0x1B (rotl8 x 1 ^^^ rotl8 x 3 ^^^ rotl8 x 6 ^^^ 0x05)

/-- Byte `i` of a list of numbers. -/
def nat8 (l : List Nat) (i : Nat) : Nat := l.getD i 0

/-- The next word of the key schedule: `w` holds the words so far, newest first. -/
def aesNextWord (nk i rcon : Nat) (w : List (List Nat)) : List Nat :=
  let prev := w.headD []
  let old := w.getD (nk - 1) []
  let t :=
    if i % nk = 0 then
      let r := (prev.drop 1 ++ prev.take 1).map aesSbox
      r.zipWith (· ^^^ ·) [rcon, 0, 0, 0]
    else if nk = 8 ∧ i % nk = 4 then prev.map aesSbox
    else prev
  t.zipWith (· ^^^ ·) old

/-- Extend the schedule by `n` words from word number `i`. -/
def aesExpand (nk : Nat) : Nat → Nat → Nat → List (List Nat) → List (List Nat)
  | 0, _, _, w => w
  | n + 1, i, rcon, w =>
    aesExpand nk n (i + 1) (if i % nk = 0 then gfDouble 0x1B rcon else rcon) (aesNextWord nk i rcon w :: w)

/-- A byte string as words of four numbers. -/
def words4 : Nat → List Byte → List (List Nat)
  | 0, _ => []
  | n + 1, l => (l.take 4).map BitVec.toNat :: words4 n (l.drop 4)

/-- The round keys of a 16 or 32 byte key, each 16 numbers. -/
def aesRoundKeys (key : List Byte) : List (List Nat) :=
  let nk := key.length / 4
  let total := 4 * (nk + 7)
  let ws := (aesExpand nk (total - nk) nk 1 (words4 nk key).reverse).reverse
  (List.range (nk + 7)).map fun r => ((ws.drop (4 * r)).take 4).flatten

/-- ShiftRows. -/
def aesShift (s : List Nat) : List Nat :=
  (List.range 16).map fun i => nat8 s ((i + 4 * (i % 4)) % 16)

/-- The inverse of ShiftRows. -/
def aesInvShift (s : List Nat) : List Nat :=
  (List.range 16).map fun i => nat8 s ((i + 16 - 4 * (i % 4)) % 16)

/-- A column mix with the four coefficients of its first row. -/
def aesMixWith (c0 c1 c2 c3 : Nat) (s : List Nat) : List Nat :=
  (List.range 16).map fun i =>
    let b := 4 * (i / 4)
    let r := i % 4
    gfMul 0x1B (nat8 s (b + r)) c0 ^^^ gfMul 0x1B (nat8 s (b + (r + 1) % 4)) c1
      ^^^ gfMul 0x1B (nat8 s (b + (r + 2) % 4)) c2 ^^^ gfMul 0x1B (nat8 s (b + (r + 3) % 4)) c3

/-- AddRoundKey. -/
def aesAdd (s k : List Nat) : List Nat := s.zipWith (· ^^^ ·) k

/-- The middle rounds of encryption and the last one. -/
def aesRounds : List (List Nat) → List Nat → List Nat
  | [], s => s
  | [k], s => aesAdd (aesShift (s.map aesSbox)) k
  | k :: ks, s => aesRounds ks (aesAdd (aesMixWith 2 3 1 1 (aesShift (s.map aesSbox))) k)

/-- The inverse rounds: round keys newest first, after the first one was added. -/
def aesInvRounds : List (List Nat) → List Nat → List Nat
  | [], s => s
  | [k], s => aesAdd ((aesInvShift s).map aesInvSbox) k
  | k :: ks, s => aesInvRounds ks (aesMixWith 14 11 13 9 (aesAdd ((aesInvShift s).map aesInvSbox) k))

/-- Encrypt one block. -/
def aesEnc (key : List Byte) (block : List Byte) : List Byte :=
  match aesRoundKeys key with
  | [] => block
  | k :: ks => (aesRounds ks (aesAdd (block.map BitVec.toNat) k)).map (BitVec.ofNat 8)

/-- Decrypt one block. -/
def aesDec (key : List Byte) (block : List Byte) : List Byte :=
  match (aesRoundKeys key).reverse with
  | [] => block
  | k :: ks => (aesInvRounds ks (aesAdd (block.map BitVec.toNat) k)).map (BitVec.ofNat 8)

/-- The 16-byte blocks of a string, the last one possibly shorter; `n` bounds their number. -/
def blocks16 : Nat → List Byte → List (List Byte)
  | 0, _ => []
  | n + 1, l => if l.isEmpty then [] else l.take 16 :: blocks16 n (l.drop 16)

/-- All 16-byte blocks of a string. -/
def blocksOf (l : List Byte) : List (List Byte) := blocks16 l.length l

/-- CBC encryption (SP 800-38A): the chained blocks. -/
def cbcEncBlocks (key : List Byte) : List Byte → List (List Byte) → List (List Byte)
  | _, [] => []
  | iv, b :: bs => let c := aesEnc key (xorBytes b iv); c :: cbcEncBlocks key c bs

/-- CBC decryption. -/
def cbcDecBlocks (key : List Byte) : List Byte → List (List Byte) → List (List Byte)
  | _, [] => []
  | iv, c :: cs => xorBytes (aesDec key c) iv :: cbcDecBlocks key c cs

/-- CFB-128 encryption, a final partial block allowed. -/
def cfbEncBlocks (key : List Byte) : List Byte → List (List Byte) → List (List Byte)
  | _, [] => []
  | iv, b :: bs => let c := xorBytes b (aesEnc key iv); c :: cfbEncBlocks key c bs

/-- CFB-128 decryption. -/
def cfbDecBlocks (key : List Byte) : List Byte → List (List Byte) → List (List Byte)
  | _, [] => []
  | iv, c :: cs => xorBytes c (aesEnc key iv) :: cfbDecBlocks key c cs

/-- CTR over blocks from a counter value; the increment is over 128 bits (Table 10.1). -/
def ctrBlocks (key : List Byte) : Nat → List (List Byte) → List (List Byte)
  | _, [] => []
  | c, b :: bs => xorBytes b (aesEnc key (beBytes 16 (c % 2 ^ 128))) :: ctrBlocks key (c + 1) bs

/-- GCM's counter: the last 32 bits count. -/
def gcmCtrBlocks (key nonce : List Byte) : Nat → List (List Byte) → List (List Byte)
  | _, [] => []
  | c, b :: bs => xorBytes b (aesEnc key (nonce ++ beBytes 4 (c % 2 ^ 32))) :: gcmCtrBlocks key nonce (c + 1) bs

/-- One bit of GHASH's multiplication: (product, shifted factor). -/
def ghashStep (p : Nat × Nat) (bit : Bool) : Nat × Nat :=
  (if bit then p.1 ^^^ p.2 else p.1,
   if p.2 % 2 = 1 then (p.2 >>> 1) ^^^ (0xE1 <<< 120) else p.2 >>> 1)

/-- Multiplication in GHASH's field; numbers are big-endian blocks. -/
def ghashMul (x h : Nat) : Nat :=
  (((List.range 128).map fun i => x.testBit (127 - i)).foldl ghashStep (0, h)).1

/-- A block zero-padded to 16 bytes, as a number. -/
def blockNat (b : List Byte) : Nat := beNat (fit b 16)

/-- GHASH of a list of blocks. -/
def ghash (h : Nat) (bs : List (List Byte)) : Nat :=
  bs.foldl (fun y b => ghashMul (y ^^^ blockNat b) h) 0

/-- The GCM tag over additional data and ciphertext (SP 800-38D, 96-bit IV). -/
def gcmTag (key nonce aad ct : List Byte) : List Byte :=
  let h := beNat (aesEnc key (zeros 16))
  let lens := beBytes 8 (8 * aad.length) ++ beBytes 8 (8 * ct.length)
  xorBytes (beBytes 16 (ghash h (blocksOf aad ++ blocksOf ct ++ [lens])))
    (aesEnc key (nonce ++ [0, 0, 0, 1]))

/-- GCM's counter stream over the data, encryption and decryption alike. -/
def gcmCrypt (key nonce data : List Byte) : List Byte := (gcmCtrBlocks key nonce 2 (blocksOf data)).flatten

/-- GCM encryption: ciphertext and tag. -/
def gcmEnc (key nonce aad pt : List Byte) : List Byte × List Byte :=
  let ct := gcmCrypt key nonce pt
  (ct, gcmTag key nonce aad ct)

/-- GCM decryption: the plaintext only if the tag verifies. -/
def gcmDec (key nonce aad ct tag : List Byte) : Option (List Byte) :=
  if gcmTag key nonce aad ct = tag then some (gcmCrypt key nonce ct) else none

/-- One doubling of the XTS tweak, little-endian. -/
def xtsDouble (t : Nat) : Nat :=
  if t ≥ 2 ^ 127 then ((t <<< 1) % 2 ^ 128) ^^^ 0x87 else t <<< 1

/-- One XTS block under a tweak value. -/
def xtsBlock (f : List Byte → List Byte) (t : Nat) (b : List Byte) : List Byte :=
  xorBytes (f (xorBytes b (leBytes 16 t))) (leBytes 16 t)

/-- XTS over whole blocks. -/
def xtsBlocks (f : List Byte → List Byte) : Nat → List (List Byte) → List (List Byte)
  | _, [] => []
  | t, b :: bs => xtsBlock f t b :: xtsBlocks f (xtsDouble t) bs

/-- The tweak after `n` doublings. -/
def xtsTweak : Nat → Nat → Nat
  | 0, t => t
  | n + 1, t => xtsTweak n (xtsDouble t)

/-- XTS of one data unit (SP 800-38E) with ciphertext stealing; `dec` swaps the last two tweaks. -/
def xtsCrypt (dec : Bool) (f : List Byte → List Byte) (t0 : Nat) (data : List Byte) : List Byte :=
  let full := data.length / 16
  let part := data.length % 16
  if part = 0 then (xtsBlocks f t0 (blocksOf data)).flatten
  else
    let head := (xtsBlocks f t0 (blocksOf (data.take (16 * (full - 1))))).flatten
    let b := slice data (16 * (full - 1)) 16
    let r := data.drop (16 * full)
    let ta := xtsTweak (full - 1) t0
    let tb := xtsDouble ta
    let cc := xtsBlock f (if dec then tb else ta) b
    let last := xtsBlock f (if dec then ta else tb) (r ++ cc.drop part)
    head ++ last ++ cc.take part

end Sys2Proof.Machine
end

