-- ==== Sys2Proof/Config.lean ====
section
/-!
DEFINITION. What the manual leaves open: free values. None of them has a body, so nothing can evaluate
one or prove what it is; each is applied to the model's count of draws or to the operands it depends on.
-/

namespace Sys2Proof.Config

open Sys2Proof.Machine

/-- The n-th value drawn from the security core's DRBG (assumption 4). -/
opaque drbg : Nat → BitVec 256

/-- The dp-cycle within the epoch of the n-th event presented to the snag log, before its reduction
modulo 96,000 (assumption 7). -/
opaque cycle : Nat → BitVec 17

/-- A Falcon-1024 signature by a key over a message: key number, n-th signature, message (assumption 5). -/
opaque falconSign : Nat → Nat → List Byte → List Byte

/-- Whether a Falcon-1024 signature verifies: public key, message, signature (assumption 5). -/
opaque falconVerify : List Byte → List Byte → List Byte → Bool

/-- A public key of the device or of the maker, by number (assumption 5). -/
opaque publicKey : Nat → List Byte

/-- A secret of the device key store, by number (assumption 4). -/
opaque deviceKey : Nat → BitVec 256

/-- The session key of the Ubius link, which both heads hold; the manual does not state how it is agreed (assumption 104). -/
opaque sessionKey : BitVec 256

/-- The bytes that stand for a metadata delta in a delta log, whose format the manual does not give
(assumption 9). -/
opaque deltaBytes : Delta → List Byte

/-- What a read of a slot in no defined state returns: 0 ERASED, 1 UNCORRECTABLE, else an image
(assumption 13). -/
opaque tornKind : Nat → BitVec 2

/-- The image a read of such a slot returns, where it returns one (assumption 13). -/
opaque tornImage : Nat → List Byte

/-- Bytes of NVMe data structures and properties whose value the manual does not state: structure number
and offset (assumption 14). -/
opaque hostByte : Nat → Nat → Byte

/-- The progress figure PROG a format or sanitize shows at its n-th change (assumption 4). -/
opaque progress : Nat → BitVec 16

/-- The payload that a component's active slot holds where the boot flash directory of the model lists none: the image the
part was made with, by COMP (assumption 5). -/
opaque factoryImage : Nat → List Byte

/-- The CRC-64 of a retained SRAM bank: bank and count of draws; the bank's layout is not stated (assumption 9). -/
opaque bankCrc : Nat → Nat → BitVec 64

/-- A record of the packet trace: draws so far, records in the buffer, and what identifies the packet. The bytes of a packet's
headers and the place of the dp-cycle in a record are not stated (assumption 84). -/
opaque traceRecord : Nat → Nat → List Byte → List Byte

/-- Whether a fabric address lies in the security core's SRAM, ROM or key store, whose addresses are not stated (assumption 95). -/
opaque secCore : Nat → Bool

/-- The slots that Terzan reserves for the datapath flows when DP is enabled, as (slot, source port, destination port), by the count
of enables: the manual does not state which (assumption 96). -/
opaque slotPlan : Nat → List (Nat × Nat × Nat)

/-- The bytes of HBM that Terzan gives the hot index when DP is enabled, by the count of enables; none where it leaves the default
(assumption 105). -/
opaque hotRegion : Nat → Option Nat

/-- The pages that Terzan's second tier of the map page cache takes of the DDR5 that remains, by the count of draws (assumption 106). -/
opaque ddrPages : Nat → Nat

/-- How many attempts of an authoritative read by a background pass fail before one yields its pack, by the count of draws: 8 and more
fail the ladder (assumption 110). -/
opaque readFails : Nat → BitVec 4

/-- The size in bytes of a stripe journal ring that Terzan sets at an enable of STR; none keeps the 256 MiB of R191. -/
opaque journalRing : Nat → Option Nat

/-- Whether a program that journal replay issues fails (R171, R195). -/
opaque programFails : Nat → Bool

/-- The flits of the shadow tables of a domain, whose encoding in EPOCH frames the manual does not give (assumption 123). -/
opaque shadowFlits : Meta → Nat

/-- What the flit headers of the n-th frame received acknowledge and return, which the commands do not carry: how many of the oldest
flits of the replay buffer, and how many flits of credit of a class (assumption 123). -/
opaque linkAck : Nat → Nat
opaque linkReturn : Nat → Nat → Nat

/-- The SETPOINT of the GC pacing loop by the stripe shape and the number of modules, whose formula is not stated (assumption 124). -/
opaque gcSetpoint : Shape → Nat → Word

/-- P, the number of index pages that F_LO selects from (assumption 107). -/
opaque indexPages : Nat

end Sys2Proof.Config
end

