-- ==== Sys2Proof/Machine/State.lean ====
section
/-!
DEFINITION. The state of the VX920 as plain data, and the state after a power-on reset.
-/

namespace Sys2Proof.Machine

/-- Reasons to stop with a fault. No command of this model ends in one: what goes wrong inside the part is
an event, a status or a violation of the manual, and a next state. -/
inductive Fault where
  /-- Never raised; a closed set needs one name. Safe. -/
  | none
  deriving DecidableEq, Repr

/-- Reasons to refuse a command. -/
inductive Refusal where
  /-- The command has no meaning in this model yet; raised by the dispatch alone. Safe. -/
  | notModelled (mnemonic : String)
  deriving DecidableEq, Repr

/-- The whole machine. -/
structure State where
  blk : PerBlk BlkSt
  cfg : CfgRegs
  /-- Counters that are not zero, by register address. -/
  counters : Table Word
  /-- MSI-X table entries that are not zero, by vector; pending bits; vectors signalled (R347). -/
  msix : Table (List Byte)
  msixPending : List Nat
  irqs : List Nat
  top : TopState
  evr : EvrState
  mbx : MbxState
  ubl : UblState
  /-- The flit layer of the Ubius link. -/
  link : LinkSt
  fe : FeState
  dp : DpState
  map : MapState
  med : MedState
  str : StrState
  mlk : MlkState
  cip : CipState
  pwr : PwrState
  scr : ScrState
  rdm : RdmState
  dig : DigState
  upd : UpdState
  vault : VaultState
  /-- Draws of free values so far (assumption 4); the model's own field. -/
  draws : Nat
  /-- Commands waiting, first in first out; the model's own field. -/
  pending : List Instr
  deriving DecidableEq, Repr

/-! ### Reset (R438, the register headings, and assumption 11 where neither states a value) -/

/-- The fabric after a reset: nothing reserved. -/
def Fabric.reset : Fabric := ⟨[], none, List.replicate 16 0, false, 0⟩

/-- TOP after a power-on reset. -/
def TopState.reset : TopState where
  epoch := 0
  running := false
  epochHi := ⟨0, 0⟩
  readData := ⟨0, 0⟩
  intEn := 0
  violations := 0
  violLast := 0
  vaultPart := 1
  claims := List.replicate 14 ⟨0, 0, 0⟩
  timers := List.replicate 8 ⟨false, false, 0, 0, 0⟩
  pinmux := List.replicate 4 0
  board := 1
  resetCause := 4
  phase := 0
  failed := false
  took := ⟨false, false⟩
  dumpPartial := false
  peerDeclared := false
  head := 0
  fab := .reset

/-- EVR after a reset. -/
def EvrState.reset : EvrState := ⟨[], 0, [], false, false, [], false, 0, 0, false, []⟩

/-- MBX after a reset (R368, R374). -/
def MbxState.reset : MbxState := ⟨[], [], 0, 0, 0, false, [], []⟩

/-- A heartbeat path before its first frame. -/
def HbSt.reset : HbSt := ⟨0, 0, false, 0⟩

/-- The flit layer with the link down: no credit, nothing waiting. -/
def LinkSt.reset : LinkSt := ⟨List.replicate 5 ⟨[], 0, 0⟩, 0, 0, false, 0, 0, [], 0, List.replicate 5 0, 0, []⟩

/-- UBL after a reset. -/
def UblState.reset : UblState where
  up := false
  lanes := 0
  lost := false
  versionRefused := false
  tx := ⟨⟨0, [], []⟩, ⟨0, [], []⟩⟩
  rx := ⟨⟨0, [], [], []⟩, ⟨0, [], [], []⟩⟩
  erx := ⟨⟨none, none⟩, ⟨none, none⟩⟩
  mirror := []
  sheet := ⟨[], [], 0⟩
  peerSheet := 0
  waits := ⟨[], []⟩
  copied := ⟨0, 0⟩
  hold := ⟨false, false⟩
  shadow := ⟨Meta.empty, Meta.empty⟩
  shadowEpoch := ⟨0, 0⟩
  shadowLogs := ⟨[], []⟩
  hbLink := .reset
  hbPair := .reset
  hbState := 0
  peerState := 0
  pairOk := false
  faultReport := false
  peerFailed := false
  delay := false
  battenOut := ⟨false, false⟩
  battenIn := ⟨false, false⟩
  breakIn := false
  breakOut := false
  own := ⟨false, false⟩
  oepoch := ⟨0, 0⟩
  peerOepoch := ⟨0, 0⟩
  unmirrored := false
  filling := 0
  peerServing := false
  takeover := []
  handover := none
  rehearsing := false
  expectBreak := false
  record := ⟨(0, 0), (1, 0)⟩
  tone := false
  nextRehearse := 0
  holdsPeer := false
  lastStamp := ⟨0, 0⟩
  expectUnits := ⟨none, none⟩
  rehearseG := 0
  headClash := false
  retrainDue := false
  levelMin := 3
  peerLevel := 0
  peerVersion := 0
  array := []
  version := 0x03040007
  level := 4
  sent := []

/-- FE after a reset. -/
def FeState.reset : FeState :=
  ⟨⟨0, 0⟩, [], [], [], [], [], [], [], [], 0, ⟨false, false⟩, none, false, false, (0, 0), 0, [], []⟩

/-- DP after a reset; NB is the hot index's default region of 48 GiB (R96). -/
def DpState.reset : DpState := ⟨[], [], 0, 0, [], [], [], [], 0, [], [], 201326592, [], 0⟩

/-- MAP after a reset (R150). -/
def MapState.reset : MapState where
  live := ⟨Meta.empty, Meta.empty⟩
  flash := ⟨Meta.empty, Meta.empty⟩
  flashSeg := []
  ckpt := ⟨0, 0⟩
  log := ⟨⟨0, 0, []⟩, ⟨0, 0, []⟩⟩
  logs := ⟨[], []⟩
  work := ⟨none, none⟩
  hbm := []
  ddr := []
  ddrCap := 0
  sets := []
  walk := []
  evb := []
  hints := []
  hbmHints := []
  en := false
  wt := false
  invalidated := false
  busy := 0
  lastOp := 0
  refused := false
  reason := 0

/-- MED after a reset; the hold-up is the 1,500 ms of R453. -/
def MedState.reset : MedState where
  pseg := []
  pins := []
  reads := []
  formed := []
  cards := []
  sels := []
  temps := []
  victims := []
  copied := []
  folds := []
  subs := []
  gcSpent := 0
  recoatSpent := 0
  rebuildSpent := 0
  wearAt := []
  deferred := []
  health := []
  stats := []
  serials := []
  vsegs := 0
  ssegs := 0
  commissioned := false
  rtcFallback := false
  freeStripes := ⟨0, 0⟩
  holdup := 1500

/-- STR after a reset; a journal ring is 256 MiB (R191). -/
def StrState.reset : StrState := ⟨[], ⟨[], []⟩, 268435456, ⟨0, 0⟩⟩

/-- MLK after a reset, with no module wired. -/
def MlkState.reset : MlkState := ⟨[], [], [], ⟨false, false⟩, [], []⟩

/-- CIP after a reset; 64 drawn values are kept ready (R245). -/
def CipState.reset : CipState := ⟨[], [], 64, [], [], [], 0⟩

/-- PWR after a power-on reset; the AVS targets are the nominal voltages of R450. -/
def PwrState.reset : PwrState where
  current := 0
  target := 0
  inflight := false
  pending := none
  lastReason := 0
  prepared := false
  retain := 0x7F
  retLost := 0
  refused := []
  savedEpoch := 0
  rtc := 0
  rtcSet := false
  rtcSub := 0
  p0Time := 0
  wakeTime := 0
  faultStatus := 0
  wakes := []
  bankCrc := []
  avs := [750, 750, 800, 800]
  avsTry := []
  delays := []
  rings := []
  replanDue := false
  replanAt := 0
  replanP0 := 0
  pllHeld := false
  thermtrip := false
  parked := false
  peerParked := false
  parkWait := false
  pfail := 0
  pfailReleased := false
  ethUp := false

/-- SCR after a reset. -/
def ScrState.reset : ScrState := ⟨[], 0, [], [], [], [], [], [], [], 0, 0, 0, false, ⟨0, []⟩⟩

/-- RDM after a reset. -/
def RdmState.reset : RdmState := ⟨[], 0, [], [], [], [], 0, [], [], 0, 0, []⟩

/-- The security core and DIG after a reset: every context and measurement register clear, no fuse blown, a wrap key drawn
(R394). -/
def DigState.reset : DigState where
  ctxs := List.replicate 4 (DCtx.clear false)
  m := List.replicate 24 (zeros 64)
  counts := List.replicate 24 0
  last := ⟨0, []⟩
  alarmed := false
  recordSigned := false
  busError := false
  inputs := 0
  bootCount := 0
  stored := some 0
  fuses := 0
  bootHi := ⟨0, 0⟩
  log := []
  logFull := false
  wrapKey := leBytes 32 (Config.drbg 0).toNat
  exports := []
  qseq := 0
  record := []
  toSec := []
  toTerzan := []
  m5 := false
  signs := 0

/-- The update state with an empty boot flash. -/
def UpdState.reset : UpdState := ⟨[], [], [], none, none, [], false, false, false, false, false⟩

/-- The vault before the first dump. -/
def VaultState.reset : VaultState := ⟨none, false, [], [], none⟩

/-- The machine right after a power-on reset (R438). -/
def State.reset : State where
  blk := ⟨.reset true, .reset true, .reset false, .reset false, .reset false, .reset false, .reset false, .reset false,
    .reset false, .reset false, .reset false, .reset false, .reset false, .reset false, .reset false⟩
  cfg := .reset
  counters := []
  msix := []
  msixPending := []
  irqs := []
  top := .reset
  evr := .reset
  mbx := .reset
  ubl := .reset
  link := .reset
  fe := .reset
  dp := .reset
  map := .reset
  med := .reset
  str := .reset
  mlk := .reset
  cip := .reset
  pwr := .reset
  scr := .reset
  rdm := .reset
  dig := .reset
  upd := .reset
  vault := .reset
  draws := 1
  pending := []

end Sys2Proof.Machine
end

