-- ==== Sys2Proof/Machine/Ops.lean ====
section
/-!
DEFINITION. Operations every family shares: counters, events and their clearing, MSI-X, violations, the
snag log's input queue, notifications, free values, and metadata deltas.
-/

namespace Sys2Proof.Machine

/-- The outcome of a command. -/
abbrev Res := Host.Outcome State Fault Refusal

/-! ### Reason codes (Table 15.9) -/

abbrev rsnRange : Nat := 0x0001
abbrev rsnDepOff : Nat := 0x0002
abbrev rsnDepOn : Nat := 0x0003
abbrev rsnHeld : Nat := 0x0004
abbrev rsnBusy : Nat := 0x0005
abbrev rsnNotOwned : Nat := 0x0006
abbrev rsnNotFound : Nat := 0x0007
abbrev rsnExists : Nat := 0x0008
abbrev rsnNoSpace : Nat := 0x0009
abbrev rsnInUse : Nat := 0x000A
abbrev rsnBadSeq : Nat := 0x000B
abbrev rsnUnsupported : Nat := 0x000C
abbrev rsnDirty : Nat := 0x0101
abbrev rsnNotInvalidated : Nat := 0x0102
abbrev rsnSlotEmpty : Nat := 0x0201
abbrev rsnUsage : Nat := 0x0202
abbrev rsnZeroized : Nat := 0x0203
abbrev rsnNonce : Nat := 0x0204
abbrev rsnUnwrap : Nat := 0x0209
abbrev rsnReplaced : Nat := 0x0301
abbrev rsnCancelled : Nat := 0x0302
abbrev rsnRefused : Nat := 0x0303
abbrev rsnRegulator : Nat := 0x0304
abbrev rsnRetention : Nat := 0x0305
abbrev rsnAlarm : Nat := 0x0401
abbrev rsnWrapOnly : Nat := 0x0402
abbrev rsnSignature : Nat := 0x0403
abbrev rsnVersion : Nat := 0x0501
abbrev rsnRollback : Nat := 0x0502
abbrev rsnHeader : Nat := 0x0503
abbrev rsnHealth : Nat := 0x0504
abbrev rsnPeer : Nat := 0x0505

/-- Change one block's common registers. -/
def State.updBlk (s : State) (b : Blk) (f : BlkSt → BlkSt) : State :=
  { s with blk := s.blk.set b (f (s.blk.get b)) }

/-- A counter's value. -/
def State.counter (s : State) (c : Ctr) : Word := Table.getD s.counters c.addr 0

/-- Set a counter; a zero is not listed. -/
def State.setCounter (s : State) (c : Ctr) (v : Word) : State :=
  { s with counters := if v = 0 then Table.del s.counters c.addr else Table.put s.counters c.addr v }

/-- Add to a counter that wraps at 2^32 (R88). -/
def State.count (s : State) (c : Ctr) (n : Nat := 1) : State :=
  s.setCounter c (s.counter c + BitVec.ofNat 32 n)

/-- Add one to a counter that saturates (R437). -/
def State.countSat (s : State) (c : Ctr) : State :=
  s.setCounter c (if s.counter c = BitVec.allOnes 32 then s.counter c else s.counter c + 1)

/-- The mask bit of an MSI-X table entry (PCI Express): vector control bit 0, or no address set up. -/
def State.msixMasked (s : State) (v : Nat) : Bool :=
  match Table.find s.msix v with
  | some e => bitOf (leAt e 12 4) 0
  | none => false

/-- Signal an MSI-X vector, or mark it pending where its entry is masked (R347). -/
def State.signal (s : State) (v : Nat) : State :=
  if s.msixMasked v then
    { s with msixPending := if v ∈ s.msixPending then s.msixPending else s.msixPending ++ [v] }
  else { s with irqs := s.irqs ++ [v] }

/-- Record one occurrence of event `bit`: SEQ advances, the bit is set with its latest SEQ, and events
128 or more behind become aged (R356). -/
def BlkSt.raise (k : BlkSt) (bit : Nat) : BlkSt :=
  let q := k.seq + 1
  let old := (k.events.filter (fun e => e.bit ≠ bit)).map fun e =>
    if (q - e.seq).toNat ≥ 128 then { e with aged := true } else e
  { k with seq := q, events := old ++ [⟨bit, q, false⟩] }

/-- An event of a block's STATUS register, with its vector where TOP_INT_EN allows it (R347, R356). -/
def State.raise (s : State) (b : Blk) (bit : Nat) : State :=
  let s1 := s.updBlk b (·.raise bit)
  if bitOf s.top.intEn.toNat b.num then s1.signal b.num else s1

/-- An accepted STATUS_ACK value clears the bits at or before it and the aged ones (R356). -/
def BlkSt.ack (k : BlkSt) (a : Byte) : BlkSt :=
  { k with events := k.events.filter fun e => !(e.aged || decide ((a - e.seq).toNat < 128)) }

/-- A write of A to STATUS_ACK is accepted when A is at most 127 behind SEQ (R356). -/
def BlkSt.ackOk (k : BlkSt) (a : Byte) : Bool := decide ((k.seq - a).toNat < 128)

/-- The STATUS register as it reads: SEQ in [31:24] and the event bits. -/
def BlkSt.statusReg (k : BlkSt) : Word :=
  BitVec.ofNat 32 (k.seq.toNat * 2 ^ 24 + k.events.foldl (fun v e => v ||| 2 ^ e.bit) 0)

/-- The value of SOURCE in TOP_VIOL_LAST for a BAR0 access (R359). -/
def violSource : Requester → Nat
  | .head => 0
  | .cluster => 2

/-- A violation: counted, saturating, with its address recorded (R359). -/
def State.violation (s : State) (source : Nat) (write : Bool) (offset : Nat) : State :=
  { s with top := { s.top with
      violations := if s.top.violations = BitVec.allOnes 32 then s.top.violations else s.top.violations + 1
      violLast := BitVec.ofNat 32 (source * 2 ^ 30 + b2n write * 2 ^ 29 + offset % 2 ^ 26) } }

/-- The bits [47:0] of the current epoch. -/
def State.epoch48 (s : State) : Nat := s.top.epoch.toNat % 2 ^ 48

/-- Present an event to EVR's input queue; a full queue drops it (R429). The epoch and cycle are those
of the presentation; before the epoch timer starts they are 0 and 0x1_FFFF. -/
def State.snag (s : State) (source code : Nat) (sd : Option SD := none) (port : Nat := 0xFF)
    (arg : List Byte := []) : State :=
  if s.evr.inq.length ≥ 64 then (s.countSat .evrDropped).raise .evr 1
  else
    let started := s.top.running || decide (s.top.epoch ≠ 0)
    let r : Snag := ⟨0, if started then s.top.epoch else 0,
      if started then (Config.cycle s.draws).toNat % 96000 else 0x1FFFF, source, code, 0, 0, sd, port, fit arg 10⟩
    { s with draws := s.draws + 1, evr := { s.evr with inq := s.evr.inq ++ [r] } }

/-- The bytes of a notification entry (Table 16.10). -/
def ntfBytes (code : Nat) (raised : Bool) (sd : Option SD) (port epoch : Nat) (arg : List Byte) : List Byte :=
  leBytes 2 code ++
  leBytes 1 (b2n raised + match sd with | none => 0 | some d => 2 * d.num + 4) ++ leBytes 1 port ++
  leBytes 6 epoch ++ zeros 6 ++ fit arg 16

/-- Terzan's notification of an event: an entry of the ring of channel 63, or a loss where the ring is
full; and in either case a snag log record (R378, R379). -/
def State.notify (s : State) (source code : Nat) (raised : Bool := true) (sd : Option SD := none)
    (port : Nat := 0xFF) (arg : List Byte := []) : State :=
  let s1 := s.snag source code sd port arg
  let m := s1.mbx
  if (m.prod + 128 - m.cons) % 128 ≥ 64 then
    let l := if m.lost = BitVec.allOnes 32 then m.lost else m.lost + 1
    ({ s1 with mbx := { m with lost := l } }).raise .mbx 1
  else
    let e := ntfBytes code raised sd port s1.epoch48 arg
    let s2 := { s1 with mbx := { m with ntf := Table.put m.ntf (m.prod % 64) e, prod := (m.prod + 1) % 128 } }
    let s3 := s2.raise .mbx 0
    if m.ntfInt then s3.signal 79 else s3

/-- Draw a 32-byte value from the DRBG (assumption 4). -/
def State.draw (s : State) : List Byte × State :=
  (leBytes 32 (Config.drbg s.draws).toNat, { s with draws := s.draws + 1 })

/-! ### Metadata -/

/-- The live metadata of a domain. -/
def State.metaOf (s : State) (d : SD) : Meta := s.map.live.get d

/-- Replace the live metadata of a domain. -/
def State.setMeta (s : State) (d : SD) (m : Meta) : State :=
  { s with map := { s.map with live := s.map.live.set d m } }

/-- The bytes of a delta log (assumption 9). -/
def DLog.bytes (l : DLog) : List Byte := l.deltas.flatMap Config.deltaBytes

/-- Key of a physical segment record: port × 2^20 + PSEG. -/
def psegKey (port pseg : Nat) : Nat := port * 2 ^ 20 + pseg

/-- The physical segment tables change with the deltas that name them (R162). -/
def MedState.applyDelta (m : MedState) : Delta → MedState
  | .pseg port p v => { m with pseg := Table.put m.pseg (psegKey port p) v }
  | _ => m

/-- Record a delta of a domain: the structure changes, and the change joins the delta log of the current
epoch (R34, R161, R162). -/
def State.delta (s : State) (d : SD) (x : Delta) : State :=
  let l := s.map.log.get d
  let q := match x with
    | .full _ _ | .fullDrop _ => [(d, x)]
    | _ => []
  { s with
    map := { s.map with live := s.map.live.set d ((s.metaOf d).apply x)
                        log := s.map.log.set d { l with deltas := l.deltas ++ [x] } }
    med := s.med.applyDelta x
    dp := { s.dp with fullQ := s.dp.fullQ ++ q } }

/-- Record several deltas in order. -/
def State.deltas (s : State) (d : SD) (l : List Delta) : State := l.foldl (fun s x => s.delta d x) s

/-- The delta log of the current epoch has reached 512 KiB (R314). -/
def State.logFull (s : State) (d : SD) : Bool := (s.map.log.get d).bytes.length ≥ 524288

/-! ### Blocks at work -/

/-- A block does its work: enabled or draining, and a datapath block past the boundary that follows its enable (R360). -/
def State.works (s : State) (b : Blk) : Bool := (s.blk.get b).enabled && !(s.blk.get b).waits

/-- A block accepts new work: it works and does not drain (R361). -/
def State.takes (s : State) (b : Blk) : Bool := s.works b && !(s.blk.get b).draining

/-- The controller owns a domain. -/
def State.owns (s : State) (d : SD) : Bool := s.ubl.own.get d

/-- The controller serves a domain: it owns it and no takeover of it is short of step 8 (Table 13.8). -/
def State.serves (s : State) (d : SD) : Bool := s.owns d && !(s.ubl.takeover.any fun t => t.sd = d)

/-- The domains the controller owns. -/
def State.owned (s : State) : List SD := [SD.a, SD.b].filter s.owns

/-- A frame joins the flow of its class (R308). -/
def LinkSt.put (l : LinkSt) (f : TxFrame) : LinkSt :=
  match f.cls with
  | none => l
  | some c => { l with flows := updAt l.flows c fun x => { x with queue := x.queue ++ [f] } }

/-- Hand a frame to the link or the heartbeat pair. -/
def State.sendRaw (s : State) (f : TxFrame) : State :=
  { s with ubl := { s.ubl with sent := s.ubl.sent ++ [f] }, link := s.link.put f }

/-- Send a frame to the peer, where the link is up. -/
def State.send (s : State) (f : TxFrame) : State := if s.ubl.up then s.sendRaw f else s

/-! ### Power domains (Table 19.1) -/

/-- A power domain is on in P1. -/
def onP1 (d : Nat) : Bool :=
  !(77 ≤ d && d ≤ 99 || 115 ≤ d && d ≤ 118 || 120 ≤ d && d ≤ 139)

/-- A power domain is on in P2. -/
def onP2 (d : Nat) : Bool :=
  d ≤ 3 || 5 ≤ d && d ≤ 8 || d = 37 || d ∈ [48, 51, 56, 57, 65, 75, 76, 147, 150]

/-- A power domain is on in a power state (Table 19.1). -/
def domainOn (state d : Nat) : Bool :=
  match state with
  | 0 => true
  | 1 => onP1 d
  | 2 => onP2 d
  | _ => d ≤ 1

/-- The power domain that holds a block's registers (Table 19.1). -/
def Blk.domain : Blk → Nat
  | .top | .pwr | .mbx | .evr => 2
  | .scr => 4 | .dig => 1 | .dp => 99 | .map => 112 | .med => 114 | .str => 119 | .mlk => 151
  | .fe => 141 | .rdm => 142 | .ubl => 150 | .cip => 140

/-- A block's domain is on (R413, R414); while the root PLL is out of lock every domain but the always-on one
is in reset (R25). -/
def State.powered (s : State) (b : Blk) : Bool := !s.pwr.pllHeld && domainOn s.pwr.current b.domain

/-- The current hour (R165): from the RTC where it has been set, else the highest HOUR recorded. -/
def State.hour (s : State) : Nat :=
  if s.pwr.rtcSet then s.pwr.rtc.toNat / 3600000000 else s.med.pseg.foldl (fun n (_, r) => max n r.hour) 0

/-! ### Wake events (R420) -/

/-- The power states in which a source of Table 19.5, by its row from 1, wakes. -/
def wakesIn (src state : Nat) : Bool :=
  match src with
  | 1 => state = 1
  | 2 | 3 => state = 1 || state = 2
  | 8 => state = 3
  | _ => state ≠ 0

/-- A wake source fires: latched where it wakes the present state, or the state being entered (R420). -/
def State.wakeEvent (s : State) (src : Nat) : State :=
  let t := if s.pwr.inflight ∧ s.pwr.target ≠ 0 then s.pwr.target else s.pwr.current
  if !wakesIn src t ∨ src ∈ s.pwr.wakes then s else { s with pwr := { s.pwr with wakes := s.pwr.wakes ++ [src] } }

/-! ### Buffered writes (R35, R355) -/

/-- A commit-epoch register takes a write: it applies at the nearer boundary, or at the one after where it
is accepted at or after the cut-off (R35). -/
def Cfg.write (c : Cfg) (late : Bool) (v : Half) : Cfg :=
  if late then { c with far := some v } else { c with near := some v }

/-- PENDING_AT of a block that has taken a write (R355). -/
def State.pend (s : State) (b : Blk) (late : Bool) : State :=
  s.updBlk b fun k => { k with pendingAt := BitVec.ofNat 16 (s.top.epoch.toNat + if late then 2 else 1) }

/-! ### Claims (R362) -/

/-- The holder of a resource. -/
def State.claimHolder (s : State) (r : Nat) : Nat := ((s.top.claims[r]?).map (·.holder)).getD 0

/-- Claim a resource: refused with RESOURCE_HELD and the holder where another holds it; the claimant that
already holds it keeps it. -/
def State.claim (s : State) (r who : Nat) : Bool × State :=
  let h := s.claimHolder r
  if h = 0 ∨ h = who then
    (true, { s with top := { s.top with claims := updAt s.top.claims r fun c => { c with holder := who } } })
  else
    (false, { s with top := { s.top with claims := updAt s.top.claims r fun c => { c with refusedId := who, reason := 4 } } })

/-- Release a resource that `who` holds. -/
def State.release (s : State) (r who : Nat) : State :=
  if s.claimHolder r = who then
    { s with top := { s.top with claims := updAt s.top.claims r fun c => { c with holder := 0 } } }
  else s

end Sys2Proof.Machine
end

