-- ==== Sys2Proof/Machine/MapOps.lean ====
section
/-!
DEFINITION. Operations over the translation map: entries, the walk, reference counts, the copy rule, the
hot index, the map cache, the eviction buffer and the hint table.
-/

namespace Sys2Proof.Machine

/-- A map entry (Tables 06.2, 06.3). `bad` is a map format error (R138). -/
inductive MapEnt where
  | unmapped
  | zero
  | stored (raw : Bool) (loc : Nat) (chain : Option (Bool × Nat))  -- SNEXT and SPIDX of a chained type
  | bad
  deriving DecidableEq, Repr

/-- Read a 64-bit map entry (R136, R138). -/
def MapEnt.ofWord (e : DWord) : MapEnt :=
  let n := e.toNat
  match bitsOf n 63 61 with
  | 0 => if bitsOf n 60 0 = 0 then .unmapped else .bad
  | 1 => if bitsOf n 60 0 = 0 then .zero else .bad
  | 2 => if bitsOf n 60 48 = 0 then .stored false (bitsOf n 47 0) none else .bad
  | 3 => if bitsOf n 60 48 = 0 then .stored true (bitsOf n 47 0) none else .bad
  | 4 => .stored false (bitsOf n 47 0) (some (bitOf n 60, bitsOf n 59 48))
  | 5 => .stored true (bitsOf n 47 0) (some (bitOf n 60, bitsOf n 59 48))
  | _ => .bad

/-- The 64-bit word of a map entry (R136); a format error has none and reads as reserved. -/
def MapEnt.word : MapEnt → DWord
  | .unmapped => 0
  | .zero => BitVec.ofNat 64 (1 * 2 ^ 61)
  | .stored raw loc none => BitVec.ofNat 64 ((if raw then 3 else 2) * 2 ^ 61 + loc)
  | .stored raw loc (some (sn, sp)) =>
    BitVec.ofNat 64 ((if raw then 5 else 4) * 2 ^ 61 + b2n sn * 2 ^ 60 + sp * 2 ^ 48 + loc)
  | .bad => BitVec.ofNat 64 (7 * 2 ^ 61)

/-- The LOC a stored entry names. -/
def MapEnt.loc? : MapEnt → Option Nat
  | .stored _ l _ => some l
  | _ => none

/-- A directory entry that names a present child (R139). -/
def dirWord (mpid : Nat) : DWord := BitVec.ofNat 64 (2 ^ 61 + mpid)

/-- The child a directory entry names, if present (R139). -/
def dirChild (e : DWord) : Option Nat :=
  if bitsOf e.toNat 63 61 = 1 then some (bitsOf e.toNat 47 0) else none

/-- DEPTH for a size in granules: the smallest value of at least 1 with 512^DEPTH ≥ ⌈SIZE / 512⌉ (R139). -/
def depthOf (size : Nat) : Nat :=
  let leaves := (size + 511) / 512
  if leaves ≤ 512 then 1 else if leaves ≤ 512 ^ 2 then 2 else if leaves ≤ 512 ^ 3 then 3 else 4

/-- The entry index of leaf `p` in a directory page of level `l`. -/
def dirIdx (l leaf : Nat) : Nat := (leaf / 512 ^ (l - 1)) % 512

/-- The pages from a page of level `l` down to the leaf of a granule, as far as they are present: each
with its MPID and its level. -/
def pathDown (m : Meta) (leaf : Nat) : Nat → Nat → List (Nat × Nat)
  | 0, mpid => [(mpid, 0)]
  | l + 1, mpid =>
    (mpid, l + 1) ::
    match (Table.find m.pages mpid).bind fun p => dirChild (p.ent (dirIdx (l + 1) leaf)) with
    | some c => pathDown m leaf l c
    | none => []

/-- The path of a root toward a granule (R139, R153): TOP first. -/
def rootPath (m : Meta) (r : RootRec) (gran : Nat) : List (Nat × Nat) :=
  pathDown m (gran / 512) r.depth r.top

/-- The leaf of a granule, if it is present. -/
def leafOf (m : Meta) (r : RootRec) (gran : Nat) : Option Nat :=
  ((rootPath m r gran).find? (fun p => p.2 = 0)).map Prod.fst

/-- The map entry of a granule of a root: an absent child reads UNMAPPED (R139). -/
def entryOf (m : Meta) (root gran : Nat) : DWord :=
  match Table.find m.roots root with
  | none => 0
  | some r =>
    match (leafOf m r gran).bind (Table.find m.pages) with
    | some p => p.ent (gran % 512)
    | none => 0

/-! ### The hot index and full index -/

/-- F_LO (R92). -/
def fLo (fp : List Byte) : Nat := leAt fp 0 8

/-- TAG: bytes 8 to 23 of F (R92). -/
def fTag (fp : List Byte) : List Byte := slice fp 8 16

/-- The bucket of a fingerprint (R96). -/
def bucketOf (fp : List Byte) (nb : Nat) : Nat := (fLo fp * nb) / 2 ^ 64

/-- Key of the full index: DDOM above F (R104). -/
def fullKey (ddom : Nat) (fp : List Byte) : Nat := ddom * 2 ^ 192 + leNat (fit fp 24)

/-- An entry matches a fingerprint (R98). -/
def HotEnt.is (e : HotEnt) (ddom : Nat) (d : SD) (fp : List Byte) : Bool :=
  e.valid && decide (e.tag = fTag fp ∧ e.ddom = ddom ∧ e.sd = d)

/-- The lookup of R98: the lowest-numbered entry that matches. -/
def DpState.lookup (p : DpState) (ddom : Nat) (d : SD) (fp : List Byte) : Option Nat :=
  ((Table.getD p.hot (bucketOf fp p.nb) []).find? (fun e => e.is ddom d fp)).map (·.loc)

/-- Which entry of a full bucket an insert replaces: lowest HITS, then INS_EPOCH, then number (R99). -/
def victimEnt : List HotEnt → Nat
  | [] => 0
  | e :: es => ((es.zipIdx).foldl (fun (b : HotEnt × Nat) (x, i) =>
      if x.hits < b.1.hits ∨ (x.hits = b.1.hits ∧ x.insEpoch < b.1.insEpoch) then (x, i + 1) else b) (e, 0)).2

/-- Insert into a bucket of eight entries (R99): the new bucket, and whether the insert was dropped. -/
def bucketInsert (b : List HotEnt) (e : HotEnt) (fp : List Byte) : List HotEnt × Bool :=
  if b.any (fun x => x.is e.ddom e.sd fp) then (b, true)
  else
    match b.findIdx? (fun x => !x.valid) with
    | some i => (b.set i e, false)
    | none => if b.length < 8 then (b ++ [e], false) else (b.set (victimEnt b) e, false)

/-- The valid entries of the hot index, each with its bucket and number. -/
def DpState.validHot (p : DpState) : List (Nat × Nat × HotEnt) :=
  p.hot.flatMap fun (i, b) => ((b.zipIdx).filter fun (e, _) => e.valid).map fun (e, j) => (i, j, e)

/-- Entry `y` goes before entry `x`: lowest HITS, and among those lowest INS_EPOCH. -/
def HotEnt.before (y x : HotEnt) : Bool := decide (y.hits < x.hits ∨ (y.hits = x.hits ∧ y.insEpoch < x.insEpoch))

/-- Terzan keeps the occupancy at or below 15/16 (R96): above it, it invalidates the entry with the lowest HITS, then INS_EPOCH,
then bucket and number (DESIGN CHOICE, assumption 105). -/
def DpState.trimHot (p : DpState) : DpState :=
  match p.validHot with
  | [] => p
  | v :: vs =>
    if 16 * (vs.length + 1) ≤ 15 * (8 * p.nb) then p
    else
      let w := vs.foldl (fun b x => if x.2.2.before b.2.2 then x else b) v
      { p with hot := Table.upd p.hot w.1 fun b => updAt b w.2.1 fun e => { e with valid := false } }

/-- Insert an entry of the hot index (R99, R100). -/
def DpState.insertHot (p : DpState) (e : HotEnt) (fp : List Byte) : DpState × Bool :=
  let i := bucketOf fp p.nb
  let (b, dropped) := bucketInsert (Table.getD p.hot i []) e fp
  ({ p with hot := Table.put p.hot i b }.trimHot, dropped)

/-- Count a hit on the matching entry, saturating (R97, R99). -/
def DpState.hitHot (p : DpState) (ddom : Nat) (d : SD) (fp : List Byte) : DpState :=
  let i := bucketOf fp p.nb
  { p with hot := Table.upd p.hot i fun b =>
      match b.findIdx? (fun e => e.is ddom d fp) with
      | some j => updAt b j fun e => { e with hits := min 0xFFFF (e.hits + 1) }
      | none => b }

/-- Invalidate the entry of a stored granule: the entry that matches and names the LOC (R103, R106). -/
def DpState.dropHot (p : DpState) (ddom : Nat) (d : SD) (fp : List Byte) (loc : Nat) : DpState :=
  let i := bucketOf fp p.nb
  { p with hot := Table.upd p.hot i fun b =>
      b.map fun e => if e.is ddom d fp ∧ e.loc = loc then { e with valid := false } else e }

/-- Move an entry to a copy (R174 step 3). -/
def DpState.moveHot (p : DpState) (ddom : Nat) (d : SD) (fp : List Byte) (x c : Nat) : DpState :=
  let i := bucketOf fp p.nb
  { p with hot := Table.upd p.hot i fun b =>
      b.map fun e => if e.is ddom d fp ∧ e.loc = x then { e with loc := c } else e }

/-! ### Reference records -/

/-- The reference record of a LOC. -/
def State.refOf (s : State) (d : SD) (loc : Nat) : Option RefRec := Table.find (s.metaOf d).refs loc

/-- A hit on the record stands (R102). -/
def RefRec.hitOk (r : RefRec) : Bool :=
  (r.st = .live ∨ r.st = .freePending) && !r.fpBad && decide (r.count < countMax)

/-- One more reference (R102, R158): at the limit COUNT stays, SAT is set and MAP_STATUS says so. -/
def State.addRef (s : State) (d : SD) (loc : Nat) : State :=
  match s.refOf d loc with
  | none => s
  | some r =>
    if r.sat then s
    else if r.count ≥ countMax then (s.delta d (.ref loc (some { r with sat := true }))).raise .map 3
    else
      s.delta d (.ref loc (some { r with
        count := r.count + 1, st := if r.st = .freePending then .live else r.st }))

/-- The LOC the full index names for a key once every delta recorded is applied (R104, R105). -/
def State.fullNow (s : State) (d : SD) (key : Nat) : Option Nat :=
  (s.dp.fullQ.foldl (fun (t : Option Nat) (e, x) => match x with
    | .full k v => if e = d ∧ k = key then v else t
    | _ => t) ((s.metaOf d).fullAt key))

/-- Record the invalidation of a granule's index entries (R103): hot index now, full index as a delta. -/
def State.dropIndex (s : State) (d : SD) (r : RefRec) (loc : Nat) : State :=
  let s1 := { s with dp := s.dp.dropHot r.ddom d r.fp loc }
  let k := fullKey r.ddom r.fp
  if s1.fullNow d k = some loc then s1.delta d (.full k none) else s1

/-- A granule whose COUNT has reached 0 becomes free-pending in this epoch (R103 step 1); its loss-map
entry goes (R208). A copy whose source is still being relocated is left (R174). -/
def State.freePending (s : State) (d : SD) (loc : Nat) : State :=
  match s.refOf d loc with
  | none => s
  | some r =>
    if r.st = .live ∧ r.copyOf.isNone then
      let s1 := s.delta d (.ref loc (some { r with st := .freePending, zeroAt := s.top.epoch }))
      s1.dropIndex d r loc
    else if r.st = .lost then
      let s1 := s.delta d (.loss loc none)
      s1.delta d (.ref loc (some { r with st := .freed }))
    else s

/-- One reference less (R158): with SAT set COUNT no longer changes. -/
def State.subRef (s : State) (d : SD) (loc : Nat) : State :=
  match s.refOf d loc with
  | none => s
  | some r =>
    if r.sat then s
    else
      let r' := { r with count := r.count - 1 }
      let s1 := s.delta d (.ref loc (some r'))
      if r'.count = 0 then s1.freePending d loc else s1

/-- The chain fields of a stored granule's entry: SNEXT and SPIDX from its successor pack (R136, R157). -/
def chainOf (loc : Nat) (succ : Option Nat) : Option (Bool × Nat) :=
  succ.map fun p => (decide (p / 4096 ≠ (Loc.ofNum loc).seg), p % 4096)

/-- The map entry that names a stored granule (R157). -/
def RefRec.ent (r : RefRec) (loc : Nat) : MapEnt := .stored r.raw loc (chainOf loc r.succ)

/-- A back-reference record for an entry that names a granule (R159). -/
def State.backRef (s : State) (d : SD) (mpid idx loc : Nat) : State :=
  s.delta d (.back (Loc.ofNum loc).seg ⟨mpid, idx, loc⟩)

/-! ### Pages, the copy rule, entries -/

/-- Pages for which the HBM tier has room: what the 72 GB leave beside the hot index and the 2 GiB of the hint table (Table
01.4). -/
def DpState.hbmPages (p : DpState) : Nat := (72000000000 - 256 * p.nb - 2147483648) / 4096

/-- A page enters the HBM tier; past its room the oldest leaves, and is written to the DDR5 tier (R142). -/
def State.enterHbm (s : State) (d : SD) (mpid : Nat) : State :=
  if (d, mpid) ∈ s.map.hbm then s
  else
    let l := s.map.hbm ++ [(d, mpid)]
    let out := l.take (l.length - s.dp.hbmPages)
    { s with map := { s.map with
        hbm := l.drop (l.length - s.dp.hbmPages), ddr := s.map.ddr ++ out.filter (· ∉ s.map.ddr) } }

/-- A page that has been freed leaves its tiers. -/
def State.leaveTiers (s : State) (d : SD) (mpid : Nat) : State :=
  { s with map := { s.map with hbm := s.map.hbm.filter (· ≠ (d, mpid)), ddr := s.map.ddr.filter (· ≠ (d, mpid)) } }

/-- A new page of a level with SHARE 1 (R141): its MPID and the state. -/
def State.newPage (s : State) (d : SD) (level : Nat) (ents : Table DWord) : Nat × State :=
  let n := (s.metaOf d).nextMpid
  (n, ((s.delta d (.mpidNext (n + 1))).delta d (.page n (some ⟨level, 1, ents⟩))).enterHbm d n)

/-- Change a page's SHARE. -/
def State.share (s : State) (d : SD) (mpid : Nat) (f : Nat → Nat) : State :=
  match Table.find (s.metaOf d).pages mpid with
  | some p => s.delta d (.page mpid (some { p with share := f p.share }))
  | none => s

/-- The key of the walk cache (R143). -/
def walkKey (d : SD) (root leaf : Nat) : Nat := d.num * 2 ^ 55 + root * 2 ^ 34 + leaf

/-- The hash of R143 and R151. -/
def mapHash (k : Nat) : Nat := (k * 0x9E3779B97F4A7C15) % 2 ^ 64

/-- The index of a walk cache key (R143). -/
def walkIdx (k : Nat) : Nat := mapHash k / 2 ^ 48

/-- A walk cache lookup (R143). -/
def MapState.walkHit (m : MapState) (d : SD) (root leaf : Nat) : Option Nat :=
  let k := walkKey d root leaf
  match Table.find m.walk (walkIdx k) with
  | some (k', p) => if k = k' then some p else none
  | none => none

/-- Put a walk cache entry, replacing what its index holds (R143). -/
def MapState.putWalk (m : MapState) (d : SD) (root leaf mpid : Nat) : MapState :=
  let k := walkKey d root leaf
  { m with walk := Table.put m.walk (walkIdx k) (k, mpid) }

/-- The first page on a path whose SHARE is above 1, with the page above it (R153). -/
def firstShared (m : Meta) : Option Nat → List (Nat × Nat) → Option (Option Nat × Nat × Nat)
  | _, [] => none
  | up, (p, l) :: rest =>
    if ((Table.find m.pages p).map (·.share)).getD 1 > 1 then some (up, p, l) else firstShared m (some p) rest

/-- The page a write to a granule of a root must copy next, if any (R153). -/
def State.mustCopy (s : State) (d : SD) (root gran : Nat) : Option (Option Nat × Nat × Nat) :=
  let m := s.metaOf d
  match Table.find m.roots root with
  | some r => firstShared m none (rootPath m r gran)
  | none => none

/-- One page copy of R153 on the path to a granule of a root: a new MPID with SHARE 1, the original's
SHARE lower, the parent or TOP renamed, children's SHARE higher or the leaf's granules referenced. -/
def State.copyPage (s : State) (d : SD) (root gran : Nat) : State :=
  match s.mustCopy d root gran with
  | none => s
  | some (up, mpid, level) =>
    match Table.find (s.metaOf d).pages mpid, Table.find (s.metaOf d).roots root with
    | some p, some r =>
      let (n, s1) := s.newPage d level p.ents
      let s2 := s1.share d mpid (· - 1)
      let s3 := match up with
        | none => s2.delta d (.root root (some { r with top := n }))
        | some u => s2.delta d (.entry u (dirIdx (level + 1) (gran / 512)) (dirWord n))
      if level = 0 then
        let s4 := p.ents.foldl (fun s (i, e) =>
          match (MapEnt.ofWord e).loc? with
          | some l => (s.addRef d l).backRef d n i l
          | none => s) s3
        { s4 with map := s4.map.putWalk d root (gran / 512) n }
      else
        p.ents.foldl (fun s (_, e) =>
          match dirChild e with
          | some c => s.share d c (· + 1)
          | none => s) s3
    | _, _ => s

/-- Make the missing pages of a path, from the level below the last page present (R139, R141). -/
def State.growPath (s : State) (d : SD) (gran : Nat) : Nat → Nat → State
  | 0, _ => s
  | l + 1, mpid =>
    match (Table.find (s.metaOf d).pages mpid).bind fun p => dirChild (p.ent (dirIdx (l + 1) (gran / 512))) with
    | some c => s.growPath d gran l c
    | none =>
      let (n, s1) := s.newPage d l []
      (s1.delta d (.entry mpid (dirIdx (l + 1) (gran / 512)) (dirWord n))).growPath d gran l n

/-- Write one map entry of a root whose path needs no copy: pages are made where absent, the granule
named before loses a reference, the one named now gains one and a back-reference (R153, R158, R159). -/
def State.writeEntry (s : State) (d : SD) (root gran : Nat) (e : MapEnt) : State :=
  match Table.find (s.metaOf d).roots root with
  | none => s
  | some r =>
    let s1 := s.growPath d gran r.depth r.top
    match leafOf (s1.metaOf d) r gran with
    | none => s1
    | some leaf =>
      let old := MapEnt.ofWord (entryOf (s1.metaOf d) root gran)
      let s2 := s1.delta d (.entry leaf (gran % 512) e.word)
      let s3 := { s2 with map := s2.map.putWalk d root (gran / 512) leaf }
      let s4 := match e.loc? with
        | some l => (s3.addRef d l).backRef d leaf (gran % 512) l
        | none => s3
      match old.loc? with
      | some l => s4.subRef d l
      | none => s4

/-- The roots a delta with a stamp applies to: the root, and its unsealed snapshots whose POINT lies above
the stamp (R154). -/
def deltaRoots (m : Meta) (root stamp : Nat) : List Nat :=
  root :: (m.roots.filter fun (_, r) =>
    r.kind = 1 ∧ !r.isSealed ∧ r.parent = some root ∧ r.point > stamp).map Prod.fst

/-! ### The map cache -/

/-- The set of a page (R143). -/
def setOf (d : SD) (mpid : Nat) : Nat := mapHash (d.num * 2 ^ 48 + mpid) / 2 ^ 53

/-- The ways of a set. -/
def MapState.set (m : MapState) (i : Nat) : List Line := Table.getD m.sets i resetSet

/-- An access to way `w`: its AGE becomes 0 and every younger way grows older by 1 (R145). -/
def touchAge (l : List Line) (w : Nat) : List Line :=
  match l[w]? with
  | none => l
  | some x => (l.zipIdx).map fun (y, i) =>
      if i = w then { y with age := 0 } else if y.age < x.age then { y with age := y.age + 1 } else y

/-- The way that holds a page. -/
def wayOf (l : List Line) (d : SD) (mpid : Nat) : Option Nat :=
  l.findIdx? fun x => x.tag = some (d, mpid) ∧ x.valid ≠ 0

/-- Number of set bits among the 16 sectors of a line. -/
def popCount (n : Nat) : Nat := ((List.range 16).filter (n.testBit ·)).length

/-- MAP_DIRTY_SECTORS: dirty sectors in the cache plus sectors held in the eviction buffer. -/
def MapState.dirtyCount (m : MapState) : Nat :=
  (m.sets.foldl (fun n (_, l) => n + l.foldl (fun k x => k + popCount x.dirty) 0) 0) +
  m.evb.foldl (fun n e => n + popCount e.sectors) 0

/-- The sector of an entry index. -/
def sectorOf (idx : Nat) : Nat := idx / 32

/-- A sector can be read without a fetch: valid in the cache, or held in the eviction buffer (R144, R146).
With EN 0, or while an INVALIDATE runs, every entry takes a fetch (R148, R149). -/
def MapState.sectorValid (m : MapState) (d : SD) (mpid sector : Nat) : Bool :=
  m.en && decide (m.busy ≠ 1) &&
  (((m.set (setOf d mpid)).any fun x => x.tag = some (d, mpid) ∧ x.valid.testBit sector) ||
   m.evb.any fun e => e.sd = d ∧ e.mpid = mpid ∧ e.sectors.testBit sector)

/-- The hint table key of a granule's sector, its set and TAG (R151). -/
def hintKey (d : SD) (root gran : Nat) : Nat := d.num * 2 ^ 55 + root * 2 ^ 34 + gran / 32

/-- Set of a hint key (R151). -/
def hintSet (k : Nat) : Nat := mapHash k / 2 ^ 47

/-- TAG of a hint key (R151). -/
def hintTag (k : Nat) : Nat := (mapHash k / 2 ^ 27) % 2 ^ 20

/-- Index of a hint key in the HBM part (R151). -/
def hintHbm (k : Nat) : Nat := mapHash k / 2 ^ 37

/-- The domain pack an entry names, if any. -/
def MapEnt.pack? (e : MapEnt) : Option Nat := e.loc?.map fun l => l / 2 ^ 12

/-- A granule's hint code against BASE (R152). -/
def hintCode (base : Nat) (e : MapEnt) : Nat :=
  match e.pack? with
  | some p => if base ≤ p ∧ p ≤ base + 2 then p - base else 3
  | none => 3

/-- The hint entry made from the 32 entries of a sector (R152). -/
def hintOf (d : SD) (key : Nat) (es : List MapEnt) : Option Hint :=
  match es.filterMap MapEnt.pack? with
  | [] => none
  | p :: ps =>
    let base := ps.foldl min p
    some ⟨true, hintTag key, d, base, es.map (hintCode base), 0⟩

/-- A hint entry, 16 B (Table 06.7). -/
def Hint.bytes (h : Hint) : List Byte :=
  leBytes 3 (h.tag + b2n h.valid * 2 ^ 20 + h.sd.num * 2 ^ 21) ++ leBytes 5 h.base ++
  leBytes 8 ((h.codes.zipIdx).foldl (fun n (c, i) => n + c * 4 ^ i) 0)

/-- Read a hint entry. -/
def Hint.ofBytes (b : List Byte) : Hint :=
  let w := leAt b 0 3
  ⟨bitOf w 20, w % 2 ^ 20, SD.ofBit (w / 2 ^ 21), bitsOf (leAt b 3 5) 35 0, (List.range 32).map fun i => leAt b 8 8 / 4 ^ i % 4, 0⟩

/-- The ways of a set of the hint table. -/
def MapState.hintWays (m : MapState) (i : Nat) : List Hint := Table.getD m.hints i resetHints

/-- The way of a set that holds a key's hint. -/
def hintWay (l : List Hint) (d : SD) (tag : Nat) : Option Nat := l.findIdx? fun h => h.valid ∧ h.tag = tag ∧ h.sd = d

/-- An access to way `w`: its AGE becomes 0 and every younger way grows older by 1 (R145, R151). -/
def touchHint (l : List Hint) (w : Nat) : List Hint :=
  match l[w]? with
  | none => l
  | some x => (l.zipIdx).map fun (y, i) =>
      if i = w then { y with age := 0 } else if y.age < x.age then { y with age := y.age + 1 } else y

/-- The index in the HBM part of an entry displaced from a set: the 27 bits of its hash that set and TAG give (R151). -/
def hintHome (set tag : Nat) : Nat := set * 2 ^ 10 + tag / 2 ^ 10

/-- Put a hint on chip (R151): its own way, else the lowest-numbered way not valid, else the one with AGE 3, whose entry goes to the
HBM part. -/
def MapState.putHint (m : MapState) (set : Nat) (h : Hint) : MapState :=
  let l := m.hintWays set
  let w := ((hintWay l h.sd h.tag) <|> (l.findIdx? fun x => !x.valid) <|> (l.findIdx? fun x => x.age = 3)).getD 0
  let gone := l[w]?.filter fun x => x.valid ∧ ¬(x.tag = h.tag ∧ x.sd = h.sd)
  { m with
    hints := Table.put m.hints set (touchHint (updAt l w fun x => { h with age := x.age }) w)
    hbmHints := match gone with
      | some x => Table.put m.hbmHints (hintHome set x.tag) x.bytes
      | none => m.hbmHints }

/-- The on-chip hint of a granule (R80, R151): the guessed domain pack. -/
def MapState.hintFor (m : MapState) (d : SD) (root gran : Nat) : Option Nat :=
  let k := hintKey d root gran
  match (m.hintWays (hintSet k)).find? (fun h => h.valid ∧ h.tag = hintTag k ∧ h.sd = d) with
  | some h => let c := h.codes.getD (gran % 32) 3
              if c = 3 then none else some (h.base + c)
  | none => none

/-- A lookup touches the way it finds; where it finds none, the HBM entry is fetched into the on-chip part (R151). -/
def MapState.hintFetch (m : MapState) (d : SD) (root gran : Nat) : MapState :=
  let k := hintKey d root gran
  match hintWay (m.hintWays (hintSet k)) d (hintTag k) with
  | some w => { m with hints := Table.put m.hints (hintSet k) (touchHint (m.hintWays (hintSet k)) w) }
  | none =>
    match (Table.find m.hbmHints (hintHbm k)).map Hint.ofBytes with
    | some h => if h.valid ∧ h.tag = hintTag k ∧ h.sd = d then m.putHint (hintSet k) h else m
    | none => m

/-- Recompute one granule's code where its hint entry is on chip (R152). -/
def MapState.hintUpdate (m : MapState) (d : SD) (root gran : Nat) (e : MapEnt) : MapState :=
  let k := hintKey d root gran
  match hintWay (m.hintWays (hintSet k)) d (hintTag k) with
  | some w => { m with hints := Table.put m.hints (hintSet k) (touchHint (updAt (m.hintWays (hintSet k)) w fun h =>
      { h with codes := h.codes.set (gran % 32) (hintCode h.base e) }) w) }
  | none => m

/-- Write the hints of a line's valid leaf sectors as they leave the cache, keyed by the root of its most recent access (R152). -/
def MapState.leaveHints (m : MapState) (x : Line) : MapState :=
  match x.tag, x.seen with
  | some (d, mpid), some (root, leaf) =>
    (match Table.find (m.live.get d).pages mpid with
    | none => m
    | some p =>
      if p.level ≠ 0 then m
      else (List.range 16).foldl (fun m i =>
        if x.valid.testBit i then
          let k := hintKey d root (512 * leaf + 32 * i)
          match hintOf d k ((List.range 32).map fun j => MapEnt.ofWord (p.ent (32 * i + j))) with
          | some h => m.putHint (hintSet k) h
          | none => m
        else m) m)
  | _, _ => m

/-- Put a set back. -/
def MapState.putSet (m : MapState) (i : Nat) (l : List Line) : MapState := { m with sets := Table.put m.sets i l }

/-- The way a new line takes: the lowest-numbered with no valid sector, else the one with AGE 11 (R145). -/
def pickWay (l : List Line) : Nat :=
  match l.findIdx? (fun x => x.valid = 0) with
  | some i => i
  | none => (l.findIdx? (fun x => x.age = 11)).getD 0

/-- Allocate a line for a page (R145, R146): a dirty victim moves to the eviction buffer. `seen` is the access, by root and leaf
number, where a root makes it. -/
def State.allocLine (s : State) (d : SD) (mpid : Nat) (seen : Option (Nat × Nat)) : State :=
  let i := setOf d mpid
  let l := s.map.set i
  match wayOf l d mpid with
  | some w => { s with map := s.map.putSet i (touchAge (updAt l w fun x => { x with seen := seen <|> x.seen }) w) }
  | none =>
    let w := pickWay l
    let v := l.getD w ⟨none, 0, 0, 0, none⟩
    let m1 := s.map.leaveHints v
    let m2 := match v.tag with
      | some (vd, vp) => if v.dirty = 0 then m1 else { m1 with evb := m1.evb ++ [Evb.mk vd vp v.dirty] }
      | none => m1
    { s with map := m2.putSet i (touchAge (l.set w (Line.mk (some (d, mpid)) v.age 0 0 seen)) w) }

/-- What needs an entry of the eviction buffer beyond its 64 waits for the oldest writeback to be acknowledged, and sets EVB_WAIT
(R146): `t` is what it leads to. -/
def State.evbHold (s t : State) : State := if t.map.evb.length > 64 then s.raise .map 2 else t

/-- Install a fetched sector (R144). While the cache is off a sector fetch leaves nothing behind (R149). -/
def State.installSector (s : State) (d : SD) (mpid sector : Nat) (seen : Option (Nat × Nat)) : State :=
  if !s.map.en ∨ s.map.busy = 1 then s
  else
    let s1 := s.allocLine d mpid seen
    let i := setOf d mpid
    let l := s1.map.set i
    match l.findIdx? (fun x => x.tag = some (d, mpid)) with
    | some w => { s1 with map := s1.map.putSet i (updAt l w fun x => { x with valid := x.valid ||| 2 ^ sector }) }
    | none => s1

/-- A read access to a page: its way becomes youngest and remembers the root (R145, R152). -/
def State.touchPage (s : State) (d : SD) (mpid : Nat) (seen : Option (Nat × Nat)) : State :=
  let i := setOf d mpid
  let l := s.map.set i
  match wayOf l d mpid with
  | some w => { s with map := s.map.putSet i (touchAge (updAt l w fun x => { x with seen := seen <|> x.seen }) w) }
  | none => s

/-- A delta's sector in the cache (R144, R146): a page held in the eviction buffer is resurrected with every
sector a buffer entry holds, dirty; then the sector becomes Dirty. Under write-through nothing becomes dirty, what is resurrected
included: it is written through, and the buffer's entry completes its own writeback (R146, R148; DESIGN CHOICE, assumption 109). -/
def State.dirtySector (s : State) (d : SD) (mpid sector : Nat) (seen : Option (Nat × Nat)) : State :=
  if !s.map.en ∨ s.map.busy = 1 then s
  else
    let held := s.map.evb.foldl (fun n e => if e.sd = d ∧ e.mpid = mpid then n ||| e.sectors else n) 0
    let s1 := s.allocLine d mpid seen
    let i := setOf d mpid
    let l := s1.map.set i
    match l.findIdx? (fun x => x.tag = some (d, mpid)) with
    | some w =>
      let bit := 2 ^ sector
      { s1 with map := s1.map.putSet i (updAt l w fun x =>
          if s1.map.wt then { x with valid := x.valid ||| held ||| bit }
          else { x with valid := x.valid ||| held ||| bit, dirty := x.dirty ||| held ||| bit }) }
    | none => s1

/-- The sectors a resolution of a granule needs (R143): the leaf's alone on a walk cache hit, else one of
every page on the path. -/
def State.needSectors (s : State) (d : SD) (root gran : Nat) : List (Nat × Nat) :=
  let m := s.metaOf d
  match s.map.walkHit d root (gran / 512) with
  | some leaf => [(leaf, sectorOf (gran % 512))]
  | none =>
    match Table.find m.roots root with
    | none => []
    | some r => (rootPath m r gran).map fun (p, l) =>
        (p, sectorOf (if l = 0 then gran % 512 else dirIdx l (gran / 512)))

/-- Every needed sector is valid, so the authoritative entry is at hand (R144). -/
def State.mapHit (s : State) (d : SD) (root gran : Nat) : Bool :=
  (s.needSectors d root gran).all fun (p, i) => s.map.sectorValid d p i

/-- Take the authoritative entry of a granule: the pages read are touched and the walk cache learns the
leaf (R143, R145). -/
def State.takeEntry (s : State) (d : SD) (root gran : Nat) : DWord × State :=
  let m := s.metaOf d
  let s1 := (s.needSectors d root gran).foldl (fun s (p, _) => s.touchPage d p (some (root, gran / 512))) s
  let s2 := match (Table.find m.roots root).bind fun r => leafOf m r gran with
    | some leaf => { s1 with map := s1.map.putWalk d root (gran / 512) leaf }
    | none => s1
  (entryOf m root gran, s2)

/-- Drop every cached page, walk cache entry, eviction buffer entry and hint of a domain that has moved
away, without writing any of it back (R152, R464). -/
def MapState.dropDomain (m : MapState) (d : SD) : MapState :=
  { m with
    sets := Table.mapV (fun l => l.map fun x =>
      match x.tag with
      | some (xd, _) => if xd = d then { x with tag := none, valid := 0, dirty := 0 } else x
      | none => x) m.sets
    walk := m.walk.filter fun (_, k, _) => k / 2 ^ 55 ≠ d.num
    evb := m.evb.filter fun e => e.sd ≠ d
    hbm := m.hbm.filter fun x => x.1 ≠ d
    ddr := m.ddr.filter fun x => x.1 ≠ d
    work := m.work.set d none
    hints := Table.mapV (fun l => l.map fun h => if h.sd = d then { h with valid := false } else h) m.hints
    hbmHints := Table.keep (fun _ b => (Hint.ofBytes b).sd ≠ d) m.hbmHints }

/-- The 32 bytes of a reference record (Table 04.2). -/
def RefRec.bytes (r : RefRec) : List Byte :=
  fit r.fp 24 ++ leBytes 4 r.count ++ leBytes 1 r.ddom ++
  leBytes 1 ((match r.st with | .live => 0 | .freePending => 1 | .freed => 2 | .lost => 3) +
    4 * b2n r.fpBad + 8 * b2n r.sat) ++ zeros 2

/-- The reference records of the granules that start in a pack, in increasing OFF (R157). -/
def packRefs (m : Meta) (pack : Nat) : List (Nat × RefRec) :=
  m.refs.filter fun (l, _) => l / 2 ^ 12 = pack

/-- The reference block of a data pack (Table 06.8). -/
def refBlock (m : Meta) (pack : Nat) : List Byte :=
  let rs := packRefs m pack
  let succ := (rs.getLast?.bind fun p => p.2.succ).getD (2 ^ 36 - 1)
  leBytes 8 pack ++ leBytes 2 rs.length ++ leBytes 8 (if rs.any (fun p => p.2.succ.isSome) then succ else 2 ^ 64 - 1) ++
  zeros 14 ++
  rs.flatMap (fun (l, r) => leBytes 2 ((l % 4096) * 16 + 8 * b2n r.raw + 4 * b2n r.succ.isSome)) ++
  rs.flatMap (fun p => p.2.bytes)

/-- The 64 bytes of a root record (Table 06.4). -/
def RootRec.bytes (r : RootRec) (root : Nat) (d : SD) : List Byte :=
  leBytes 4 root ++ leBytes 1 r.kind ++ leBytes 1 (d.num + 2 * b2n r.isSealed + 4 * b2n r.deleting) ++
  leBytes 1 r.kdom ++ leBytes 1 r.depth ++ leBytes 6 r.top ++ zeros 2 ++
  leBytes 4 (r.parent.getD 0xFFFFFFFF) ++ zeros 4 ++ leBytes 8 r.size ++ leBytes 8 r.point ++
  leBytes 8 r.createEpoch.toNat ++ zeros 16

end Sys2Proof.Machine
end

