-- ==== Sys2Proof/Machine/Parity.lean ====
section
/-!
DEFINITION. Parity placement, computation and reconstruction (R188, R189, R200), and the vault's chunk
groups (R197).
-/

namespace Sys2Proof.Machine

/-- The position of P in row `r` of a stripe of width `w` (R188). -/
def posP (w r : Nat) : Nat := w - 1 - r % w

/-- The position of Q under PQ (R188). -/
def posQ (w r : Nat) : Nat := (posP w r + 1) % w

/-- The position of data index `j` with `p` parity members (R188). -/
def posData (w p r j : Nat) : Nat := (posP w r + p + j) % w

/-- The data index at a member position of a row, if it is a data position. -/
def dataIdx (w p k r pos : Nat) : Option Nat := (List.range k).find? fun j => posData w p r j = pos

/-- The length of a pack image: body and sidecar (R189, R217). -/
def imageLen : Nat := 66048

/-- The all-zero fill pack (R189). -/
def fillPack : List Byte := zeros imageLen

/-- Multiply every byte by a constant in GF(2^8) with 0x11D (R189). -/
def gfScale (c : Nat) (l : List Byte) : List Byte :=
  if c = 1 then l else l.map fun b => BitVec.ofNat 8 (gfMul 0x1D c b.toNat)

/-- g^j, g = 0x02 (R189). -/
def gPow (j : Nat) : Nat := gfPow 0x1D 2 j

/-- P of a row: the exclusive or of its data images (R189). -/
def parityP (imgs : List (List Byte)) : List Byte := imgs.foldl xorBytes fillPack

/-- Q of a row: the exclusive or of g^j times data image j (R189). -/
def parityQ (imgs : List (List Byte)) : List Byte :=
  (imgs.zipIdx).foldl (fun q (d, j) => xorBytes q (gfScale (gPow j) d)) fillPack

/-- Fold data index `j` into the accumulators (R72, R189). -/
def foldP (acc d : List Byte) : List Byte := xorBytes acc d

/-- Fold data index `j` into the Q accumulator. -/
def foldQ (acc : List Byte) (j : Nat) (d : List Byte) : List Byte := xorBytes acc (gfScale (gPow j) d)

/-- A: P and every available data image (R200). -/
def solveA (p : List Byte) (avail : List (Nat × List Byte)) : List Byte :=
  avail.foldl (fun a (_, d) => xorBytes a d) p

/-- B: Q and every available g^j times data image j (R200). -/
def solveB (q : List Byte) (avail : List (Nat × List Byte)) : List Byte :=
  avail.foldl (fun b (j, d) => foldQ b j d) q

/-- Reconstruct the data image of index `x` of a row with `k` data slots, from the available data
images and parity (R200): none where the slots held do not suffice. -/
def rebuildData (k : Nat) (avail : List (Nat × List Byte)) (p q : Option (List Byte)) (x : Nat) :
    Option (List Byte) :=
  match avail.find? (fun d => d.1 = x) with
  | some (_, d) => some d
  | none =>
    match (List.range k).filter (fun j => j ≠ x ∧ avail.all (fun d => d.1 ≠ j)), p, q with
    | [], some p, _ => some (solveA p avail)
    | [], none, some q => some (gfScale (gfInv 0x1D (gPow x)) (solveB q avail))
    | [y], some p, some q =>
      -- two lost slots: D_y from B and g^x A, then D_x from A
      let a := solveA p avail
      let b := solveB q avail
      let dy := gfScale (gfInv 0x1D (gPow x ^^^ gPow y)) (xorBytes b (gfScale (gPow x) a))
      some (xorBytes a dy)
    | _, _, _ => none

/-- Reconstruct every data image of a row. -/
def rebuildAll (k : Nat) (avail : List (Nat × List Byte)) (p q : Option (List Byte)) :
    Option (List (List Byte)) :=
  (List.range k).foldr (fun j acc =>
    match acc, rebuildData k avail p q j with
    | some l, some d => some (d :: l)
    | _, _ => none) (some [])

/-- Reconstruct whatever stands at a member position of a row: data, P or Q (R200, R203). -/
def rebuildSlot (w p k r pos : Nat) (avail : List (Nat × List Byte)) (pI qI : Option (List Byte)) :
    Option (List Byte) :=
  match dataIdx w p k r pos with
  | some j => rebuildData k avail pI qI j
  | none =>
    match rebuildAll k avail pI qI with
    | none => none
    | some l => some (if pos = posP w r then parityP l else parityQ l)

/-- The group size of a dump: the smaller of 12 and the present modules of the vault set (R197). -/
def vaultGroup (n : Nat) : Nat := min 12 n

/-- Data chunks in a group: all but the parity chunk; with one module, the one chunk (R197). -/
def vaultData (n : Nat) : Nat := if n ≤ 1 then 1 else vaultGroup n - 1

/-- The modules that take chunk group `i`: round robin over the present ports of the vault set (R197). -/
def vaultPorts (ports : List Nat) (i : Nat) : List Nat :=
  let n := ports.length
  (List.range (vaultGroup n)).map fun c => ports.getD ((i * vaultGroup n + c) % n) 0

/-- The parity chunk of a group (R197). -/
def chunkParity (l : List (List Byte)) : List Byte :=
  match l with
  | [] => []
  | d :: ds => ds.foldl xorBytes d

end Sys2Proof.Machine
end

