-- ==== Sys2Proof/Machine/MediaOps.lean ====
section
/-!
DEFINITION. Operations over segments, stripes, modules and packs: the shade card lookup, placement, the
module's checks, pack images, and the reading of a stored granule.
-/

namespace Sys2Proof.Machine

/-! ### The module descriptor (Table 09.5) -/

/-- A little-endian field of the descriptor. -/
def Module.field (m : Module) (off n : Nat) : Nat := leAt m.desc off n

/-- Capacity in finish segments, UNITS. -/
def Module.units (m : Module) : Nat := m.field 12 4

/-- Endurance of a layer. -/
def Module.endurance (m : Module) (finish : Bool) : Nat := if finish then m.field 16 4 else m.field 20 4

/-- Read limit of a layer (R179). -/
def Module.readLimit (m : Module) (finish : Bool) : Nat := if finish then m.field 24 4 else m.field 28 4

/-- SERIAL. -/
def Module.serial (m : Module) : List Byte := slice m.desc 1200 16

/-- VSEGS of the recorded split. -/
def Module.vsegs (m : Module) : Nat := (m.split.map (·.1)).getD 0

/-- SSEGS of the recorded split. -/
def Module.ssegs (m : Module) : Nat := (m.split.map (·.2)).getD 0

/-- FSEGS (R218). -/
def Module.fsegs (m : Module) : Nat :=
  m.vsegs + m.ssegs + (m.units - 4 * (m.vsegs + m.ssegs))

/-- The regions of a module's segments (R218). -/
inductive Region where
  | vault | skim | finish
  deriving DecidableEq, Repr

/-- The region of a PSEG, if it lies inside the module (R218). -/
def Module.region (m : Module) (pseg : Nat) : Option Region :=
  if pseg < m.vsegs then some .vault
  else if pseg < m.vsegs + m.ssegs then some .skim
  else if pseg < m.fsegs then some .finish
  else none

/-- Key of a slot: PSEG × 4096 + PIDX. -/
def slotKey (pseg pidx : Nat) : Nat := pseg * 4096 + pidx

/-- A slot holds nothing since its segment's last erase (R219). -/
def Module.erased (m : Module) (pseg pidx : Nat) : Bool := (Table.find m.slots (slotKey pseg pidx)).isNone

/-- A segment holds a programmed slot. -/
def Module.holds (m : Module) (pseg : Nat) : Bool := m.slots.any fun (k, _) => k / 4096 = pseg

/-- DOM fits the region of a segment: vault exactly inside the vault region (R218). -/
def domFits (d : Dom) (r : Region) : Bool := decide (d = .vault) == decide (r = .vault)

/-- The layer of a region matches LAYER, the vault counting as skim (R218). -/
def layerFits (finish : Bool) (r : Region) : Bool := finish == decide (r = .finish)

/-- The data descriptor names exactly the length of Table 09.1, and a program's image has it (R216). -/
def MCmd.lengthOk (c : MCmd) : Bool :=
  decide (c.len = c.op.dataLen) && (decide (c.op ≠ .program) || decide (c.image.length = imageLen))

/-- Step 1 of R462: the opcode, then NSID, the reserved fields with DOM 0b10, the DOM of an Owner Fence and the data length. -/
def checkForm (c : MCmd) : MSt :=
  if c.opcode ≠ c.op.code then .invalidOpcode
  else if c.nsid ≠ 1 ∨ c.rsvd ≠ 0 then .invalidField
  else if c.op = .fence ∧ c.dom = .vault then .invalidField
  else if !c.lengthOk then .invalidField
  else .ok

/-- The owner check of R227 and the fence rule of R228, for a command that arrives on the port of head
`h`. -/
def checkOwner (m : Module) (h : Nat) (c : MCmd) : MSt :=
  match c.dom with
  | .vault => .ok
  | .sd d =>
    let e := m.oepoch.get d
    let p := m.oport.get d
    if c.op = .fence then
      if c.oepoch > e ∨ (c.oepoch = e ∧ p = some h) then .ok else .staleOwner
    else if c.oepoch = e ∧ p = some h then .ok
    else if c.oepoch < e then .staleOwner else .notOwner

/-- The range check of R218. -/
def checkRange (m : Module) (c : MCmd) : MSt :=
  if c.op = .fence then .ok
  else if c.pidx ≥ 4096 then .range
  else
    match m.region c.pseg, (if c.op = .fold then m.region c.tpseg else m.region c.pseg) with
    | some r, some t => if domFits c.dom r ∧ domFits c.dom t then .ok else .range
    | _, _ => .range

/-- The layer check of R218. -/
def checkLayer (m : Module) (c : MCmd) : MSt :=
  match c.op, m.region c.pseg with
  | .fence, _ => .ok
  | .fold, some r => if r = .skim ∧ m.region c.tpseg = some .finish then .ok else .layerMismatch
  | _, some r => if layerFits c.finish r then .ok else .layerMismatch
  | _, none => .layerMismatch

/-- A segment's tag lets the command's DOM pass: untagged, or tagged with it (R220). -/
def tagOk (m : Module) (pseg : Nat) (d : Dom) : Bool :=
  match Table.find m.tags pseg with
  | some t => t = d
  | none => true

/-- The domain tag check of R220. -/
def checkTag (m : Module) (c : MCmd) : MSt :=
  if c.op = .fence then .ok
  else if tagOk m c.pseg c.dom ∧ (c.op ≠ .fold ∨ tagOk m c.tpseg c.dom) then .ok
  else .domainMismatch

/-- The slot and segment state check (R462 step 7). -/
def checkSlot (m : Module) (c : MCmd) : MSt :=
  if c.op = .program ∧ !m.erased c.pseg c.pidx then .notErased
  else if c.op = .fold ∧ m.holds c.tpseg then .notErased
  else .ok

/-- The first check of R462 that fails, in its order. Media Descriptor Read, Media Temperature and admin
commands pass only through step 1. -/
def moduleCheck (m : Module) (h : Nat) (c : MCmd) : MSt :=
  match c.op with
  | .descr | .temp | .admin => checkForm c
  | _ =>
    match checkForm c with
    | .ok =>
      if m.split.isNone then .sequence
      else
        match checkOwner m h c with
        | .ok =>
          match checkRange m c with
          | .ok =>
            match checkLayer m c with
            | .ok =>
              match checkTag m c with
              | .ok => checkSlot m c
              | e => e
            | e => e
          | e => e
        | e => e
    | e => e

/-- A signed byte as a completion field. -/
def tempByte (t : Int) : Nat := (BitVec.ofInt 8 t).toNat

/-! ### Segments and stripes -/

/-- A module's record. -/
def State.mod? (s : State) (port : Nat) : Option Module := Table.find s.mlk.mods port

/-- A port's state. -/
def State.port (s : State) (p : Nat) : Port := Table.getD s.mlk.ports p Port.empty

/-- Change a port's state. -/
def State.updPort (s : State) (p : Nat) (f : Port → Port) : State :=
  { s with mlk := { s.mlk with ports := Table.put s.mlk.ports p (f (s.port p)) } }

/-- A module is present (R199): admitted and in service. -/
def State.present (s : State) (p : Nat) : Bool := (s.port p).state = 2

/-- The present ports, rising. -/
def State.presentPorts (s : State) : List Nat := (List.range 48).filter s.present

/-- The record of a physical segment. -/
def State.psegOf (s : State) (port pseg : Nat) : Option PSegRec := Table.find s.med.pseg (psegKey port pseg)

/-- Where a domain segment number lies now (R163). -/
def State.segOf (s : State) (d : SD) (seg : Nat) : Option SegEnt := Table.find (s.metaOf d).segs seg

/-- The stripe and member position of a domain segment number. -/
def stripeOf (m : Meta) (seg : Nat) : Option (Nat × Nat × Stripe) :=
  m.stripes.findSome? fun (n, t) =>
    if t.st = .freed then none else (t.members.findIdx? (· = seg)).map fun i => (n, i, t)

/-- The member position of a domain segment is missing (R199, R171). -/
def segMissing (m : Meta) (seg : Nat) : Bool :=
  match stripeOf m seg with
  | some (_, i, t) => decide (i ∈ t.missing)
  | none => true

/-- The age of a segment in hours (R165). -/
def segAge (now : Nat) (r : PSegRec) : Nat := if r.empty then 0 else now - r.hour

/-! ### The shade card (R180, R181) -/

/-- How many of three bounds, read as 16-bit fields of a card header, lie at or below a value. -/
def boundsAt (card : List Byte) (off v : Nat) : Nat :=
  ((List.range 3).filter fun i => leAt card (off + 2 * i) 2 ≤ v).length

/-- Absolute difference of two temperatures. -/
def absDiff (a b : Int) : Nat := (a - b).natAbs

/-- The four parts of INDEX: AGE, WEAR, WT, DT (R181). -/
structure ShadeIdx where
  age : Nat
  wear : Nat
  wt : Nat
  dt : Nat
  deriving DecidableEq, Repr

/-- INDEX = AGE × 16 + WEAR × 4 + WT × 2 + DT. -/
def ShadeIdx.index (x : ShadeIdx) : Nat := x.age * 16 + x.wear * 4 + x.wt * 2 + x.dt

/-- The lookup of R181 in a card, for a segment's record, its age, its layer's endurance and the module's
last report. -/
def shadeIdx (card : List Byte) (r : PSegRec) (age endurance : Nat) (t : Option Temps) : ShadeIdx :=
  let wtSplit := sbyte (card.getD 10 0)
  let dtSplit := leAt card 11 1
  { age := if r.empty then 0 else boundsAt card 4 age
    wear := boundsAt card 12 (if endurance = 0 then 0 else r.erases * 1000 / endurance)
    wt := if r.empty then 0 else b2n (r.tmin < wtSplit)
    dt := if r.empty then 0
      else match t with
        | none => 0
        | some t =>
          let d := max (max (absDiff t.hi r.tmin) (absDiff t.hi r.tmax)) (max (absDiff t.lo r.tmin) (absDiff t.lo r.tmax))
          b2n (d ≥ dtSplit) }

/-- The offsets entry of a card (Table 07.7). -/
def shadeEntry (card : List Byte) (i : Nat) : List Byte := fit (slice card (32 + 16 * i) 16) 16

/-- The thresholds of a ladder step (Table 07.8): the card index used, RSET and SOFT. -/
def ladderStep (x : ShadeIdx) (step : Nat) : Nat × Nat × Bool :=
  match step with
  | 1 => ({ x with age := min 3 (x.age + 1) }.index, 0, false)
  | 2 => ({ x with age := min 3 (x.age + 1), wear := min 3 (x.wear + 1) }.index, 0, false)
  | 3 => (x.index, 1, false)
  | 4 => (x.index, 2, false)
  | 5 => (x.index, 3, false)
  | 6 => (x.index, 4, false)
  | 7 => (x.index, 0, true)
  | _ => (x.index, 0, false)

/-- A write of a card selector (R35, R180): it applies at a boundary, which PENDING_AT of MED shows. -/
def State.writeSel (s : State) (late : Bool) (port v : Nat) : State :=
  ({ s with med := { s.med with
    sels := Table.put s.med.sels port ((Table.getD s.med.sels port (.reset 0)).write late (BitVec.ofNat 16 v)) } }).pend .med late

/-- The card a port's selector names, where the selector is valid (R180). -/
def State.cardOf (s : State) (port : Nat) : Option (List Byte) :=
  match Table.find s.med.sels port with
  | some x => if bitOf x.value.toNat 8 then Table.find s.med.cards (x.value.toNat % 8) else none
  | none => none

/-- RTC_UNSET, once, when the fallback hour is first taken (R165). -/
def State.noteHour (s : State) : State :=
  if s.pwr.rtcSet ∨ s.med.rtcFallback then s
  else ({ s with med := { s.med with rtcFallback := true } }).raise .med 7

/-- The read command's offsets, RSET and SOFT for a segment at a ladder step: all offsets 0 without a valid
selector (R180 to R182). -/
def State.thresholds (s : State) (hour port pseg step : Nat) : List Byte × Nat × Bool :=
  match s.cardOf port, s.psegOf port pseg, s.mod? port with
  | some card, some r, some m =>
    let x := shadeIdx card r (segAge hour r) (m.endurance r.finish) (Table.find s.med.temps port)
    let (i, rset, soft) := ladderStep x step
    (shadeEntry card i, rset, soft)
  | _, _, _ =>
    let (_, rset, soft) := ladderStep ⟨0, 0, 0, 0⟩ step
    (zeros 16, rset, soft)

/-! ### Placement (R168 to R170, R176, R202) -/

/-- The physical segments of a module in a layer that are not retired: PSEG and record. -/
def State.segsOn (s : State) (port : Nat) (finish : Bool) : List (Nat × PSegRec) :=
  (s.med.pseg.filter fun (k, r) => k / 2 ^ 20 = port ∧ r.finish = finish ∧ r.st ≠ .retired).map
    fun (k, r) => (k % 2 ^ 20, r)

/-- The free ones. -/
def State.freeOn (s : State) (port : Nat) (finish : Bool) : List (Nat × PSegRec) :=
  (s.segsOn port finish).filter fun p => p.2.st = .free

/-- The spare reserve of a layer on one module: ⌈2 × S ÷ (N − 1)⌉ (R202). -/
def State.spareCount (s : State) (finish : Bool) : Nat :=
  let ports := s.presentPorts
  let n := ports.length
  let big := ports.foldl (fun m p => max m
    (s.med.pseg.filter fun (k, r) => k / 2 ^ 20 = p ∧ r.finish = finish).length) 0
  if n ≤ 1 then 0 else (2 * big + (n - 2)) / (n - 1)

/-- Free segments beyond the spare reserve. -/
def State.freeCount (s : State) (port : Nat) (finish : Bool) : Nat :=
  (s.freeOn port finish).length - s.spareCount finish

/-- Mean wear of a module's layer in per-mille of its endurance (R168). -/
def State.meanWear (s : State) (port : Nat) (finish : Bool) : Nat :=
  let l := s.segsOn port finish
  match s.mod? port with
  | some m =>
    if l.length = 0 ∨ m.endurance finish = 0 then 0
    else (l.foldl (fun n p => n + p.2.erases) 0) * 1000 / l.length / m.endurance finish
  | none => 0

/-- The serial of a module is marked for erase (R275). -/
def State.markedErase (s : State) (port : Nat) : Bool :=
  match s.mod? port with
  | some m => s.med.serials.any fun x => x.serial = m.serial ∧ x.erase
  | none => false

/-- A module may take a new stripe: present, with a valid selector, not marked for erase (R176, R199). -/
def State.mayPlace (s : State) (port : Nat) : Bool :=
  s.present port && (s.cardOf port).isSome && !s.markedErase port

/-- The better of two modules for a new member (R168): more free segments, lower wear, lower port. -/
def State.better (s : State) (finish : Bool) (a b : Nat) : Bool :=
  let fa := s.freeCount a finish
  let fb := s.freeCount b finish
  let wa := s.meanWear a finish
  let wb := s.meanWear b finish
  decide (fa > fb) || (decide (fa = fb) && (decide (wa < wb) || (decide (wa = wb) && decide (a < b))))

/-- Insert into a list kept best first. -/
def State.rankInsert (s : State) (finish : Bool) (x : Nat) : List Nat → List Nat
  | [] => [x]
  | y :: ys => if s.better finish x y then x :: y :: ys else y :: s.rankInsert finish x ys

/-- The modules that can take a new member in a layer, best first (R168). -/
def State.rank (s : State) (finish : Bool) : List Nat :=
  ((List.range 48).filter fun p => s.mayPlace p && decide (s.freeCount p finish > 0)).foldr (s.rankInsert finish) []

/-- The free segment with the lowest ERASE_COUNT, then the lowest PSEG (R168). -/
def State.pickSeg (s : State) (port : Nat) (finish : Bool) : Option Nat :=
  ((s.freeOn port finish).foldl (fun (b : Option (Nat × PSegRec)) p =>
    match b with
    | none => some p
    | some q => if p.2.erases < q.2.erases then some p else some q) none).map Prod.fst

/-- The lowest free domain segment number of a domain; none beyond 16,777,215 (R135, R168). -/
def freeSegNo (m : Meta) : Option Nat :=
  let n := Table.free m.segs m.segs.length 0
  if n < 2 ^ 24 then some n else none

/-- Mark a physical segment allocated to a domain segment number. -/
def State.allocSeg (s : State) (d : SD) (seg port pseg : Nat) : State :=
  match s.psegOf port pseg with
  | some r => s.delta d (.pseg port pseg { r with st := .allocated, sd := d, seg := seg, changed := s.top.epoch })
  | none => s

/-- Take one member of a new stripe on a module: the domain segment number and the state. -/
def State.takeMember (s : State) (d : SD) (finish : Bool) (port : Nat) : Option (Nat × State) :=
  match s.pickSeg port finish, freeSegNo (s.metaOf d) with
  | some pseg, some n =>
    some (n, (s.allocSeg d n port pseg).delta d (.seg n (some ⟨none, port, pseg⟩)))
  | _, _ => none

/-- Take a member on each of the modules. -/
def State.takeMembers (s : State) (d : SD) (finish : Bool) : List Nat → Option (List Nat × State)
  | [] => some ([], s)
  | p :: ps =>
    match s.takeMember d finish p with
    | none => none
    | some (n, s1) =>
      match s1.takeMembers d finish ps with
      | none => none
      | some (ns, s2) => some (n :: ns, s2)

/-- The formed pair of a domain, layer and kind. -/
def MedState.formedOf (m : MedState) (d : SD) (finish isMeta : Bool) : Formed :=
  (m.formed.find? fun f => f.sd = d ∧ f.finish = finish ∧ f.isMeta = isMeta).getD ⟨d, finish, isMeta, none, none⟩

/-- Replace the formed pair. -/
def MedState.setFormed (m : MedState) (x : Formed) : MedState :=
  { m with formed := x :: m.formed.filter fun f => ¬(f.sd = x.sd ∧ f.finish = x.finish ∧ f.isMeta = x.isMeta) }

/-- The segment table entry of every member of a stripe gets NEXT at the same position of the next one
(R169). -/
def State.linkNext (s : State) (d : SD) (a b : Stripe) : State :=
  (List.zip a.members b.members).foldl (fun s (x, y) =>
    match s.segOf d x with
    | some e => s.delta d (.seg x (some { e with next := some y }))
    | none => s) s

/-- The number of member segments of a shape (R186): metadata always takes two parity members. -/
def shapeWidth (h : Shape) (isMeta : Bool) : Nat := h.k + (if isMeta ∨ h.pq then 2 else 1)

/-- Form a next stripe of a domain, layer and kind, where none is formed (R168, R169). -/
def State.formStripe (s : State) (d : SD) (finish isMeta : Bool) : State :=
  let f := s.med.formedOf d finish isMeta
  let h := (s.metaOf d).shape
  let w := shapeWidth h isMeta
  let ports := (s.rank finish).take w
  if f.next.isSome ∨ ports.length < w then s
  else
    match s.takeMembers d finish ports with
    | none => s
    | some (ms, s1) =>
      let n := (s1.metaOf d).nextStripe
      let t : Stripe := ⟨h.k, isMeta || h.pq, finish, isMeta, .formed, h.gen, [], 0, ms, [], 0⟩
      let s2 := (s1.delta d (.stripe n (some t))).delta d (.stripeNext (n + 1))
      let s3 := match f.opened.bind (Table.find (s2.metaOf d).stripes) with
        | some a => s2.linkNext d a t
        | none => s2
      let f' : Formed := if f.opened.isNone then { f with opened := some n } else { f with next := some n }
      { s3 with med := s3.med.setFormed f' }

/-- The next free data slot of a stripe in row order and member order (R169): row and data index. -/
def nextSlot (t : Stripe) : Option (Nat × Nat) :=
  ((List.range (t.used.length + 1)).map fun n => (n / t.k, n % t.k)).find? fun (r, j) =>
    decide (r < 4096) && decide (r * 32 + j ∉ t.used)

/-- The lowest free data slot of a member position from one pack index on and below another (R169): row and data index. -/
def nextSlotAt (t : Stripe) (pos above below : Nat) : Option (Nat × Nat) :=
  (List.range (min 4096 below)).findSome? fun r =>
    if r < above then none
    else match dataIdx t.w t.p t.k r pos with
      | some j => if r * 32 + j ∈ t.used then none else some (r, j)
      | none => none

/-- Take a data slot of a stripe: the stripe opens with its first slot. -/
def State.takeSlot (s : State) (d : SD) (n : Nat) (t : Stripe) (r j : Nat) : State :=
  s.delta d (.stripe n (some { t with
    used := t.used ++ [r * 32 + j], rows := max t.rows (r + 1), st := if t.st = .formed then .opened else t.st }))

/-- The pack opened at a slot of a stripe. -/
def packAt (d : SD) (kdom : Nat) (copy : Bool) (n : Nat) (t : Stripe) (r j : Nat) (epoch : DWord) : Pack :=
  ⟨d, kdom, copy, n, r, j, t.members.getD (posData t.w t.p r j) 0, r, epoch, [], [], [], false, t.finish⟩

/-- Move the next stripe of a pair to open. -/
def State.promote (s : State) (d : SD) (finish isMeta : Bool) : State :=
  let f := s.med.formedOf d finish isMeta
  match f.opened.bind (Table.find (s.metaOf d).stripes) with
  | some t =>
    if (nextSlot t).isSome ∧ (t.st = .opened ∨ t.st = .formed) then s
    else { s with med := s.med.setFormed { f with opened := f.next, next := none } }
  | none => { s with med := s.med.setFormed { f with opened := f.next, next := none } }

/-- Open a pack at the next slot of the open stripe of a layer (R169). -/
def State.openAt (s : State) (d : SD) (kdom : Nat) (copy finish isMeta : Bool) : Option (Pack × State) :=
  let s1 := s.promote d finish isMeta
  match (s1.med.formedOf d finish isMeta).opened with
  | none => none
  | some n =>
    match Table.find (s1.metaOf d).stripes n with
    | none => none
    | some t =>
      match nextSlot t with
      | none => none
      | some (r, j) => some (packAt d kdom copy n t r j s1.top.epoch, s1.takeSlot d n t r j)

/-- Open a pack of a stream (R170): host packs in the skim layer, or where no skim stripe is formed in the
finish layer with SKIM_EXHAUSTED; copies always in the finish layer. None holds placement. -/
def State.openPack (s : State) (d : SD) (kdom : Nat) (copy : Bool) : Option (Pack × State) :=
  if copy then s.openAt d kdom true true false
  else
    match s.openAt d kdom false false false with
    | some r => some r
    | none =>
      match s.openAt d kdom false true false with
      | some (p, s1) => some (p, s1.raise .med 5)
      | none => none

/-- A stripe stands in a formed pair. -/
def State.inPair (s : State) (d : SD) (n : Nat) : Bool :=
  s.med.formed.any fun f => f.sd = d ∧ (f.opened = some n ∨ f.next = some n)

/-- Open the successor of a pack that fills partway through a granule (R128, R137, R169); a stripe that closes early begins no further
row (R199). -/
def State.openSuccessor (s : State) (p : Pack) : Option (Pack × State) :=
  match Table.find (s.metaOf p.sd).stripes p.stripe with
  | none => none
  | some t =>
    let pos := posData t.w t.p p.row p.didx
    match nextSlotAt t pos (p.row + 1) (if s.inPair p.sd p.stripe then 4096 else t.rows) with
    | some (r, j) => some (packAt p.sd p.kdom p.copy p.stripe t r j s.top.epoch, s.takeSlot p.sd p.stripe t r j)
    | none =>
      -- the member segment that NEXT of the pack's segment names
      match ((s.segOf p.sd p.seg).bind (·.next)).bind (stripeOf (s.metaOf p.sd)) with
      | none => none
      | some (n, pos2, t2) =>
        if t2.st ≠ .formed ∧ t2.st ≠ .opened then none
        else
          match nextSlotAt t2 pos2 0 (if s.inPair p.sd n then 4096 else t2.rows) with
          | some (r, j) => some (packAt p.sd p.kdom p.copy n t2 r j s.top.epoch, s.takeSlot p.sd n t2 r j)
          | none => none

/-- The largest f, from `n` down, with Σ min(c_m, f) ≥ f × w (R176). -/
def freeStripes (c : List Nat) (w : Nat) : Nat → Nat
  | 0 => 0
  | f + 1 => if (c.foldl (fun n x => n + min x (f + 1)) 0) ≥ (f + 1) * w then f + 1 else freeStripes c w f

/-- A domain's current data shape: that of the peer's domain as the peer has copied it (R316). -/
def State.shapeOf (s : State) (d : SD) : Shape :=
  if s.owns d then (s.metaOf d).shape
  else (s.ubl.shadowLogs.get d).foldl (fun x l => l.deltas.foldl (fun x y => match y with
    | .shape v => v
    | _ => x) x) (s.ubl.shadow.get d).shape

/-- The free finish stripes of a domain (R176): no f above Σ c_m div w can do. -/
def State.freeFinish (s : State) (d : SD) : Nat :=
  let c := ((List.range 48).filter s.mayPlace).map fun p => s.freeCount p true
  let w := shapeWidth (s.shapeOf d) false
  freeStripes c w (c.foldl (· + ·) 0 / w)

/-! ### Pack images (R217, R246, R247) -/

/-- The location block of the AAD (Table 10.2). -/
def locBlock (d : SD) (pack : Nat) : List Byte := leBytes 5 pack ++ [BitVec.ofNat 8 d.num] ++ zeros 10

/-- Sidecar bytes 16 to 511 (Table 09.3): NONCE, SLOT, KIND and the raw check table. -/
def sidecarTail (nonce : List Byte) (slot kind : Nat) (rct : List Byte) : List Byte :=
  fit nonce 12 ++ leBytes 2 slot ++ leBytes 1 kind ++ zeros 225 ++ fit rct 256

/-- Encrypt a pack (R246): the 66,048 B image. -/
def sealPack (key nonce : List Byte) (slot kind : Nat) (d : SD) (pack : Nat) (body rct : List Byte) : List Byte :=
  let tail := sidecarTail nonce slot kind rct
  let (ct, tag) := gcmEnc key nonce (locBlock d pack ++ tail) (fit body 65536)
  ct ++ tag ++ tail

/-- Fields of a pack image. -/
def imgTag (img : List Byte) : List Byte := slice img 65536 16
def imgNonce (img : List Byte) : List Byte := slice img 65552 12
def imgSlot (img : List Byte) : Nat := bitsOf (leAt img 65564 2) 11 0
def imgRct (img : List Byte) : List Byte := slice img 65792 256

/-- How opening a pack ends (R247). -/
inductive Opened where
  | plain (body rct : List Byte)
  | tagFail
  | slotEmpty
  deriving DecidableEq, Repr

/-- A key slot. -/
def State.kslot (s : State) (n : Nat) : KSlot := Table.getD s.cip.slots n KSlot.empty

/-- Authenticate and decrypt a pack image at its location (R247). -/
def State.openImage (s : State) (d : SD) (pack : Nat) (img : List Byte) : Opened :=
  let k := s.kslot (imgSlot img)
  if k.state = 0 ∨ k.state = 3 then .slotEmpty
  else
    match gcmDec k.key (imgNonce img) (locBlock d pack ++ slice img 65552 496) (img.take 65536) (imgTag img) with
    | some body => .plain body (imgRct img)
    | none => .tagFail

/-- The domain pack of a chained granule's successor (R136, R137). -/
def State.succPack (s : State) (d : SD) (loc : Nat) (c : Bool × Nat) : Nat :=
  let seg := (Loc.ofNum loc).seg
  let g := if c.1 then ((s.segOf d seg).bind (·.next)).getD seg else seg
  g * 4096 + c.2

/-- Decode a granule from the plaintext of its pack, and of its successor where it is chained (R124,
R125, R128). -/
def decodeGranule (raw : Bool) (off : Nat) (body rct : List Byte) (more : List Byte) : GOut :=
  let b := body.drop (16 * off) ++ more
  if raw then rawDecode b rct (16 * off) else avaDecode b

/-! ### Issuing media commands (R222, R463) -/

/-- MLK submits a command now: the pads let the domain pass, no break, not stopped (R321, R463). -/
def State.mayIssue (s : State) (d : Dom) : Bool :=
  !s.ubl.breakIn &&
  match d with
  | .vault => true
  | .sd x => s.ubl.battenOut.get x && !s.ubl.battenIn.get x && !s.mlk.stopped.get x

/-- The local FENCED outcome of R463. -/
def fencedRes : MRes := ⟨.fenced, 0, []⟩

/-- Commands that one queue of 128 entries holds (R214; PRESUMED, assumption 119: as NVMe has it, one entry stays empty). -/
abbrev queueDepth : Nat := 127

/-- MLK's queue pairs on a port: created in step 2 of admission (R214, R226). -/
def Port.hasQueues (p : Port) : Bool := decide (p.state = 2 ∨ p.state = 1 ∧ p.step ≥ 3)

/-- The queue pair with room that takes a command: the admin queue, or the first of the 8 I/O queues. -/
def State.queueFor (s : State) (c : MCmd) : Option Nat :=
  if (s.port c.port).hasQueues then
    (if c.op = .admin then [0] else (List.range 8).map (· + 1)).find? fun q =>
      decide ((s.mlk.out.filter fun o => o.cmd.port = c.port ∧ o.queue = some q).length < queueDepth)
  else none

/-- A port out of service takes no command (R199, R224). -/
def Port.dead (p : Port) : Bool := decide (p.state ≠ 1 ∧ p.state ≠ 2)

/-- How MLK takes a command: submitted to a queue with room, or completed at once, with the local FENCED outcome (R463) or, on a port
out of service, as a time out (R224). -/
def State.taken (s : State) (c : MCmd) : Out :=
  if !s.mayIssue c.dom then ⟨c, some fencedRes, true, none⟩
  else if (s.port c.port).dead then ⟨c, some ⟨.internal, 0, []⟩, true, none⟩
  else ⟨c, none, false, s.queueFor c⟩

/-- MLK takes a media command (R214, R463); a local FENCED outcome is counted. -/
def State.issue (s : State) (c : MCmd) : State :=
  let s1 := { s with mlk := { s.mlk with out := s.mlk.out ++ [s.taken c] } }
  if s.mayIssue c.dom then s1 else s1.count .mlkFenced

/-- A blank media command to a port. -/
def MCmd.mk0 (port : Nat) (op : MOp) (dom : Dom) (why : Why) : MCmd :=
  ⟨port, op, dom, 0, 0, 0, false, false, 0, zeros 16, 0, [], why, op.code, 1, 0, op.dataLen⟩

/-- A program of an image to a slot of a stripe member. -/
def State.issueProgram (s : State) (d : SD) (n : Nat) (t : Stripe) (row pos : Nat) (img : List Byte) : State :=
  match s.segOf d (t.members.getD pos 0) with
  | none => s
  | some e =>
    s.issue { MCmd.mk0 e.port .program (.sd d) (.slot n row pos) with
      oepoch := s.ubl.oepoch.get d, pseg := e.pseg, pidx := row, finish := t.finish, image := img }

/-- Add to a pin (R70). -/
def State.pin (s : State) (port pseg : Nat) : State :=
  let k := psegKey port pseg
  { s with med := { s.med with pins := Table.put s.med.pins k (Table.getD s.med.pins k 0 + 1) } }

/-- Release a pin. -/
def State.unpin (s : State) (port pseg : Nat) : State :=
  let k := psegKey port pseg
  let n := Table.getD s.med.pins k 0
  { s with med := { s.med with pins := if n ≤ 1 then Table.del s.med.pins k else Table.put s.med.pins k (n - 1) } }

/-- Count a read of a physical segment (R179). DESIGN CHOICE (assumption 111): the 32-bit count stays at its highest value. -/
def State.countRead (s : State) (port pseg : Nat) : State :=
  let k := psegKey port pseg
  { s with med := { s.med with reads := Table.put s.med.reads k (min 0xFFFFFFFF (Table.getD s.med.reads k 0 + 1)) } }

/-- Move a physical segment to a new state. -/
def State.setPSeg (s : State) (d : SD) (port pseg : Nat) (f : PSegRec → PSegRec) : State :=
  match s.psegOf port pseg with
  | some r => s.delta d (.pseg port pseg { f r with changed := s.top.epoch })
  | none => s

/-- Retire a physical segment (Table 07.3). -/
def State.retire (s : State) (d : SD) (port pseg : Nat) : State :=
  (s.setPSeg d port pseg fun r => { r with st := .retired }).raise .med 2

/-- Queue a garbage-collection victim once, at the highest priority it has been given (R173, R206). -/
def State.victim (s : State) (d : SD) (n prio : Nat) : State :=
  if s.med.victims.any fun v => v.sd = d ∧ v.stripe = n then
    { s with med := { s.med with victims := s.med.victims.map fun v =>
      if v.sd = d ∧ v.stripe = n then { v with prio := min v.prio prio } else v } }
  else { s with med := { s.med with victims := s.med.victims ++ [Victim.mk d n prio false 0] } }

/-- Queue a segment's stripe for refresh (R173, R179, R183). -/
def State.refresh (s : State) (d : SD) (seg : Nat) : State :=
  match stripeOf (s.metaOf d) seg with
  | some (n, _, _) => s.victim d n 2
  | none => s

/-! ### Loss (R206 to R209) -/

/-- The blocks of a granule that the loss map names, where its stored granule is lost (R208). -/
def State.lostBlocks (s : State) (d : SD) (loc : Nat) : Nat :=
  match Table.find (s.metaOf d).loss loc with
  | some e => e.blocks
  | none => 0

/-- Enter a stored granule in the loss map (R207): STATE becomes lost and its index entries go (R103). The entry of a granule that
has lost some blocks only gives way to one for all of it; one that nothing names leaves the loss map at once (R208). -/
def State.lose (s : State) (d : SD) (loc cause blocks : Nat) : State :=
  match s.refOf d loc with
  | none => s
  | some r =>
    if r.st = .freed ∨ (r.st = .lost ∧ (blocks ≠ 0xFF ∨ s.lostBlocks d loc = 0xFF)) then s
    else
      let s1 := s.delta d (.loss loc (some ⟨cause, blocks, s.top.epoch⟩))
      let s2 := s1.delta d (.ref loc (some { r with st := .lost }))
      let s3 := ((s2.dropIndex d r loc).count .strLossGranules).raise .str 3
      let n := (stripeOf (s3.metaOf d) (Loc.ofNum loc).seg).map (·.1)
      let s4 := s3.notify 0x10 0x0201 true (some d) 0xFF (leBytes 6 loc ++ leBytes 4 (n.getD 0))
      if r.st = .freePending then s4.freePending d loc else s4

/-- A data pack of a row is lost: every granule that starts in it, and every chained granule whose
successor it is (R207). -/
def State.losePack (s : State) (d : SD) (pack cause : Nat) : State :=
  ((s.metaOf d).refs.filter fun (l, r) => l / 4096 = pack ∨ r.succ = some pack).foldl
    (fun s (l, _) => s.lose d l cause 0xFF) s

/-- A row's unavailable slots number more than p: its unavailable data slots are lost and the stripe is
broken; a lost metadata slot puts the domain out of service (R206, R209). -/
def State.loseRow (s : State) (d : SD) (n : Nat) (t : Stripe) (row : Nat) (bad : List Nat) (cause : Nat) : State :=
  if !(bad.any fun pos => (dataIdx t.w t.p t.k row pos).isSome) then s
  else
    let s0 := if t.isMeta ∧ !(s.metaOf d).lost then ((s.delta d (.lost true)).raise .str 7).notify 0x10 0x0202 true (some d) else s
    let s1 := bad.foldl (fun s pos =>
      match dataIdx t.w t.p t.k row pos with
      | some _ => s.losePack d (t.members.getD pos 0 * 4096 + row) cause
      | none => s) s0
    let s2 := match Table.find (s1.metaOf d).stripes n with
      | some t' => s1.delta d (.stripe n (some { t' with st := .broken }))
      | none => s1
    (s2.raise .str 2).victim d n 0

/-! ### Reads by background passes (R74, R77, R78, R106, R174, R182, R200)

A background pass reads within the one command that runs it. -/

/-- The domain pack number of a pack. -/
def Pack.num (p : Pack) : Nat := p.seg * 4096 + p.pidx

/-- The accumulator of a row. -/
def State.row? (s : State) (d : SD) (n row : Nat) : Option Row :=
  s.str.rows.find? fun r => r.sd = d ∧ r.stripe = n ∧ r.row = row

/-! ### Statistics of a module (R184) -/

/-- A window of RTC time in µs. -/
abbrev hourUs : Nat := 3600000000

/-- Change a module's statistics. -/
def State.updStats (s : State) (port : Nat) (f : ModStats → ModStats) : State :=
  { s with med := { s.med with stats := Table.put s.med.stats port (f (Table.getD s.med.stats port ModStats.empty)) } }

/-- An authoritative read of a pack has ended at a step: whether it needed step 1 or a later one. -/
def State.noteRead (s : State) (port : Nat) (stepped : Bool) : State :=
  let now := s.pwr.rtc.toNat
  s.updStats port fun x => { x with reads := (x.reads ++ [(now, stepped)]).filter fun y => now - y.1 ≤ hourUs }

/-- A ladder has failed (R182). -/
def State.ladderFailed (s : State) (port : Nat) : State :=
  let now := s.pwr.rtc.toNat
  ((s.count .medLadderFailed).noteRead port true).updStats port fun x =>
    { x with fails := (x.fails ++ [now]).filter fun t => now - t ≤ 48 * hourUs }

/-- A ladder step has yielded the pack (R183). -/
def State.ladderDone (s : State) (d : SD) (port seg step : Nat) : State :=
  let s1 := s.noteRead port (decide (1 ≤ step))
  let s2 := if 1 ≤ step then s1.count .medLadderSteps else s1
  if 3 ≤ step then s2.refresh d seg else s2

/-- A finish segment of a module has been erased. -/
def State.noteErase (s : State) (port : Nat) (finish : Bool) : State :=
  let now := s.pwr.rtc.toNat
  if finish then s.updStats port fun x => { x with erases := (x.erases ++ [now]).filter fun t => now - t ≤ 720 * hourUs } else s

/-- A module has reported its temperatures (R181, R219). -/
def State.noteTemp (s : State) (port : Nat) (t : Temps) : State :=
  let warm : Bool := (s.mod? port).any fun m => decide (t.hi > sbyte (m.desc.getD 48 0))
  { s with med := { s.med with temps := Table.put s.med.temps port t } }.updStats port fun x =>
    { x with hot := if warm then some (x.hot.getD s.pwr.rtc.toNat) else none }

/-- What the controller holds of a pack that is not in its slot yet. -/
inductive HeldPack where
  | body (b rct : List Byte)
  | image (img : List Byte)
  deriving DecidableEq, Repr

/-- A pack still in its pack buffer, or its image in program staging until the program completes (Table 03.3). -/
def State.heldPack (s : State) (d : SD) (pack : Nat) : Option HeldPack :=
  match (s.dp.packs ++ s.dp.closed).find? fun p => p.sd = d ∧ p.num = pack with
  | some p => some (.body p.body (rctBytes p.rct))
  | none =>
    let staged := (s.med.subs.filter fun x => x.sd = d ∧ x.seg = pack / 4096).findSome? fun x => Table.find x.staged (pack % 4096)
    let out := (s.segOf d (pack / 4096)).bind fun e => s.mlk.out.findSome? fun o =>
      if o.cmd.op = .program ∧ o.cmd.dom = .sd d ∧ o.cmd.port = e.port ∧ o.cmd.pseg = e.pseg ∧ o.cmd.pidx = pack % 4096
      then some o.cmd.image else none
    (staged <|> out).map .image

/-- A Media Raw Read of a slot, as its module answers it: the image, where every check passes and the slot holds one whole. -/
def State.slotRead (s : State) (d : SD) (e : SegEnt) (pidx : Nat) : Option (List Byte) :=
  (s.mod? e.port).bind fun m =>
    let c := { MCmd.mk0 e.port .read (.sd d) (.fetch 0) with
      oepoch := s.ubl.oepoch.get d, pseg := e.pseg, pidx := pidx, finish := decide (m.region e.pseg = some .finish) }
    if moduleCheck m s.top.head c ≠ .ok then none
    else match Table.find m.slots (slotKey e.pseg pidx) with
      | some (.image b) => some b
      | _ => none

/-- Where a pack can be read: its segment, unless its member is missing or its module is not present. -/
def State.readSeg (s : State) (d : SD) (pack : Nat) : Option SegEnt :=
  (s.segOf d (pack / 4096)).filter fun e => !segMissing (s.metaOf d) (pack / 4096) && s.present e.port

/-- Read a slot `n` times (R179). -/
def State.countReads (s : State) (port pseg n : Nat) : State := (List.range n).foldl (fun s _ => s.countRead port pseg) s

/-- An authoritative read of a slot with its ladder (R165, R182, R183). How many steps the module fails is free; an image that is
not what is wanted failed its tag at every step, and a slot without a whole image fails them all. -/
def State.readLadder (s : State) (d : SD) (pack : Nat) (good : List Byte → Bool) : Option (List Byte) × State :=
  match s.readSeg d pack with
  | none => (none, s)
  | some e =>
    let k := (Config.readFails s.draws).toNat
    let s0 := { s with draws := s.draws + 1 }.noteHour
    match s0.slotRead d e (pack % 4096) with
    | some img =>
      if k < 8 ∧ good img then (some img, (s0.countReads e.port e.pseg (k + 1)).ladderDone d e.port (pack / 4096) k)
      else
        let s1 := if k < 8 then (s0.count .cipTagFail (8 - k)).raise .cip 0 else s0
        (none, (s1.countReads e.port e.pseg 8).ladderFailed e.port)
    | none => (none, (s0.countReads e.port e.pseg 8).ladderFailed e.port)

/-- The image at a position of a row as a source: a data slot that the open row has not taken yet counts as a fill pack; the
parity of an open row is its accumulator; else what program staging holds, or the slot by a read. -/
def State.rowSource (s : State) (d : SD) (n : Nat) (t : Stripe) (row pos : Nat) : Option (List Byte) × State :=
  let pack := t.members.getD pos 0 * 4096 + row
  match s.row? d n row, dataIdx t.w t.p t.k row pos, s.heldPack d pack with
  | some r, some j, _ => if j ∈ r.folded then (match s.heldPack d pack with
      | some (.image img) => (some img, s)
      | _ => s.readLadder d pack fun _ => true) else (some fillPack, s)
  | some r, none, _ => (some (if pos = posP t.w row then r.accP else r.accQ), s)
  | none, _, some (.image img) => (some img, s)
  | none, _, _ => s.readLadder d pack fun _ => true

/-- Reconstruct the slot at a member position of a row from k others, data slots before P and P before Q, each with its own
ladder (R200); `bad` names positions whose ladder fails. The positions found unavailable come with it. -/
def State.rebuildRow (s : State) (d : SD) (n : Nat) (t : Stripe) (row pos : Nat) (bad : List Nat) :
    Option (List Byte) × List Nat × State :=
  let order := (List.range t.k).map (posData t.w t.p row) ++ [posP t.w row] ++ (if t.pq then [posQ t.w row] else [])
  let (got, gone, s1) := order.foldl (fun (x : List (Nat × List Byte) × List Nat × State) q =>
    let (got, gone, s) := x
    if got.length ≥ t.k ∨ q ∈ gone then x
    else if q ∈ bad then (got, gone ++ [q], match s.segOf d (t.members.getD q 0) with
      | some e => s.ladderFailed e.port
      | none => s)
    else match s.rowSource d n t row q with
      | (some img, s) => (got ++ [(q, img)], gone, s)
      | (none, s) => (got, gone ++ [q], s)) ([], pos :: t.missing.filter (· ≠ pos), s)
  if got.length < t.k then (none, gone, s1)
  else
    let av := (List.range t.k).filterMap fun j => (Table.find got (posData t.w t.p row j)).map fun i => (j, i)
    (rebuildSlot t.w t.p t.k row pos av (Table.find got (posP t.w row)) (if t.pq then Table.find got (posQ t.w row) else none),
      gone, s1)

/-- Open an image that was read or rebuilt: a tag that fails and a slot that holds no key are reported (R183, R247). -/
def State.openRead (s : State) (d : SD) (pack : Nat) (img : List Byte) : Opened × State :=
  match s.openImage d pack img with
  | .plain b r => (.plain b r, s.count .cipMsgDone)
  | .tagFail => (.tagFail, (s.count .cipTagFail).raise .cip 0)
  | .slotEmpty => (.slotEmpty, s.raise .cip 2)

/-- A row with more unavailable slots than parity: by missing members alone, or with a ladder failure among them (R206, R207). -/
def State.loseGone (s : State) (d : SD) (n : Nat) (t : Stripe) (row : Nat) (gone : List Nat) : State :=
  s.loseRow d n t row gone (if gone.all (· ∈ t.missing) then 0 else 1)

/-- An authoritative read of a whole pack: from where the controller still holds it, else from its slot by the ladder, else by
reconstruction (R77, R78, R182, R200). While no command of the domain may be issued the pack is not read. -/
def State.readPack (s : State) (d : SD) (pack : Nat) : Opened × State :=
  match s.heldPack d pack with
  | some (.body b r) => (.plain b r, s)
  | some (.image img) => s.openRead d pack img
  | none =>
    match stripeOf (s.metaOf d) (pack / 4096) with
    | none => (.tagFail, s)
    | some (n, pos, t) =>
      if !s.mayIssue (.sd d) then (.slotEmpty, s)
      else
        let passes (img : List Byte) : Bool := decide (s.openImage d pack img ≠ .tagFail)
        match s.readLadder d pack passes with
        | (some img, s1) => s1.openRead d pack img
        | (none, s1) =>
          let s2 := if pos ∈ t.missing then s1.count .strDegradedReads else s1
          match s2.rebuildRow d n t (pack % 4096) pos [] with
          | (some img, _, s3) => s3.openRead d pack img
          | (none, gone, s3) => (.tagFail, s3.loseGone d n t (pack % 4096) gone)

/-- The outcome of reading a stored granule: its bytes, a format or check failure, or an unreadable pack. -/
inductive Stored where
  | bytes (b : List Byte)
  | bad (format : Bool)
  | unreadable
  deriving DecidableEq, Repr

/-- A granule that fails under a verified tag (R78): counted and entered in the loss map with CAUSE 2. -/
def State.granuleBad (s : State) (d : SD) (loc : Nat) (format : Bool) : State :=
  (s.count (if format then .dpDecodeFormat else .dpDecodeCheck)).lose d loc 2 0xFF

/-- The plaintext of a stored granule's pack from its start on, with that of its successor, and the pack's raw check table. -/
def State.readBody (s : State) (d : SD) (loc : Nat) (chain : Option (Bool × Nat)) :
    Option (List Byte × List Byte × List Byte) × State :=
  match s.readPack d (loc / 4096) with
  | (.plain body rct, s1) =>
    (match chain with
    | none => (some (body, rct, []), s1)
    | some c =>
      match s1.readPack d (s1.succPack d loc c) with
      | (.plain b _, s2) => (some (body, rct, b), s2)
      | (_, s2) => (none, s2))
  | (_, s1) => (none, s1)

/-- Read a stored granule by its entry, as a background pass or a merge does (R78, R106, R124, R133, R174). -/
def State.readStored (s : State) (d : SD) (raw : Bool) (loc : Nat) (chain : Option (Bool × Nat)) : Stored × State :=
  match s.readBody d loc chain with
  | (none, s1) => (.unreadable, s1)
  | (some (body, rct, more), s1) =>
    match decodeGranule raw (loc % 4096) body rct more with
    | .good b => (.bytes b, s1)
    | .format => (.bad true, s1.granuleBad d loc true)
    | .check => (.bad false, s1.granuleBad d loc false)

/-- Read the stored granule of a LOC by its reference record. -/
def State.readLoc (s : State) (d : SD) (loc : Nat) : Stored × State :=
  match s.refOf d loc with
  | some r => s.readStored d r.raw loc (chainOf loc r.succ)
  | none => (.unreadable, s)

/-- The stored form of a granule as a copy takes it (R130): its stored bytes and, for a raw granule, the CHECK of its entry in
the raw check table, where it has one. -/
def State.storedBytes (s : State) (d : SD) (r : RefRec) (loc : Nat) : Option (List Byte × Option DWord) × State :=
  match s.readBody d loc (chainOf loc r.succ) with
  | (none, s1) => (none, s1)
  | (some (body, rct, more), s1) =>
    (some ((body.drop (16 * (loc % 4096)) ++ more).take r.size, rctFind rct (16 * (loc % 4096))), s1)

end Sys2Proof.Machine
end

