-- ==== Sys2Proof/Machine/UblOps.lean ====
section
/-!
DEFINITION. Operations over the dust sheet, the mirror flow, the stripe journal and delta-log sealing.
-/

namespace Sys2Proof.Machine

/-- Change UBL. -/
def State.updUbl (s : State) (f : UblState → UblState) : State := { s with ubl := f s.ubl }

/-- Protected completions need no mirror: the peer is out of service (R326). -/
def State.noMirror (s : State) : Bool := s.ubl.unmirrored

/-- Send a mirror frame of a domain (R311): the next MSEQ, kept until acknowledged, its CHECK kept for the
epoch's digest (R313). Without a peer there is no mirror; while a peer is filled the frames are sent (R327). -/
def State.mirror (s : State) (d : SD) (release : Bool) (offset : Nat) (data : List Byte) (mhdr : Option Nat) : State :=
  if s.noMirror ∧ s.ubl.filling = 0 then s
  else
    let t := s.ubl.tx.get d
    let f : MFrame := ⟨release, d, s.top.epoch.toNat % 65536, t.mseq + 1, offset, data, mhdr⟩
    let e := f.epoch16
    let t' : MTx := { mseq := t.mseq + 1, unacked := t.unacked ++ [f],
                      checks := Table.put t.checks e (Table.getD t.checks e [] ++ [f.check]) }
    (s.updUbl fun u => { u with tx := u.tx.set d t' }).send (.mirror f)

/-- The MSEQ of the last frame sent for a domain. -/
def State.lastMseq (s : State) (d : SD) : Word := (s.ubl.tx.get d).mseq

/-- Mirror a run of bytes in frames of at most 4,096 B (R311). -/
def State.mirrorBytes (s : State) (d : SD) (offset : Nat) : Nat → List Byte → State
  | 0, _ => s
  | fuel + 1, b =>
    if b.isEmpty then s
    else (s.mirror d false offset (b.take 4096) none).mirrorBytes d (offset + 4096) fuel (b.drop 4096)

/-- The first slot of the dust sheet after the two journal rings. -/
def State.sheetBase (s : State) : Nat := 2 * s.str.ring / 4096

/-- The lowest run of `n` free slots of the dust sheet, over the entries in rising order. -/
def findRun (n limit : Nat) : Nat → List (Nat × Entry) → Option Nat
  | cur, [] => if cur + n ≤ limit then some cur else none
  | cur, (off, e) :: es =>
    if cur + n ≤ off / 4096 then some cur else findRun n limit (max cur (off / 4096 + 1 + e.nslots)) es

/-- Where an entry with `n` data slots goes: its header slot (R310). -/
def State.sheetPlace (s : State) (n : Nat) : Option Nat :=
  findRun (n + 1) (s.sheetBase + s.ubl.sheet.size) s.sheetBase s.ubl.sheet.entries

/-- Write an entry's header into the dust sheet and mirror it (R310, R311); a header with its marker is the
unit's last beat. -/
def State.putEntry (s : State) (off : Nat) (e : Entry) : State :=
  let s1 := s.updUbl fun u => { u with sheet := { u.sheet with entries := Table.put u.sheet.entries off e } }
  s1.mirror e.sd false off e.bytes (if e.marked then some off else none)

/-- The content of a data slot. -/
def State.slotBytes (s : State) (slot : Nat) : List Byte := Table.getD s.ubl.sheet.slots slot (zeros 4096)

/-- Land bytes in a data slot and mirror them; `mhdr` names the header on a unit's last beat (R66, R311). -/
def State.landSlot (s : State) (d : SD) (slot off : Nat) (b : List Byte) (mhdr : Option Nat) : State :=
  let s1 := s.updUbl fun u => { u with sheet := { u.sheet with
    slots := Table.put u.sheet.slots slot (patch (s.slotBytes slot) off b) } }
  s1.mirror d false (slot * 4096 + off) b mhdr

/-- The data-complete marker of an entry (R66, R310). -/
def State.markEntry (s : State) (off : Nat) : State :=
  s.updUbl fun u => { u with sheet := { u.sheet with
    entries := Table.upd u.sheet.entries off fun e => { e with marked := true } } }

/-- An entry leaves the dust sheet and a release frame names it (R312). -/
def State.releaseEntry (s : State) (hdr : Nat) (e : Entry) : State :=
  (s.updUbl fun u => { u with sheet := { u.sheet with
    entries := Table.del u.sheet.entries hdr
    slots := Table.keep (fun k _ => decide (k < e.data ∨ k ≥ e.data + e.nslots)) u.sheet.slots } }).mirror e.sd true 0
    (leBytes 8 (hdr / 4096)) none

/-- Where a record of `n` bytes begins in a ring whose last record ended at `at_`: one that would pass the end of the ring starts
at its beginning. -/
def ringPos (ring at_ n : Nat) : Nat := if at_ + n ≤ ring then at_ else 0

/-- A part of a domain's ring holds no unreleased record. -/
def State.ringFree (s : State) (d : SD) (a b : Nat) : Bool :=
  decide (b ≤ s.str.ring) && (s.str.journal.get d).all fun r => decide (b ≤ r.pos ∨ r.pos + r.len ≤ a)

/-- Bytes kept free behind a record of a pack: a ROW_CLOSE for each of the 16 rows and one more, so that every open row can be closed
(DESIGN CHOICE, assumption 115). -/
def ringReserve : Nat := 17 * 64

/-- A journal record finds room in its ring (R191); behind a record of a pack the reserve for ROW_CLOSE stays free. -/
def State.journalRoom (s : State) (d : SD) (r : JRec) : Bool :=
  let a := ringPos s.str.ring (s.str.jpos.get d) r.len
  let b := a + r.len
  s.ringFree d a b && (decide (r.typ = 2) ||
    if b + ringReserve ≤ s.str.ring then s.ringFree d b (b + ringReserve)
    else s.ringFree d b s.str.ring && s.ringFree d 0 ringReserve && decide (ringReserve ≤ a))

/-- Present a journal record to the dust sheet and the mirror flow (R191, R193). -/
def State.journal (s : State) (d : SD) (r : JRec) : State :=
  let pos := ringPos s.str.ring (s.str.jpos.get d) r.len
  let s1 := { s with str := { s.str with
    journal := s.str.journal.set d (s.str.journal.get d ++ [{ r with pos := pos }])
    jpos := s.str.jpos.set d (pos + r.len) } }
  s1.mirrorBytes d (d.num * s.str.ring + pos) (r.len / 4096 + 1) r.bytes

/-- The digest D(n) of a sealed log and the mirror CHECKs of its epoch (R313). -/
def epochDigest (l : DLog) (checks : List DWord) : List Byte :=
  shake256 (l.bytes ++ checks.flatMap fun c => leBytes 8 c.toNat) 32

/-- Whether the oldest of the sealed epochs of a domain holds new writes (R38): epoch n−4 unacknowledged
when epoch n begins. -/
def holdsAt (waits : List EpochWait) : Bool := decide (waits.length ≥ 4)

/-- What was recorded in an epoch of a domain is copied to the peer, or needs no copy because there is no peer (R34, R326): it lies
before the oldest log that waits and before the log being written, which a closed window leaves open over more than one epoch
(assumption 57). -/
def State.epochSafe (s : State) (d : SD) (e : DWord) : Bool :=
  (s.ubl.waits.get d).all (fun w => decide (e < w.log.epoch)) && decide (e < (s.map.log.get d).epoch)

end Sys2Proof.Machine
end

