-- ==== Sys2Proof/Machine/Link.lean ====
section
/-!
DEFINITION. The flit layer of the Ubius link: frames in flits, flow classes and their shares, credit and replay (R306 to R308).
-/

namespace Sys2Proof.Machine

/-! ### Frames in flits -/

/-- Flits that carry `n` bytes: 256 B of payload each (R306). -/
def flitsOf (n : Nat) : Nat := max 1 ((n + 255) / 256)

/-- Flits of a delta log of `n` bytes in EPOCH frames of 32 B and up to 4,064 B of log (R313). -/
def logFlits (n : Nat) : Nat :=
  let full := n / 4064
  16 * full + if n % 4064 = 0 ∧ 0 < full then 0 else flitsOf (32 + n % 4064)

/-- Flits of a frame. FORWARD and MESSAGE frames have no layout in the manual: a header of 32 B stands before what they carry, a
command is 64 B and its data, a HELLO is 32 B (DESIGN CHOICE, assumption 123). -/
def TxFrame.flits : TxFrame → Nat
  | .mirror f => flitsOf (64 + f.data.length)
  | .epochLog _ l _ => logFlits l.bytes.length
  | .shadow _ m _ => max 1 (Config.shadowFlits m)
  | .fwdCmd _ c => flitsOf (96 + c.data.length)
  | .fwdData _ _ b => flitsOf (32 + b.length)
  | .message _ _ b => flitsOf (32 + b.length)
  | _ => 1

/-! ### Sending (R308) -/

/-- Receive buffers of the classes in flits (Table 13.2). -/
def flowBuf : List Nat := [64, 2048, 512, 512, 128]

/-- The class a place of the round belongs to: 26 flits, 3, 2 and 1 (Table 13.2). Their order in the round is a DESIGN CHOICE
(assumption 123). -/
def roundClass (t : Nat) : Nat := if t < 26 then 1 else if t < 29 then 2 else if t < 31 then 3 else 4

/-- A class has a flit ready and may send it: control credit is never withheld. -/
def LinkSt.ready (l : LinkSt) (c : Nat) : Bool :=
  match l.flows[c]? with
  | some f => !f.queue.isEmpty && (decide (c = 0) || decide (0 < f.credit))
  | none => false

/-- The class that takes the next flit time: control first; else the class the place belongs to; else, where that one leaves it unused,
the next in turn of those that are ready. Before the link is up only control frames go. -/
def LinkSt.pick (l : LinkSt) (up : Bool) : Option Nat :=
  if l.ready 0 then some 0
  else if !up then none
  else if l.ready (roundClass l.time) then some (roundClass l.time)
  else ((List.range 4).map fun i => (l.turn + i) % 4 + 1).find? l.ready

/-- The next flit of a class is sent: it takes the next FSEQ, a place in the replay buffer and a flit of credit, and its header
returns the credit owed to the peer. A frame whose last flit goes leaves the flow. -/
def LinkSt.sendFlit (l : LinkSt) (c : Nat) : LinkSt :=
  match l.flows[c]? with
  | none => l
  | some f =>
    match f.queue with
    | [] => l
    | x :: xs =>
      let credit := if c = 0 then f.credit else f.credit - 1
      let last := decide (x.flits ≤ f.sent + 1)
      let ret := l.owed.findIdx (0 < ·)
      { l with
        flows := l.flows.set c (if last then ⟨xs, 0, credit⟩ else ⟨x :: xs, f.sent + 1, credit⟩)
        wire := if last then l.wire ++ [x] else l.wire
        fseqTx := l.fseqTx + 1, replay := l.replay ++ [⟨l.fseqTx + 1, 0⟩], owed := l.owed.set ret 0 }

/-- One flit time (R307, R308): a flit asked for again goes first; with the replay buffer full nothing new is sent. A control flit
takes no place of the round. -/
def LinkSt.flitTime (l : LinkSt) (up : Bool) : LinkSt :=
  if 0 < l.again then { l with again := l.again - 1 }
  else if l.replay.length ≥ 4096 then l
  else
    match l.pick up with
    | some 0 => l.sendFlit 0
    | some c => { (l.sendFlit c) with
        time := (l.time + 1) % 32, turn := if c = roundClass l.time then l.turn else c % 4 }
    | none => { l with time := (l.time + 1) % 32 }

/-- The flit times of one scr-cycle (R306, R307): 1.05 × 10^9 flits a second on 24 lanes, two thirds of that on 16. -/
def LinkSt.cycle (l : LinkSt) (lanes : Nat) (up : Bool) : LinkSt :=
  let halves := (if lanes = 2 then 21 else if lanes = 1 then 14 else 0) + b2n l.half
  (List.range (halves / 2)).foldl (fun l _ => l.flitTime up) { l with half := decide (halves % 2 = 1) }

/-- The mirror flow has no credit for what waits in it: the multicast of host beats holds (Table 03.3). -/
def State.mirrorFull (s : State) : Bool :=
  s.ubl.up && !s.noMirror &&
    match s.link.flows[1]? with
    | some f => decide (f.credit + f.sent ≤ (f.queue.map TxFrame.flits).sum)
    | none => false

/-! ### Receiving -/

/-- A frame of a class has arrived: its flits are in order and their credit is owed, and their headers acknowledge flits of the replay
buffer and return credit, at most what is out. -/
def LinkSt.hear (l : LinkSt) (c flits : Nat) : LinkSt :=
  let acked := Config.linkAck l.heard % (l.replay.length - l.again + 1)
  { l with
    heard := l.heard + 1
    fseqRx := l.fseqRx + BitVec.ofNat 16 flits
    replay := l.replay.drop acked
    owed := updAt l.owed c fun n => n + flits
    flows := (l.flows.zip flowBuf).zipIdx.map fun ((f, b), i) =>
      { f with credit := f.credit + Config.linkReturn l.heard i % (b - f.credit + 1) } }

/-- Take note of a frame of the peer. -/
def State.heard (s : State) (c flits : Nat) : State :=
  if s.ubl.up then { s with link := s.link.hear c flits } else s

/-! ### Training -/

/-- A frame that is sent again of its own after a link-up is not kept over it. -/
def TxFrame.kept : TxFrame → Bool
  | .mirror _ | .epochLog _ _ _ | .shadow _ _ _ | .fwdCmd _ _ => false
  | _ => true

/-- The flit layer after a training: each class has the credit of the peer's empty buffer, FSEQ and the replay buffer start again. -/
def LinkSt.restart (l : LinkSt) : LinkSt :=
  { l with
    flows := (l.flows.zip flowBuf).map fun (f, b) => ⟨f.queue.filter TxFrame.kept, 0, b⟩
    time := 0, turn := 0, fseqTx := 0, fseqRx := 0, replay := [], again := 0, owed := List.replicate 5 0 }

/-- The link has trained or has come up. -/
def State.retrained (s : State) : State := { s with link := s.link.restart }

end Sys2Proof.Machine
end

