-- ==== Sys2Proof/Machine/FrontOps.lean ====
section
/-!
DEFINITION. Operations of the NVMe front end: namespaces and formats, protection information, atomic units,
landing, reservations, results, and the return of responses.
-/

namespace Sys2Proof.Machine

/-! ### Statuses -/

def stOk : Status := ⟨0, 0x00⟩
def stBadOpcode : Status := ⟨0, 0x01⟩
def stBadField : Status := ⟨0, 0x02⟩
def stInternal : Status := ⟨0, 0x06⟩
def stAborted : Status := ⟨0, 0x07⟩
def stBadNs : Status := ⟨0, 0x0B⟩
def stSequence : Status := ⟨0, 0x0C⟩
def stNotChangeable : Status := ⟨0, 0x0E⟩
def stBadSgl : Status := ⟨0, 0x11⟩
def stSanitizing : Status := ⟨0, 0x1D⟩
def stProtected : Status := ⟨0, 0x20⟩
def stLbaRange : Status := ⟨0, 0x80⟩
def stResvConflict : Status := ⟨0, 0x83⟩
def stFormatting : Status := ⟨0, 0x84⟩
def stAbortLimit : Status := ⟨1, 0x03⟩
def stBadLogPage : Status := ⟨1, 0x09⟩
def stBadFormat : Status := ⟨1, 0x0A⟩
/-- Connect: Controller Busy (R253). -/
def stBusy : Status := ⟨1, 0x81⟩
/-- Connect: invalid parameters. -/
def stConnectParam : Status := ⟨1, 0x82⟩
def stUnrecovered : Status := ⟨2, 0x81⟩
def stGuard : Status := ⟨2, 0x82⟩
def stAppTag : Status := ⟨2, 0x83⟩
def stRefTag : Status := ⟨2, 0x84⟩
def stCompare : Status := ⟨2, 0x85⟩
/-- Asymmetric Access Transition (R58). -/
def stTransition : Status := ⟨3, 0x03⟩
/-- Fence Source Lost (R49). -/
def stFenceLost : Status := ⟨7, 0xC1⟩

/-! ### Opcodes -/

/-- The I/O opcodes of Table 11.3. -/
def ioOpcodes : List Nat := [0x00, 0x01, 0x02, 0x05, 0x08, 0x09, 0x0C, 0x0D, 0x0E, 0x11, 0x15, 0x84]

/-- Commands checked as writes against a reservation. -/
def isWriteOp (op : Nat) : Bool := op ∈ [0x00, 0x01, 0x08, 0x09]

/-- Commands that change blocks: Write, Write Zeroes, Dataset Management (R38, R262). -/
def changesBlocks (op : Nat) : Bool := op ∈ [0x01, 0x08, 0x09]

/-- Commands that read blocks: Read, Compare, Verify (R260). -/
def isReadOp (op : Nat) : Bool := op ∈ [0x02, 0x05, 0x0C]

/-- Reservation commands. -/
def isResvOp (op : Nat) : Bool := op ∈ [0x0D, 0x0E, 0x11, 0x15]

/-- A command with data for the controller that is not in the capsule fetches it by RDMA READ (R255): the
SGL descriptor type in byte 39. -/
def Capsule.sglType (c : Capsule) : Nat := leAt c.sqe 39 1

/-- The supported descriptor types (Table 11.2): data block with offset, keyed data block of sub types 0x0
and 0xF, Last Segment with offset. -/
def Capsule.sglOk (c : Capsule) : Bool := c.sglType ∈ [0x01, 0x40, 0x4F, 0x31]

/-- The data is in the capsule (R255). -/
def Capsule.inCapsule (c : Capsule) : Bool := c.sglType = 0x01

/-- Remote invalidation is asked for (sub type 0xF, R255). -/
def Capsule.invalidate (c : Capsule) : Bool := c.sglType = 0x4F

/-! ### Queues, hosts and responses -/

/-- The queue of a QId. -/
def FeState.queue (f : FeState) (q : QId) : Option Queue := f.queues.find? (·.q = q)

/-- Change a queue. -/
def FeState.updQueue (f : FeState) (q : QId) (g : Queue → Queue) : FeState :=
  { f with queues := f.queues.map fun x => if x.q = q then g x else x }

/-- Change FE. -/
def State.updFe (s : State) (f : FeState → FeState) : State := { s with fe := f s.fe }

/-- Post a response capsule on a queue, or on a queue pair that has not connected, unless it is in the error state or gone (R55); an error
status joins the host controller's error log (page 0x01). -/
def State.respond (s : State) (r : Response) : State :=
  match s.fe.queue r.q with
  | none => if r.q.cntlid = 0xFFFF then s.updFe fun f => { f with responses := f.responses ++ [r] } else s
  | some x =>
    if x.err then s
    else
      let s1 := s.updFe fun f => { f with responses := f.responses ++ [r] }
      if r.status = stOk then s1
      else s1.updFe fun f => { f with hosts := Table.upd f.hosts r.q.cntlid fun h =>
        { h with errLog := ((r.cid, r.status) :: h.errLog).take 64 } }

/-- Answer a capsule: on its queue, or to the head it was forwarded from (R317). -/
def State.answer (s : State) (c : Capsule) (st : Status) (dw0 : Nat) (data : List Byte) : State :=
  match c.origin with
  | some tag => s.send (.fwdCpl tag st dw0)
  | none => s.respond ⟨c.q, c.cid, st, dw0, data, c.invalidate⟩

/-- Remove the first waiting capsule that passes. -/
def takeFirst (p : Waiting → Bool) : List Waiting → Option (Waiting × List Waiting)
  | [] => none
  | w :: ws => if p w then some (w, ws) else (takeFirst p ws).map fun (x, r) => (x, w :: r)

/-- The first waiting capsule of a queue. -/
def FeState.front (f : FeState) (q : QId) : Option Capsule :=
  ((takeFirst (fun w => w.cap.q = q ∧ w.cap.origin.isNone) f.waiting).map (·.1.cap))

/-- Drop the first waiting capsule of a queue. -/
def FeState.dropFront (f : FeState) (q : QId) : FeState :=
  match takeFirst (fun w => w.cap.q = q ∧ w.cap.origin.isNone) f.waiting with
  | some (_, r) => { f with waiting := r }
  | none => f

/-- A queue ends: what fences asked of it and it has reached stays met (R49). -/
def FeState.dropQueue (f : FeState) (q : QId) : FeState :=
  let acc := (f.queue q).map (·.acc)
  { f with
    queues := f.queues.filter (·.q ≠ q)
    fences := f.fences.map fun x => if x.cap.q.cntlid ≠ q.cntlid then x else { x with
      ents := x.ents.filter fun (k, subc) => !(decide (k = q.qid) && (acc.map fun a => decide ((a - subc).toNat < 2 ^ 31)).getD false) } }

/-- Count a capsule accepted on its queue: ACC rises by 1 modulo 2^32 (R48). -/
def FeState.acceptOn (f : FeState) (q : QId) : FeState := f.updQueue q fun x => { x with acc := x.acc + 1 }

/-- A fence on the queue has not reached its fence point, so no later capsule of it is accepted (R48). -/
def FeState.fenced (f : FeState) (q : QId) : Bool := f.fences.any fun x => x.cap.q = q ∧ x.point.isNone ∧ !x.lost

/-! ### Namespaces -/

/-- A namespace. -/
def State.ns? (s : State) (n : Nat) : Option Namespace := Table.find s.fe.ns n

/-- A namespace attached to a host controller (R262). Forwarded commands were checked by their origin. -/
def State.attachedNs (s : State) (c : Capsule) : Option Namespace :=
  match s.ns? c.nsid with
  | some n => if c.origin.isSome ∨ c.q.cntlid ∈ n.attached then some n else none
  | none => none

/-- Namespaces attached to a host controller. -/
def State.nsOf (s : State) (cntlid : Nat) : List (Nat × Namespace) :=
  s.fe.ns.filter fun (_, n) => cntlid ∈ n.attached

/-- The metadata of a domain as this head knows it: its own, or the shadow of the peer's (R316). -/
def State.seenMeta (s : State) (d : SD) : Meta := if s.owns d then s.metaOf d else s.ubl.shadow.get d

/-- A root record of a domain as this head knows it. -/
def State.rootInfo (s : State) (d : SD) (root : Nat) : Option RootRec := Table.find (s.seenMeta d).roots root

/-- NSZE in logical blocks (R262). -/
def State.nsze (s : State) (n : Namespace) : Nat :=
  match s.rootInfo n.sd n.root with
  | some r => r.size * blocksPer n.lbaf
  | none => 0

/-- A root that replication writes as target: write-protected for hosts (R297). -/
def State.replTarget (s : State) (d : SD) (root : Nat) : Bool :=
  s.rdm.atts.any fun (_, a) => !a.source && !a.detached && decide (a.sd = d ∧ root ∈ a.roots)

/-- A snapshot namespace is read-only (R262), and so is the root of a replication target (R297). -/
def State.readOnly (s : State) (n : Namespace) : Bool :=
  s.replTarget n.sd n.root ||
  match s.rootInfo n.sd n.root with
  | some r => r.kind = 1
  | none => false

/-! ### Protection information (R263 to R265) -/

/-- One bit of the CRC-16 of the 16-bit guard (polynomial 0x8BB7). -/
def crc16Bit (c : Nat) : Nat := if c ≥ 0x8000 then ((c * 2) % 65536) ^^^ 0x8BB7 else c * 2

/-- The 16-bit guard of a block: T10 DIF CRC. -/
def crc16 (l : List Byte) : Nat :=
  l.foldl (fun c b => (List.range 8).foldl (fun x _ => crc16Bit x) (c ^^^ (b.toNat * 256))) 0

/-- The guard of a block under a format (Table 11.5, R265). -/
def guardOf (lbaf : Nat) (data : List Byte) : Nat := if lbaf = 4 then (crc64 data).toNat else crc16 data

/-- The expected reference tag of a block: ILBRT plus its offset, at the format's width (R264). -/
def expectTag (lbaf ilbrt i : Nat) : Nat := (ilbrt + i) % (if lbaf = 4 then 2 ^ 48 else 2 ^ 32)

/-- The protection information of a block, in the byte order NVMe gives it (big-endian). -/
def piBytes (lbaf : Nat) (data : List Byte) (apptag tag : Nat) : List Byte :=
  if lbaf = 4 then beBytes 8 (guardOf 4 data) ++ beBytes 2 apptag ++ beBytes 6 tag
  else beBytes 2 (guardOf lbaf data) ++ beBytes 2 apptag ++ beBytes 4 tag

/-- The host's bytes for one block under a command's PRACT (R264). -/
def hostBlock (lbaf : Nat) (pract : Bool) : Nat := lbaData lbaf + if pract then 0 else lbaMeta lbaf

/-- The checks of one written block (R264): the first failure in order of precedence. -/
def piCheck (lbaf apptag prchk tag : Nat) (blk : List Byte) : Option Status :=
  let data := blk.take (lbaData lbaf)
  let pi := blk.drop (lbaData lbaf)
  if lbaMeta lbaf = 0 ∨ pi.isEmpty then none
  else
    let g := if lbaf = 4 then 8 else 2
    if bitOf prchk 2 ∧ beNat (slice pi 0 g) ≠ guardOf lbaf data then some stGuard
    else if beNat (slice pi g 2) ≠ apptag then some stAppTag
    else if beNat (pi.drop (g + 2)) ≠ tag then some stRefTag
    else none

/-! ### Atomic units and granule pieces (R53, R69) -/

/-- Blocks of an atomic unit: 128 KiB of the namespace. -/
def unitBlocks (lbaf : Nat) : Nat := 131072 / lbaData lbaf

/-- The division of a block range at 128 KiB boundaries: first block and count of each unit. -/
def splitUnits (ub : Nat) : Nat → Nat → Nat → List (Nat × Nat)
  | 0, _, _ => []
  | fuel + 1, slba, n =>
    if n = 0 then []
    else
      let k := min n (ub - slba % ub)
      (slba, k) :: splitUnits ub fuel (slba + k) (n - k)

/-- Granules that a block range touches. -/
def granCount (lbaf slba n : Nat) : Nat :=
  let b := blocksPer lbaf
  if n = 0 then 0 else (slba + n - 1) / b - slba / b + 1

/-- The part of one granule that a unit covers. -/
structure Piece where
  unitIdx : Nat
  gran : Nat
  /-- First block in the granule, and how many. -/
  blk : Nat
  nblk : Nat
  /-- Index in the command of the piece's first block. -/
  first : Nat
  /-- Dust-sheet slot. -/
  slot : Nat
  /-- The piece carries its unit's last beat. -/
  last : Bool
  deriving DecidableEq, Repr

/-- The pieces of a unit, in granule order. -/
def unitPieces (lbaf slba0 : Nat) (u : Unit) : List Piece :=
  let b := blocksPer lbaf
  let g0 := u.slba / b
  let n := granCount lbaf u.slba u.nblk
  (List.range n).map fun i =>
    let g := g0 + i
    let lo := max u.slba (g * b)
    let hi := min (u.slba + u.nblk) ((g + 1) * b)
    ⟨u.idx, g, lo - g * b, hi - lo, lo - slba0, u.slot + i, decide (i + 1 = n)⟩

/-- The pieces of a command, in order. -/
def Cmd.pieces (c : Cmd) (lbaf : Nat) : List Piece :=
  match c.units with
  | [] => []
  | u :: _ => c.units.flatMap (unitPieces lbaf u.slba)

/-- A unit covers part of a granule (PARTIAL, R67). -/
def partialUnit (lbaf slba n : Nat) : Bool :=
  let b := blocksPer lbaf
  decide (slba % b ≠ 0 ∨ (slba + n) % b ≠ 0)

/-- ETYPE of a command's units (Table 13.3). -/
def etypeOf (c : Capsule) : Nat := if c.op = 0x01 then 1 else if c.op = 0x08 ∧ !c.deac then 2 else 3

/-! ### Commands -/

/-- An accepted command by its stamp. -/
def State.cmd? (s : State) (d : SD) (stamp : Nat) : Option Cmd := s.fe.cmds.find? fun c => c.sd = d ∧ c.stamp = stamp

/-- Change an accepted command. -/
def State.updCmd (s : State) (d : SD) (stamp : Nat) (f : Cmd → Cmd) : State :=
  s.updFe fun x => { x with cmds := x.cmds.map fun c => if c.sd = d ∧ c.stamp = stamp then f c else c }

/-- Decide a command's result, once. -/
def State.result (s : State) (d : SD) (stamp : Nat) (st : Status) : State :=
  s.updCmd d stamp fun c => if c.status.isSome then c else { c with status := some st }

/-- The block ranges a command addresses. A Dataset Management command addresses the ranges of its list. -/
def Cmd.ranges (c : Cmd) : List (Nat × Nat) :=
  if c.cap.op = 0x09 then c.units.map fun u => (u.slba, u.nblk)
  else if c.cap.op ∈ [0x01, 0x02, 0x05, 0x08, 0x0C] then [(c.cap.slba, c.cap.nblk)]
  else []

/-- Two ranges share a block. -/
def meets (a b : Nat × Nat) : Bool := decide (a.1 < b.1 + b.2 ∧ b.1 < a.1 + a.2)

/-- Two commands overlap: a common logical block of one namespace (R45). A Dataset Management command whose
range list has not arrived may address any block. -/
def overlap (a b : Cmd) : Bool :=
  decide (a.sd = b.sd ∧ a.cap.nsid = b.cap.nsid) &&
  ((a.ranges.any fun x => b.ranges.any (meets x)) ||
   (a.cap.op = 0x09 && a.units.isEmpty && a.status.isNone && !b.ranges.isEmpty) ||
   (b.cap.op = 0x09 && b.units.isEmpty && b.status.isNone && !a.ranges.isEmpty))

/-- A unit that has neither passed its data-complete point nor been abandoned. -/
def Unit.opened (u : Unit) : Bool := !u.complete && !u.abandoned

/-- A read overlaps a lower-stamped unit that has not passed its data-complete point (R260). -/
def State.mustHold (s : State) (c : Cmd) : Bool :=
  s.fe.cmds.any fun w =>
    decide (w.stamp < c.stamp) && changesBlocks w.cap.op && overlap w c &&
    (w.units.isEmpty && w.status.isNone ||
     w.units.any fun u => u.opened && c.ranges.any (meets (u.slba, u.nblk)))

/-- An earlier write of one granule: a lower stamp, or an earlier unit of the same command (R44, R53). -/
def earlier (stamp unitIdx stamp' unitIdx' : Nat) : Bool := decide (stamp < stamp' ∨ (stamp = stamp' ∧ unitIdx < unitIdx'))

/-- The in-flight pieces of a granule before a unit of a stamp, in the order of their writes (R75). -/
def State.flights (s : State) (d : SD) (nsid gran stamp uidx : Nat) : List InFl :=
  s.fe.inflight.filter fun x => x.sd = d ∧ x.nsid = nsid ∧ x.gran = gran ∧ earlier x.stamp x.unitIdx stamp uidx

/-- The bytes that a piece in flight holds in the dust sheet (R75). -/
def State.landed (s : State) (bs : Nat) (x : InFl) : List Byte := slice (s.slotBytes x.slot) (x.blk * bs) (x.nblk * bs)

/-- They pass the landing check value (R75, R78); what a failure marks and counts is stated in part (DESIGN CHOICE, assumption 99). -/
def State.landedOk (s : State) (bs : Nat) (x : InFl) : Bool := decide (x.etype ≠ 1) || decide (crc64 (s.landed bs x) = x.check)

/-- The blocks of a granule that come from the dust sheet: block index and bytes, later writes last (R75). -/
def State.overlay (s : State) (d : SD) (n : Namespace) (nsid gran stamp uidx : Nat) : List (Nat × List Byte) :=
  let bs := lbaData n.lbaf
  ((s.flights d nsid gran stamp uidx).filter (·.complete)).flatMap fun x =>
    (List.range x.nblk).map fun i =>
      (x.blk + i, if x.etype = 1 then slice (s.slotBytes x.slot) ((x.blk + i) * bs) bs else zeros bs)

/-- A piece in flight whose dust-sheet bytes fail their landing check value (R75, R78). -/
def State.landBad (s : State) (d : SD) (n : Namespace) (nsid gran stamp uidx : Nat) : Bool :=
  ((s.flights d nsid gran stamp uidx).filter (·.complete)).any fun x => !s.landedOk (lbaData n.lbaf) x

/-- Put blocks over a granule's bytes. -/
def applyBlocks (bs : Nat) (g : List Byte) (o : List (Nat × List Byte)) : List Byte :=
  o.foldl (fun g (i, b) => patch g (i * bs) b) g

/-! ### Reservations (R268, R269) -/

/-- The reservation state of a namespace. -/
def State.resvOf (s : State) (d : SD) (nsid : Nat) : Resv := Table.getD (s.metaOf d).resv nsid Resv.none

/-- A host is registered. -/
def Resv.registered (r : Resv) (host : Nat) : Bool := r.regs.any fun x => x.hostId = host

/-- A host holds the reservation: the holder, or any registrant under the all-registrants types. -/
def Resv.holds (r : Resv) (host : Nat) : Bool :=
  if r.rtype = 5 ∨ r.rtype = 6 then r.registered host else decide (r.holder = some host)

/-- A reservation stands. -/
def Resv.stands (r : Resv) : Bool := decide (r.rtype ≠ 0)

/-- A command conflicts with the reservation state (R269; NVMe's table of the six types). -/
def Resv.conflicts (r : Resv) (host op : Nat) : Bool :=
  if !r.stands then (op = 0x11 ∨ op = 0x15) && !r.registered host
  else if op = 0x0D ∨ op = 0x0E then false
  else if op = 0x11 ∨ op = 0x15 then !r.registered host
  else
    let others := match r.rtype with
      | 1 | 2 => r.holds host
      | _ => r.registered host
    if others then false
    else if isWriteOp op then true
    else decide (r.rtype = 2 ∨ r.rtype = 4 ∨ r.rtype = 6)

/-- The key a host is registered with. -/
def Resv.keyOf (r : Resv) (host : Nat) : Option Nat := (r.regs.find? (·.hostId = host)).map (·.key)

/-- Remove registrants, and the reservation where its holder, or the last registrant of an all-registrants type,
goes. -/
def Resv.drop (r : Resv) (p : Registrant → Bool) : Resv :=
  let regs := r.regs.filter fun x => !p x
  let gone := match r.holder with
    | some h => !(regs.any (·.hostId = h)) && (r.rtype ≠ 5 && r.rtype ≠ 6 || regs.isEmpty)
    | Option.none => false
  { r with regs := regs, gen := (r.gen + 1) % 2 ^ 32, holder := if gone then Option.none else r.holder, rtype := if gone then 0 else r.rtype }

/-- The other registrants of a reservation. -/
def Resv.others (r : Resv) (host : Nat) : List Nat := (r.regs.filter (·.hostId ≠ host)).map (·.hostId)

/-- A type under which registrants share the reservation's access. -/
def sharedType (t : Nat) : Bool := decide (t ≥ 3)

/-- What a reservation command does: the new state and whether it is written, the status, and the notifications as hosts and
kind. -/
structure ResvEff where
  next : Resv
  changed : Bool
  st : Status
  notes : List (List Nat × Nat)
  deriving DecidableEq, Repr

/-- The command fails: the state stays. -/
def Resv.fail (r : Resv) (st : Status) : ResvEff := ⟨r, false, st, []⟩

/-- The command succeeds and leaves a state. -/
def Resv.ok (r : Resv) (notes : List (List Nat × Nat) := []) : ResvEff := ⟨r, true, stOk, notes⟩

/-- Add a registrant; one beyond 1,024 fails (R269). -/
def Resv.enrol (r : Resv) (host key : Nat) (ptpl : Resv → Resv) : ResvEff :=
  if r.regs.length ≥ 1024 then r.fail stBadField
  else (ptpl { r with regs := r.regs ++ [⟨host, key⟩], gen := (r.gen + 1) % 2 ^ 32 }).ok

/-- Change of PTPL that a Register asks for. -/
def ptplOf (c : Capsule) (x : Resv) : Resv :=
  match bitsOf (c.cdw 10) 31 30 with
  | 2 => { x with ptpl := false }
  | 3 => { x with ptpl := true }
  | _ => x

/-- Reservation Register (R268, R269): register, unregister, replace. -/
def Resv.register (r : Resv) (c : Capsule) (d : List Byte) : ResvEff :=
  let h := c.hostId
  let cr := leAt d 0 8
  let nr := leAt d 8 8
  let ie := bitOf (c.cdw 10) 3
  match bitsOf (c.cdw 10) 2 0, r.keyOf h with
  | 0, some k => if k = nr then (ptplOf c r).ok else r.fail stResvConflict
  | 0, .none => r.enrol h nr (ptplOf c)
  | 1, some k =>
    if k = cr ∨ ie then
      let x := r.drop (·.hostId = h)
      (ptplOf c x).ok (if r.stands ∧ !x.stands ∧ sharedType r.rtype then [(r.others h, 2)] else [])
    else r.fail stResvConflict
  | 1, .none => r.fail stResvConflict
  | 2, some k =>
    if k = cr ∨ ie then
      (ptplOf c { r with regs := r.regs.map (fun x => if x.hostId = h then { x with key := nr } else x), gen := (r.gen + 1) % 2 ^ 32 }).ok
    else r.fail stResvConflict
  | 2, .none => if ie then r.enrol h nr (ptplOf c) else r.fail stResvConflict
  | _, _ => r.fail stBadField

/-- Reservation Acquire (R268, R269): acquire, preempt, preempt and abort. -/
def Resv.acquire (r : Resv) (c : Capsule) (d : List Byte) : ResvEff :=
  let h := c.hostId
  let t := bitsOf (c.cdw 10) 15 8
  let pr := leAt d 8 8
  if r.keyOf h ≠ some (leAt d 0 8) ∨ bitOf (c.cdw 10) 3 then r.fail stResvConflict
  else if t = 0 ∨ t > 6 then r.fail stBadField
  else
    match bitsOf (c.cdw 10) 2 0 with
    | 0 =>
      if !r.stands then Resv.ok { r with holder := some h, rtype := t }
      else if r.holds h ∧ r.rtype = t then r.ok
      else r.fail stResvConflict
    | 1 | 2 =>
      let all := r.rtype = 5 ∨ r.rtype = 6
      if r.stands ∧ ((all ∧ pr = 0) ∨ (!all ∧ r.holder.bind r.keyOf = some pr)) then
        let out := (r.regs.filter fun x => x.hostId ≠ h ∧ (all ∨ x.key = pr)).map (·.hostId)
        let x := { r with regs := r.regs.filter (fun x => x.hostId ∉ out), holder := some h, rtype := t, gen := (r.gen + 1) % 2 ^ 32 }
        x.ok ((out, 1) :: if r.rtype ≠ t ∧ sharedType r.rtype then [(x.others h, 2)] else [])
      else if pr = 0 then r.fail stBadField
      else
        let out := (r.regs.filter fun x => x.key = pr).map (·.hostId)
        if out.isEmpty then r.fail stResvConflict
        else (r.drop fun x => x.key = pr).ok [(out.filter (· ≠ h), 1)]
    | _ => r.fail stBadField

/-- Reservation Release (R268, R269): release and clear. -/
def Resv.release (r : Resv) (c : Capsule) (d : List Byte) : ResvEff :=
  let h := c.hostId
  if r.keyOf h ≠ some (leAt d 0 8) ∨ bitOf (c.cdw 10) 3 then r.fail stResvConflict
  else
    match bitsOf (c.cdw 10) 2 0 with
    | 0 =>
      if !r.stands ∨ !r.holds h then r.fail stOk
      else if r.rtype ≠ bitsOf (c.cdw 10) 15 8 then r.fail stBadField
      else Resv.ok { r with holder := .none, rtype := 0 } (if sharedType r.rtype then [(r.others h, 2)] else [])
    | 1 => Resv.ok { r with regs := [], holder := .none, rtype := 0, gen := (r.gen + 1) % 2 ^ 32 } [(r.others h, 1)]
    | _ => r.fail stBadField

/-- What a command does to the reservation state of its namespace, with its data (R44, R269). -/
def Resv.act (r : Resv) (c : Capsule) (d : List Byte) : ResvEff :=
  if c.op = 0x0D then r.register c d
  else if c.op = 0x11 then r.acquire c d
  else if c.op = 0x15 then r.release c d
  else r.fail stOk

/-- The data of a reservation command. -/
def Cmd.resvData (c : Cmd) : List Byte := if c.cap.inCapsule then c.cap.data else c.host

/-- Reservation commands of a namespace that have not taken effect, below a stamp. -/
def State.resvOpen (s : State) (d : SD) (nsid stamp : Nat) : List Cmd :=
  s.fe.cmds.filter fun c => decide (c.sd = d ∧ c.cap.nsid = nsid ∧ c.stamp < stamp) && decide (c.cap.op ∈ [0x0D, 0x11, 0x15]) && c.status.isNone

/-- A reservation command of the namespace stamped below has not run: the one asked about waits for its turn (R44). -/
def State.resvEarlier (s : State) (d : SD) (stamp nsid : Nat) : Bool :=
  s.fe.cmds.any fun c => decide (c.sd = d ∧ c.cap.nsid = nsid ∧ c.stamp < stamp) && isResvOp c.cap.op && c.status.isNone

/-- The reservation state that every reservation command stamped below a stamp leaves (R44, R269; assumption 17). -/
def State.resvAt (s : State) (d : SD) (nsid stamp : Nat) : Resv :=
  (s.resvOpen d nsid stamp).foldl (fun r c => (r.act c.cap c.resvData).next) (s.resvOf d nsid)

/-- Replace a namespace's reservation state through a delta (R268). -/
def State.setResv (s : State) (d : SD) (nsid : Nat) (r : Resv) : State := s.delta d (.resv nsid r)

/-! ### Asynchronous events (R271) -/

/-- Whether feature 0x0B lets an event through: namespace attribute notices by bit 8, ANA change by bit 11,
the rest always. -/
def HostCtl.unmasked (h : HostCtl) (e : AEvent) : Bool :=
  let v := Table.getD h.feats 0x0B 0x900
  if e.etype = 2 ∧ e.info = 0 then bitOf v 8
  else if e.etype = 2 ∧ e.info = 3 then bitOf v 11
  else true

/-- An event for one host controller: delivered where a request is outstanding, else kept, one for each type
and information pair (R271). -/
def State.asyncTo (s : State) (cntlid : Nat) (e : AEvent) : State :=
  match Table.find s.fe.hosts cntlid with
  | none => s
  | some h =>
    if !h.unmasked e then s
    else
      match h.aers with
      | cid :: rest =>
        (s.updFe fun f => { f with hosts := Table.put f.hosts cntlid { h with aers := rest } }).respond
          ⟨⟨cntlid, 0⟩, cid, stOk, e.etype + e.info * 2 ^ 8 + e.page * 2 ^ 16, [], false⟩
      | [] =>
        if h.kept.any fun k => k.etype = e.etype ∧ k.info = e.info then s
        else s.updFe fun f => { f with hosts := Table.put f.hosts cntlid { h with kept := h.kept ++ [e] } }

/-- An event for every host controller of the head. -/
def State.asyncAll (s : State) (e : AEvent) : State :=
  (s.fe.hosts.map Prod.fst).foldl (fun s n => s.asyncTo n e) s

/-- A namespace attribute changed: the changed list and the event of every attached host controller. -/
def State.nsChanged (s : State) (nsid : Nat) (who : List Nat) : State :=
  who.foldl (fun s n =>
    (s.updFe fun f => { f with hosts := Table.upd f.hosts n fun h =>
      { h with changedNs := if nsid ∈ h.changedNs then h.changedNs else h.changedNs ++ [nsid] } }).asyncTo n ⟨2, 0, 4⟩) s

/-- ANA states changed: CHGCNT, the status event and the host events (R267). -/
def State.anaChanged (s : State) : State :=
  ((s.updFe fun f => { f with anaCount := f.anaCount + 1 }).raise .fe 5).asyncAll ⟨2, 3, 0x0C⟩

/-- A queue pair enters the error state: capsules not accepted are discarded and no completion follows
(R55). -/
def State.queueError (s : State) (q : QId) : State :=
  s.updFe fun f =>
    { f.updQueue q (fun x => { x with err := true }) with
      waiting := f.waiting.filter fun w => w.cap.q ≠ q ∨ w.cap.origin.isSome }

/-- A unit that can no longer receive its data is abandoned, with its in-flight entries (R53, R55, R259); its entry leaves both
dust sheets, so that a replay does not stop at it (R58; assumption 98). -/
def State.abandon (s : State) (d : SD) (stamp : Nat) : State :=
  let lost := ((s.cmd? d stamp).map fun c => c.units.filter Unit.opened).getD []
  let s0 := s.updCmd d stamp fun c => { c with units := c.units.map fun u =>
    if u.complete then u else { u with abandoned := true } }
  let s1 := lost.foldl (fun s u => match Table.find s.ubl.sheet.entries u.hdr with
    | some e => s.releaseEntry u.hdr e
    | none => s) s0
  let gone (i : Nat) : Bool := match s1.cmd? d stamp with
    | some c => c.units.any fun u => u.idx = i ∧ u.abandoned
    | none => false
  let s2 := { s1 with dp := { s1.dp with
    grans := Table.keep (fun _ g => !(decide (g.sd = d ∧ g.stamp = stamp) && gone g.unitIdx)) s1.dp.grans } }
  s2.updFe fun f => { f with inflight := f.inflight.filter fun x => ¬(x.sd = d ∧ x.stamp = stamp) ∨ x.complete }

/-- Host bytes that a command's data pointer stands for (R47, R255; NVMe's structures). -/
def State.capBytes (s : State) (c : Capsule) : Nat :=
  if c.op = 0x84 then 8 * bitsOf (c.cdw 10) 6 0
  else match s.ns? c.nsid with
  | some n =>
    if c.op = 0x01 ∨ c.op = 0x05 then c.nblk * hostBlock n.lbaf c.pract
    else if c.op = 0x09 then 16 * (bitsOf (c.cdw 10) 7 0 + 1)
    else if c.op = 0x0D ∨ c.op = 0x11 then 16
    else if c.op = 0x15 then 8
    else 0
  | none => 0

/-- Host bytes a command fetches. -/
def State.needBytes (s : State) (c : Cmd) : Nat := s.capBytes c.cap

/-- A command of a host of this head still awaits data that it fetches. -/
def State.awaits (s : State) (c : Cmd) : Bool :=
  c.cap.origin.isNone && c.status.isNone && !c.cap.inCapsule && decide (c.host.length < s.needBytes c)

/-- The data a command still awaits will not come (R55): its open units are abandoned and it ends. -/
def State.breakOff (s : State) (c : Cmd) : State := (s.abandon c.sd c.stamp).result c.sd c.stamp stAborted

/-- The data of commands of a queue will not come (R55): those accepted here end, and the owner of those forwarded is told. -/
def State.breakQueue (s : State) (q : QId) : State :=
  let s1 := (s.fe.cmds.filter fun c => decide (c.cap.q = q) && s.awaits c).foldl State.breakOff s
  (s1.fe.fwd.filter fun f => decide (f.cap.q = q) && !f.cap.inCapsule && decide (f.data.length < s1.capBytes f.cap)
    && f.cap.op ≠ 0x02).foldl (fun s f => s.send (.message 25 f.sd (leBytes 8 f.tag))) s1

/-- A host controller ends: every one of its queue pairs enters the error state (R252, R55), and the data its
commands still await will not come. -/
def State.endHost (s : State) (cntlid : Nat) : State :=
  let s1 := (s.fe.queues.filter (·.q.cntlid = cntlid)).foldl (fun s x => (s.queueError x.q).breakQueue x.q) s
  s1.updFe fun f => { f with hosts := Table.del f.hosts cntlid }

end Sys2Proof.Machine
end

