-- ==== Sys2Proof/Machine/ReadOps.lean ====
section
/-!
DEFINITION. Operations of the read path: resolution, speculation, pack fetches, the return of granules and
the result of a read; and landing, the entry of granules into the write side, and a write's result.
-/

namespace Sys2Proof.Machine

/-- Change DP. -/
def State.updDp (s : State) (f : DpState → DpState) : State := { s with dp := f s.dp }

/-- The requested blocks of a granule of a command: first block in the granule and count. -/
def Cmd.blocksIn (c : Cmd) (lbaf gran : Nat) : Nat × Nat :=
  let b := blocksPer lbaf
  let lo := max c.cap.slba (gran * b)
  let hi := min (c.cap.slba + c.cap.nblk) ((gran + 1) * b)
  (lo - gran * b, hi - lo)

/-- The granules a command's block range touches. -/
def Cmd.granList (c : Cmd) (lbaf : Nat) : List Nat :=
  (List.range (granCount lbaf c.cap.slba c.cap.nblk)).map (c.cap.slba / blocksPer lbaf + ·)

/-- The data of one verified block with the protection information the host asked for (R264, R265). -/
def outBlock (n : Namespace) (pract : Bool) (ilbrt i : Nat) (data : List Byte) : List Byte :=
  if lbaMeta n.lbaf = 0 ∨ pract then data
  else data ++ piBytes n.lbaf data n.apptag (expectTag n.lbaf ilbrt i)

/-- The data block `i` of a command from its verified granules. -/
def Cmd.block (c : Cmd) (lbaf i : Nat) : List Byte :=
  let b := blocksPer lbaf
  let k := c.cap.slba + i
  slice (Table.getD c.grans (k / b) []) (k % b * lbaData lbaf) (lbaData lbaf)

/-- The bytes a read returns (R44, R264). -/
def Cmd.readData (c : Cmd) (n : Namespace) : List Byte :=
  (List.range c.cap.nblk).flatMap fun i =>
    outBlock n c.cap.pract (c.cap.ilbrt n.lbaf) i (c.block n.lbaf i)

/-- The host data of a Compare, with its protection information stripped. -/
def Cmd.compareData (c : Cmd) (n : Namespace) : List Byte :=
  let hb := hostBlock n.lbaf c.cap.pract
  (List.range c.cap.nblk).flatMap fun i => (slice c.host (i * hb) hb).take (lbaData n.lbaf)

/-- The plain data of a command's blocks. -/
def Cmd.plainData (c : Cmd) (n : Namespace) : List Byte :=
  (List.range c.cap.nblk).flatMap (c.block n.lbaf)

/-- Decide a Read, Compare or Verify once every granule has been verified or has failed (R44, R208). -/
def State.settleRead (s : State) (d : SD) (stamp : Nat) : State :=
  match s.cmd? d stamp with
  | none => s
  | some c =>
    match s.ns? c.cap.nsid with
    | none => s.result d stamp stBadNs
    | some n =>
      if c.status.isSome ∨ !c.started ∨ !((c.granList n.lbaf).all fun g => (Table.find c.grans g).isSome) then s
      else if c.failed then
        let s1 := s.result d stamp stUnrecovered
        s1.updFe fun f => { f with hosts := Table.upd f.hosts c.cap.q.cntlid fun h => { h with mediaErrs := h.mediaErrs + 1 } }
      else if c.cap.op = 0x05 then
        let hb := hostBlock n.lbaf c.cap.pract
        if c.host.length < c.cap.nblk * hb then s
        else s.result d stamp (if c.compareData n = c.plainData n then stOk else stCompare)
      else if c.cap.op = 0x0C then s.result d stamp stOk
      else (s.updCmd d stamp fun x => { x with out := x.readData n }).result d stamp stOk

/-- A granule of a read has its bytes, with the blocks from the dust sheet laid over them (R75). -/
def State.gotGran (s : State) (d : SD) (stamp gran : Nat) (bytes : List Byte) (failed : Bool) : State :=
  let laid := ((s.dp.rgrans.find? fun r => r.sd = d ∧ r.stamp = stamp ∧ r.gran = gran).map (·.laid)).getD []
  let s1 := s.updDp fun p => { p with rgrans := p.rgrans.filter fun r => ¬(r.sd = d ∧ r.stamp = stamp ∧ r.gran = gran) }
  let bs := match (s.cmd? d stamp).bind fun c => s.ns? c.cap.nsid with
    | some n => lbaData n.lbaf
    | none => 4096
  let s2 := s1.updCmd d stamp fun c =>
    { c with grans := Table.put c.grans gran (applyBlocks bs bytes laid), failed := c.failed || failed }
  s2.settleRead d stamp

/-- Speculative reads outstanding on a port, cancelled ones among them until the module has answered (R80). -/
def State.specOn (s : State) (port : Nat) : Nat :=
  (s.dp.fetches.filter fun (_, f) => f.port = port ∧ f.spec ∧ f.image.isNone ∧ f.st.isNone).length

/-- DP_SPEC_CTRL.SPEC_DEPTH. -/
def State.specDepth (s : State) : Nat := bitsOf s.cfg.dpSpec.value.toNat 11 8

/-- The read command of a fetch at a ladder step (R181, R182, R222): the read is counted where it reaches the module (R83, R179). -/
def State.issueRead (s : State) (id hour : Nat) (f : Fetch) : State :=
  let (offs, rset, soft) := s.thresholds hour f.port f.pseg f.step
  (if s.mayIssue (.sd f.sd) ∧ !(s.port f.port).dead then s.noteHour.countRead f.port f.pseg else s.noteHour).issue { MCmd.mk0 f.port .read (.sd f.sd) (.fetch id) with
    oepoch := s.ubl.oepoch.get f.sd, pseg := f.pseg, pidx := f.pack % 4096, finish := f.finish,
    soft := soft, rset := rset, offs := offs }

/-- Packs in the read buffers of a port (Table 03.3). -/
def State.buffersOn (s : State) (port : Nat) : Nat :=
  (s.dp.fetches.filter fun (_, f) => f.port = port ∧ !f.released ∧ !f.queued).length

/-- Issue the first read held for a buffer of a port (R84). -/
def State.nextRead (s : State) (port : Nat) : State :=
  match s.dp.fetches.find? fun (_, f) => f.port = port ∧ f.queued with
  | none => s
  | some (id, f) =>
    if s.buffersOn port ≥ 32 then s
    else (s.updDp fun p => { p with fetches := Table.upd p.fetches id fun f => { f with queued := false } }).issueRead id s.hour f

/-- The pack that a fetch reads still lies where the fetch reads it. -/
def State.sameSlot (s : State) (f : Fetch) : Bool :=
  match s.segOf f.sd (f.pack / 4096) with
  | some e => decide (e.port = f.port ∧ e.pseg = f.pseg)
  | none => false

/-- A fetch becomes authoritative for a read (R81, R82): with an error status held it is read again, with the full ladder; a slot
on a missing member goes to reconstruction (R200). -/
def State.joinFetch (s : State) (hour id : Nat) (f : Fetch) (user : Nat × Nat) : State :=
  let f1 := { f with spec := false, users := f.users ++ [user] }
  let put (s : State) (f : Fetch) : State := s.updDp fun p => { p with fetches := Table.put p.fetches id f }
  match f.spec, f.st with
  | true, some _ =>
    if segMissing (s.metaOf f.sd) (f.pack / 4096) then put s { f1 with step := 8 }
    else
      let f2 := { f1 with st := none, step := 0 }
      (put s f2).issueRead id hour f2
  | _, _ => put s f1

/-- Fetch a pack for a read (R77, R80, R81, R84, R200). An authoritative read joins whatever fetch already holds the pack; a pack
that the controller still holds is served from there; a slot on a missing member completes at once with an error and goes to
reconstruction; with the port's read buffers taken the read is held. A guess of a pack that is held already reads nothing. -/
def State.fetchPack (s : State) (hour : Nat) (d : SD) (pack : Nat) (spec : Bool) (user : Nat × Nat) : State × Option Nat :=
  match s.dp.fetches.find? fun (_, f) => f.sd = d ∧ f.pack = pack ∧ !f.dropped ∧ s.sameSlot f with
  | some (id, f) => if spec then (s, none) else (s.joinFetch hour id f user, some id)
  | none =>
    match s.segOf d (pack / 4096), s.heldPack d pack with
    | none, _ => (s, none)
    | some e, held =>
      let id := s.dp.nextFetch
      let miss := segMissing (s.metaOf d) (pack / 4096)
      let fin := ((s.psegOf e.port e.pseg).map (·.finish)).getD false
      let f : Fetch := ⟨d, pack, e.port, e.pseg, fin, spec, false, false, if miss ∧ !spec then 8 else 0, none,
        none, false, none, if spec then [] else [user]⟩
      let put (s : State) (f : Fetch) : State :=
        s.updDp fun p => { p with fetches := Table.put p.fetches id f, nextFetch := id + 1 }
      match held with
      | some h => if spec then (s, none) else (put s (match h with
          | .body b r => { f with released := true, plain := some (b, r) }
          | .image img => { f with released := true, image := some img, step := 8 }), some id)
      | none =>
        let s1 := s.pin e.port e.pseg
        (if miss then put s1 { f with st := some .uncorrectable }
         else if s.buffersOn e.port ≥ 32 then put s1 { f with queued := true }
         else (put s1 f).issueRead id hour f, some id)

/-- Free a fetch: its read buffer and its pin (R70, R81). -/
def State.freeFetch (s : State) (id : Nat) : State :=
  match Table.find s.dp.fetches id with
  | none => s
  | some f =>
    let s1 := s.updDp fun p => { p with fetches := Table.del p.fetches id }
    (if f.released then s1 else s1.unpin f.port f.pseg).nextRead f.port

/-- A read's user leaves a fetch; the last one frees it. -/
def State.leaveFetch (s : State) (id : Nat) (user : Nat × Nat) : State :=
  match Table.find s.dp.fetches id with
  | none => s
  | some f =>
    let us := f.users.filter (· ≠ user)
    if us.isEmpty then s.freeFetch id
    else s.updDp fun p => { p with fetches := Table.put p.fetches id { f with users := us } }

/-- A read's granule leaves every fetch of its domain. -/
def State.leaveAll (s : State) (d : SD) (user : Nat × Nat) : State :=
  (s.dp.fetches.filter fun (_, f) => f.sd = d ∧ user ∈ f.users).foldl (fun s (id, _) => s.leaveFetch id user) s

/-- Every read a fetch serves fails with Unrecovered Read Error. -/
def State.failFetch (s : State) (id : Nat) : State :=
  match Table.find s.dp.fetches id with
  | none => s
  | some f => f.users.foldl (fun s u => (s.gotGran f.sd u.1 u.2 (zeros 4096) true).leaveAll f.sd u) s

/-- MAP_FORMAT (R138): event, snag log record with root and logical granule. -/
def State.mapFormat (s : State) (d : SD) (root gran : Nat) : State :=
  (s.raise .map 4).snag 7 0x1001 (some d) 0xFF (leBytes 4 root ++ leBytes 5 gran)

/-- The blocks of a granule a read still needs from the map: those requested and not in the dust sheet, as a
mask. -/
def Cmd.mapMask (c : Cmd) (lbaf gran : Nat) (laid : List (Nat × List Byte)) : Nat :=
  let (lo, n) := c.blocksIn lbaf gran
  ((List.range n).map (lo + ·)).foldl (fun v i => if laid.any (·.1 = i) then v else v + 2 ^ i) 0

/-- The compare of R81: `pack` is what the authoritative entry names and `want` whether the read needs it. A guess that names the
same slot is confirmed; any other is cancelled, and its pack waits to be freed. -/
def State.compareGuess (s : State) (hour : Nat) (d : SD) (stamp gran : Nat) (guess : Option Nat) (pack : Option Nat) (want : Bool) :
    State :=
  let s1 := match guess with
    | none => s
    | some id =>
      match Table.find s.dp.fetches id with
      | none => s.count .dpRaDropped
      | some f =>
        if pack = some f.pack ∧ s.sameSlot f then
          let s1 := s.count .dpRaConfirmed
          if want then s1 else if f.spec then s1.freeFetch id else s1
        else if f.spec then s.updDp fun p => { p with fetches := Table.put p.fetches id { f with dropped := true } }
        else s.count .dpRaDropped
  match pack with
  | some p => if want then (s1.fetchPack hour d p false (stamp, gran)).1 else s1
  | none => s1

/-- The authoritative entry of a read's granule is at hand (R41 steps 2 and 4, R76, R138, R208). -/
def State.resolveGran (s : State) (hour : Nat) (r : RGran) : State :=
  match s.cmd? r.sd r.stamp with
  | none => s
  | some c =>
    match s.ns? c.cap.nsid with
    | none => s
    | some n =>
      let (w, s1) := s.takeEntry r.sd r.root r.gran
      let e := MapEnt.ofWord w
      let s2 := s1.updDp fun p => { p with rgrans := p.rgrans.map fun x =>
        if x.sd = r.sd ∧ x.stamp = r.stamp ∧ x.gran = r.gran then { x with entry := some w } else x }
      match e with
      | .bad =>
        ((s2.compareGuess hour r.sd r.stamp r.gran r.guess none false).mapFormat r.sd r.root r.gran).gotGran
          r.sd r.stamp r.gran (zeros 4096) true
      | .stored _ loc chain =>
        let need := c.mapMask n.lbaf r.gran r.laid
        if (s2.lostBlocks r.sd loc) &&& need ≠ 0 then
          (s2.compareGuess hour r.sd r.stamp r.gran r.guess (some (loc / 4096)) false).gotGran r.sd r.stamp r.gran (zeros 4096) true
        else
          let s3 := s2.compareGuess hour r.sd r.stamp r.gran r.guess (some (loc / 4096)) true
          match chain with
          | some ch => (s3.fetchPack hour r.sd (s3.succPack r.sd loc ch) false (r.stamp, r.gran)).1
          | none => s3
      | _ =>
        (s2.compareGuess hour r.sd r.stamp r.gran r.guess none false).gotGran r.sd r.stamp r.gran (zeros 4096) false

/-- A read's granule meets a sector miss: the hint table is consulted and, where R80 allows, a speculative
read of the guessed pack is issued. -/
def State.speculate (s : State) (hour : Nat) (r : RGran) : State :=
  let s1 := { s with map := s.map.hintFetch r.sd r.root r.gran }
  match s.map.hintFor r.sd r.root r.gran with
  | none => s1
  | some pack =>
    match s1.segOf r.sd (pack / 4096) with
    | none => s1
    | some e =>
      if r.laid.isEmpty ∧ s1.specOn e.port < s1.specDepth then
        match s1.fetchPack hour r.sd pack true (r.stamp, r.gran) with
        | (s2, some id) => (s2.count .dpRaIssued).updDp fun p => { p with rgrans := p.rgrans.map fun x =>
            if x.sd = r.sd ∧ x.stamp = r.stamp ∧ x.gran = r.gran then { x with guess := some id } else x }
        | (s2, none) => s2
      else s1

/-- Present one granule of a read to MAP, or serve it wholly from the dust sheet (R75, R80): blocks from the dust sheet that fail
their landing check value are not released (R78). -/
def State.presentGran (s : State) (hour : Nat) (c : Cmd) (n : Namespace) (gran : Nat) : State :=
  let (lo, k) := c.blocksIn n.lbaf gran
  let laid := (s.overlay c.sd n c.cap.nsid gran c.stamp 0).filter fun x => lo ≤ x.1 ∧ x.1 < lo + k
  let r : RGran := ⟨c.sd, c.stamp, gran, n.root, none, none, laid⟩
  let s1 := s.updDp fun p => { p with rgrans := p.rgrans ++ [r] }
  if s.landBad c.sd n c.cap.nsid gran c.stamp 0 then s1.gotGran c.sd c.stamp gran (zeros 4096) true
  else if c.mapMask n.lbaf gran laid = 0 then s1.gotGran c.sd c.stamp gran (zeros 4096) false
  else if s1.mapHit c.sd n.root gran then s1.resolveGran hour r
  else s1.speculate hour r

/-- Start a Read, Compare or Verify that is not held (R41, R260). -/
def State.startRead (s : State) (hour : Nat) (d : SD) (stamp : Nat) : State :=
  match s.cmd? d stamp with
  | none => s
  | some c =>
    match s.ns? c.cap.nsid with
    | none => s
    | some n =>
      if c.started ∨ c.status.isSome ∨ s.mustHold c then s
      else
        let s1 := s.updCmd d stamp fun x => { x with
          started := true, held := false, host := if x.cap.inCapsule then x.cap.data else x.host }
        (c.granList n.lbaf).foldl (fun s g => s.presentGran hour c n g) s1

/-! ### Landing (R53, R66 to R68, R264, R310) -/

/-- A granule enters the write side: a whole one takes its lane at once, a partial one waits in the merge
queue (R67, R68). -/
def State.enterGran (s : State) (c : Cmd) (n : Namespace) (p : Piece) (bytes : Option (List Byte)) (unmap : Option Nat) : State :=
  let mode := ((Table.find s.dp.kdoms n.kdom).map (·.mode)).getD .off
  let g : Gran := ⟨c.sd, c.stamp, p.unitIdx, c.cap.nsid, n.root, n.kdom, p.gran, p.slot, bytes.isNone, bytes, 0, mode,
    if bytes.isSome then s.dp.entered else 0, none, 0, none, .none, none, .none, unmap, none⟩
  s.updDp fun d => { d with grans := Table.put d.grans d.nextGran g, nextGran := d.nextGran + 1,
                            entered := if bytes.isSome ∧ unmap.isNone then d.entered + 1 else d.entered }

/-- A unit passes its data-complete point (R53, R66): marker, in-flight entries, the frame that carries the
marker. -/
def State.completeUnit (s : State) (d : SD) (stamp : Nat) (u : Unit) : State :=
  let s1 := s.markEntry u.hdr
  let q := if s.noMirror then none else some (s.lastMseq d)
  let s2 := s1.updCmd d stamp fun c => { c with units := c.units.map fun x =>
    if x.idx = u.idx then { x with complete := true, mseq := q } else x }
  s2.updFe fun f => { f with inflight := f.inflight.map fun x =>
    if x.sd = d ∧ x.stamp = stamp ∧ x.unitIdx = u.idx then { x with complete := true } else x }

/-- A write's result (R73): success once every unit is past its data-complete point and, on a protected
namespace with a mirror, acknowledged by the peer. -/
def State.settleWrite (s : State) (d : SD) (stamp : Nat) : State :=
  match s.cmd? d stamp with
  | none => s
  | some c =>
    let fast := ((s.ns? c.cap.nsid).map (·.fast)).getD false
    if c.status.isSome ∨ c.units.isEmpty then s
    else if c.units.all fun u => u.complete && (fast || s.noMirror || u.acked) then s.result d stamp stOk
    else if c.units.all (fun u => !u.opened) && c.units.any (·.abandoned) then s.result d stamp stAborted
    else s

/-- A write fails a protection check (R264): the unit with the block and every later one have no effect. -/
def State.piFail (s : State) (d : SD) (stamp : Nat) (st : Status) : State :=
  (((s.abandon d stamp).result d stamp st).count .fePiErrors).raise .fe 2

/-- A granule waits in staging: its lane still works on an earlier one (R68). -/
def State.laneBusy (s : State) (g : Gran) : Bool :=
  s.dp.grans.any fun (_, x) => x.bytes.isSome && x.unmap.isNone && x.result.isNone &&
    decide (x.lane % 8 = g.lane % 8 ∧ x.lane < g.lane)

/-- Granules in staging (Table 03.3). -/
def State.stagedGrans (s : State) : Nat :=
  (s.dp.grans.filter fun (_, g) => g.bytes.isSome && g.unmap.isNone && g.result.isNone && s.laneBusy g).length

/-- Keep the landing check value of a piece in its in-flight entry (R75). -/
def State.setCheck (s : State) (d : SD) (stamp uidx gran : Nat) (data : List Byte) : State :=
  s.updFe fun f => { f with inflight := f.inflight.map fun x =>
    if x.sd = d ∧ x.stamp = stamp ∧ x.unitIdx = uidx ∧ x.gran = gran then { x with check := crc64 data } else x }

/-- Land the next piece of a write whose host bytes have all arrived and whose checks pass (R53, R264). None
where there is no such piece, or where staging holds FE data issue (R68) or the mirror flow the host's beats (Table 03.3). -/
def State.landNext (s : State) (d : SD) (stamp : Nat) : Option State :=
  match s.cmd? d stamp with
  | none => none
  | some c =>
    match s.ns? c.cap.nsid with
    | none => none
    | some n =>
      match (c.pieces n.lbaf)[c.landed]? with
      | none => none
      | some p =>
        let hb := hostBlock n.lbaf c.cap.pract
        let bs := lbaData n.lbaf
        if c.status.isSome ∨ c.host.length < (p.first + p.nblk) * hb ∨ s.stagedGrans ≥ 16 ∨ s.mirrorFull then none
        else
          let blks := (List.range p.nblk).map fun i => slice c.host ((p.first + i) * hb) hb
          let bad := (blks.zipIdx).findSome? fun (b, i) =>
            piCheck n.lbaf n.apptag c.cap.prchk (expectTag n.lbaf (c.cap.ilbrt n.lbaf) (p.first + i)) b
          match bad with
          | some st => some (s.piFail d stamp st)
          | none =>
            match c.units.find? (·.idx = p.unitIdx) with
            | none => none
            | some u =>
              if u.abandoned then none
              else
                let data := blks.flatMap (·.take bs)
                let s1 := s.landSlot d p.slot (p.blk * bs) data (if p.last then some u.hdr else none)
                let s2 := (s1.updCmd d stamp fun x => { x with landed := x.landed + 1 }).setCheck d stamp p.unitIdx p.gran data
                let s3 := s2.enterGran c n p (if p.nblk = blocksPer n.lbaf then some data else none) none
                some (if p.last then s3.completeUnit d stamp u else s3)

/-- Land every piece that can be landed. -/
def State.landAll (s : State) (d : SD) (stamp : Nat) : Nat → State
  | 0 => s
  | fuel + 1 =>
    match s.landNext d stamp with
    | some s1 => s1.landAll d stamp fuel
    | none => s.settleWrite d stamp

/-- Land what a write has of its data. -/
def State.landOn (s : State) (d : SD) (stamp : Nat) : State :=
  match s.cmd? d stamp with
  | some c => s.landAll d stamp (c.units.foldl (fun n u => n + u.nblk) 1)
  | none => s

/-- FE data issue goes on with the writes it holds, in the order of their acceptance (R68, R84). -/
def State.landHeld (s : State) : State :=
  (s.fe.cmds.filter fun c => c.cap.op = 0x01 ∧ c.status.isNone ∧ !c.host.isEmpty).foldl (fun s c => s.landOn c.sd c.stamp) s

/-- Host data of a write arrives in order (R65): in the capsule, by RDMA READ response or forwarded. -/
def State.feed (s : State) (d : SD) (stamp : Nat) (data : List Byte) : State :=
  let s1 := s.updCmd d stamp fun c => { c with host := c.host ++ data }
  match s1.cmd? d stamp with
  | none => s
  | some c =>
    if c.cap.op = 0x01 then s1.landOn d stamp
    else if c.cap.op = 0x05 then s1.settleRead d stamp
    else s1

/-- Land the headers of Write Zeroes and deallocation units, marker included (R53, R257, R310): whole granules
change their entry, parts of granules take zeros through the merge. -/
def State.landZero (s : State) (c : Cmd) (n : Namespace) (u : Unit) : State :=
  if u.complete ∨ u.abandoned then s
  else
    let s1 := match Table.find s.ubl.sheet.entries u.hdr with
      | some e => s.putEntry u.hdr { e with marked := true }
      | none => s
    let s2 := s1.completeUnit c.sd c.stamp u
    (unitPieces n.lbaf u.slba u).foldl (fun s p =>
      if p.nblk = blocksPer n.lbaf then s.enterGran c n p (some []) (some (etypeOf c.cap))
      else s.enterGran c n p none none) s2

/-- Make the units of a block range, their dust-sheet entries and their in-flight entries (R53, R259, R310):
none where the dust sheet has no room. -/
def State.makeUnits (s : State) (c : Cmd) (n : Namespace) (idx : Nat) : List (Nat × Nat) → Option State
  | [] => some s
  | (slba, k) :: rest =>
    let gs := granCount n.lbaf slba k
    let et := etypeOf c.cap
    let slots := if et = 1 then gs else 0
    match s.sheetPlace slots with
    | none => none
    | some h =>
      let e : Entry := ⟨et, c.sd, partialUnit n.lbaf slba k, n.fast, idx, c.cap.nsid, c.stamp, slba, k,
        if et = 1 then h + 1 else 0, s.top.epoch, false, slots, s.top.epoch⟩
      let u : Unit := ⟨idx, slba, k, h * 4096, h + 1, false, false, none, false, gs⟩
      let fl := (unitPieces n.lbaf slba u).map fun p =>
        (⟨c.sd, c.stamp, c.cap.nsid, idx, p.gran, p.blk, p.nblk, p.slot, false, et, 0⟩ : InFl)
      -- the header of a unit without data is written with its marker, when the unit lands
      let s1 := if et = 1 then s.putEntry (h * 4096) e
        else s.updUbl fun x => { x with sheet := { x.sheet with entries := Table.put x.sheet.entries (h * 4096) e } }
      let s2 := s1.updCmd c.sd c.stamp fun x => { x with units := x.units ++ [u] }
      let s3 := s2.updFe fun f => { f with inflight := f.inflight ++ fl }
      s3.makeUnits c n (idx + 1) rest

/-- The ranges of a Dataset Management range list: first block and count (NVMe). -/
def dsmRanges (data : List Byte) (nr : Nat) : List (Nat × Nat) :=
  (List.range nr).map fun i => (leAt data (16 * i + 8) 8, leAt data (16 * i + 4) 4)

/-- Divide the ranges of a list into units. -/
def dsmUnits (lbaf : Nat) (rs : List (Nat × Nat)) : List (Nat × Nat) :=
  rs.flatMap fun (a, n) => splitUnits (unitBlocks lbaf) (n / unitBlocks lbaf + 2) a n

/-- Partial granules of accepted commands that have not left the merge queue: each has its place there from acceptance on (R67). -/
def State.mergeCount (s : State) : Nat :=
  (s.fe.inflight.filter fun x => match s.ns? x.nsid with
    | some n => decide (x.nblk < blocksPer n.lbaf) && !(s.dp.grans.any fun (_, g) => g.sd = x.sd ∧ g.stamp = x.stamp ∧
        g.unitIdx = x.unitIdx ∧ g.gran = x.gran ∧ g.bytes.isSome)
    | none => false).length

end Sys2Proof.Machine
end

