-- ==== Sys2Proof/Machine/RootOps.lean ====
section
/-!
DEFINITION. Operations over roots: stamps, empty roots, snapshots, sealing, deletion of a root, and the units
a root still waits for (R42, R139 to R141, R154 to R156).
-/

namespace Sys2Proof.Machine

/-- Issue the next stamp of a domain (R42, R259). -/
def State.nextStamp (s : State) (d : SD) : Nat × State :=
  let n := s.fe.stamp.get d + 1
  (n.toNat, s.updFe fun f => { f with stamp := f.stamp.set d n })

/-- The roots that a delta names. -/
def Delta.roots : Delta → List Nat
  | .root id v => id :: (v.bind (·.parent)).toList
  | .ns _ v => (v.map (·.root)).toList
  | .attach _ v => (v.map (·.roots)).getD []
  | _ => []

/-- The root IDs that a record of a domain names: roots and their PARENT fields. -/
def Meta.rootIds (m : Meta) : List Nat := m.roots.flatMap fun (id, r) => id :: r.parent.toList

/-- The root IDs that a record or a kept delta of either domain names (R140). -/
def State.rootIds (s : State) : List Nat :=
  [s.map.live.a, s.map.live.b, s.ubl.shadow.a, s.ubl.shadow.b].flatMap Meta.rootIds ++
  (s.map.logs.a ++ [s.map.log.a] ++ s.map.logs.b ++ [s.map.log.b] ++ s.ubl.shadowLogs.a ++ s.ubl.shadowLogs.b).flatMap
    (fun l => l.deltas.flatMap Delta.roots)

/-- The lowest root ID that nothing names (R140); none beyond 2,097,151. -/
def State.freeRoot (s : State) : Option Nat :=
  let used := s.rootIds
  ((List.range (used.length + 1)).find? fun n => n ∉ used).bind fun n => if n < 2097152 then some n else none

/-- A new root over an empty top page (R139, R141): DEPTH from its size. -/
def State.emptyTop (s : State) (d : SD) (size : Nat) : Nat × Nat × State :=
  let depth := depthOf size
  let (p, s1) := s.newPage d depth []
  (depth, p, s1)

/-- Create a volume root (R139, R140). -/
def State.makeVolume (s : State) (d : SD) (root kdom size : Nat) : State :=
  let (depth, top, s1) := s.emptyTop d size
  s1.delta d (.root root (some ⟨0, false, false, kdom, depth, top, none, size, 0, s.top.epoch⟩))

/-- Create one snapshot root of a source at a point (R154): the source's TOP shared, SEALED 0. -/
def State.snapRoot (s : State) (d : SD) (src point : Nat) : Option (Nat × State) :=
  match Table.find (s.metaOf d).roots src, s.freeRoot with
  | some r, some id =>
    let s1 := s.share d r.top (· + 1)
    some (id, s1.delta d (.root id (some { r with
      kind := 1, isSealed := false, deleting := false, parent := some src, point := point, createEpoch := s.top.epoch })))
  | _, _ => none

/-- Snapshots of several roots at one point: the snapshot roots and the state. -/
def State.snapRoots (s : State) (d : SD) (point : Nat) : List Nat → Option (List Nat × State)
  | [] => some ([], s)
  | r :: rs =>
    match s.snapRoot d r point with
    | none => none
    | some (id, s1) => (s1.snapRoots d point rs).map fun (ids, s2) => (id :: ids, s2)

/-- Take a snapshot (R154): one stamp, the point, for every root named. -/
def State.takeSnap (s : State) (d : SD) (roots : List Nat) : Option (Nat × List Nat × State) :=
  let (p, s1) := s.nextStamp d
  (s1.snapRoots d p roots).map fun (ids, s2) => (p, ids, s2)

/-- Every unit of a command has recorded its deltas or has been abandoned. -/
def Cmd.unitsDone (c : Cmd) : Bool :=
  if c.units.isEmpty then c.status.isSome else c.units.all fun u => u.abandoned || (u.complete && decide (u.left = 0))

/-- Nothing is left to do for a command: it is posted, its units are recorded or abandoned and held by the peer where there is one
(R51), and nothing it forwarded is open. -/
def Cmd.over (c : Cmd) (noMirror : Bool) : Bool :=
  c.posted && c.unitsDone && c.tags.isEmpty && c.units.all fun u => u.abandoned || u.acked || noMirror

/-- Every unit of a root's writes stamped below a point has recorded its deltas or has been abandoned (R155);
all of them for no point (R156). -/
def State.rootQuiet (s : State) (d : SD) (root : Nat) (below : Option Nat) : Bool :=
  s.fe.cmds.all fun c =>
    decide (c.sd ≠ d ∨ c.root ≠ some root) || !changesBlocks c.cap.op || below.any (fun p => decide (c.stamp ≥ p)) || c.unitsDone

/-- Units of the domain are being replayed, at a takeover or a restart (R155). -/
def State.replaying (s : State) (d : SD) : Bool :=
  (s.ubl.takeover.any fun t => t.sd = d) || (Table.find s.vault.restore d.num).isSome

/-- Seal a snapshot whose source is quiet below its point, no replay of its units being under way (R155). -/
def State.sealRoot (s : State) (d : SD) (root : Nat) : State :=
  match Table.find (s.metaOf d).roots root with
  | some r =>
    match r.parent with
    | some v =>
      if r.kind = 1 ∧ !r.isSealed ∧ !s.replaying d ∧ s.rootQuiet d v (some r.point) then s.delta d (.root root (some { r with isSealed := true }))
      else s
    | none => s
  | none => s

/-- A namespace names a root. -/
def State.rootNamed (s : State) (d : SD) (root : Nat) : Bool := s.fe.ns.any fun (_, n) => n.sd = d ∧ n.root = root

/-- An accepted delete of a root (R156): DELETING, and the TOP page's SHARE falls by 1. -/
def State.deleteRoot (s : State) (d : SD) (root : Nat) : State :=
  match Table.find (s.metaOf d).roots root with
  | some r =>
    if r.deleting then s
    else
      let s1 := (s.delta d (.root root (some { r with deleting := true }))).share d r.top (· - 1)
      -- a root whose TOP stays shared has no page of its own to free
      if ((Table.find (s1.metaOf d).pages r.top).map (·.share)).getD 0 = 0 then s1.delta d (.freeing r.top (some root))
      else s1.delta d (.root root none)
  | none => s

/-- Give a root an empty top page in place of its own (R272, R274 phase 3). -/
def State.emptyRoot (s : State) (d : SD) (root : Nat) : State :=
  match Table.find (s.metaOf d).roots root with
  | none => s
  | some r =>
    let (p, s1) := s.newPage d r.depth []
    let s2 := (s1.share d r.top (· - 1)).delta d (.root root (some { r with top := p }))
    { s2 with map := { s2.map with walk := s2.map.walk.filter fun (_, k, _) => k / 2 ^ 34 ≠ d.num * 2 ^ 21 + root } }

end Sys2Proof.Machine
end

