-- ==== Sys2Proof/Machine/Screed.lean ====
section
/-!
DEFINITION. The Screed control engine: loop descriptors, the control law, test signals, targets, and the
capture buffer it shares with the packet trace (R331 to R343, R304).
-/

namespace Sys2Proof.Machine

/-! ### Q16.16 arithmetic (R339) -/

/-- The signed value of a descriptor word. -/
def sWord (w : Word) : Int := w.toInt

/-- A signed 32-bit value as a word. -/
def wordOf (x : Int) : Word := BitVec.ofInt 32 x

/-- mulq of R339: product, arithmetic shift right by 16, saturation. -/
def mulq (a b : Int) : Int := satI32 ((a * b) / 65536)

/-- Clamp to limits. -/
def clampI (x lo hi : Int) : Int := if x < lo then lo else if x > hi then hi else x

/-- A non-negative number as Q16.16, saturated to the signed 32-bit range. -/
def qNat (num den : Nat) : Int := satI32 (Int.ofNat (num * 65536 / den))

/-! ### Descriptors (Table 14.2) -/

/-- Descriptor word `i`. -/
def Loop.w (l : Loop) (i : Nat) : Word := l.words.getD i 0

/-- A field of descriptor word `i`. -/
def Loop.f (l : Loop) (i hi lo : Nat) : Nat := bitsOf (l.w i).toNat hi lo

/-- Replace descriptor word `i`. -/
def Loop.put (l : Loop) (i : Nat) (v : Word) : Loop := { l with words := l.words.set i v }

def Loop.en (l : Loop) : Bool := bitOf (l.w 0).toNat 31
def Loop.pid (l : Loop) : Bool := bitOf (l.w 0).toNat 30
def Loop.ttype (l : Loop) : Nat := l.f 0 29 28
def Loop.src (l : Loop) : Nat := l.f 0 27 24
def Loop.srcIdx (l : Loop) : Nat := l.f 0 23 16
def Loop.tgt (l : Loop) : Nat := l.f 0 15 12
def Loop.tgtIdx (l : Loop) : Nat := l.f 0 7 0
def Loop.phase (l : Loop) : Nat := l.f 1 31 16
def Loop.period (l : Loop) : Nat := l.f 1 15 0
def Loop.tper (l : Loop) : Nat := l.f 11 15 0
def Loop.running (l : Loop) : Bool := bitOf (l.w 15).toNat 0
def Loop.misses (l : Loop) : Nat := l.f 15 15 8

/-- Word 15 from its fields. -/
def lstat (reason misses : Nat) (sat lastMissed running : Bool) : Word :=
  BitVec.ofNat 32 (reason * 65536 + misses * 256 + b2n sat * 4 + b2n lastMissed * 2 + b2n running)

/-- Bits of a descriptor word that a write can change (Table 14.2). -/
def descMask (i : Nat) : Nat :=
  match i with
  | 0 => 0xFFFFF0FF
  | 11 => 0x0000FFFF
  | 13 | 14 | 15 => 0
  | _ => 0xFFFFFFFF

/-- Buffer a write of a descriptor word (R335). INTEG accepts writes only while RUNNING is 0. -/
def Loop.bufWrite (l : Loop) (i : Nat) (v : Word) : Loop :=
  if i ≥ 13 ∨ (i = 12 ∧ l.running) then l
  else { l with buf := Table.put l.buf i (v &&& BitVec.ofNat 32 (descMask i)) }

/-- The words with every buffered write in place. -/
def Loop.merged (l : Loop) : Loop := { l.buf.foldl (fun x (i, v) => x.put i v) l with buf := [] }

/-- A field outside its range (R338, reason FIELD_RANGE). -/
def Loop.badField (l : Loop) : Bool :=
  decide (l.period = 0 ∨ l.phase ≥ l.period ∨ l.src > 3 ∨ l.tgt > 3) ||
  decide (l.src = 2 ∧ l.srcIdx > 15) || decide (l.src = 3 ∧ l.srcIdx > 239) ||
  decide (l.tgt = 2 ∧ l.tgtIdx > 7) || decide (l.tgt = 3 ∧ l.tgtIdx > 239) ||
  decide (sWord (l.w 6) > sWord (l.w 7)) || decide (sWord (l.w 8) > sWord (l.w 9)) ||
  decide (l.ttype = 3 ∧ l.tper < 4) || decide (l.ttype = 2 ∧ l.tper < 1)

/-- Loop `n`. -/
def State.loop (s : State) (n : Nat) : Loop := Table.getD s.scr.loops n Loop.empty

/-- Replace loop `n`. -/
def State.setLoop (s : State) (n : Nat) (l : Loop) : State :=
  { s with scr := { s.scr with loops := Table.put s.scr.loops n l } }

/-- The enable check of R338: the reason code, 0 if it passes. -/
def State.loopCheck (s : State) (n : Nat) (l : Loop) : Nat :=
  let on (b : Blk) : Bool := (s.blk.get b).enable && (s.blk.get b).enabled
  if !on .scr || (l.tgt = 1 && !on .med) || ((l.tgt = 2 || l.tgt = 3) && !on .fe) then 2
  else if l.badField then 1
  else if l.tgt ≠ 0 ∧ s.scr.loops.any (fun (k, x) =>
      k ≠ n ∧ x.running ∧ x.tgt = l.tgt ∧ (l.tgt = 1 ∨ x.tgtIdx = l.tgtIdx)) then 4
  else 0

/-- Apply a loop's buffered writes (R335, R338): EN written 0 stops it, EN written 1 runs the check. -/
def State.applyLoop (s : State) (n : Nat) : State :=
  let l := s.loop n
  if l.buf.isEmpty then s
  else
    let m := l.merged
    let m1 := if m.ttype ≠ l.ttype then { m with n := 0, prbs := 0x7FF, last := none } else m
    if (Table.find l.buf 0).isNone then s.setLoop n m1
    else if !m1.en then
      s.setLoop n (m1.put 15 (m1.w 15 &&& BitVec.ofNat 32 0xFFFFFFFE))
    else
      match s.loopCheck n m1 with
      | 0 =>
        if l.running then s.setLoop n (m1.put 15 (lstat 0 l.misses (bitOf (l.w 15).toNat 2) (bitOf (l.w 15).toNat 1) true))
        else s.setLoop n { m1.put 15 (lstat 0 0 (bitOf (l.w 15).toNat 2) (bitOf (l.w 15).toNat 1) true) with
          n := 0, prbs := 0x7FF, last := none, first := true }
      | r =>
        let m2 := m1.put 0 (m1.w 0 &&& BitVec.ofNat 32 0x7FFFFFFF)
        (s.setLoop n (m2.put 15 (lstat r l.misses (bitOf (l.w 15).toNat 2) (bitOf (l.w 15).toNat 1) false))).raise .scr 1

/-! ### The loops that Terzan sets up (R342, Table 14.6) -/

/-- A whole number as a descriptor word, at most what signed Q16.16 holds: the 48,000 of Table 14.6 does not fit (DESIGN CHOICE,
assumption 124). -/
def qWord (n : Nat) : Word := wordOf (qNat n 1)

/-- Words 0 to 9 of a descriptor with EN set: source, target, period and phase, setpoint, gains, limits. KD is 0. -/
def loopWords (src srcIdx tgt tgtIdx period phase : Nat) (setpoint kp ki : Word) (outMin outMax iMax : Nat) : List (Nat × Word) :=
  [(0, BitVec.ofNat 32 (2 ^ 31 + src * 2 ^ 24 + srcIdx * 2 ^ 16 + tgt * 2 ^ 12 + tgtIdx)), (1, BitVec.ofNat 32 (phase * 65536 + period)),
   (2, setpoint), (3, kp), (4, ki), (5, 0), (6, qWord outMin), (7, qWord outMax), (8, 0), (9, qWord iMax)]

/-- Terzan writes words of a descriptor (R335). -/
def State.writeLoop (s : State) (n : Nat) (ws : List (Nat × Word)) : State :=
  s.setLoop n (ws.foldl (fun l (i, v) => l.bufWrite i v) (s.loop n))

/-- The GC setpoint from the stripe width and the module count, by a formula the manual does not give; 64 where no domain is owned
(assumption 124). -/
def State.gcSetpoint (s : State) : Word :=
  match s.owned with
  | [] => qWord 64
  | d :: _ => Config.gcSetpoint (s.metaOf d).shape (s.mlk.ports.filter fun (_, p) => p.state = 2).length

/-- Loop 0: GC pacing. -/
def State.gcLoop (s : State) : State :=
  s.writeLoop 0 (loopWords 1 0 1 0 100 0 s.gcSetpoint (BitVec.ofNat 32 (4 * 65536)) (BitVec.ofNat 32 8192) 16 1024 1024)

/-- Loop `n` of 1 to 8: a thermal loop. -/
def State.thermalLoop (s : State) (n : Nat) : State :=
  s.writeLoop n (loopWords 2 (n - 1) 2 (n - 1) 10 (n % 10) (qWord 100) (BitVec.ofNat 32 (16 * 65536)) (BitVec.ofNat 32 (2 * 65536)) 256 1024 1024
    ++ [(12, qWord 1024)])

/-- The loop of a QoS group to which a namespace is assigned, with the group's latency target in SETPOINT; a group without a target
keeps its loop as it is (DESIGN CHOICE, assumption 124). A loop that runs takes the setpoint alone. -/
def State.qosLoop (s : State) (g : Nat) : State :=
  match Table.find s.scr.qosTarget g with
  | none => s
  | some us =>
    if !(s.fe.ns.any fun (_, n) => n.qos = some g) then s
    else if (s.loop (16 + g)).running then s.writeLoop (16 + g) [(2, qWord us)]
    else s.writeLoop (16 + g) (loopWords 3 g 3 g 10 ((16 + g) % 10) (qWord us) (BitVec.ofNat 32 32768) (BitVec.ofNat 32 4096) 100 48000 48000
      ++ [(12, qWord 48000)])

/-- The loops that Terzan enables at start-up. -/
def State.startLoops (s : State) : State :=
  (s.scr.qosTarget.map Prod.fst).foldl State.qosLoop (((List.range 8).map (· + 1)).foldl State.thermalLoop s.gcLoop)

/-- A latency target or an assignment of a group changes once Terzan has set up its loops. -/
def State.qosChanged (s : State) (g : Nat) : State := if s.top.phase = 6 then s.qosLoop g else s

/-- A loop is due at a tick (R331). -/
def Loop.dueAt (l : Loop) (t : Nat) : Bool :=
  l.en && decide (l.period ≠ 0) && decide ((Int.ofNat t - Int.ofNat l.phase) % Int.ofNat l.period = 0)

/-- A running loop's source and target domains are on, so it is not suspended (R334). -/
def State.loopPowered (s : State) (l : Loop) : Bool :=
  (match l.src with
    | 1 => s.powered .med
    | 2 => domainOn s.pwr.current 3
    | 3 => s.powered .fe
    | _ => true) &&
  (match l.tgt with
    | 1 => s.powered .med
    | 2 | 3 => s.powered .fe
    | _ => true)

/-- An input at cycle 0 (Table 14.3), Q16.16; none where it is unreadable. -/
def State.loopInput (s : State) (l : Loop) : Option Int :=
  match l.src with
  | 0 => some 0
  | 1 =>
    match s.owned with
    | [d] => some (qNat (s.med.freeStripes.get d) 1)
    | [d, e] => some (qNat (min (s.med.freeStripes.get d) (s.med.freeStripes.get e)) 1)
    | _ => none
  | 2 => Table.find s.scr.temps l.srcIdx
  | _ =>
    match Table.find s.scr.lat l.srcIdx with
    | some (sum, k) => some (if k = 0 then 0 else qNat sum k)
    | none => some 0

/-- A term of the Taylor series of the sine, at a scale of 10^24. -/
def sinSeries (x2 : Int) : Nat → Int → Int → Int
  | 0, _, _ => 0
  | f + 1, t, k => t + sinSeries x2 f (-(t * x2 / 1000000000000000000000000) / (k * (k + 1))) (k + 2)

/-- round(65,536 × sin(2π m / 1,024)) for m in the first quarter. -/
def sineQuarter (m : Nat) : Int :=
  let x : Int := 6283185307179586476925287 * Int.ofNat m / 1024
  let s := sinSeries (x * x / 1000000000000000000000000) 14 x 2
  (s * 65536 + 500000000000000000000000) / 1000000000000000000000000

/-- S[m] of R340. -/
def sineTable (m : Nat) : Int :=
  let k := m % 1024
  if k ≤ 256 then sineQuarter k
  else if k ≤ 512 then sineQuarter (512 - k)
  else if k ≤ 768 then -(sineQuarter (k - 512))
  else -(sineQuarter (1024 - k))

/-- One advance of PRBS-11 (R340): the register and b. -/
def prbsStep (reg : Nat) : Nat × Bool :=
  let b := ((reg >>> 10) ^^^ (reg >>> 8)) % 2
  ((reg * 2 + b) % 2048, b = 1)

/-- The test value of the next sample and the loop with its test state advanced (R340). -/
def Loop.test (l : Loop) : Int × Loop :=
  let amp := sWord (l.w 10)
  match l.ttype with
  | 0 => (0, { l with n := l.n + 1 })
  | 1 => (amp, { l with n := l.n + 1 })
  | 2 =>
    let adv := l.n ≠ 0 ∧ l.tper ≠ 0 ∧ l.n % l.tper = 0
    let (reg, last) := if adv then let (r, b) := prbsStep l.prbs; (r, some b) else (l.prbs, l.last)
    (if last = some true then amp else satI32 (-amp), { l with n := l.n + 1, prbs := reg, last := last })
  | _ =>
    (mulq amp (sineTable (if l.tper = 0 then 0 else l.n * 1024 / l.tper)), { l with n := l.n + 1 })

/-- What an evaluation computes (R339): error, integrator, output and the test value. -/
structure Sample where
  e : Int
  integ : Int
  out : Int
  sat : Bool
  test : Int
  deriving DecidableEq, Repr

/-- The control law of R339. -/
def Loop.law (l : Loop) (y t : Int) : Sample :=
  let e := satI32 (sWord (l.w 2) - y)
  let p := mulq (sWord (l.w 3)) e
  let di := mulq (sWord (l.w 4)) e
  let prev := if l.first then e else sWord (l.w 13)
  let d := if l.pid then mulq (sWord (l.w 5)) (satI32 (e - prev)) else 0
  let old := sWord (l.w 12)
  let i := clampI (satI32 (old + di)) (sWord (l.w 8)) (sWord (l.w 9))
  let lo := sWord (l.w 6)
  let hi := sWord (l.w 7)
  let sum (i : Int) : Int := satI32 (satI32 (satI32 (p + i) + d) + t)
  let u := sum i
  let wind := (u > hi ∧ di > 0) ∨ (u < lo ∧ di < 0)
  let i' := if wind then old else i
  let u' := if wind then sum old else u
  let out := clampI u' lo hi
  ⟨e, i', out, decide (out ≠ u'), t⟩

/-- The range of a target (Table 14.4). -/
def tgtMax (tgt : Nat) : Int := if tgt = 2 then 1024 else 65535

/-- The value written to a target (R336). -/
def tgtValue (tgt : Nat) (out : Int) : Nat := (clampI (out / 65536) 0 (tgtMax tgt)).toNat

/-- Write a target (R336, Table 14.4). -/
def State.writeTarget (s : State) (late : Bool) (tgt idx v : Nat) : State :=
  match tgt with
  | 1 => { s with cfg := { s.cfg with medCredit := s.cfg.medCredit.write late (BitVec.ofNat 16 v) } }.pend .med late
  | 2 => { s with scr := { s.scr with duty := Table.put s.scr.duty idx v } }
  | 3 => { s with scr := { s.scr with rate := Table.put s.scr.rate idx v } }
  | _ => s

/-- A capture record (Table 14.5). -/
def captureRec (tick : Nat) (y : Int) (x : Sample) (missed : Bool) : List Byte :=
  fit (leBytes 4 tick ++ leBytes 4 (wordOf y).toNat ++ leBytes 4 (wordOf x.e).toNat ++
    leBytes 4 (wordOf x.integ).toNat ++ leBytes 4 (wordOf x.test).toNat ++ leBytes 4 (wordOf x.out).toNat ++
    leBytes 1 (b2n missed + 2 * b2n x.sat)) 64

/-- Screed holds the capture buffer. -/
def State.capturing (s : State) : Bool := s.claimHolder 0 = 0x10

/-- Write a capture record where the loop is being captured and the buffer has room (R341). -/
def State.capture (s : State) (n : Nat) (b : List Byte) : State :=
  if s.capturing ∧ s.scr.capLoop = n ∧ s.scr.cap.recs.length < 4096 then
    { s with scr := { s.scr with cap := ⟨0x10, (if s.scr.cap.owner = 0x10 then s.scr.cap.recs else []) ++ [b]⟩ } }
  else s

/-- A missed sample (R333). -/
def State.missLoop (s : State) (n : Nat) : State :=
  let l := s.loop n
  let l1 := l.put 15 (lstat (l.f 15 31 16) (min 255 (l.misses + 1)) (bitOf (l.w 15).toNat 2) true l.running)
  let s1 := ((s.setLoop n l1).count .scrMissed).raise .scr 0
  s1.capture n (captureRec s.scr.tick 0 ⟨sWord (l.w 13), sWord (l.w 12), sWord (l.w 14), bitOf (l.w 15).toNat 2, 0⟩ true)

/-- An evaluated sample (R339): law, state, target, counters, capture. -/
def State.evalLoop (s : State) (late : Bool) (n : Nat) (y : Int) : State :=
  let (t, l) := (s.loop n).test
  let x := l.law y t
  let l1 := { (((l.put 12 (wordOf x.integ)).put 13 (wordOf x.e)).put 14 (wordOf x.out)).put 15
    (lstat (l.f 15 31 16) l.misses x.sat false l.running) with first := false }
  let s1 := (s.setLoop n l1).count .scrSamples
  let s2 := if x.sat then s1.count .scrSaturated else s1
  let s3 := if l.src = 3 then { s2 with scr := { s2.scr with lat := Table.del s2.scr.lat l.srcIdx } } else s2
  let s4 := s3.writeTarget late l.tgt l.tgtIdx (tgtValue l.tgt x.out)
  s4.capture n (captureRec s.scr.tick y x false)

/-- Commands per tick of a rate in commands per ms, in 1/100 of a token. -/
def tokenGain (rate : Nat) : Nat := rate

/-- Fill the token buckets for one tick: at most one sample period of tokens (R336). Tokens are kept in
hundredths. -/
def State.fillTokens (s : State) : State :=
  { s with scr := { s.scr with tokens := s.scr.rate.foldl (fun t (g, r) =>
      let period := (s.scr.loops.findSome? fun (_, l) =>
        if l.running ∧ l.tgt = 3 ∧ l.tgtIdx = g then some l.period else none).getD 10
      Table.put t g (min (r * period) (Table.getD t g 0 + tokenGain r))) s.scr.tokens } }

/-- SCREED_TICK: one tick (R331 to R340, Table 14.1). Temperatures arrive as operands; `late` says that the
tick falls past the cut-off of R35. Loops of the tick before that were not reached miss first. -/
def execScreedTick (temps : List (Nat × Int)) (late : Bool) (s : State) : Res :=
  if !s.powered .scr then .next s
  else
    let s0 := s.scr.late.foldl State.missLoop s
    let s1 := { s0 with scr := { s0.scr with late := [], temps := temps.foldl (fun t (i, v) => Table.put t i v) [] } }
    if !s1.works .scr then .next { s1 with scr := { s1.scr with tick := s1.scr.tick + 1 } }
    else
      let t := s1.scr.tick
      -- writes of stopped loops apply at this tick, those of running loops at a due tick (assumption 16)
      let ids := s1.scr.loops.map Prod.fst
      let s2 := ids.foldl (fun s n => if (s.loop n).running ∧ !(s.loop n).dueAt t then s else s.applyLoop n) s1
      let due := ids.filter fun n => (s2.loop n).running ∧ (s2.loop n).dueAt t ∧ s2.loopPowered (s2.loop n)
      let ys := due.map fun n => (n, s2.loopInput (s2.loop n))
      let s3 := (ys.take 64).foldl (fun s (n, y) => match y with
        | some v => s.evalLoop late n v
        | none => s.missLoop n) s2
      let s4 := s3.fillTokens
      .next { s4 with scr := { s4.scr with tick := t + 1, late := (due.drop 64) } }

/-- LOOP_DEADLINE_MISS: cycle 999 passes with due loops not reached (R333). -/
def execLoopDeadlineMiss (s : State) : Res :=
  let s1 := s.scr.late.foldl State.missLoop s
  .next { s1 with scr := { s1.scr with late := [] } }

/-- What starting a claim does to the buffer: its own older records go; another claimant's stay readable until
the first record is written (R341). -/
def Capture.start (c : Capture) (who : Nat) : Capture := if c.owner = who then ⟨who, []⟩ else c

/-- CAPTURE_START: EN written 1 to SCR_CAP_CTRL (R341). -/
def execCaptureStart (r : Requester) (loop : Nat) (s : State) : Res :=
  if !s.powered .scr then .next (s.violation (violSource r) true 0x00400100)
  else
    let h := s.claimHolder 0
    let (ok, s1) := s.claim 0 0x10
    if ok then
      .next { s1 with scr := { s1.scr with
        capLoop := loop % 256, capReason := 0, capDone := if h = 0x10 then s1.scr.capDone else false
        cap := if h = 0x10 then s1.scr.cap else s1.scr.cap.start 0x10 } }
    else
      .next ({ s1 with scr := { s1.scr with capLoop := loop % 256, capReason := 4, capHolder := h } }.raise .scr 3)

/-- CAPTURE_STOP: EN written 0 (R341). -/
def execCaptureStop (r : Requester) (loop : Nat) (s : State) : Res :=
  if !s.powered .scr then .next (s.violation (violSource r) true 0x00400100)
  else .next { s.release 0 0x10 with scr := { s.scr with capLoop := loop % 256 } }

/-- CAPTURE_FULL: 4,096 records are written (R341). -/
def execCaptureFull (s : State) : Res :=
  if s.capturing ∧ s.scr.cap.owner = 0x10 ∧ s.scr.cap.recs.length ≥ 4096 then
    .next ({ s.release 0 0x10 with scr := { s.scr with capDone := true } }.raise .scr 2)
  else .next s

/-- TRACE_START: EN written 1 to RDM_TRACE_CTRL (R304). -/
def execTraceStart (r : Requester) (s : State) : Res :=
  if !s.powered .rdm then .next (s.violation (violSource r) true 0x00C00120)
  else
    let h := s.claimHolder 0
    let (ok, s1) := s.claim 0 0x11
    if ok then
      .next { s1 with
        rdm := { s1.rdm with traceReason := 0 }
        scr := { s1.scr with cap := if h = 0x11 then s1.scr.cap else s1.scr.cap.start 0x11 } }
    else .next { s1 with rdm := { s1.rdm with traceReason := 4, traceHolder := h } }

/-- TRACE_STOP: EN written 0 (R304). -/
def execTraceStop (r : Requester) (s : State) : Res :=
  if !s.powered .rdm then .next (s.violation (violSource r) true 0x00C00120)
  else .next (s.release 0 0x11)

/-- TRACE_FULL: the buffer is full (R304). -/
def execTraceFull (s : State) : Res :=
  if s.claimHolder 0 = 0x11 ∧ s.scr.cap.owner = 0x11 ∧ s.scr.cap.recs.length ≥ 4096 then
    .next (s.release 0 0x11)
  else .next s

/-- The records of the trace that the buffer holds. -/
def Capture.traced (c : Capture) : List (List Byte) := if c.owner = 0x11 then c.recs else []

/-- Record a packet's headers in the trace (R304): a record of 64 bytes whose layout is free (assumption 84). -/
def State.trace (s : State) (b : List Byte) : State :=
  if s.claimHolder 0 = 0x11 ∧ s.scr.cap.traced.length < 4096 then
    { s with scr := { s.scr with
        cap := ⟨0x11, s.scr.cap.traced ++ [fit (Config.traceRecord s.draws s.scr.cap.traced.length b) 64]⟩ } }
  else s

end Sys2Proof.Machine
end

