-- ==== Sys2Proof/Machine/RdmOps.lean ====
section
/-!
DEFINITION. Operations of RDM: contexts, parking, windows, the error state, and what a packet does once its
context is on chip (R278 to R296).
-/

namespace Sys2Proof.Machine

/-- Change RDM. -/
def State.updRdm (s : State) (f : RdmState → RdmState) : State := { s with rdm := f s.rdm }

/-- Send a packet; a trace that runs records it (R304). -/
def State.tx (s : State) (x : RdmTx) : State :=
  (s.updRdm fun r => { r with sent := r.sent ++ [x] }).trace (leBytes 1 1 ++ leBytes 8 s.rdm.sent.length)

/-- The context of an INDEX. -/
def State.qp? (s : State) (i : Nat) : Option Qp := Table.find s.rdm.qps i

/-- Change a context. -/
def State.updQp (s : State) (i : Nat) (f : Qp → Qp) : State := s.updRdm fun r => { r with qps := Table.upd r.qps i f }

/-- Mark a context used now. -/
def State.useQp (s : State) (i : Nat) : State :=
  (s.updQp i fun q => { q with used := s.rdm.uses }).updRdm fun r => { r with uses := r.uses + 1 }

/-- INDEX and GEN of a QPN (R280). -/
def qpnIdx (n : Nat) : Nat := n % 65536
def qpnGen (n : Nat) : Nat := n / 65536 % 256

/-- The next GEN of an INDEX, skipping 0 (R280). -/
def nextGen (g : Nat) : Nat := if g ≥ 255 then 1 else g + 1

/-- The rate of a cage's ports in bit/s by SPLIT (R277). -/
def splitRate (v : Half) : Nat :=
  match bitsOf v.toNat 1 0 with
  | 0 => 800000000000
  | 1 => 400000000000
  | _ => 100000000000

/-- Ports of a cage by SPLIT (R277). -/
def splitPorts (v : Half) : Nat :=
  match bitsOf v.toNat 1 0 with
  | 0 => 1
  | 1 => 2
  | _ => 8

/-- A port's rate. -/
def State.portRate (s : State) (port : Nat) : Nat :=
  splitRate (((s.cfg.cage[port / 8]?).map (·.value)).getD 0)

/-- A logical port exists and is up; the ports come up at phase 6 (R441). -/
def State.ethPort (s : State) (port : Nat) : Bool :=
  s.pwr.ethUp && Table.getD s.rdm.portUp port true && decide (port < 32) &&
  decide (port % 8 < splitPorts (((s.cfg.cage[port / 8]?).map (·.value)).getD 0))

/-- The context of a new queue pair (R280, R281): scrim contexts are pinned on chip. -/
def Qp.new (gen : Nat) (kind : QpKind) (port mtu rate : Nat) (paths : List Path) : Qp :=
  ⟨gen, kind, none, none, port, mtu, 0, 0, true, decide (kind = .scrim), false, 0, [], false, [], 16, [], 0, 0, 7, 7,
   rate, paths, 0, [], 0, [], [], 0, []⟩

/-- Contexts held on chip. -/
def State.onChip (s : State) : Nat := (s.rdm.qps.filter fun (_, q) => q.onChip).length

/-- A context may be evicted (R281). -/
def Qp.evictable (q : Qp) : Bool := q.onChip && !q.pinned && q.parked.isEmpty && !q.fetching

/-- Make room on chip for one context (R281): the least recently used evictable one is written back; with a full
writeback queue the oldest writeback is awaited first. -/
def State.makeRoom (s : State) : State :=
  if s.onChip < 4096 then s
  else
    let v := s.rdm.qps.foldl (fun (b : Option (Nat × Nat)) (i, q) =>
      if q.evictable then
        match b with
        | some (_, u) => if q.used < u then some (i, q.used) else b
        | none => some (i, q.used)
      else b) none
    match v with
    | none => s
    | some (i, _) =>
      (s.updQp i fun q => { q with onChip := false }).updRdm fun r =>
        { r with writeback := (if r.writeback.length ≥ 16 then r.writeback.drop 1 else r.writeback) ++ [i] }

/-! ### The error state (R292, R55) -/

/-- A queue pair enters the error state (R292): outstanding requests complete in posting order, the first with the
cause where it belongs to one; receives are flushed; parked packets are discarded (R285). The NVMe queue it
carries follows R55. -/
def State.qpError (s : State) (i : Nat) (cause : Option WcSt) : State :=
  match s.qp? i with
  | none => s
  | some q =>
    if q.err then s
    else
      let ws := q.wrs.zipIdx.map fun (w, k) =>
        Wc.mk false w.psn (if k = 0 then cause.getD .flushed else .flushed)
      let rs := List.replicate q.recvs (Wc.mk true 0 .flushed)
      let s1 := s.updQp i fun q => { q with err := true, comps := q.comps ++ ws ++ rs, wrs := [], recvs := 0, parked := [], fetching := false, tmsgs := [], twait := [] }
      let s2 := ((s1.count .rdmErrDropped q.parked.length).count .rdmQpErrors).raise .rdm 1
      match q.q with
      | none => s2
      | some x => (s2.queueError x).breakQueue x

/-- Every queue pair of a host controller enters the error state, and the controller ends (R252). -/
def State.endController (s : State) (cntlid : Nat) : State :=
  let is := (s.rdm.qps.filter fun (_, q) => (q.q.map (·.cntlid)) = some cntlid).map Prod.fst
  (is.foldl (fun s i => s.qpError i none) s).endHost cntlid

/-! ### Sending on scrim paths (R293, R296) -/

/-- The path whose rate allows the next packet soonest, by the packets of the message it has been given: ties go to the lower index. -/
def soonest : List (Path × Nat) → Option Path
  | [] => none
  | (p, n) :: ps => match soonest ps with
    | none => some p
    | some k =>
      let m := ((ps.find? fun x => x.1.idx = k.idx).map Prod.snd).getD 0
      if n * k.rate ≤ m * p.rate then some p else some k

/-- The paths of `n` packets in increasing PIDX. -/
def sprayOver : Nat → List (Path × Nat) → List Nat
  | 0, _ => []
  | n + 1, ps => match soonest ps with
    | none => []
    | some k => k.idx :: sprayOver n (ps.map fun (p, c) => (p, if p.idx = k.idx then c + 1 else c))

/-- Send one packet of a scrim message: its PSN is the count of packets sent. -/
def State.scrimTx (s : State) (i msn pidx path : Nat) (retry : Bool) : State :=
  (s.updQp i fun q => { q with pkts := (q.pkts + 1) % 2 ^ 24 }).tx
    (.scrimPkt i (((s.qp? i).map (·.pkts)).getD 0) msn pidx path retry)

/-- Send what may go of what waits on a scrim queue pair, in order: at most 64 messages are outstanding, and a FLUSH or ATOMIC WRITE
goes once every message before it is acknowledged (R291). -/
def State.pump (s : State) (i : Nat) : Nat → State
  | 0 => s
  | fuel + 1 =>
    match s.qp? i with
    | none => s
    | some q =>
      match q.twait with
      | [] => s
      | .msg m :: rest =>
        if q.tmsgs.length ≥ 64 then s
        else
          let ps := sprayOver (m.npktM1 + 1) ((q.paths.filter (·.up)).map fun p => (p, 0))
          let s1 := s.updQp i fun q => { q with twait := rest, tmsgs := q.tmsgs ++ [{ m with paths := ps }] }
          (ps.zipIdx.foldl (fun s (p, j) => s.scrimTx i m.msn j p false) s1).pump i fuel
      | .ctl x :: rest =>
        if q.tmsgs.isEmpty then ((s.updQp i fun q => { q with twait := rest }).tx x).pump i fuel else s

/-- Send what may go. -/
def State.pumpAll (s : State) (i : Nat) : State :=
  match s.qp? i with
  | some q => s.pump i q.twait.length
  | none => s

/-- A FLUSH or ATOMIC WRITE of the requester goes out: on a scrim queue pair in its turn. -/
def State.sendCtl (s : State) (i : Nat) (x : RdmTx) : State :=
  match s.qp? i with
  | some q => if q.kind = .scrim then (s.updQp i fun q => { q with twait := q.twait ++ [.ctl x] }).pumpAll i else s.tx x
  | none => s

/-! ### Windows (R286 to R288) -/

/-- Open a window at the lowest index that is not open: its rkey (R286). -/
def State.openWindow (s : State) (qp base len rights : Nat) : Option (Nat × State) :=
  let i := ((List.range 65536).find? fun n => !((Table.find s.rdm.windows n).map (·.isOpen)).getD false)
  i.map fun n =>
    let key := (((Table.find s.rdm.windows n).map (·.key)).getD 0 + 1) % 256
    (n * 256 + key, s.updRdm fun r => { r with windows := Table.put r.windows n ⟨true, key, qp, base, len, rights⟩ })

/-- The window an rkey names, if it is open (R286). -/
def State.window? (s : State) (rkey : Nat) : Option (Nat × Window) :=
  if rkey ≥ 2 ^ 24 then none
  else
    let i := bitsOf rkey 23 8
    match Table.find s.rdm.windows i with
    | some w => if w.isOpen ∧ w.key = rkey % 256 then some (i, w) else none
    | none => none

/-- The window check of R287: none refuses; otherwise the offset in the landing area. -/
def State.windowCheck (s : State) (qp rkey right off len : Nat) : Option Nat :=
  match s.window? rkey with
  | some (_, w) => if w.qp = qp ∧ bitOf w.rights right ∧ off + len ≤ w.len then some (w.base + off) else none
  | none => none

/-- Where the landing area lies in the dust sheet: past its slots (R286). -/
def State.landBase (s : State) : Nat := (s.sheetBase + s.ubl.sheet.size) * 4096

/-- The storage domain whose mirror flow carries a queue pair's placements. -/
def State.qpSd (s : State) (i : Nat) : SD :=
  match (s.qp? i).bind fun q => q.att.bind (Table.find s.rdm.atts) with
  | some a => a.sd
  | none => (s.owned.head?).getD .a

/-- Place bytes in the landing area and mirror them (R286, R291). -/
def State.place (s : State) (i off : Nat) (b : List Byte) : State :=
  (s.updRdm fun r => { r with landing := r.landing.writeAll off b }).mirrorBytes (s.qpSd i) (s.landBase + off)
    (b.length / 4096 + 1) b

/-- Close a window (R288). -/
def State.closeWindow (s : State) (w : Nat) : State :=
  s.updRdm fun r => { r with windows := Table.upd r.windows w fun x => { x with isOpen := false } }

/-- A refusal under R287: Remote Access Error NAK, and the queue pair enters the error state. -/
def State.refuseAccess (s : State) (i psn : Nat) : State := (s.tx (.accessNak i psn)).qpError i none

/-! ### Capsules (R65, R256) -/

/-- Opcodes the controller accepts on an admin queue (Table 11.3). -/
def adminOpcodes : List Nat := [0x02, 0x06, 0x08, 0x09, 0x0A, 0x0C, 0x18, 0x7F, 0x80, 0x84]

/-- The FCTYPE of a Fabrics command. -/
def Capsule.fctype (c : Capsule) : Nat := leAt c.sqe 4 1

/-- A status FE gives before anything else (R256): an opcode outside Table 11.3 or a fused operation. A capsule ahead of Connect, and a
second Connect, fail with Command Sequence Error (PRESUMED, assumption 128). -/
def Capsule.badOp (c : Capsule) : Option Status :=
  if c.q.cntlid = 0xFFFF then (if c.op = 0x7F ∧ c.fctype = 1 then none else some stSequence)
  else if c.op = 0x7F ∧ c.fctype = 1 then some stSequence
  else if c.q.qid = 0 then
    if c.op ∉ adminOpcodes then some stBadOpcode
    else if c.fuse ≠ 0 then some stBadField
    else if c.op = 0x7F ∧ c.fctype ∉ [0, 4, 8] then some stBadField
    else none
  else if c.op = 0x7F then (if c.fctype = 8 then none else some stBadField)
  else if c.op ∉ ioOpcodes then some stBadOpcode
  else if c.fuse ≠ 0 then some stBadField
  else none

/-- Fail the front capsule of a queue at admission: it counts as accepted and completes with the status. -/
def State.failFront (s : State) (c : Capsule) (st : Status) : State :=
  (s.updFe fun f => (f.dropFront c.q).acceptOn c.q).answer c st 0 []

/-- A command capsule reaches FE (R65): it waits at the Admission point; one that fails every test of admission ends at once
where nothing of its queue is before it (R256). -/
def State.receiveCapsule (s : State) (c : Capsule) : State :=
  let first := (s.fe.front c.q).isNone && !s.fe.fenced c.q
  let s1 := s.updFe fun f => { f.updQueue c.q (fun x => { x with received := x.received + 1 }) with
    waiting := f.waiting ++ [Waiting.mk c s.top.epoch [] false] }
  match c.badOp with
  | some st => if first then s1.failFront c st else s1
  | none => s1

/-- A packet in P1 is a wake event (R418, R420). -/
def State.wakeP1 (s : State) : State := s.wakeEvent 1

/-! ### Packet processing (R278, R284, R289 to R296) -/

/-- A PSN at or before another on the circle. -/
def psnLe (a b : Nat) : Bool := decide ((b + 2 ^ 24 - a) % 2 ^ 24 < 2 ^ 23)

/-- Change an attachment, which is part of the epoch state (R303). -/
def State.updAtt (s : State) (id : Nat) (f : Attach → Attach) : State :=
  match Table.find s.rdm.atts id with
  | none => s
  | some a =>
    let s1 := s.updRdm fun r => { r with atts := Table.put r.atts id (f a) }
    if s.owns a.sd then s1.delta a.sd (.attach id (some (f a))) else s1

/-- The target has acknowledged a set (R300): the source keeps the snapshots of that cut and gives up older ones. -/
def State.setAcked (s : State) (id set : Nat) : State :=
  match Table.find s.rdm.atts id with
  | none => s
  | some a =>
    let old := a.snaps.filter (·.1 < set)
    let s1 := if s.owns a.sd then old.foldl (fun s (_, rs) => rs.foldl (fun s r => s.deleteRoot a.sd r) s) s else s
    s1.updAtt id fun a => { a with
      acked := (set, ((a.cuts.find? (·.1 = set)).map (·.2)).getD a.acked.2)
      cuts := a.cuts.filter (·.1 > set), snaps := a.snaps.filter (·.1 ≥ set) }

/-- A requester's work request ends. -/
def State.endWr (s : State) (w : Wr) : State :=
  match w.op with
  | .flush att upTo => s.updAtt att fun a => { a with durable := max a.durable upTo }
  | .atomicWrite att set => s.setAcked att set
  | _ => s

/-- A work request that an acknowledgement on the PSN sequence up to `psn` retires: a scrim message has its own. -/
def Wr.upTo (w : Wr) (psn : Nat) : Bool := psnLe w.psn psn && decide (w.op ≠ .scrim)

/-- An acknowledgement retires every request up to its PSN, in posting order (R289). -/
def State.ackWrs (s : State) (i psn : Nat) : State :=
  match s.qp? i with
  | none => s
  | some q =>
    let done := q.wrs.filter fun w => w.upTo psn
    let s1 := s.updQp i fun q => { q with wrs := q.wrs.filter (fun w => !w.upTo psn), retries := 0, rnrs := 0
                                          comps := q.comps ++ done.map fun w => Wc.mk false w.psn .ok }
    done.foldl State.endWr s1

/-- Retransmit the oldest request, or enter the error state once the retry count is exceeded (R292). -/
def State.retry (s : State) (i : Nat) (rnr : Bool) : State :=
  match s.qp? i with
  | none => s
  | some q =>
    match q.wrs.find? fun w => w.op ≠ .scrim with
    | none => s
    | some w =>
      let n := if rnr then q.rnrs else q.retries
      let m := if rnr then q.rnrMax else q.retryMax
      if n ≥ m then s.qpError i (some (if rnr then .rnrExceeded else .retryExceeded))
      else (s.updQp i fun q => if rnr then { q with rnrs := n + 1 } else { q with retries := n + 1 }).tx (.retransmit i w.psn)

/-- The stamp that stands for a forwarded command in a READ work request: no command has it. -/
def fwdKey (tag : Nat) : Nat := 2 ^ 64 + tag

/-- The stamp that stands for a capsule not accepted yet in a READ work request. -/
def capKey (c : Capsule) : Nat := 2 ^ 128 + c.q.cntlid * 2 ^ 32 + c.q.qid * 2 ^ 16 + c.cid

/-- Response packets of an RDMA READ of `n` bytes: each but the last carries one MTU, and each takes a PSN (R65). -/
def readPkts (mtu n : Nat) : Nat := max 1 ((n + mtu - 1) / mtu)

/-- Post an RDMA READ of a command's data on its queue's queue pair (R65, R255). -/
def State.postRead (s : State) (q : QId) (d : SD) (key n : Nat) : State :=
  match s.fe.queue q with
  | some x => s.updQp x.qp fun y =>
      if y.err then { y with comps := y.comps ++ [Wc.mk false y.npsn .flushed] }
      else { y with wrs := y.wrs ++ [⟨y.npsn, .read d key⟩], npsn := (y.npsn + readPkts y.mtu n) % 2 ^ 24 }
  | none => s

/-- Fetched data of a capsule not accepted yet arrives (R44, R47). -/
def State.capArrived (s : State) (i : Nat) (d : SD) (c : Capsule) (data : List Byte) : State :=
  let s1 := s.updFe fun f => { f with waiting := f.waiting.map fun w =>
    if w.cap = c then { w with data := (w.data ++ data).take (s.capBytes c) } else w }
  if s1.fe.waiting.any fun w => w.cap = c ∧ w.data.length < s1.capBytes c then s1
  else s1.updQp i fun q => { q with wrs := q.wrs.filter fun w => w.op ≠ .read d (capKey c) }

/-- Fetched data of a command arrives (R65): fed to the landing, and the READ work request ends with the last
byte. -/
def State.readArrived (s : State) (i : Nat) (d : SD) (stamp : Nat) (data : List Byte) : State :=
  let s1 := s.feed d stamp data
  match s1.cmd? d stamp with
  | none => s1
  | some c =>
    if c.host.length < s1.needBytes c then s1
    else s1.updQp i fun q => { q with wrs := q.wrs.filter fun w => w.op ≠ .read d stamp }

/-- Fetched data of a forwarded command arrives (R317): it goes on to the owner, and the READ work request ends with the
last byte. -/
def State.fwdArrived (s : State) (i : Nat) (f : Fwd) (data : List Byte) : State :=
  let n := f.data.length
  let s1 := (s.updFe fun x => { x with fwd := x.fwd.map fun y => if y.tag = f.tag then { y with data := y.data ++ data } else y }).send
    (.fwdData f.tag n data)
  if n + data.length < s1.capBytes f.cap then s1
  else s1.updQp i fun q => { q with wrs := q.wrs.filter fun w => w.op ≠ .read f.sd (fwdKey f.tag) }

/-- Fetched data arrives for what a READ work request names: an accepted command, a forwarded one, or a capsule not accepted
yet. -/
def State.dataArrived (s : State) (i : Nat) (d : SD) (stamp : Nat) (data : List Byte) : State :=
  match s.cmd? d stamp with
  | some c => if c.status.isNone ∧ c.started then s.readArrived i d stamp data else s
  | none =>
    match s.fe.fwd.find? fun f => fwdKey f.tag = stamp ∧ f.sd = d with
    | some f => s.fwdArrived i f data
    | none =>
      match s.fe.waiting.find? fun w => capKey w.cap = stamp ∧ w.cap.origin.isNone ∧ w.asked with
      | some w => s.capArrived i d w.cap data
      | none => s

/-- Bytes that have arrived for what a READ work request names. -/
def State.arrived (s : State) (d : SD) (stamp : Nat) : Nat :=
  match s.cmd? d stamp with
  | some c => c.host.length
  | none =>
    match s.fe.fwd.find? fun f => fwdKey f.tag = stamp ∧ f.sd = d with
    | some f => f.data.length
    | none => ((s.fe.waiting.find? fun w => capKey w.cap = stamp ∧ w.cap.origin.isNone).map (·.data.length)).getD 0

/-- A READ response packet (R65): its PSN gives the offset of its bytes; one that is not the next of its request is a
retransmission of bytes that have landed, or lies past a lost one, and places nothing. -/
def State.readPkt (s : State) (i : Nat) (q : Qp) (psn : Nat) (d : SD) (stamp : Nat) (data : List Byte) : State :=
  match q.wrs.find? fun w => w.op = .read d stamp with
  | none => s
  | some w =>
    if (psn + 2 ^ 24 - w.psn) % 2 ^ 24 * q.mtu = s.arrived d stamp then s.dataArrived i d stamp data else s

/-- A scrim inconsistency puts the queue pair into the error state (R294, R295). -/
def State.scrimBad (s : State) (i : Nat) : State := s.qpError i none

/-- A scrim data packet (R294, R295). One of a message that is complete and has not left the window is placed again and draws its
acknowledgement again (DESIGN CHOICE, assumption 129). -/
def State.scrimRx (s : State) (i : Nat) (q : Qp) (x : Sxh) (data : List Byte) : State :=
  let old := (Table.find q.rmsgs x.msn)
  let dist := (x.msn + 2 ^ 32 - q.base) % 2 ^ 32
  if dist ≥ 2 ^ 31 then s.tx (.scrimAck i x.msn)
  else if dist ≥ 64 then s.scrimBad i
  else if x.pidx > x.npktM1 ∨ (x.pidx < x.npktM1 ∧ data.length ≠ q.mtu) ∨ data.length > q.mtu then s.scrimBad i
  else
    match old with
    | some m =>
      if m.npktM1 ≠ x.npktM1 ∨ m.rkey ≠ x.rkey ∨ m.moff ≠ x.moff then s.scrimBad i
      else
        match s.windowCheck i x.rkey 0 (x.moff + x.pidx * q.mtu) data.length with
        | none => s.refuseAccess i 0
        | some o =>
          let m1 := { m with bitmap := m.bitmap ||| 2 ^ x.pidx }
          let s1 := (s.place i o data).updQp i fun q => { q with rmsgs := Table.put q.rmsgs x.msn m1 }
          if m.complete then s1.tx (.scrimAck i x.msn)
          else if x.retry ∧ m1.bitmap ≠ 2 ^ (m.npktM1 + 1) - 1 then s1.tx (.scrimNak i x.msn m1.bitmap) else s1
    | none =>
      match s.windowCheck i x.rkey 0 (x.moff + x.pidx * q.mtu) data.length with
      | none => s.refuseAccess i 0
      | some o =>
        let m1 : RMsg := ⟨x.npktM1, x.rkey, x.moff, 2 ^ x.pidx, false⟩
        let s1 := (s.place i o data).updQp i fun q => { q with rmsgs := Table.put q.rmsgs x.msn m1 }
        if x.retry ∧ m1.bitmap ≠ 2 ^ (x.npktM1 + 1) - 1 then s1.tx (.scrimNak i x.msn m1.bitmap) else s1

/-- A request in sequence, on a responder (R278, R287 to R291). -/
def State.request (s : State) (i : Nat) (psn : Nat) (op : PktOp) : State :=
  let ok (s : State) : State := s.tx (.ack i psn)
  let recv (s : State) : State := s.updQp i fun q => { q with comps := q.comps ++ [Wc.mk true psn .ok] }
  match op with
  | .send c => ok ((recv s).receiveCapsule c)
  | .sendInv rkey =>
    match s.window? rkey with
    | some (w, x) =>
      if x.qp = i then ok (((recv s).closeWindow w).raise .rdm 2) else s.refuseAccess i psn
    | none => s.refuseAccess i psn
  | .write rkey off data =>
    match s.windowCheck i rkey 0 off data.length with
    | some o => ok (s.place i o data)
    | none => s.refuseAccess i psn
  | .readReq rkey off len =>
    match s.windowCheck i rkey 1 off len with
    | some o => s.tx (.readData i psn (s.rdm.landing.readN o len))
    | none => s.refuseAccess i psn
  | .flush persist rkey off len =>
    match s.windowCheck i rkey 3 off len with
    | some _ => s.updQp i fun q => { q with rwaits := q.rwaits ++ [⟨psn, persist, s.lastMseq (s.qpSd i), none⟩] }
    | none => s.refuseAccess i psn
  | .atomicWrite rkey off data =>
    match s.windowCheck i rkey 2 off 8 with
    | some o =>
      if data.length = 8 ∧ o % 8 = 0 then
        s.updQp i fun q => { q with rwaits := q.rwaits ++ [⟨psn, false, 0, some (o, data)⟩] }
      else (s.tx (.invalidNak i psn)).qpError i (some .invalidReq)
    | none => s.refuseAccess i psn
  | _ => (s.tx (.invalidNak i psn)).qpError i (some .invalidReq)

/-- A duplicate request (R284): reads are answered again, the rest acknowledged again. -/
def State.duplicate (s : State) (i : Nat) (psn : Nat) (op : PktOp) : State :=
  match op with
  | .readReq rkey off len =>
    match s.windowCheck i rkey 1 off len with
    | some o => s.tx (.readData i psn (s.rdm.landing.readN o len))
    | none => s.refuseAccess i psn
  | _ => s.tx (.ack i psn)

/-- A packet whose context is on chip. -/
def State.handlePkt (s : State) (i : Nat) (q : Qp) (p : Pkt) : State :=
  if q.err then s.count .rdmErrDropped
  else
    let s := s.useQp i
    match p.op with
    | .ack => s.ackWrs i p.psn
    | .seqNak => s.retry i false
    | .rnrNak => s.retry i true
    | .accessNak => s.qpError i (some .accessErr)
    | .operNak => s.qpError i (some .operErr)
    | .readResp d stamp data => s.readPkt i q p.psn d stamp data
    | .scrim x data => if q.kind = .scrim then s.scrimRx i q x data else (s.tx (.invalidNak i p.psn)).qpError i (some .invalidReq)
    | op =>
      let dist := (p.psn + 2 ^ 24 - q.epsn) % 2 ^ 24
      if dist = 0 then (s.updQp i fun q => { q with epsn := (q.epsn + 1) % 2 ^ 24 }).request i p.psn op
      else if dist < 2 ^ 23 then s.tx (.seqNak i q.epsn)
      else s.duplicate i p.psn op

/-- Packets parked in a cage, and fetches in flight there. -/
def State.parkedIn (s : State) (cage : Nat) : Nat :=
  s.rdm.qps.foldl (fun n (_, q) => n + (q.parked.filter fun p => p.port / 8 = cage).length) 0
def State.fetchesIn (s : State) (cage : Nat) : Nat :=
  (s.rdm.qps.filter fun (_, q) => q.fetching ∧ q.port / 8 = cage).length

/-- Headers of a packet as the trace keeps them (R304): what the model holds of them. -/
def Pkt.header (p : Pkt) : List Byte := leBytes 1 0 ++ leBytes 3 p.qpn ++ leBytes 3 p.psn ++ leBytes 1 p.port

/-- A packet arrives with its ICRC good (R278, R280, R282, R283). -/
def State.rxPkt (s0 : State) (p : Pkt) : State :=
  let s := s0.wakeP1.trace p.header
  let i := qpnIdx p.qpn
  match s.qp? i with
  | none => s
  | some q =>
    if q.gen ≠ qpnGen p.qpn then s.count .rdmStaleQpn
    else if q.err then s.count .rdmErrDropped
    else if q.onChip ∧ !q.fetching ∧ q.parked.isEmpty then s.handlePkt i q p
    else
      let s1 := if q.onChip then s else s.count .rdmCtxMiss
      let cage := p.port / 8
      let new := !q.onChip && !q.fetching
      if s.parkedIn cage ≥ 240 ∨ q.parked.length ≥ 32 ∨ (new ∧ s.fetchesIn cage ≥ 64) then
        (s1.count .rdmParkDropped).raise .rdm 0
      else
        (s1.count .rdmParked).updQp i fun q => { q with parked := q.parked ++ [p], fetching := q.fetching || !q.onChip }

end Sys2Proof.Machine
end

