-- ==== Sys2Proof/Machine/Streams.lean ====
section
/-!
DEFINITION. Operations of CIP: user pages and their events, nonces, the streams of the shared pool, and the completions of offload
messages (R233 to R250).
-/

namespace Sys2Proof.Machine

/-- Change CIP. -/
def State.updCip (s : State) (f : CipState → CipState) : State := { s with cip := f s.cip }

/-- Replace a key slot. -/
def State.setSlot (s : State) (n : Nat) (k : KSlot) : State :=
  s.updCip fun c => { c with slots := Table.put c.slots n k }

/-- A user page. -/
def State.upage (s : State) (p : Nat) : UPage := Table.getD s.cip.pages p UPage.empty

/-- Replace a user page. -/
def State.setPage (s : State) (p : Nat) (u : UPage) : State := s.updCip fun c => { c with pages := Table.put c.pages p u }

/-- An event of PG_STATUS, with the page's vector where INT_EN allows it (R347, R356). -/
def State.pageRaise (s : State) (p bit : Nat) : State :=
  let u := s.upage p
  let k := ({ BlkSt.reset false with seq := u.seq, events :=
    (u.events.map fun (b, q, a) => Event.mk b q a) }).raise bit
  let s1 := s.setPage p { u with seq := k.seq, events := k.events.map fun e => (e.bit, e.seq, e.aged) }
  if u.intEn then s1.signal (80 + p) else s1

/-- CIP takes one drawn value from the 64 it keeps ready (R245); a stream that finds none waits and counts. -/
def State.takeDrawn (s : State) : List Byte × State :=
  let s1 := if s.cip.ready = 0 then s.count .cipDrbgWait else s.updCip fun c => { c with ready := c.ready - 1 }
  let (v, s2) := s1.draw
  (v.take 8, s2)

/-- How asking for a nonce ends. -/
inductive NonceR where
  | drawn (n : List Byte) (s : State)
  | wait
  | exhausted
  deriving DecidableEq, Repr

/-- The nonce of an at-rest pack (R244): none until SLOT_EPOCH is safe, or once COUNTER is spent. -/
def State.packNonce (s : State) (slot : Nat) : NonceR :=
  let k := s.kslot slot
  if k.safeWait.isSome then .wait
  else if k.counter ≥ 2 ^ 64 - 1 then .exhausted
  else .drawn (leBytes 4 k.slotEpoch ++ leBytes 8 k.counter) (s.setSlot slot { k with counter := k.counter + 1 })

/-- The nonce of a message under DRBG policy (R245). -/
def State.msgNonce (s : State) (slot : Nat) : NonceR :=
  let k := s.kslot slot
  if k.count < 2 ^ 32 then .drawn (fit k.fixed 8 ++ leBytes 4 k.count) (s.setSlot slot { k with count := k.count + 1 })
  else if k.draws ≥ 65536 then .exhausted
  else
    let (f, s1) := s.takeDrawn
    .drawn (fit f 8 ++ leBytes 4 0) (s1.setSlot slot { k with fixed := f, draws := k.draws + 1, count := 1 })

/-! ### Offload rings (R249, R250) -/

/-- The events of a posted completion: ERROR, and DONE where its descriptor asks for it. -/
def State.cplEvents (s : State) (p : Nat) (int : Bool) (e : List Byte) : State :=
  let s1 := if leAt e 2 2 ≠ 0 then s.pageRaise p 1 else s
  if int then s1.pageRaise p 0 else s1

/-- Write a completion at the ring's tail, or hold it while the ring is full (R249). -/
def State.putCpl (s : State) (p : Nat) (int : Bool) (e : List Byte) : State :=
  let u := s.upage p
  if u.cqSize = 0 ∨ (u.cqTail + 1) % u.cqSize = u.cqHead then s.setPage p { u with heldCpl := u.heldCpl ++ [(int, e)] }
  else
    let b := patch e 4 [if u.phase then 1 else 0]
    let t := (u.cqTail + 1) % u.cqSize
    ((s.updCip fun c => { c with dma := c.dma ++ [(u.cqBase + 64 * u.cqTail, b)] }).setPage p
      { u with cqTail := t, phase := if t = 0 then !u.phase else u.phase }).cplEvents p int e

/-- Write to head memory. -/
def State.dma (s : State) (addr : Nat) (b : List Byte) : State :=
  s.updCip fun c => { c with dma := c.dma ++ [(addr, b)] }

/-- A length Table 10.1 allows. -/
def lenOk (mode len : Nat) : Bool :=
  decide (1 ≤ len ∧ len ≤ 65536) &&
  (match mode with
    | 0 => decide (len % 16 = 0)
    | 4 => decide (len ≥ 16)
    | _ => true)

/-- The usage a mode needs (PG_SLOT_s). -/
def usageOf (mode : Nat) : Nat :=
  match mode with
  | 0 => 2 | 1 => 3 | 2 => 4 | 3 => 1 | _ => 5

/-- A reserved field or value, or a length outside Table 10.1 (R250 outcome 1). -/
def descBad (b : List Byte) : Bool :=
  let op := leAt b 0 1
  let mode := leAt b 1 1
  let aadLen := leAt b 8 2
  decide (op ≠ 1 ∧ op ≠ 2) || decide (mode > 4) || decide (leAt b 2 1 ≥ 16) || decide (leAt b 3 1 ≥ 2) ||
  decide (leAt b 10 6 ≠ 0) || !lenOk mode (leAt b 4 4) || (if mode = 3 then decide (aadLen > 4096) else decide (aadLen ≠ 0)) ||
  decide (leAt b 32 8 % 16 ≠ 0)

/-- The completion entry (Table 10.4), its phase bit left to the ring. -/
def cplBytes (didx : Nat) (o : OffOut) : List Byte :=
  leBytes 2 didx ++ leBytes 2 o.reason ++ zeros 4 ++ leBytes 4 o.out.length ++ fit o.nonce 12 ++ fit o.tag 16 ++ zeros 24

/-! ### Streams (R233, R234, R240, R248) -/

/-- The block operations of XTS under a key of two halves. -/
def xtsCore (dec : Bool) (key : List Byte) : List Byte → List Byte :=
  let n := key.length / 2
  if dec then aesDec (key.take n) else aesEnc (key.take n)

/-- One block of a stream goes through a core: its output, chaining value, counter, GHASH accumulator and length count. The last two
blocks of an XTS message whose length is no multiple of 16 B go together, as ciphertext stealing needs. -/
def Stream.block (x : Stream) : Stream :=
  let b := x.todo.take 16
  let y := { x with todo := x.todo.drop 16, count := x.count + b.length }
  match x.mode with
  | 0 => if x.dec then { y with out := x.out ++ xorBytes (aesDec x.key b) x.chain, chain := b }
    else
      let c := aesEnc x.key (xorBytes b x.chain)
      { y with out := x.out ++ c, chain := c }
  | 1 =>
    let c := xorBytes b (aesEnc x.key x.chain)
    { y with out := x.out ++ c, chain := if x.dec then b else c }
  | 2 => { y with out := x.out ++ xorBytes b (aesEnc x.key (beBytes 16 (x.ctr % 2 ^ 128))), ctr := x.ctr + 1 }
  | 3 =>
    let c := xorBytes b (aesEnc x.key (x.nonce ++ beBytes 4 (x.ctr % 2 ^ 32)))
    let h := beNat (aesEnc x.key (zeros 16))
    { y with out := x.out ++ c, ctr := x.ctr + 1, ghash := ghashMul (x.ghash ^^^ blockNat (if x.dec then b else c)) h }
  | _ =>
    if 16 < x.todo.length ∧ x.todo.length < 32 then
      { x with todo := [], count := x.count + x.todo.length, out := x.out ++ xtsCrypt x.dec (xtsCore x.dec x.key) x.ctr x.todo }
    else { y with out := x.out ++ xtsBlock (xtsCore x.dec x.key) x.ctr b, ctr := xtsDouble x.ctr }

/-- A message run to the end of its data. -/
def Stream.run : Nat → Stream → Stream
  | 0, x => x
  | n + 1, x => if x.todo.isEmpty then x else Stream.run n x.block

/-- Block i + 1 of the stream depends on the output of block i (R234). -/
def Stream.chained (x : Stream) : Bool := decide (x.mode ≤ 1) && !x.dec

/-- The tag that GCM gives at the end of a stream. -/
def Stream.gcmTag (x : Stream) : List Byte :=
  let h := beNat (aesEnc x.key (zeros 16))
  let lens := beBytes 8 (8 * x.aad.length) ++ beBytes 8 (8 * x.count)
  xorBytes (beBytes 16 (ghashMul (x.ghash ^^^ blockNat lens) h)) (aesEnc x.key (x.nonce ++ [0, 0, 0, 1]))

/-- How a message ends once its data has run out, and whether the write of its output succeeds (R248, R250). -/
def Stream.outcome (x : Stream) : OffOut :=
  let bad (r : Nat) : OffOut := ⟨r, [], [], []⟩
  if !x.srcOk then bad 0x208
  else if x.count < x.len then bad 0x205
  else if x.mode = 3 ∧ x.dec ∧ x.gcmTag ≠ x.tag then bad 0x207
  else if !x.dstOk then bad 0x208
  else
    let long := if x.long then 0x206 else 0
    if x.mode = 3 ∧ !x.dec then ⟨long, x.out, x.nonce, x.gcmTag⟩ else ⟨long, x.out, [], []⟩

/-- How the fetch of a descriptor ends: the message ends at once, or its stream is bound. -/
inductive Fetched where
  | ended (o : OffOut)
  | bound (x : Stream)
  deriving DecidableEq, Repr

/-- The stream of a message whose descriptor passes: it binds the slot's key and, to encrypt under GCM, its nonce (R240, R245). -/
def Stream.make (p didx : Nat) (b : List Byte) (k : KSlot) (nonce : List Byte) (src : Option (List Byte)) (aad tag : List Byte)
    (dstOk : Bool) : Stream :=
  let mode := leAt b 1 1
  let dec := decide (leAt b 0 1 = 2)
  let len := leAt b 4 4
  let iv := slice b 16 16
  let data := src.getD []
  let a := aad.take (leAt b 8 2)
  { page := p, didx := didx, dst := leAt b 40 8, int := decide (leAt b 3 1 % 2 = 1), dstOk := dstOk, slot := 16 * p + leAt b 2 1
    mode := mode, dec := dec, key := k.key, nonce := if mode = 3 ∧ dec then iv.take 12 else nonce, aad := a, tag := tag
    len := len, long := decide (data.length > len), srcOk := src.isSome, todo := data.take len
    chain := iv
    ctr := if mode = 2 then beNat iv else if mode = 3 then 2 else if mode = 4 then leNat (aesEnc (k.key.drop (k.key.length / 2)) iv) else 0
    ghash := if mode = 3 then Machine.ghash (beNat (aesEnc k.key (zeros 16))) (blocksOf a) else 0
    count := 0, out := [], res := none }

/-- A descriptor has been fetched with what it names (R240, R248, R250): the source data, none where a read failed; the AAD and the
expected tag. -/
def State.fetched (s : State) (p didx : Nat) (b : List Byte) (src : Option (List Byte)) (aad tag : List Byte) (dstOk : Bool) : Fetched × State :=
  let bad (r : Nat) : Fetched := .ended ⟨r, [], [], []⟩
  if descBad b then (bad 1, s)
  else
    let mode := leAt b 1 1
    let slot := 16 * p + leAt b 2 1
    let k := s.kslot slot
    if k.state = 0 ∨ k.state = 3 then (bad 0x201, s)
    else if k.usage ≠ usageOf mode then (bad 0x202, s)
    else
      match (if mode = 3 ∧ leAt b 0 1 ≠ 2 then s.msgNonce slot else .drawn [] s) with
      | .wait => (bad 0x204, s)
      | .exhausted => (bad 0x204, s)
      | .drawn nonce s1 => (.bound (Stream.make p didx b k nonce src aad tag dstOk), s1)

/-- Streams bound to a slot (PG_SLOT_s BOUND). -/
def State.boundTo (s : State) (slot : Nat) : Nat := (s.cip.streams.filter fun x => x.slot = slot ∧ x.res.isNone).length

/-- A stream holds the older key register of a slot (R240). -/
def State.oldHeld (s : State) (slot : Nat) : Bool :=
  s.cip.streams.any fun x => decide (x.slot = slot) && x.res.isNone && decide (x.key ≠ (s.kslot slot).key)

/-- A message has ended (R250, R251): counted by its outcome, its output written to head memory. -/
def State.msgEnded (s : State) (dst : Nat) (o : OffOut) : State :=
  let s3 := s.count .cipMsgDone
  let s4 := if o.reason = 0x207 then s3.count .cipTagFail else s3
  let s5 := if o.reason = 0x205 ∨ o.reason = 0x206 then s4.count .cipLengthErr else s4
  let s6 := if o.reason = 0x204 then (s5.count .cipNonceExhausted).raise .cip 3 else s5
  if o.out.isEmpty then s6 else s6.dma dst o.out

/-- A page's ended messages are completed, in ring order, up to the first that is bound still (R249). -/
def State.postEnded (s : State) (p : Nat) : State :=
  let mine := s.cip.streams.filter fun x => x.page = p
  let now := (mine.takeWhile fun x => x.res.isSome).filterMap fun x => x.res.map fun o => (x, o)
  now.foldl (fun s (x, o) => s.putCpl p x.int (cplBytes x.didx o))
    (s.updCip fun c => { c with streams := c.streams.filter fun x => x ∉ now.map Prod.fst })

/-- The streams that have run out of data end, and their completions are posted. -/
def State.endStreams (s : State) : State :=
  let spent (x : Stream) : Bool := x.res.isNone && (x.todo.isEmpty || !x.srcOk)
  let l := s.cip.streams.filter spent
  let s1 := l.foldl (fun s x => s.msgEnded x.dst x.outcome) s
  let s2 := s1.updCip fun c => { c with streams := c.streams.map fun x => if spent x then { x with res := some x.outcome, todo := [], out := [] } else x }
  (l.map (·.page)).eraseDups.foldl State.postEnded s2

/-- The stream that takes the next core position, in round-robin order; a chained one takes a single position in 15 dp-cycles. -/
def nextStream (l : List Stream) (turn : Nat) (used : List Nat) : Option Nat :=
  ((List.range l.length).map fun i => (turn + 1 + i) % l.length).find? fun i =>
    (l[i]?).any fun x => x.res.isNone && !x.todo.isEmpty && x.srcOk && (!x.chained || decide (i ∉ used))

/-- Core positions of the shared pool, one block each. -/
def poolBlocks : Nat → List Nat → CipState → CipState
  | 0, _, c => c
  | n + 1, used, c => match nextStream c.streams c.turn used with
    | none => c
    | some i => poolBlocks n (i :: used) { c with streams := updAt c.streams i Stream.block, turn := i }

/-- The 15 dp-cycles of one scr-cycle in the 4 cores of the shared pool (R232, R233; DESIGN CHOICE, assumption 122); a slot's rewrite
is no longer pending once no stream holds its older register (DESIGN CHOICE, assumption 121). -/
def State.poolTick (s : State) : State :=
  let s1 := if s.cip.streams.isEmpty then s else (s.updCip (poolBlocks 60 [])).endStreams
  s1.updCip fun c => { c with slots := c.slots.map fun (n, k) =>
    (n, if k.state = 2 ∧ !s1.oldHeld n then { k with state := 1, oldKey := [] } else k) }

/-- Every stream bound to a slot ends with KEY_ZEROIZED and releases nothing (R241 step 3). -/
def State.cutStreams (s : State) (slot : Nat) : State :=
  let hit (x : Stream) : Bool := x.res.isNone && decide (x.slot = slot)
  let l := s.cip.streams.filter hit
  if l.isEmpty then s
  else
    let s1 := ((s.count .cipMsgDone l.length).count .cipZeroizeAbort l.length).raise .cip 4
    let s2 := s1.updCip fun c => { c with
      streams := c.streams.map fun x => if hit x then { x with res := some ⟨0x203, [], [], []⟩, todo := [], out := [] } else x }
    (l.map (·.page)).eraseDups.foldl State.postEnded s2

end Sys2Proof.Machine
end

