-- ==== Sys2Proof/Machine/CipherOps.lean ====
section
/-!
DEFINITION. Operations of CIP: key slots, the nonces of packs, zeroize and the keys of key domains (R236 to R244).
-/

namespace Sys2Proof.Machine

/-- Load a key into a slot of a page under DRBG policy or in a mode without a nonce policy (R240, R245): an empty
slot becomes loaded, a loaded one takes the key in its other register and shows a rewrite pending. -/
def State.loadPlain (s : State) (slot usage : Nat) (klen : Bool) (key : List Byte) : State :=
  let k := s.kslot slot
  let (f, s1) := if usage = 1 then s.takeDrawn else ([], s)
  s1.setSlot slot { KSlot.empty with
    state := if k.state = 1 ∨ k.state = 2 then 2 else 1, usage := usage, klen := klen, npol := decide (usage = 1)
    key := key, oldKey := if k.state = 1 ∨ k.state = 2 then k.key else [], fixed := f, draws := 1 }

/-- The value recorded as the highest SLOT_EPOCH of a slot's key, plus one; 0 where neither head has used one. -/
def State.topSlotEpoch (s : State) (slot : Nat) : Nat :=
  max (Table.getD s.map.live.a.slotEpochs slot 0) (Table.getD s.map.live.b.slotEpochs slot 0)

/-- The SLOT_EPOCH of the next load (R244): this head's own parity, its head index where none has been used, else
at least 2 above the highest. -/
def nextSlotEpoch (head top : Nat) : Nat :=
  if top = 0 then head
  else
    let v := top - 1 + 2
    if v % 2 = head % 2 then v else v + 1

/-- Load an at-rest key into a slot of a Terzan page (R239, R244): none where SLOT_EPOCH would leave 32 bits.
Nonces wait until the delta that records SLOT_EPOCH is safe. -/
def State.loadAtRest (s : State) (slot : Nat) (key : List Byte) (fresh : Bool) : Option State :=
  let e := nextSlotEpoch s.top.head (if fresh then 0 else s.topSlotEpoch slot)
  if e > 0xFFFFFFFF then none
  else
    let s1 := s.setSlot slot { KSlot.empty with
      state := 1, usage := 0, klen := true, key := key, slotEpoch := e, safeWait := some s.top.epoch }
    some (s1.owned.foldl (fun s d => s.delta d (.slotEpoch slot (e + 1))) s1)

/-- Steps 1 to 3 of R241: both registers cleared, STATE 3, every stream bound to the slot ended. An empty slot has nothing to
zeroize. -/
def State.zeroize (s : State) (slot : Nat) : State :=
  if (s.kslot slot).state = 0 then s
  else
    ((s.setSlot slot { KSlot.empty with state := 3 }).updCip fun c =>
      { c with zeroizing := if slot ∈ c.zeroizing then c.zeroizing else c.zeroizing ++ [slot] }).cutStreams slot

/-- The first slot of Terzan's pages that is empty and no key domain holds. -/
def State.freeAtRest (s : State) : Option Nat :=
  (List.range 4096).find? fun n =>
    (s.upage (n / 16)).owner = 2 ∧ (s.kslot n).state = 0 ∧
    !(s.dp.kdoms.any fun (_, k) => k.slot = n ∨ n ∈ k.oldSlots)

/-- Every slot of a page is empty. -/
def State.pageEmpty (s : State) (p : Nat) : Bool := (List.range 16).all fun i => decide ((s.kslot (16 * p + i)).state = 0)

/-- An empty slot for an at-rest key: one of Terzan's pages, else the first of a free page that Terzan takes (R236). -/
def State.needAtRest (s : State) : Option (Nat × State) :=
  match s.freeAtRest with
  | some n => some (n, s)
  | none => ((List.range 256).find? fun p => decide ((s.upage p).owner = 0) && s.pageEmpty p).map fun p =>
      (16 * p, s.setPage p { s.upage p with owner := 2 })

/-- Key bytes wrapped under a key: nonce, ciphertext and tag of AES-256-GCM, as Table 16.8 has them (DESIGN CHOICE, assumption 104). -/
def wrapKey (kek nonce aad key : List Byte) : List Byte :=
  let (ct, tag) := gcmEnc kek (fit nonce 12) aad key
  fit nonce 12 ++ ct ++ tag

/-- The `n` key bytes of such a message, where its tag verifies. -/
def unwrapKey (kek aad b : List Byte) (n : Nat) : Option (List Byte) :=
  gcmDec kek (slice b 0 12) aad (slice b 12 n) (slice b (12 + n) 16)

/-- The key under which the vault's copies are wrapped (R94). -/
def vaultKey : List Byte := leBytes 32 (Config.deviceKey 512).toNat

/-- The link's session key (R94). -/
def linkKey : List Byte := leBytes 32 Config.sessionKey.toNat

/-- The vault holds a key domain's fingerprint key wrapped under the device key store (R94). -/
def State.vaultFp (s : State) (k : Nat) (fp : List Byte) : State :=
  let (nonce, s1) := s.draw
  { s1 with vault := { s1.vault with fpKeys := Table.put s1.vault.fpKeys k (wrapKey vaultKey nonce (leBytes 2 k) (fit fp 32)) } }

/-- At the start the fingerprint keys are read back from the vault (R94). -/
def State.loadFpKeys (s : State) : State :=
  { s with dp := { s.dp with kdoms := s.dp.kdoms.map fun (k, d) =>
      (k, { d with fpKey := ((Table.find s.vault.fpKeys k).bind fun b => unwrapKey vaultKey (leBytes 2 k) b 32).getD d.fpKey }) } }

/-- A key domain as the peer holds it (R94, R239): its at-rest key goes into the same global slot, and a slot it had before
stays while packs name it. -/
def State.installKdom (s : State) (k : Nat) (mode : DMode) (slot : Nat) (fp key : List Byte) : State :=
  let p := slot / 16
  let s1 := if (s.upage p).owner = 0 then s.setPage p { s.upage p with owner := 2 } else s
  let s2 := if (s1.kslot slot).state = 0 then (s1.loadAtRest slot key true).getD s1 else s1
  let old := match Table.find s.dp.kdoms k with
    | some d => (if d.slot = slot then d.oldSlots else d.oldSlots ++ [d.slot]).filter fun n => (s.kslot n).state = 1
    | none => []
  { s2 with dp := { s2.dp with kdoms := Table.put s2.dp.kdoms k ⟨mode, none, fp, slot, old⟩ } }.vaultFp k fp

/-- The number of a dedup mode in a message of the model. -/
def DMode.num : DMode → Nat
  | .off => 0
  | .on => 1
  | .verify => 2

/-- The mode a number names. -/
def DMode.ofNum (n : Nat) : DMode := if n = 1 then .on else if n = 2 then .verify else .off

/-- A key domain's keys leave the part wrapped (R94): the vault's copy of its fingerprint key, and the message in which the peer
gets both keys under the link's session key. -/
def State.sendKdom (s : State) (k : Nat) : State :=
  match Table.find s.dp.kdoms k with
  | none => s
  | some d =>
    let (nonce, s1) := (s.vaultFp k d.fpKey).draw
    let aad := leBytes 2 k ++ leBytes 1 d.mode.num ++ leBytes 2 d.slot
    s1.send (.message 12 .a (aad ++ wrapKey linkKey nonce aad (fit d.fpKey 32 ++ fit (s1.kslot d.slot).key 32)))

/-- The keys of such a message, where it unwraps. -/
def State.takeKdom (s : State) (b : List Byte) : State :=
  match unwrapKey linkKey (b.take 5) (b.drop 5) 64 with
  | some keys => s.installKdom (leAt b 0 2) (DMode.ofNum (leAt b 2 1)) (leAt b 3 2) (keys.take 32) (keys.drop 32)
  | none => s

/-- The metadata key is drawn and loaded when the array is commissioned (R239; assumption 108). -/
def State.drawMetaKey (s : State) : State :=
  match s.needAtRest with
  | none => s
  | some (slot, s1) =>
    let (key, s2) := s1.draw
    match s2.loadAtRest slot key true with
    | none => s
    | some s3 => { s3 with dp := { s3.dp with kdoms := Table.put s3.dp.kdoms metaKdom ⟨.off, none, [], slot, []⟩ } }.sendKdom metaKdom

/-- A key domain's data is gone: granules whose count had saturated end with it (R158). -/
def State.endSat (s : State) (k : Nat) : State :=
  s.owned.foldl (fun s d => ((s.metaOf d).refs.filter fun (_, r) => r.ddom = k ∧ r.sat).foldl (fun s (l, r) =>
    (s.delta d (.ref l (some { r with count := 0, sat := false }))).freePending d l) s) s

/-- A key domain ends (R94): its slots are zeroized and its fingerprint key goes, the vault's copy with it (R158 for saturated counts). -/
def State.removeKdom (s : State) (k : Nat) : State :=
  match Table.find s.dp.kdoms k with
  | none => s
  | some d =>
    let s1 := ((d.slot :: d.oldSlots).foldl State.zeroize s).endSat k
    { s1 with
      dp := { s1.dp with kdoms := Table.del s1.dp.kdoms k }
      vault := { s1.vault with fpKeys := Table.del s1.vault.fpKeys k } }

end Sys2Proof.Machine
end

