-- ==== Sys2Proof/Machine/Cipher.lean ====
section
/-!
DEFINITION. Commands of CIP: offload messages, zeroize, the release of a slot's nonces, and the page registers
(rows OFFLOAD_MESSAGE to NONCE_SAFE, PG_SQ_TAIL to PG_ZEROIZE).
-/

namespace Sys2Proof.Machine

/-- OFFLOAD_MESSAGE (R233, R240, R248 to R250): the next descriptor of a page's submission ring. Descriptor, source data, AAD and
expected tag are what CIP reads from head memory; none is a failed read. At most 4 streams of a page, and 1,024 in all, are
bound; `run` says whether the message is run to its end here or left to the cycles of the shared pool. -/
def execOffloadMessage (p : Nat) (desc : List Byte) (src : Option (List Byte)) (aad tag : List Byte) (run : OffRun) (s : State) : Res :=
  let u := s.upage p
  let bound := s.cip.streams.filter fun x => x.res.isNone
  if u.owner ≠ 1 ∨ !u.assigned ∨ u.sqSize = 0 ∨ u.sqHead = u.sqTail ∨ !u.heldCpl.isEmpty ∨ !s.works .cip ∨ !s.powered .cip ∨
      bound.length ≥ 1024 ∨ (bound.filter fun x => x.page = p).length ≥ 4 then .next s
  else
    let s1 := s.setPage p { u with sqHead := (u.sqHead + 1) % u.sqSize }
    let b := fit desc 64
    let put (s : State) (x : Stream) : State := s.updCip fun c => { c with streams := c.streams ++ [x] }
    match s1.fetched p u.sqHead b src aad tag run.dstOk with
    | (.ended o, s2) =>
      let x := { Stream.make p u.sqHead b KSlot.empty [] none [] [] false with res := some o }
      .next (((put s2 x).msgEnded 0 o).postEnded p)
    | (.bound x, s2) => .next (if run.whole then (put s2 (Stream.run x.todo.length x)).endStreams else put s2 x)

/-- ZEROIZE_DONE (R241 step 4): the slot becomes empty, and its page's event is set. -/
def execZeroizeDone (slot : Nat) (s : State) : Res :=
  if slot ∈ s.cip.zeroizing then
    let s1 := (s.setSlot slot KSlot.empty).updCip fun c => { c with zeroizing := c.zeroizing.filter (· ≠ slot) }
    .next (s1.pageRaise (slot / 16) 2)
  else .next s

/-- The delta that records a SLOT_EPOCH is safe (R244): copied where a peer acknowledges epochs, else covered by a
checkpoint, in every domain the controller owns. -/
def State.slotEpochSafe (s : State) (e : DWord) : Bool :=
  s.owned.all fun d =>
    if s.ubl.unmirrored ∨ s.ubl.filling = 1 then decide (e ≤ s.map.ckpt.get d) && decide (s.map.ckpt.get d ≠ 0)
    else decide (e ≤ s.ubl.copied.get d) && decide (s.ubl.copied.get d ≠ 0)

/-- NONCE_SAFE (R244): packs under the slot may draw nonces. -/
def execNonceSafe (slot : Nat) (s : State) : Res :=
  let k := s.kslot slot
  match k.safeWait with
  | some e => .next (if s.slotEpochSafe e then s.setSlot slot { k with safeWait := none } else s)
  | none => .next s

/-- The BAR2 offset of a page register. -/
def pageOff (p off : Nat) : Nat := 0x1000 * p + off

/-- A page access passes: its owner is head software (R237) and CIP's domain is on. -/
def State.pageOpen (s : State) (p : Nat) : Bool := decide ((s.upage p).owner = 1) && s.powered .cip

/-- PG_SQ_TAIL (R237, R249): a tail at or beyond the ring size is ignored and a violation. -/
def execPgSqTail (p : Nat) (v : Word) (s : State) : Res :=
  let u := s.upage p
  let t := bitsOf v.toNat 11 0
  if !s.pageOpen p ∨ t ≥ u.sqSize then .next (s.violation 1 true (pageOff p 0x004))
  else
    let s1 := if bitsOf v.toNat 15 12 ≠ 0 then s.violation 1 true (pageOff p 0x004) else s
    .next (s1.setPage p { u with sqTail := t })

/-- Post the completions held while the ring was full (R249). -/
def State.postHeld (s : State) (p : Nat) : State :=
  let u := s.upage p
  u.heldCpl.foldl (fun s (i, e) => s.putCpl p i e) (s.setPage p { u with heldCpl := [] })

/-- PG_CQ_HEAD (R237, R249). -/
def execPgCqHead (p : Nat) (v : Word) (s : State) : Res :=
  if !s.pageOpen p then .next (s.violation 1 true (pageOff p 0x00C))
  else .next ((s.setPage p { s.upage p with cqHead := bitsOf v.toNat 11 0 }).postHeld p)

/-- PG_STATUS_ACK (R237, R356): a value that is not accepted is a violation. -/
def execPgStatusAck (p : Nat) (v : Word) (s : State) : Res :=
  let u := s.upage p
  let a : Byte := BitVec.ofNat 8 v.toNat
  if !s.pageOpen p then .next (s.violation 1 true (pageOff p 0x024))
  else if (u.seq - a).toNat < 128 then
    .next (s.setPage p { u with events := u.events.filter fun (_, q, aged) => !(aged || decide ((a - q).toNat < 128)) })
  else .next (s.violation 1 true (pageOff p 0x024))

/-- PG_ZEROIZE (R237, R241): each bit set zeroizes that slot of the page. -/
def execPgZeroize (p : Nat) (v : Word) (s : State) : Res :=
  if !s.pageOpen p then .next (s.violation 1 true (pageOff p 0x080))
  else .next (((List.range 16).filter fun i => v.toNat.testBit i).foldl (fun s i => s.zeroize (16 * p + i)) s)

end Sys2Proof.Machine
end

