-- ==== Sys2Proof/Machine/HostPages.lean ====
section
/-!
DEFINITION. What the controller reports to hosts: Identify structures, log pages, properties and feature
values. Field offsets are those of the NVMe editions of Table 00.9; bytes the manual does not state are free
(assumption 14).
-/

namespace Sys2Proof.Machine

/-- A structure of `n` bytes nothing is stated of. -/
def freeBytes (kind n : Nat) : List Byte := (List.range n).map (Config.hostByte kind)

/-- Put a little-endian field. -/
def putField (l : List Byte) (off n v : Nat) : List Byte := patch l off (leBytes n v)

/-- Put several fields: offset, size, value. -/
def putFields (l : List Byte) (fs : List (Nat × Nat × Nat)) : List Byte :=
  fs.foldl (fun l (o, n, v) => putField l o n v) l

/-- The domain's ANA group: 1 for Domain A, 2 for Domain B (R266). -/
def anaGroup (d : SD) : Nat := d.num + 1

/-- The ANA state of a domain's group on this head (Table 11.6): 1 optimized, 2 non-optimized. In the service
gap the last value is held, and ownership as reported moves at its end. -/
def State.anaState (s : State) (d : SD) : Nat := if s.serves d then 1 else 2

/-- The stored LOCs a root names, over its leaves. -/
def rootLocs (m : Meta) : Nat → Nat → List Nat
  | 0, mpid =>
    match Table.find m.pages mpid with
    | some p => p.ents.filterMap fun (_, e) => (MapEnt.ofWord e).loc?
    | none => []
  | l + 1, mpid =>
    match Table.find m.pages mpid with
    | some p => p.ents.flatMap fun (_, e) => match dirChild e with
      | some c => rootLocs m l c
      | none => []
    | none => []

/-- NUSE (R262): the physical bytes of the stored granules the root names, divided by the LBA size. -/
def State.nuse (s : State) (n : Namespace) : Nat :=
  let m := s.metaOf n.sd
  match Table.find m.roots n.root with
  | some r =>
    let ls := (rootLocs m r.depth r.top).eraseDups
    (ls.foldl (fun k l => k + ((Table.find m.refs l).map (·.size)).getD 0) 0) / lbaData n.lbaf
  | none => 0

/-- FPI (R275): bit 7 and the percentage remaining while a format of the namespace is open. -/
def State.fpi (s : State) (nsid : Nat) : Nat :=
  match s.fe.progress with
  | some p => if p.op = 1 ∧ (p.nsid = nsid ∨ p.nsid = 0xFFFFFFFF) then 128 + (100 - p.prog * 100 / 65536) else 0
  | none => 0

/-- Atomic write values, 0's based in blocks of 128 KiB (R52). -/
def atomicVal (lbaf : Nat) : Nat := unitBlocks lbaf - 1

/-- An LBA format descriptor: metadata size and data size exponent (Table 11.5). -/
def lbafDesc (i : Nat) : Nat := lbaMeta i + (if lbaData i = 512 then 9 else 12) * 2 ^ 16

/-- Identify Namespace, CNS 0x00 (R52, R256, R257, R262, R263, R266, R268). -/
def State.idNs (s : State) (nsid : Nat) (n : Namespace) : List Byte :=
  let z := s.nsze n
  putFields (freeBytes 0 4096)
    ([(0, 8, z), (8, 8, z), (16, 8, s.nuse n), (25, 1, 4), (26, 1, n.lbaf), (27, 1, 1), (28, 1, 0x11),
      (29, 1, if n.lbaf ≥ 2 then 1 else 0), (30, 1, 1), (31, 1, 0x7F), (32, 1, s.fpi nsid), (33, 1, 0x09),
      (34, 2, atomicVal n.lbaf), (36, 2, atomicVal n.lbaf), (38, 2, 0), (40, 2, atomicVal n.lbaf),
      (42, 2, 0), (44, 2, atomicVal n.lbaf), (92, 4, anaGroup n.sd), (99, 1, b2n (s.readOnly n)),
      (104, 16, leNat (fit n.uuid 16))] ++
     (List.range 5).map fun i => (128 + 4 * i, 4, lbafDesc i))

/-- Identify Controller, CNS 0x01 (Tables 11.1, 11.3, R52, R253, R256, R266, R272, R273). AWUN and AWUPF are counted in blocks of
4 KiB whatever the namespaces' sizes (DESIGN CHOICE, assumption 125). -/
def State.idCtrl (s : State) (cntlid : Nat) (h : HostCtl) : List Byte :=
  let fast := s.fe.ns.any fun (_, n) => n.fast
  putFields (freeBytes 1 4096)
    [(77, 1, 8), (78, 2, cntlid), (92, 4, 0x900), (111, 1, if h.discovery then 2 else 1), (256, 2, 0x02),
     (258, 1, 3), (259, 1, 7), (260, 1, 0x03), (262, 1, 63), (320, 2, 1), (328, 4, 0x3), (342, 1, 1),
     (344, 4, 2), (348, 4, 2), (514, 2, 1024), (516, 4, 32768), (520, 2, 0xAD), (524, 1, 0x04),
     (525, 1, 6 + b2n fast), (526, 2, 31), (528, 2, 31), (532, 2, 0), (1792, 4, 516), (1800, 2, 0),
     (1803, 1, 16)]

/-- A list of namespace identifiers above a given one, 1,024 entries (CNS 0x02, page 0x04). -/
def nsidList (l : List Nat) : List Byte := fit ((l.take 1024).flatMap (leBytes 4)) 4096

/-- The protection format of an LBA format in the NVM command set structure: PIF, with no storage tag. -/
def pifOf (lbaf : Nat) : Nat := if lbaf = 4 then 2 * 2 ^ 7 else 0

/-- Identify data for a CNS value of Table 11.3; none is not supported. -/
def State.identify (s : State) (cntlid : Nat) (h : HostCtl) (cns nsid csi : Nat) : Option (Status × List Byte) :=
  let attached := s.nsOf cntlid
  match cns with
  | 0x00 =>
    match Table.find attached nsid with
    | some n => some (stOk, s.idNs nsid n)
    | none => some (stBadNs, [])
  | 0x01 => some (stOk, s.idCtrl cntlid h)
  | 0x02 => some (stOk, nsidList ((attached.map Prod.fst).filter (· > nsid)))
  | 0x03 =>
    match Table.find attached nsid with
    | some n => some (stOk, fit ([3, 16, 0, 0] ++ fit n.uuid 16 ++ [4, 1, 0, 0, 0]) 4096)
    | none => some (stBadNs, [])
  | 0x05 =>
    if csi ≠ 0 then some (stBadField, [])
    else match Table.find attached nsid with
      | some _ => some (stOk, putFields (zeros 4096) ((List.range 5).map fun i => (12 + 4 * i, 4, pifOf i)))
      | none => some (stBadNs, [])
  | 0x06 => if csi ≠ 0 then some (stBadField, []) else some (stOk, freeBytes 6 4096)
  | 0x1C => some (stOk, putField (zeros 4096) 0 8 1)
  | _ => none

/-- The ANA log page 0x0C (R266, R267): header and one descriptor for each group. -/
def State.anaPage (s : State) (cntlid : Nat) : List Byte :=
  let grp (d : SD) : List Byte :=
    let ns := ((s.nsOf cntlid).filter fun (_, n) => n.sd = d).map Prod.fst
    leBytes 4 (anaGroup d) ++ leBytes 4 ns.length ++ leBytes 8 s.fe.anaCount.toNat ++
    leBytes 1 (s.anaState d) ++ zeros 15 ++ ns.flatMap (leBytes 4)
  leBytes 8 s.fe.anaCount.toNat ++ leBytes 2 2 ++ zeros 6 ++ grp .a ++ grp .b

/-- SMART / Health Information, page 0x02: the media errors count (R258). -/
def smartPage (h : HostCtl) : List Byte := patch (freeBytes 0x102 512) 160 (leBytes 16 h.mediaErrs)

/-- Sanitize Status, page 0x81: SPROG and SSTAT (R275). -/
def State.sanitizePage (s : State) : List Byte :=
  leBytes 2 s.fe.sanitize.2 ++ leBytes 2 s.fe.sanitize.1 ++ zeros 28

/-- Commands Supported and Effects, page 0x05: CSUPP of every admin and I/O opcode of Table 11.3. -/
def effectsPage : List Byte :=
  let put (base : Nat) (l : List Byte) (op : Nat) := putField l (base + 4 * op) 4 1
  let a := [0x02, 0x06, 0x08, 0x09, 0x0A, 0x0C, 0x18, 0x80, 0x84].foldl (put 0) (zeros 4096)
  ioOpcodes.foldl (put 1024) a

/-- A log page of Table 11.4, whole; none for any other identifier. -/
def State.logPage (s : State) (cntlid : Nat) (h : HostCtl) (lid nsid : Nat) : Option (Status × List Byte) :=
  match lid with
  | 0x01 => some (stOk, fit (h.errLog.flatMap fun (cid, st) =>
      patch (patch (freeBytes 0x101 64) 10 (leBytes 2 cid)) 12 (leBytes 2 ((st.sct * 256 + st.sc) * 2))) 4096)
  | 0x02 => if nsid = 0xFFFFFFFF then some (stOk, smartPage h) else some (stBadField, [])
  | 0x03 => some (stOk, patch (patch (zeros 512) 0 [1]) 8 (leBytes 8 s.ubl.version))
  | 0x04 => some (stOk, nsidList h.changedNs)
  | 0x05 => some (stOk, effectsPage)
  | 0x0C => some (stOk, s.anaPage cntlid)
  | 0x70 => if h.discovery then some (stOk, freeBytes 0x170 1024) else none
  | 0x80 => some (stOk, fit ((h.resvLog.headD [])) 64)
  | 0x81 => some (stOk, s.sanitizePage)
  | 0xC0 => some (stOk, fit h.healthLog.flatten 1024)
  | _ => none

/-- Reading a page without RAE clears what it reports: the changed list, one reservation notification. -/
def HostCtl.pageRead (h : HostCtl) (lid : Nat) : HostCtl :=
  match lid with
  | 0x04 => { h with changedNs := [] }
  | 0x80 => { h with resvLog := h.resvLog.drop 1 }
  | _ => h

/-- CAP (Table 11.1): MQES 1,023, contiguous queues, the NVM command set, MPSMIN 4 KiB; TO is not stated. -/
def capValue : Nat := 1023 + 2 ^ 16 + (Config.hostByte 0x200 0).toNat * 2 ^ 24 + 2 ^ 37

/-- A property by its offset: CAP, VS (2.0), CC, CSTS. -/
def HostCtl.property (h : HostCtl) (off : Nat) : Option Nat :=
  match off with
  | 0x00 => some capValue
  | 0x08 => some 0x00020000
  | 0x14 => some h.cc
  | 0x1C => some ((if bitOf h.cc 0 then 1 else 0) + (if bitsOf h.cc 15 14 ≠ 0 then 8 else 0))
  | _ => none

/-- A feature's current value (Table 11.3): none for a feature not supported. -/
def State.feature (s : State) (c : Capsule) (h : HostCtl) (fid : Nat) : Option (Nat × List Byte) :=
  match fid with
  | 0x06 => some (b2n (match s.ns? c.nsid with
      | some n => n.fast
      | none => s.fe.ns.any fun (_, n) => n.fast), [])
  | 0x07 => some (0x007F007F, [])
  | 0x0B => some (Table.getD h.feats 0x0B 0x900, [])
  | 0x0F => some (h.kato * 100, [])
  | 0x81 => some (1, leBytes 16 h.hostId)
  | 0x82 => some (Table.getD h.feats 0x82 0, [])
  | 0x83 => match s.ns? c.nsid with
      | some n => some (b2n (s.resvOf n.sd c.nsid).ptpl, [])
      | none => none
  | _ => none

/-- The reservation report with extended data (R268; NVMe's Reservation Status structure). -/
def Resv.report (r : Resv) : List Byte :=
  leBytes 4 r.gen ++ leBytes 1 r.rtype ++ leBytes 2 r.regs.length ++ zeros 2 ++ leBytes 1 (b2n r.ptpl) ++ zeros 54 ++
  r.regs.flatMap fun x =>
    leBytes 2 0xFFFF ++ leBytes 1 (b2n (r.stands && r.holds x.hostId)) ++ zeros 5 ++ leBytes 8 x.key ++
    leBytes 16 x.hostId ++ zeros 32

end Sys2Proof.Machine
end

