-- ==== Sys2Proof/Machine/AcceptOps.lean ====
section
/-!
DEFINITION. Admission and acceptance: what fails at admission, what holds a capsule, stamping and the making of
units, forwarding, and fences (R40, R42 to R49, R53, R253, R259, R260, R262, R269, R275).
-/

namespace Sys2Proof.Machine

/-! ### Failing at admission -/

/-- Commands with a data pointer FE checks (R255). -/
def hasData (op : Nat) : Bool := op ∈ [0x01, 0x02, 0x05, 0x09, 0x0D, 0x0E, 0x11, 0x15, 0x84]

/-- The open progress record covers a namespace (R275): Format NVM its scope, Sanitize everything. -/
def State.inScope (s : State) (nsid : Nat) (p : Progress) : Bool :=
  decide (p.op = 2) || decide (p.nsid = nsid) ||
  (decide (p.nsid = 0xFFFFFFFF) && (match s.ns? nsid with
    | some n => decide (p.cntlid ∈ n.attached)
    | none => false))

/-- The status of a command whose scope has an open record (R275). -/
def State.recordStatus (s : State) (nsid : Nat) : Option Status :=
  match s.fe.progress with
  | some p => if s.inScope nsid p then some (if p.op = 2 then stSanitizing else stFormatting) else none
  | none => none

/-- The status with which an I/O command fails at admission, if it does (R209, R255, R262, R275, Table 11.1). -/
def State.admitStatus (s : State) (c : Capsule) : Option Status :=
  match c.badOp with
  | some st => some st
  | none =>
    if hasData c.op ∧ !c.sglOk then some stBadSgl
    else if c.inCapsule ∧ c.data.length > 8192 then some stBadField
    else if (c.op = 0x00 ∨ c.op = 0x84) ∧ c.nsid = 0xFFFFFFFF then none
    else
      match s.attachedNs c with
      | none => some stBadNs
      | some n =>
        match s.recordStatus c.nsid with
        | some st => some st
        | none =>
          if c.op ∈ [0x01, 0x02, 0x05] ∧ c.nblk * lbaData n.lbaf > 1048576 then some stBadField
          else if !s.owns n.sd then none
          else if (s.metaOf n.sd).lost then some stInternal
          else if changesBlocks c.op ∧ s.readOnly n then some stProtected
          else if c.op ∈ [0x01, 0x02, 0x05, 0x08, 0x0C] ∧ c.slba + c.nblk > s.nsze n then some stLbaRange
          else none

/-! ### Holds at the Admission point (Table 03.3) -/

/-- Screed's thermal duty leaves no issue slot (R24, R336). -/
def State.screedStops (s : State) : Bool :=
  s.scr.loops.any fun (_, l) => l.running && decide (l.tgt = 2) && decide (Table.getD s.scr.duty l.tgtIdx 1024 = 0)

/-- FE admits I/O: enabled, in P0 with no transition, no power fail, and some issue slot (R24, R336, R418, R445). -/
def State.feOpen (s : State) : Bool :=
  s.takes .fe && s.powered .fe && decide (s.pwr.current = 0) && !s.pwr.inflight && decide (s.pwr.pfail = 0) && !s.screedStops

/-- The namespace's QoS group has a token (R336); a group no rate was written for is not limited. -/
def State.hasToken (s : State) (n : Namespace) : Bool :=
  match n.qos with
  | some g => (Table.find s.scr.rate g).isNone || decide (Table.getD s.scr.tokens g 0 ≥ 100)
  | none => true

/-- Take a token. -/
def State.takeToken (s : State) (n : Namespace) : State :=
  match n.qos with
  | some g =>
    if (Table.find s.scr.rate g).isSome then
      { s with scr := { s.scr with tokens := Table.put s.scr.tokens g (Table.getD s.scr.tokens g 0 - 100) } }
    else s
  | none => s

/-- The block ranges a write-like command is divided over, as far as they are at hand at acceptance. -/
def Capsule.parts (c : Capsule) (lbaf : Nat) : List (Nat × Nat) :=
  if c.op = 0x01 ∨ c.op = 0x08 then splitUnits (unitBlocks lbaf) (c.nblk / unitBlocks lbaf + 2) c.slba c.nblk
  else if c.op = 0x09 ∧ c.inCapsule ∧ bitOf (c.cdw 11) 2 then
    dsmUnits lbaf (dsmRanges c.data (bitsOf (c.cdw 10) 7 0 + 1))
  else []

/-- Granules of a command covered in part (R67). -/
def partialGrans (lbaf : Nat) (ps : List (Nat × Nat)) : Nat :=
  ps.foldl (fun k (a, n) =>
    let b := blocksPer lbaf
    let g := granCount lbaf a n
    k + (if g = 1 then b2n (decide (n < b)) else b2n (decide (a % b ≠ 0)) + b2n (decide ((a + n) % b ≠ 0)))) 0

/-- Why a command of an owned domain is held, if it is: nothing, a hold without an event, the in-flight write
table, or the context pool. -/
inductive Hold where
  | go | wait | table | context
  deriving DecidableEq, Repr

/-- The holds of a command to a namespace of an owned domain (R38, R58, R67, R253, R336). -/
def State.holdOf (s : State) (c : Capsule) (n : Namespace) : Hold :=
  let ps := c.parts n.lbaf
  if s.fe.cmds.length ≥ 4194304 then .context
  else if s.fe.gap.get n.sd ∨ !s.hasToken n ∨ (changesBlocks c.op ∧ s.ubl.hold.get n.sd) then .wait
  else if s.fe.inflight.length + ps.foldl (fun k (a, m) => k + granCount n.lbaf a m) 0 > 524288 then .table
  else if s.mergeCount + partialGrans n.lbaf ps > 4096 then .wait
  else .go

/-! ### Acceptance -/

/-- A fresh command record. -/
def Cmd.new (d : SD) (stamp : Nat) (c : Capsule) : Cmd :=
  ⟨d, stamp, c, none, [], [], 0, [], [], false, false, [], false, none, 0, [], false⟩

/-- A command overlaps an accepted command of its own queue that is not posted (R260). -/
def State.sameQueue (s : State) (x : Cmd) : Bool :=
  s.fe.cmds.any fun c => c.cap.q = x.cap.q ∧ c.cap.origin = none ∧ x.cap.origin = none ∧ c.stamp < x.stamp ∧ !c.posted ∧ overlap c x

/-- Stamp a command of an owned domain and set up what it needs (R42, R53, R259, R260, R269): none where the dust
sheet has no room for it. -/
def State.acceptOwned (s : State) (c : Capsule) (n : Namespace) (data : List Byte) : Option State :=
  let (st, s0) := s.nextStamp n.sd
  let x := { Cmd.new n.sd st c with host := data, root := some n.root }
  let s1 := ((s0.takeToken n).updFe fun f => { f with cmds := f.cmds ++ [x] }).count .feAccepted
  if (s.resvAt n.sd c.nsid st).conflicts c.hostId c.op then
    some ((s1.result n.sd st stResvConflict).count .feResvConflict)
  else
    match s1.makeUnits x n 0 (c.parts n.lbaf) with
    | none => none
    | some s2 =>
      let y := (s2.cmd? n.sd st).getD x
      let s3 := if s2.sameQueue y then s2.count .feSameqOverlap else s2
      if isReadOp c.op ∧ s3.mustHold y then
        some ((s3.updCmd n.sd st fun z => { z with held := true }).count .feOverlapHolds)
      else some s3

/-- Forward a capsule to the owner (R40, R317): this head keeps the queue pair and fetches the host's data for it. -/
def State.forward (s : State) (c : Capsule) (d : SD) : State :=
  let t := s.fe.nextTag
  let s1 := (((s.updFe fun f => { f with fwd := f.fwd ++ [Fwd.mk t c d [] none], nextTag := t + 1 }).send
    (.fwdCmd t { c with origin := some t })).count .feForwarded)
  -- a fence's list has been read before the fence goes to the owner
  if s1.capBytes c = 0 ∨ c.inCapsule ∨ c.op = 0x84 ∨ c.q.qid = 0 then s1 else s1.postRead c.q d (fwdKey t) (s1.capBytes c)

/-- The domains a broadcast command of a host controller covers: those with a namespace attached to it. -/
def State.spans (s : State) (cntlid : Nat) : List SD :=
  [SD.a, SD.b].filter fun d => (s.nsOf cntlid).any fun (_, n) => n.sd = d

/-- Stamp a command in each owned domain of its scope and forward it for the others (R48, R51). -/
def State.acceptSpan (s : State) (c : Capsule) (ds : List SD) : State :=
  match ds.filter s.owns with
  | [] =>
    match ds with
    | [] => s.answer c stOk 0 []
    | d :: _ => s.forward c d
  | d :: more =>
    let (st, s1) := s.nextStamp d
    let s2 := (s1.updFe fun f => { f with cmds := f.cmds ++ [Cmd.new d st c] }).count .feAccepted
    let s3 := more.foldl (fun s e =>
      let (t, s) := s.nextStamp e
      s.updCmd d st fun x => { x with stamps := x.stamps ++ [(e, t)] }) s2
    if c.op ≠ 0x84 ∧ (s.nsOf c.q.cntlid).any (fun (k, n) => s.owns n.sd && (s.resvAt n.sd k (2 ^ 64)).conflicts c.hostId c.op) then
      (s3.result d st stResvConflict).count .feResvConflict
    else match ds.filter fun e => !s.owns e with
    | [] => s3
    | e :: _ => (s3.forward c e).updCmd d st fun x => { x with tags := x.tags ++ [s3.fe.nextTag] }

/-! ### Fences (R47 to R49) -/

/-- The fence entries of a list: SQID, SUBC and whether the reserved bytes are zero. -/
def fenceEntries (b : List Byte) (n : Nat) : List (Nat × Word × Bool) :=
  (List.range n).map fun i => (leAt b (8 * i) 2, BitVec.ofNat 32 (leAt b (8 * i + 4) 4), decide (leAt b (8 * i + 2) 2 = 0))

/-- An entry is satisfied (R48 step 1). -/
def entryMet (acc subc : Word) : Bool := decide ((acc - subc).toNat < 2 ^ 31)

/-- A fence capsule fails at once (R49); `acc` counts the fence itself. -/
def State.fenceBad (s : State) (c : Capsule) (acc : Word) (es : List (Nat × Word × Bool)) : Bool :=
  decide (bitsOf (c.cdw 10) 6 0 > 64) || decide (bitsOf (c.cdw 10) 31 7 ≠ 0) ||
  (List.range 5).any (fun i => decide (c.cdw (11 + i) ≠ 0)) ||
  es.any fun (q, subc, z) =>
    !z ||
    (match s.fe.queue ⟨c.q.cntlid, q⟩ with
      | none => true
      | some x =>
        let a := if q = c.q.qid then acc else x.acc
        decide (q = 0) || (q = c.q.qid && !entryMet acc subc) ||
        (!entryMet a subc && decide ((subc - a).toNat > x.size)))

/-- The domains a fence covers (R48 step 2). -/
def State.fenceSpan (s : State) (c : Capsule) : List SD :=
  if c.nsid = 0xFFFFFFFF then s.spans c.q.cntlid
  else match s.ns? c.nsid with
    | some n => [n.sd]
    | none => []

/-- A command over some domains can be stamped now: none is in a service gap (R58), and the peer's can be reached. -/
def State.spanOpen (s : State) (ds : List SD) : Bool :=
  ds.all fun d => !s.fe.gap.get d && (s.owns d || s.ubl.up)

/-- A fence reaches its fence point (R48 step 1): every entry is satisfied, and its stamps can be taken. -/
def State.fenceMet (s : State) (f : Fence) : Bool :=
  s.spanOpen (s.fenceSpan f.cap) && f.ents.all fun (q, subc) => match s.fe.queue ⟨f.cap.q.cntlid, q⟩ with
    | some x => entryMet x.acc subc
    | none => false

/-- A fence reaches its fence point: it takes its stamps and its queue is released (R48 steps 2, 3). -/
def State.fencePoint (s : State) (f : Fence) : State :=
  (s.updFe fun x => { x with fences := x.fences.filter (· ≠ f) }).acceptSpan f.cap (s.fenceSpan f.cap)

/-- A command lies in a fence's before set (R48 step 4): the same host controller, in scope, stamped below. -/
def Cmd.before (c f : Cmd) (s : State) : Bool :=
  decide (c.cap.q.cntlid = f.cap.q.cntlid) && !(decide (c.sd = f.sd ∧ c.stamp = f.stamp)) &&
  (decide (f.cap.nsid = 0xFFFFFFFF ∨ c.cap.nsid = f.cap.nsid ∨ c.cap.nsid = 0xFFFFFFFF)) &&
  ((f.sd, f.stamp) :: f.stamps).any (fun (d, t) => ((c.sd, c.stamp) :: c.stamps).any fun (e, u) => d = e ∧ u < t) &&
  (decide (f.cap.nsid ≠ 0xFFFFFFFF) || (match s.ns? c.cap.nsid with
    | some n => decide (f.cap.q.cntlid ∈ n.attached)
    | none => true))

end Sys2Proof.Machine
end

