-- ==== Sys2Proof/Machine/StripeOps.lean ====
section
/-!
DEFINITION. Operations over stripe rows, accumulators and the journal, the closing of stripes, and the append of
a stored form to an open pack (R69, R72, R126 to R129, R169, R190 to R193, R199).
-/

namespace Sys2Proof.Machine

/-- A block is enabled and its power domain is on. -/
def State.up (s : State) (b : Blk) : Bool := s.works b && s.powered b

/-- Change STR. -/
def State.updStr (s : State) (f : StrState → StrState) : State := { s with str := f s.str }

/-- Change MED. -/
def State.updMed (s : State) (f : MedState → MedState) : State := { s with med := f s.med }

/-- A stripe of a domain. -/
def State.stripe? (s : State) (d : SD) (n : Nat) : Option Stripe := Table.find (s.metaOf d).stripes n

/-! ### Rows (R190) -/

/-- A row has its accumulator, or one of the 16 is free. -/
def State.rowRoom (s : State) (d : SD) (n row : Nat) : Bool := (s.row? d n row).isSome || s.str.rows.length < 16

/-- Change a row's accumulator, which is taken where the row has none. -/
def State.updRow (s : State) (d : SD) (n row : Nat) (f : Row → Row) : State :=
  match s.row? d n row with
  | some _ => s.updStr fun x => { x with rows := x.rows.map fun r => if r.sd = d ∧ r.stripe = n ∧ r.row = row then f r else r }
  | none => s.updStr fun x => { x with rows := x.rows ++ [f (Row.mk d n row fillPack fillPack [] [] false)] }

/-- Fold a data image into its row (R72, R189). -/
def State.foldData (s : State) (d : SD) (n : Nat) (row j : Nat) (img : List Byte) : State :=
  s.updRow d n row fun r => { r with accP := foldP r.accP img, accQ := foldQ r.accQ j img, folded := r.folded ++ [j] }

/-- Hold an image in program staging for the substitution of its segment (R171). -/
def State.stageFor (s : State) (d : SD) (seg row : Nat) (img : List Byte) : State :=
  s.updMed fun m => { m with subs := m.subs.map fun x => if x.sd = d ∧ x.seg = seg then { x with staged := x.staged ++ [(row, img)] } else x }

/-- A substitution of a domain segment number is due. -/
def State.subDue (s : State) (d : SD) (seg : Nat) : Bool := s.med.subs.any fun x => x.sd = d ∧ x.seg = seg

/-- Program a slot of a row unless its member is missing (R190); a segment to be substituted takes no program (R171). -/
def State.programSlot (s : State) (d : SD) (n : Nat) (t : Stripe) (row pos : Nat) (img : List Byte) : State :=
  let seg := t.members.getD pos 0
  if pos ∈ t.missing then s
  else if s.subDue d seg then s.stageFor d seg row img
  else s.issueProgram d n t row pos img

/-- Program the parity of a row once its last data pack has been folded (R72, R190). -/
def State.programParity (s : State) (d : SD) (n : Nat) (t : Stripe) (row : Nat) : State :=
  match s.row? d n row with
  | none => s
  | some r =>
    if r.parityIssued ∨ r.folded.length < t.k then s
    else
      let s1 := (s.updRow d n row fun r => { r with parityIssued := true }).programSlot d n t row (posP t.w row) r.accP
      if t.pq then s1.programSlot d n t row (posQ t.w row) r.accQ else s1

/-- A stripe that can take no further pack, with no row open and no pack being filled, is closed (R172, R199). -/
def State.closeStripe (s : State) (d : SD) (n : Nat) : State :=
  match s.stripe? d n with
  | none => s
  | some t =>
    if (t.st = .opened ∨ t.st = .formed) ∧ ((nextSlot t).isNone ∨ !s.inPair d n) ∧
        !(s.str.rows.any fun r => r.sd = d ∧ r.stripe = n) ∧
        !((s.dp.packs ++ s.dp.closed).any fun p => p.sd = d ∧ p.stripe = n) then
      let c := (s.metaOf d).nextClose
      (s.delta d (.stripe n (some { t with st := .closed, closedAt := c }))).delta d (.closeNext (c + 1))
    else s

/-- The member of a substitution is missing: it programs nothing (R171). That of an absent module waits for the return (R201). -/
def State.subGone (s : State) (x : Sub) : Bool :=
  segMissing (s.metaOf x.sd) x.seg && decide ((s.port x.port).state ≠ 3)

/-- Program staging drops what it holds for a missing member once the parity of the rows has been programmed (R171). -/
def State.trimSubs (s : State) : State := s.updMed fun m => { m with subs := m.subs.filter fun x =>
  !(s.subGone x && x.staged.all fun q => !(s.str.rows.any fun r =>
    decide (r.sd = x.sd ∧ r.row = q.1 ∧ ((stripeOf (s.metaOf x.sd) x.seg).map Prod.fst) = some r.stripe))) }

/-- A row is closed when every slot on a member that is not missing has completed its program: ROW_CLOSE is
presented, for which the ring must have room, and the accumulator freed (R190, R191). -/
def State.closeRow (s : State) (d : SD) (n row : Nat) : State :=
  match s.row? d n row, s.stripe? d n with
  | some r, some t =>
    if r.parityIssued ∧ ((List.range t.w).all fun pos => pos ∈ r.done ∨ pos ∈ t.missing) ∧
        s.journalRoom d (rowClose n row s.top.epoch) then
      let s1 := s.journal d (rowClose n row s.top.epoch)
      (s1.updStr fun x => { x with rows := x.rows.filter fun y => ¬(y.sd = d ∧ y.stripe = n ∧ y.row = row) }).trimSubs.closeStripe d n
    else s
  | _, _ => s

/-- The program of a slot has completed (R190). -/
def State.slotDone (s : State) (d : SD) (n row pos : Nat) : State :=
  match s.row? d n row with
  | none => s
  | some _ => (s.updRow d n row fun r => { r with done := r.done ++ [pos] }).closeRow d n row

/-- The free data slots of a row. -/
def freeSlots (t : Stripe) (row : Nat) : List Nat := (List.range t.k).filter fun j => row * 32 + j ∉ t.used

/-- Complete a row of a stripe with fill packs on the present members (R199 step 1): each free data slot is taken, folded and
programmed. A row that needs an accumulator while all 16 are in use waits (R190). -/
def State.fillRow (s : State) (d : SD) (n : Nat) (t : Stripe) (row : Nat) : State :=
  if (freeSlots t row).isEmpty ∨ !s.rowRoom d n row then s
  else
    let s1 := (freeSlots t row).foldl (fun s j =>
      match s.stripe? d n with
      | some t' => ((s.takeSlot d n t' row j).foldData d n row j fillPack).programSlot d n t row (posData t.w t.p row j) fillPack
      | none => s) s
    (s1.programParity d n t row).closeRow d n row

/-- Complete every row of a stripe that has been begun (R199 step 1). -/
def State.fillRows (s : State) (d : SD) (n : Nat) : State :=
  match s.stripe? d n with
  | none => s
  | some t => (List.range t.rows).foldl (fun s r => s.fillRow d n t r) s

/-- A formed pair without a stripe: the next one takes the place of the open one. -/
def Formed.without (f : Formed) (d : SD) (n : Nat) : Formed :=
  if f.sd ≠ d then f
  else if f.opened = some n then { f with opened := f.next, next := none }
  else if f.next = some n then { f with next := none }
  else f

/-- Close a stripe at the end of its current row (R199): it leaves the formed pair. -/
def State.closeEarly (s : State) (d : SD) (n : Nat) : State :=
  let s1 := s.updMed fun m => { m with formed := m.formed.map (·.without d n) }
  (s1.fillRows d n).closeStripe d n

/-- What has waited for an accumulator or for room in the ring is tried again: the rows of stripes that close early, and the rows
whose programs have all completed (R190, R191). -/
def State.tidyRows (s : State) (d : SD) : State :=
  let s1 := ((s.str.rows.filter fun r => r.sd = d).map fun r => (r.stripe, r.row)).foldl (fun s (n, r) => s.closeRow d n r) s
  (s1.metaOf d).stripes.foldl (fun s (n, t) =>
    if (t.st = .opened ∨ t.st = .formed) ∧ !s.inPair d n then (s.fillRows d n).closeStripe d n else s) s1

/-- Set a member position's MISSING bit; the first missing member raises REBUILD_START (R199). -/
def State.setMissing (s : State) (d : SD) (n pos : Nat) : State :=
  match s.stripe? d n with
  | some t =>
    if pos ∈ t.missing ∨ t.st = .freed then s
    else
      let s1 := (s.delta d (.stripe n (some { t with missing := t.missing ++ [pos] }))).raise .str 0
      (s1.str.rows.filter fun r => r.sd = d ∧ r.stripe = n).foldl (fun s r => s.closeRow d n r.row) s1
  | none => s

/-- Journal records of a row leave the ring once the epoch of its ROW_CLOSE record has been copied (R193). -/
def State.releaseJournal (s : State) (d : SD) : State :=
  let j := s.str.journal.get d
  let closed (r : JRec) : Bool := j.any fun c => c.typ = 2 ∧ c.stripe = r.stripe ∧ c.row = r.row ∧ s.epochSafe d c.epoch
  s.updStr fun x => { x with journal := x.journal.set d (j.filter fun r => !closed r) }

/-! ### Packs being filled (R69, R126 to R129) -/

/-- LOC of the next granule appended to a pack. -/
def Pack.nextLoc (p : Pack) : Nat := p.num * 4096 + p.body.length / 16

/-- Two packs stand at one data slot. -/
def Pack.same (p q : Pack) : Bool := p.sd = q.sd && p.stripe = q.stripe && p.row = q.row && p.didx = q.didx

/-- Replace an open pack. -/
def State.putPack (s : State) (p : Pack) : State :=
  s.updDp fun d => { d with packs := d.packs.map fun q => if q.same p then p else q }

/-- A pack buffer is free (Table 03.3); metadata packs are not of the datapath and take none. -/
def State.packRoom (s : State) : Bool :=
  decide (s.dp.packs.length + (s.dp.closed.filter fun p => decide (p.kdom ≠ metaKdom)).length < 8)

/-- The open pack of a stream with room, or a new one; none holds the append (R170). -/
def State.streamPack (s : State) (d : SD) (kdom : Nat) (copy : Bool) : Option (Pack × State) :=
  match s.dp.packs.find? fun p => p.sd = d ∧ p.kdom = kdom ∧ p.copy = copy ∧ p.body.length < 65536 with
  | some p => some (p, s)
  | none => if s.packRoom then (s.openPack d kdom copy).map fun (p, s1) => (p, s1.updDp fun x => { x with packs := x.packs ++ [p] })
    else none

/-- Append a stored form to a stream's open pack: its LOC, and the successor pack where it is chained (R126 to
R129); `check` is what the raw check table takes for it. None where placement holds. -/
def State.appendForm (s : State) (d : SD) (kdom : Nat) (copy : Bool) (form : List Byte) (check : Option DWord)
    (src : Src) : Option (Nat × Option Nat × State) :=
  match s.streamPack d kdom copy with
  | none => none
  | some (p, s1) =>
    let room := 65536 - p.body.length
    let p1 := { p with rct := p.rct ++ (check.map fun c => (p.body.length, c)).toList, srcs := p.srcs ++ [src] }
    if form.length ≤ room then some (p.nextLoc, none, s1.putPack { p1 with body := p.body ++ form })
    else
      match if s1.packRoom then s1.openSuccessor p else none with
      | none => none
      | some (q, s2) =>
        let q1 := { q with body := form.drop room, srcs := [Src.mk 3 src.addr] }
        let s3 := s2.putPack { p1 with body := p.body ++ form.take room, chainOut := true }
        some (p.nextLoc, some q.num, (s3.updDp fun x => { x with packs := x.packs ++ [q1] }).count .dpChained)

/-- Close an open pack: it is presented behind the packs already presented (R71). -/
def State.closePack (s : State) (p : Pack) : State :=
  s.updDp fun d => { d with packs := d.packs.filter fun q => !q.same p, closed := d.closed ++ [p] }

/-- A new stored granule's reference record, with COUNT 0 until an entry names it (R101). -/
def newRef (fp : List Byte) (ddom : Nat) (raw : Bool) (succ : Option Nat) (size : Nat) (copyOf : Option Nat) : RefRec :=
  ⟨fp, 0, ddom, .live, false, false, raw, succ, 0, size, copyOf⟩

end Sys2Proof.Machine
end

