-- ==== Sys2Proof/Machine/MetaPages.lean ====
section
/-!
DEFINITION. What reaches flash in metadata packs (R104, R141, R142, R159, R161, R162, R187): the bytes of the records and
pages, which pages a delta changes, the metadata packs, and the tiers that hold whole map pages.
-/

namespace Sys2Proof.Machine

/-! ### Records and pages as bytes -/

/-- A segment table entry (Table 07.1). -/
def SegEnt.bytes (e : SegEnt) : List Byte :=
  leBytes 8 (b2n e.next.isSome * 2 ^ 51 + e.next.getD 0 * 2 ^ 27 + 2 ^ 26 + e.port * 2 ^ 20 + e.pseg)

/-- STATE [2:0] of a physical segment record (Table 07.2). -/
def PSegSt.num : PSegSt → Nat
  | .free => 0
  | .allocated => 1
  | .pendingErase => 2
  | .erasing => 3
  | .retired => 4

/-- A physical segment record (Table 07.2). -/
def PSegRec.bytes (r : PSegRec) : List Byte :=
  leBytes 4 r.hour ++ [BitVec.ofInt 8 r.tmin, BitVec.ofInt 8 r.tmax, 0, 0] ++ leBytes 3 r.erases ++
  leBytes 1 (r.st.num + 8 * b2n r.finish + 16 * r.sd.num) ++ leBytes 3 r.seg ++ [0]

/-- STATE of a stripe record (Table 08.1). -/
def StripeSt.num : StripeSt → Nat
  | .formed => 0
  | .opened => 1
  | .closed => 2
  | .broken => 3
  | .freed => 4

/-- A stripe record (Table 08.1). -/
def Stripe.bytes (t : Stripe) (n : Nat) (d : SD) : List Byte :=
  leBytes 4 n ++ leBytes 1 t.k ++ leBytes 1 (b2n t.pq + 2 * b2n t.finish + 4 * d.num + 8 * b2n t.isMeta) ++
  leBytes 1 t.st.num ++ leBytes 1 t.gen ++ leBytes 4 (t.missing.foldl (fun m i => m ||| 2 ^ i) 0) ++ leBytes 2 t.rows ++ zeros 2 ++
  (List.range 26).flatMap (fun i => leBytes 3 (if i < t.w then t.members.getD i 0xFFFFFF else 0xFFFFFF)) ++ zeros 34

/-- A back-reference record (R159). -/
def BackRef.bytes (b : BackRef) : List Byte := leBytes 6 b.mpid ++ leBytes 2 b.idx ++ leBytes 6 b.loc ++ zeros 2

/-- A loss map entry, 16 B (R207). -/
def lossBytes (loc : Nat) (e : LossEnt) : List Byte :=
  leBytes 6 loc ++ leBytes 1 e.cause ++ leBytes 1 e.blocks ++ leBytes 6 e.epoch.toNat ++ zeros 2

/-- A full-index entry, 32 B: Table 04.1 with the rest of F in the last bytes of its two fields (R104). -/
def FullEnt.bytes (e : FullEnt) (d : SD) : List Byte :=
  let fp := leBytes 24 (e.key % 2 ^ 192)
  fp.drop 8 ++ leBytes 6 e.loc ++ leBytes 1 (e.key / 2 ^ 192) ++ leBytes 1 (1 + 2 * d.num) ++ fp.take 8

/-- An index page; where it chains, its last entry names the overflow page in LOC with VALID 0 (DESIGN CHOICE, assumption 107). -/
def IdxPage.bytes (p : IdxPage) (d : SD) : List Byte :=
  let ents := fit (p.ents.flatMap fun e => match e with
    | some x => x.bytes d
    | none => zeros 32) 4096
  match p.next with
  | some k => ents.take 4064 ++ zeros 16 ++ leBytes 6 k ++ zeros 10
  | none => ents

/-- A map page (R139). -/
def Page.bytes (p : Page) : List Byte := (List.range 512).flatMap fun i => leBytes 8 (p.ent i).toNat

/-- A record of the page location table, 16 B (R141; its layout is a DESIGN CHOICE, assumption 106). -/
def locRec (m : Meta) (mpid : Nat) : List Byte :=
  match Table.find m.pages mpid with
  | some p => leBytes 6 ((Table.find m.locs mpid).getD (2 ^ 48 - 1)) ++ leBytes 1 p.level ++ [1] ++ leBytes 8 p.share
  | none => zeros 16

/-- A page of the tables that reach flash beside the map pages: the kind of table, and the page in it. The number stands where
a map page has its MPID (DESIGN CHOICE, assumption 106). -/
def tabPage (kind i : Nat) : Nat := kind * 2 ^ 44 + i

/-- Pages that a table's bytes fill. -/
def pagesFor (n : Nat) : Nat := (n + 4095) / 4096

/-- The content of a page: a map page, or a page of the root table, page location table, reference blocks, back-reference logs,
segment table, physical segment tables, stripe table, loss map or full index. -/
def pageBytes (d : SD) (m : Meta) (psegs : Table PSegRec) (id : Nat) : List Byte :=
  let i := id % 2 ^ 44
  let recs (per n : Nat) (f : Nat → List Byte) : List Byte := (List.range per).flatMap fun j => fit (f (i * per + j)) n
  let cut (n : Nat) (l : List Byte) : List Byte := fit (slice l (4096 * n) 4096) 4096
  match id / 2 ^ 44 with
  | 0 => ((Table.find m.pages id).map Page.bytes).getD (zeros 4096)
  | 1 => recs 64 64 fun n => ((Table.find m.roots n).map fun r => r.bytes n d).getD []
  | 2 => recs 256 16 (locRec m)
  | 3 => cut (i % 8) (refBlock m (i / 8))
  | 4 => cut (i % 2 ^ 20) ((Table.getD m.backlog (i / 2 ^ 20) []).flatMap BackRef.bytes)
  | 5 => recs 512 8 fun n => ((Table.find m.segs n).map SegEnt.bytes).getD []
  | 6 => recs 256 16 fun n => ((Table.find psegs n).map PSegRec.bytes).getD []
  | 7 => recs 32 128 fun n => ((Table.find m.stripes n).map fun t => t.bytes n d).getD []
  | 8 => cut i (m.loss.flatMap fun x => lossBytes x.1 x.2)
  | _ => (m.idxPage i).bytes d

/-- LEVEL of a page in a descriptor: a map page's own, 16 and up for the pages of a table (DESIGN CHOICE, assumption 106). -/
def pageLevel (m : Meta) (id : Nat) : Nat :=
  if id / 2 ^ 44 = 0 then ((Table.find m.pages id).map (·.level)).getD 0 else 16 + id / 2 ^ 44

/-- The pages that a delta changes, in the metadata it leads to. What is in no table goes with the checkpoint record. -/
def Meta.touched (m : Meta) : Delta → List Nat
  | .root id _ => [tabPage 1 (id / 64)]
  | .page id _ => [id, tabPage 2 (id / 256)]
  | .pageAt id _ => if id / 2 ^ 44 = 0 then [tabPage 2 (id / 256)] else []
  | .entry id _ _ => [id]
  | .ref l _ => (List.range (pagesFor (refBlock m (l / 4096)).length)).map fun i => tabPage 3 (l / 4096 * 8 + i)
  | .back g _ => (List.range (pagesFor (16 * (Table.getD m.backlog g []).length))).map fun i => tabPage 4 (g * 2 ^ 20 + i)
  | .seg n _ => [tabPage 5 (n / 512)]
  | .pseg port p _ => [tabPage 6 (psegKey port p / 256)]
  | .stripe n _ => [tabPage 7 (n / 32)]
  | .loss _ _ => (List.range (pagesFor (16 * m.loss.length))).map (tabPage 8)
  | .full k _ => (m.idxPagesOf k).map (tabPage 9)
  | _ => []

/-! ### Metadata packs (R142, R217, R246) -/

/-- Pages of a metadata pack beside its descriptor page. -/
def packPages : Nat := 15

/-- The record of a page in the descriptor page: MPID, LEVEL, the epoch of its content and its CRC-64 (R142; the layout is a DESIGN
CHOICE, assumption 106). -/
def descRec (id level : Nat) (epoch : DWord) (b : List Byte) : List Byte :=
  leBytes 6 id ++ leBytes 1 level ++ [1] ++ leBytes 8 epoch.toNat ++ leBytes 8 (crc64 b).toNat

/-- The body of a metadata pack: up to 15 pages and the descriptor page; a place without a page is zero in both. -/
def metaBody (d : SD) (m : Meta) (psegs : Table PSegRec) (epoch : DWord) (ids : List Nat) : List Byte :=
  fit (ids.flatMap (pageBytes d m psegs)) (4096 * packPages) ++
  fit (ids.flatMap fun id => descRec id (pageLevel m id) epoch (pageBytes d m psegs id)) 4096

/-- The physical segment records that reach flash with a delta. -/
def flashPSeg (t : Table PSegRec) : Delta → Table PSegRec
  | .pseg port p v => Table.put t (psegKey port p) v
  | _ => t

/-- The metadata and physical segment records on flash once the `n` oldest sealed logs are covered, and the epoch of that content. -/
def State.ckptMeta (s : State) (d : SD) (n : Nat) : Meta × Table PSegRec × DWord :=
  let logs := (s.map.logs.get d).take n
  (logs.foldl (fun m l => l.deltas.foldl Meta.applyAll m) (s.map.flash.get d),
   logs.foldl (fun t l => l.deltas.foldl flashPSeg t) s.map.flashSeg,
   ((logs.getLast?).map (·.epoch)).getD (s.map.ckpt.get d))

/-- Place one metadata pack in a metadata stripe and present it (R186): the page location table follows. None where placement
holds or there is no metadata key. -/
def State.placeMeta (s : State) (d : SD) (body : List Byte) (ids : List Nat) : Option (Nat × State) :=
  if (Table.find s.dp.kdoms metaKdom).isNone then none
  else (s.openAt d metaKdom false true true).map fun (p, s1) =>
    (p.num, (s1.updDp fun x => { x with closed := x.closed ++ [{ p with body := body }] }).deltas d
      ((ids.zipIdx).map fun (id, i) => .pageAt id (some (p.num * 16 + i))))

/-- Pack the pages of a checkpoint as far as placement goes; `fuel` bounds the number of packs. -/
def State.writePages (s : State) (d : SD) : Nat → CkptWork → CkptWork × State
  | 0, w => (w, s)
  | fuel + 1, w =>
    if w.todo.isEmpty then (w, s)
    else
      let (m, psegs, epoch) := s.ckptMeta d w.logs
      let ids := w.todo.take packPages
      match s.placeMeta d (metaBody d m psegs epoch ids) ids with
      | none => (w, s)
      | some (n, s1) => s1.writePages d fuel { w with todo := w.todo.drop packPages, packs := w.packs ++ [n] }

/-- The page location names a place in a stripe. -/
def Stripe.holdsAt (t : Stripe) (at' : Nat) : Bool := decide (at' / 16 / 4096 ∈ t.members)

/-- A closed metadata stripe whose pages are written anew by the next checkpoint, so that it empties: it is a victim, of an older
shape, or holds current pages in fewer than half of its places (DESIGN CHOICE, assumption 106). -/
def State.emptied (s : State) (d : SD) (n : Nat) (t : Stripe) : Bool :=
  t.isMeta && decide (t.st = .closed) &&
  ((s.med.victims.any fun v => v.sd = d ∧ v.stripe = n) || decide (t.gen ≠ (s.metaOf d).shape.gen) ||
   decide (2 * ((s.metaOf d).locs.filter fun x => t.holdsAt x.2).length < t.rows * t.k * packPages))

/-- The current pages in such stripes. -/
def State.strayPages (s : State) (d : SD) : List Nat :=
  let ts := (s.metaOf d).stripes.filter fun (n, t) => s.emptied d n t
  ((s.metaOf d).locs.filter fun x => ts.any fun y => y.2.holdsAt x.2).map Prod.fst

/-! ### The tiers below the map cache (R142) -/

/-- The flash copy of a page is current: it has one, and no delta that no checkpoint covers changes the page. -/
def State.flashCurrent (s : State) (d : SD) (mpid : Nat) : Bool :=
  (Table.find (s.metaOf d).locs mpid).isSome &&
  (s.map.logs.get d ++ [s.map.log.get d]).all fun l => l.deltas.all fun x => mpid ∉ (s.metaOf d).touched x

/-- Past the room of the DDR5 tier its oldest pages leave, each once its flash copy is current: a page that is not is written to
flash first, by a checkpoint (R142; DESIGN CHOICE, assumption 106). -/
def State.trimDdr (s : State) : State :=
  let extra := s.map.ddr.length - s.map.ddrCap
  let gone := (s.map.ddr.filter fun (d, p) => s.flashCurrent d p).take extra
  { s with map := { s.map with ddr := s.map.ddr.filter (· ∉ gone) } }

/-- A page is wanted in the HBM tier: it is filled from DDR5, and DDR5 from flash by a read of the page's metadata pack (R142). A
page that has no flash copy, or that the delta logs changed since, takes its content from them (R161, R316). -/
def State.fillPage (s : State) (d : SD) (mpid : Nat) : State :=
  if (d, mpid) ∈ s.map.hbm then s
  else if (d, mpid) ∈ s.map.ddr then (s.enterHbm d mpid).trimDdr
  else
    let s1 := match Table.find (s.metaOf d).locs mpid with
      | some at' => (s.readPack d (at' / 16)).2
      | none => s
    ({ s1 with map := { s1.map with ddr := s1.map.ddr ++ [(d, mpid)] } }.enterHbm d mpid).trimDdr

end Sys2Proof.Machine
end

