-- ==== Sys2Proof/Machine/Datapath.lean ====
section
/-!
DEFINITION. The write side and the read side of the datapath: rows MERGE to DEGRADED_READ.
-/

namespace Sys2Proof.Machine

/-! ### The write side -/

/-- A granule of the write side. -/
def State.gran? (s : State) (id : Nat) : Option Gran := Table.find s.dp.grans id

/-- Change a granule of the write side. -/
def State.updGran (s : State) (id : Nat) (f : Gran → Gran) : State :=
  s.updDp fun p => { p with grans := Table.upd p.grans id f }

/-- The dedup mode in force for a key domain (R91). -/
def State.modeOf (s : State) (kdom : Nat) : DMode := ((Table.find s.dp.kdoms kdom).map (·.mode)).getD .off

/-- The unit a granule belongs to is past its data-complete point (R53). -/
def State.unitComplete (s : State) (g : Gran) : Bool :=
  match s.cmd? g.sd g.stamp with
  | some c => c.units.any fun u => u.idx = g.unitIdx ∧ u.complete
  | none => false

/-- The in-flight entry of a granule. -/
def State.flightOf (s : State) (g : Gran) : Option InFl :=
  s.fe.inflight.find? fun x => x.sd = g.sd ∧ x.stamp = g.stamp ∧ x.unitIdx = g.unitIdx ∧ x.gran = g.gran

/-- The merge base of a granule from the map (R67): its bytes, and the blocks that are unreadable as a mask. -/
def State.mergeBase (s : State) (d : SD) (root gran : Nat) : List Byte × Nat × State :=
  match MapEnt.ofWord (entryOf (s.metaOf d) root gran) with
  | .bad => (zeros 4096, 0xFF, s.mapFormat d root gran)
  | .stored raw loc chain =>
    let lost := s.lostBlocks d loc
    match s.readStored d raw loc chain with
    | (.bytes b, s1) => (b, lost, s1)
    | (_, s1) => (zeros 4096, 0xFF, s1)
  | _ => (zeros 4096, 0, s)

/-- The bytes of a partial granule (R67): the base of the map entry, under the blocks the pieces in flight lay over it up to the
granule's own. A piece whose bytes fail their landing check value leaves its blocks unreadable; what neither the base nor a piece
gives is zero and bad. -/
def State.merged (s : State) (g : Gran) (n : Namespace) (own : InFl) : List Byte × List Nat × State :=
  let bs := lbaData n.lbaf
  let pieces := s.flights g.sd g.nsid g.gran g.stamp g.unitIdx
  let mine := (List.range own.nblk).map fun i =>
    (own.blk + i, if own.etype = 1 then slice (s.slotBytes own.slot) ((own.blk + i) * bs) bs else zeros bs)
  let spoilt := (pieces.filter fun x => x.complete && !s.landedOk bs x).flatMap fun x => (List.range x.nblk).map (x.blk + ·)
  let laid := (s.overlay g.sd n g.nsid g.gran g.stamp g.unitIdx ++ mine).filter fun x =>
    decide (x.1 ∉ spoilt) || decide (own.blk ≤ x.1 ∧ x.1 < own.blk + own.nblk)
  let (base, lost, s1) := s.mergeBase g.sd g.root g.gran
  let bad := (List.range (blocksPer n.lbaf)).filter fun i => (lost.testBit i || decide (i ∈ spoilt)) && !(laid.any (·.1 = i))
  (applyBlocks bs (applyBlocks bs (fit base 4096) (bad.map fun i => (i, zeros bs))) laid, bad, s1)

/-- MERGE (R67): a partial granule takes its base, once every lower-stamped unit over it has its data. -/
def execMerge (id : Nat) (s : State) : Res :=
  match s.gran? id with
  | none => .next s
  | some g =>
    match s.ns? g.nsid, s.flightOf g with
    | some n, some own =>
      if g.bytes.isSome ∨ !s.up .dp ∨ (s.flights g.sd g.nsid g.gran g.stamp g.unitIdx).any (fun x => !x.complete) then .next s
      else
        let (b, bad, s1) := s.merged g n own
        let s2 := s1.updGran id fun g => { g with bytes := some b, lane := s1.dp.entered, bad := bad.foldl (fun v i => v + 2 ^ i) 0 }
        .next (s2.updDp fun p => { p with entered := p.entered + 1 })
    | _, _ => .next s

/-- FINGERPRINT (R91, R92, R95, R122): KMAC256 under the dedup domain's key and the landing check value; a lookup is
issued unless the mode is Off, the granule is all zero, or the merge left unreadable blocks. With 512 lookups outstanding the
fingerprint is held (Table 03.3). -/
def execFingerprint (id : Nat) (s : State) : Res :=
  match s.gran? id with
  | none => .next s
  | some g =>
    match g.bytes, Table.find s.dp.kdoms g.kdom with
    | some b, some k =>
      if g.fp.isSome ∨ g.unmap.isSome ∨ !s.up .dp ∨ (s.dp.grans.filter fun (_, x) => x.look = .issued).length ≥ 512 then .next s
      else .next (s.updGran id fun g => { g with
        fp := some ((kmac256 k.fpKey b 32 (ascii "VXFP")).take 24), check := crc64 b,
        look := if k.mode = .off ∨ g.bad ≠ 0 ∨ allZero b then .none else .issued })
    | _, _ => .next s

/-- LOOKUP_RESULT (R98): the hot-index bucket of the fingerprint has been read. -/
def execLookupResult (id : Nat) (s : State) : Res :=
  match s.gran? id with
  | none => .next s
  | some g =>
    match g.fp with
    | none => .next s
    | some f =>
      .next (if g.look ≠ .issued then s
        else s.updGran id fun g => { g with look := match s.dp.lookup g.kdom g.sd f with
          | some l => .hit l
          | none => .miss })

/-- The output a granule holds in the unit hold buffer, in bytes. -/
def Gran.held (g : Gran) : Nat := match g.result with
  | some (.stream x) => x.length
  | some .noGain => 4096
  | none => 0

/-- The unit hold buffer has room for one more output (Table 03.3); an output leaves it when its granule is decided. -/
def State.holdRoom (s : State) : Bool :=
  decide (((s.dp.grans.filter fun (id, _) => Pend.gran id ∉ s.dp.pend).foldl (fun n (_, g) => n + g.held) 0) + 4096 ≤ 4194304)

/-- LANE_RESULT (R68, R84, R116 to R123): the stream, or NO_GAIN above 3,840 bytes; the lane takes its next granule from staging, so
FE data issue may go on. -/
def execLaneResult (id : Nat) (s : State) : Res :=
  match s.gran? id with
  | none => .next s
  | some g =>
    match g.bytes with
    | none => .next s
    | some b =>
      if g.result.isSome ∨ g.unmap.isSome ∨ s.laneBusy g ∨ !s.holdRoom ∨ !s.up .dp then .next s
      else
        match avaEncode b (crc64 b) with
        | some x => .next (s.updGran id fun g => { g with result := some (.stream x) }).landHeld
        | none => .next ((s.updGran id fun g => { g with result := some .noGain }).count .dpNoGain).landHeld

/-- VERIFY_COMPARE (R74, R106): the target of a provisional hit against the landed bytes. -/
def execVerifyCompare (id : Nat) (s : State) : Res :=
  match s.gran? id with
  | none => .next s
  | some g =>
    match g.look, g.bytes, g.fp with
    | .hit loc, some b, some f =>
      if g.verify.isSome ∨ s.modeOf g.kdom ≠ .verify then .next s
      else
        let (r, s0) := s.readLoc g.sd loc
        if r = .bytes b then .next (s0.updGran id fun g => { g with verify := some true })
        else
          let s1 := ((s0.updGran id fun g => { g with verify := some false }).count .dpVerifyMismatch).updDp
            (·.dropHot g.kdom g.sd f loc)
          .next (match r with
            | .bytes _ => s1.snag 6 0x1002 (some g.sd) 0xFF (leBytes 1 g.kdom ++ leBytes 6 loc)
            | _ => s1)
    | _, _, _ => .next s

/-- The lookup input of the join is at hand (R69, R74, R91). -/
def State.lookReady (s : State) (g : Gran) : Bool :=
  match g.look with
  | .issued => false
  | .hit _ => decide (s.modeOf g.kdom ≠ .verify) || g.verify.isSome
  | _ => true

/-- A piece in flight has been decided: its delta waits at the Delta recording point. -/
def State.decided (s : State) (x : InFl) : Bool :=
  s.dp.grans.any fun (id, g) => decide (g.sd = x.sd ∧ g.stamp = x.stamp ∧ g.unitIdx = x.unitIdx ∧ g.gran = x.gran) &&
    decide (Pend.gran id ∈ s.dp.pend)

/-- An earlier granule must be decided first (R69): of the same unit in logical order, of the same logical granule in the order of
the writes, whether or not its data has landed. -/
def State.decideFirst (s : State) (g : Gran) : Bool :=
  s.fe.inflight.any fun x => decide (x.sd = g.sd) && !s.decided x &&
    (decide (x.stamp = g.stamp ∧ x.unitIdx = g.unitIdx ∧ x.gran < g.gran) ||
     decide (x.nsid = g.nsid ∧ x.gran = g.gran) && earlier x.stamp x.unitIdx g.stamp g.unitIdx)

/-- Insert a stored granule in the hot index where dedup is on (R99). -/
def State.insertIndex (s : State) (id : Nat) (g : Gran) (fp : List Byte) (loc : Nat) : State :=
  if s.modeOf g.kdom = .off then s
  else
    let (p, dropped) := s.dp.insertHot ⟨fTag fp, loc, g.kdom, true, g.sd, false, s.epoch48, 0⟩ fp
    ({ s with dp := p }).updGran id fun g => { g with indexed := some dropped }

/-- The full-index delta of a granule's insert, recorded with its map delta (R69, R104). -/
def State.recordIndex (s : State) (g : Gran) (loc : Nat) : State :=
  match g.indexed with
  | some dropped =>
    let k := fullKey g.kdom (g.fp.getD [])
    s.delta g.sd (if dropped then .fullDrop k else .full k (some loc))
  | none => s

/-- Append the held output of a granule decided as a miss (R69, R79, R88, R99). None where placement holds. -/
def State.appendGran (s : State) (id : Nat) (g : Gran) (fp b : List Byte) (l : Lane) : Option State :=
  let (form, check) := match l with
    | .stream x => (storedForm x, none)
    | .noGain => (b, some g.check)
  (s.appendForm g.sd g.kdom false form check ⟨if g.merged then 1 else 0, g.slot⟩).map fun (loc, succ, s1) =>
    (s1.updGran id fun g => { g with dec := .miss loc succ }).insertIndex id g fp loc

/-- A granule has been decided: its delta waits at the Delta recording point. -/
def State.toPend (s : State) (id : Nat) : State := s.updDp fun p => { p with pend := p.pend ++ [.gran id] }

/-- PACKER_DECISION (R69, R79, R84, R91, R95, R99): zero, hit or miss at the join, unless 4,096 deltas wait. A hit's output is counted
as discarded here; it stays counted where MAP refuses the hit (DESIGN CHOICE, assumption 100). -/
def execPackerDecision (id : Nat) (s : State) : Res :=
  match s.gran? id with
  | none => .next s
  | some g =>
    if g.dec ≠ .none ∨ Pend.gran id ∈ s.dp.pend ∨ !s.unitComplete g ∨ s.decideFirst g ∨ s.dp.pend.length ≥ 4096 ∨ !s.up .dp then .next s
    else if g.unmap.isSome then .next (s.toPend id)
    else
      match g.bytes, g.fp, g.result with
      | some b, some f, some l =>
        if !s.lookReady g then .next s
        else if g.bad = 0 ∧ allZero b then
          .next ((((s.updGran id fun g => { g with dec := .zero }).count .dpSpecDiscarded).count .dpDedupZero).toPend id)
        else
          match g.look, s.modeOf g.kdom, g.verify with
          | .hit loc, .on, _ | .hit loc, .verify, some true =>
            .next ((((s.updGran id fun g => { g with dec := .hit loc }).updDp (·.hitHot g.kdom g.sd f)).count .dpSpecDiscarded).toPend id)
          | _, _, _ => .next (((s.appendGran id g f b l).map (·.toPend id)).getD s)
      | _, _, _ => .next s

/-! ### Delta recording -/

/-- The map needs no fetch for a root's granule, or the cache is off and every delta is a read-modify-write of the
HBM tier (R147, R149). -/
def State.mapReady (s : State) (d : SD) (root gran : Nat) : Bool :=
  !s.map.en || decide (s.map.busy = 1) || s.mapHit d root gran

/-- A lower-stamped read of a block of the granule's write has not taken its entry (R70). -/
def State.readHolds (s : State) (g : Gran) (x : InFl) : Bool :=
  s.fe.cmds.any fun c =>
    decide (c.sd = g.sd ∧ c.cap.nsid = g.nsid ∧ c.stamp < g.stamp) && isReadOp c.cap.op && c.status.isNone &&
    (match s.ns? g.nsid with
      | some n =>
        let lo := g.gran * blocksPer n.lbaf + x.blk
        c.ranges.any (meets (lo, x.nblk)) &&
        (!c.started || s.dp.rgrans.any fun r => r.sd = c.sd ∧ r.stamp = c.stamp ∧ r.gran = g.gran ∧ r.entry.isNone)
      | none => false)

/-- Put the sectors a delta has written into the cache (R144, R146): the leaf's, and those of pages the path grew by
with the page that names them. -/
def State.dirtyPath (s : State) (d : SD) (root gran before : Nat) : State :=
  match Table.find (s.metaOf d).roots root with
  | none => s
  | some r =>
    let path := rootPath (s.metaOf d) r gran
    (path.drop (if before < path.length then before - 1 else path.length - 1)).foldl (fun s (p, l) =>
      s.dirtySector d p (sectorOf (if l = 0 then gran % 512 else dirIdx l (gran / 512))) (some (root, gran / 512))) s

/-- Write an entry of a root through the cache, with its hint code (R147, R152). -/
def State.recordEntry (s : State) (d : SD) (root gran : Nat) (e : MapEnt) : State :=
  let before := match Table.find (s.metaOf d).roots root with
    | some r => (rootPath (s.metaOf d) r gran).length
    | none => 0
  let s1 := (s.writeEntry d root gran e).dirtyPath d root gran before
  { s1 with map := s1.map.hintUpdate d root gran e }

/-- Write an entry for a root and for its unsealed snapshots whose point lies above the stamp (R154). -/
def State.recordAll (s : State) (g : Gran) (e : MapEnt) : State :=
  (deltaRoots (s.metaOf g.sd) g.root g.stamp).foldl (fun s r => s.recordEntry g.sd r g.gran e) s

/-- Forget a command with nothing left to do. -/
def State.dropCmd (s : State) (d : SD) (stamp : Nat) : State :=
  s.updFe fun f => { f with cmds := f.cmds.filter fun c => !(decide (c.sd = d ∧ c.stamp = stamp) && c.over s.noMirror) }

/-- A granule's deltas have been recorded (R147, R259): its in-flight entry goes. -/
def State.granDone (s : State) (id : Nat) (g : Gran) : State :=
  let s1 := s.updDp fun p => { p with grans := Table.del p.grans id, pend := p.pend.filter (· ≠ .gran id) }
  let s2 := s1.updFe fun f => { f with inflight := f.inflight.filter fun x =>
    ¬(x.sd = g.sd ∧ x.stamp = g.stamp ∧ x.unitIdx = g.unitIdx ∧ x.gran = g.gran) }
  let s3 := match (s2.cmd? g.sd g.stamp).bind fun c => c.units.find? (·.idx = g.unitIdx) with
    | some u => s2.updUbl fun x => { x with sheet := { x.sheet with
        entries := Table.upd x.sheet.entries u.hdr fun e => { e with recAt := s2.top.epoch } } }
    | none => s2
  (s3.updCmd g.sd g.stamp fun c => { c with units := c.units.map fun u =>
    if u.idx = g.unitIdx then { u with left := u.left - 1 } else u }).dropCmd g.sd g.stamp

/-- Record the delta of a granule that no hold applies to (R101 to R103, R158, R207). -/
def State.recordGran (s : State) (id : Nat) (g : Gran) : State :=
  match g.unmap, g.dec with
  | some t, _ => (s.recordAll g (if t = 2 then .zero else .unmapped)).granDone id g
  | none, .zero => (s.recordAll g .zero).granDone id g
  | none, .hit loc =>
    match s.refOf g.sd loc with
    | some r =>
      if r.hitOk then ((s.recordAll g (r.ent loc)).count .dpDedupHits).granDone id g
      else refuse
    | none => refuse
  | none, .miss loc succ =>
    let (raw, size) := match g.result with
      | some (.stream x) => (false, storedSize x.length)
      | _ => (true, 4096)
    let s1 := (s.delta g.sd (.ref loc (some (newRef (g.fp.getD []) g.kdom raw succ size none)))).recordIndex g loc
    let s2 := s1.recordAll g (.stored raw loc (chainOf loc succ))
    (if g.bad = 0 then s2 else s2.lose g.sd loc 3 g.bad).granDone id g
  | none, .none => s
where
  /-- A refused hit (R102): the held output is appended and the miss keeps the place in the queue. -/
  refuse : State :=
    match g.bytes, g.fp, g.result with
    | some b, some f, some l =>
      match s.appendGran id g f b l with
      | some s1 => s1.count .dpDedupRefused
      | none => s
    | _, _, _ => s

/-- The deltas of every lower-stamped write of a granule have been recorded (R69). -/
def State.turn (s : State) (g : Gran) : Bool :=
  (s.flights g.sd g.nsid g.gran g.stamp g.unitIdx).isEmpty &&
  !(s.dp.grans.any fun (_, x) => x.sd = g.sd ∧ x.nsid = g.nsid ∧ x.gran = g.gran ∧ earlier x.stamp x.unitIdx g.stamp g.unitIdx)

/-- Apply a relink delta (R108): conditional on the entry and on the copy. -/
def State.relink (s : State) (d : SD) (root gran x c : Nat) : State :=
  let s1 := s.updDp fun p => { p with pend := p.pend.filter (· ≠ .relink d root gran x c) }
  match (MapEnt.ofWord (entryOf (s.metaOf d) root gran)).loc?, s.refOf d c with
  | some l, some r =>
    if l = x ∧ r.hitOk then (s1.recordEntry d root gran (r.ent c)).count .dpCoatRelinked else s1
  | _, _ => s1

/-- The command of a waiting delta, and the stored granule it takes a reference to. -/
def State.pendCmd (s : State) : Pend → Option (SD × Nat)
  | .gran id => (s.gran? id).map fun g => (g.sd, g.stamp)
  | .relink _ _ _ _ _ => none
def State.pendHit (s : State) : Pend → Option (SD × Nat)
  | .gran id => (s.gran? id).bind fun g => match g.dec with
    | .hit l => some (g.sd, l)
    | _ => none
  | .relink d _ _ _ c => some (d, c)

/-- A delta that came earlier goes first (R84, R102): of the same command, or a reference to the same stored granule. -/
def State.pendFirst (s : State) (i : Nat) (p : Pend) : Bool :=
  (s.dp.pend.take i).any fun q =>
    ((s.pendCmd q).isSome && decide (s.pendCmd q = s.pendCmd p)) || ((s.pendHit q).isSome && decide (s.pendHit q = s.pendHit p))

/-- DELTA_RECORDED (R69, R70, R84, R102, R147, R149, R153, R154, R314): the delta at place `i` of the Delta recording
point, once no hold applies to it; a relink has a row of its own. -/
def execDeltaRecorded (i : Nat) (s : State) : Res :=
  match s.dp.pend[i]? with
  | none => .next s
  | some (.relink _ _ _ _ _) => .next s
  | some (.gran id) =>
    match s.gran? id with
    | none => .next s
    | some g =>
      let roots := deltaRoots (s.metaOf g.sd) g.root g.stamp
      let held := match s.flightOf g with
        | some x => s.readHolds g x
        | none => false
      .next (if s.up .map && !s.logFull g.sd && s.turn g && !held && !s.pendFirst i (.gran id) &&
          roots.all (fun r => s.mapReady g.sd r g.gran && (s.mustCopy g.sd r g.gran).isNone)
        then s.evbHold (s.recordGran id g) else s)

/-- A delta that waits would write through a root's granule. -/
def State.pendingWrite (s : State) (d : SD) (root gran : Nat) : Bool :=
  s.dp.pend.any fun p => match p with
    | .gran id => match s.gran? id with
      | some g => g.sd = d && g.gran = gran && decide (root ∈ deltaRoots (s.metaOf d) g.root g.stamp)
      | none => false
    | .relink e r g _ _ => e = d && r = root && g = gran

/-- PAGE_COPY (R153): the next page of the path that a waiting write must copy, its sectors installed. -/
def execPageCopy (d : SD) (root gran : Nat) (s : State) : Res :=
  match s.mustCopy d root gran with
  | none => .next s
  | some (_, mpid, level) =>
    let valid := !s.map.en || decide (s.map.busy = 1) || (List.range 16).all fun i => s.map.sectorValid d mpid i
    if s.up .map && s.pendingWrite d root gran && !s.logFull d && valid then
      let new := (s.metaOf d).nextMpid
      let s1 := s.copyPage d root gran
      let s2 := (List.range 16).foldl (fun s i => s.dirtySector d new i (some (root, gran / 512))) s1
      let up := (rootPath (s1.metaOf d) ((Table.find (s1.metaOf d).roots root).getD ⟨0, false, false, 0, 0, 0, none, 0, 0, 0⟩) gran).find?
        fun p => p.2 = level + 1
      .next (s.evbHold (match up with
        | some (p, l) => s2.dirtySector d p (sectorOf (dirIdx l (gran / 512))) (some (root, gran / 512))
        | none => s2))
    else .next s

/-! ### Packs -/

/-- PACK_CLOSE (R71, R126, R127): a full pack of a stream, or with `terzan` the pack Terzan closes for a handover, P1
or shutdown. -/
def execPackClose (d : SD) (kdom : Nat) (copy terzan : Bool) (s : State) : Res :=
  let mine := s.dp.packs.filter fun p => p.sd = d ∧ p.kdom = kdom ∧ p.copy = copy
  match mine.find? fun p => p.body.length ≥ 65536 with
  | some p => .next (s.closePack p)
  | none =>
    match mine with
    | p :: _ => .next (if terzan then s.closePack p else s)
    | [] => .next s

/-- PACK_AGE_CLOSE (R71): a pack open for four commit epochs. -/
def execPackAgeClose (d : SD) (kdom : Nat) (copy : Bool) (s : State) : Res :=
  match s.dp.packs.find? fun p => p.sd = d ∧ p.kdom = kdom ∧ p.copy = copy ∧ (s.top.epoch - p.opened).toNat ≥ 4 with
  | some p => .next (s.closePack p)
  | none => .next s

/-- The PACK journal record of a pack (Table 08.2). -/
def packRecord (p : Pack) (slot : Nat) (nonce tag : List Byte) (e : DWord) : JRec :=
  ⟨1, p.chainOut, p.stripe, p.row, p.didx, slot, nonce, tag, p.srcs, e, [], 0⟩

/-- An encrypted pack is folded, journalled and programmed (R72, R190, R191). -/
def State.protect (s : State) (p : Pack) (t : Stripe) (img : List Byte) (r : JRec) : State :=
  let s1 := (s.foldData p.sd p.stripe p.row p.didx img).journal p.sd r
  let s2 := s1.programSlot p.sd p.stripe t p.row (posData t.w t.p p.row p.didx) img
  (s2.programParity p.sd p.stripe t p.row).closeRow p.sd p.stripe p.row

/-- A pack whose key has been zeroized is not programmed (R242); its slot counts as a fill pack of its row, as R194
treats it at replay. -/
def State.dropPack (s : State) (p : Pack) (t : Stripe) : State :=
  let s1 := s.foldData p.sd p.stripe p.row p.didx fillPack
  let s2 := s1.updRow p.sd p.stripe p.row fun r => { r with done := r.done ++ [posData t.w t.p p.row p.didx] }
  (s2.programParity p.sd p.stripe t p.row).closeRow p.sd p.stripe p.row

/-- Program staging of a port has room (Table 03.3): 15 images of 66,048 bytes in 1 MiB. -/
def State.stagingRoom (s : State) (d : SD) (seg : Nat) : Bool :=
  match s.segOf d seg with
  | none => true
  | some e => decide ((s.mlk.out.filter fun o => o.cmd.op = .program ∧ o.cmd.port = e.port).length +
      (s.med.subs.filter fun x => x.port = e.port).foldl (fun n x => n + x.staged.length) 0 < 15)

/-- The slots that a pack's encryption programs: its own, and the parity of a row it completes. -/
def State.programsOf (s : State) (p : Pack) (t : Stripe) : List Nat :=
  let n := ((s.row? p.sd p.stripe p.row).map fun r => r.folded.length).getD 0
  posData t.w t.p p.row p.didx :: (if n + 1 < t.k then [] else posP t.w p.row :: (if t.pq then [posQ t.w p.row] else []))

/-- The pack encrypted next: the datapath's packs in the order presented, and a metadata pack while none of them waits (R232). -/
def State.nextClosed (s : State) : Option Pack :=
  (s.dp.closed.find? fun p => decide (p.kdom ≠ metaKdom)) <|> s.dp.closed.head?

/-- KIND of a pack and the record that its journal takes (R192, R217): a PACK record, or a META_PACK record with the ciphertext
body. -/
def Pack.isMeta (p : Pack) : Bool := decide (p.kdom = metaKdom)

/-- The journal record of a pack (Table 08.2). -/
def packJournal (p : Pack) (slot : Nat) (nonce img : List Byte) (e : DWord) : JRec :=
  if p.isMeta then { packRecord p slot nonce (imgTag img) e with typ := 3, srcs := [], body := fit img 65536 }
  else packRecord p slot nonce (imgTag img) e

/-- PACK_ENCRYPT (R72, R84, R142, R190 to R193, R232, R242, R244, R246): the pack presented first, under its key domain's current
slot. -/
def execPackEncrypt (s : State) : Res :=
  match s.nextClosed with
  | none => .next s
  | some p =>
    match s.stripe? p.sd p.stripe, Table.find s.dp.kdoms p.kdom with
    | some t, some kd =>
      let k := s.kslot kd.slot
      let s0 := s.updDp fun d => { d with closed := d.closed.filter fun q => !q.same p }
      if !s.up .cip ∨ !s.up .str ∨ !s.up .mlk ∨ !s.rowRoom p.sd p.stripe p.row ∨
          !s.journalRoom p.sd (packJournal p kd.slot [] [] s.top.epoch) ∨
          (s.programsOf p t).any (fun q => q ∉ t.missing ∧ !s.stagingRoom p.sd (t.members.getD q 0)) then .next s
      else if k.state = 0 ∨ k.state = 3 then .next (s0.dropPack p t)
      else
        match s0.packNonce kd.slot with
        | .wait => .next s
        | .exhausted => .next ((s.count .cipNonceExhausted).raise .cip 3)
        | .drawn nonce s1 =>
          let img := sealPack k.key nonce kd.slot (if p.isMeta then 2 else 1) p.sd p.num p.body (rctBytes p.rct)
          .next ((s1.protect p t img (packJournal p kd.slot nonce img s.top.epoch)).count .cipMsgDone)
    | _, _ => .next s

/-- An earlier write of one of an entry's granules is in the dust sheet still: it would be written again after a power failure, so
the later entry stays behind it (R54, R59; DESIGN CHOICE, assumption 101). -/
def State.behindEarlier (s : State) (e : Entry) : Bool :=
  match s.ns? e.nsid with
  | none => false
  | some n =>
    let b := blocksPer n.lbaf
    s.ubl.sheet.entries.any fun (_, x) => decide (x.sd = e.sd ∧ x.nsid = e.nsid) && earlier x.stamp x.uidx e.stamp e.uidx &&
      decide (x.slba / b ≤ (e.slba + e.nblk - 1) / b ∧ e.slba / b ≤ (x.slba + x.nblk - 1) / b)

/-- A dust-sheet entry's data is no longer needed (R39 step 12, R193, R299). -/
def State.entryFree (s : State) (e : Entry) : Bool :=
  let names (x : Src) : Bool := decide ((x.kind = 0 ∨ x.kind = 1 ∨ x.kind = 3) ∧ e.data ≤ x.addr ∧ x.addr < e.data + e.nslots)
  e.marked &&
  !(s.fe.inflight.any fun x => x.sd = e.sd ∧ x.stamp = e.stamp ∧ x.unitIdx = e.uidx) &&
  !(s.dp.grans.any fun (_, g) => g.sd = e.sd ∧ g.stamp = e.stamp ∧ g.unitIdx = e.uidx) &&
  !((s.dp.packs ++ s.dp.closed).any fun p => p.srcs.any names) &&
  !((s.str.journal.get e.sd).any fun r => r.srcs.any names) &&
  s.epochSafe e.sd e.recAt && !s.behindEarlier e &&
  s.rdm.atts.all fun (_, a) =>
    !a.source || a.detached || decide (a.sd ≠ e.sd) || decide (e.stamp ≤ a.durable) ||
    (match s.ns? e.nsid with
      | some n => decide (n.root ∉ a.roots)
      | none => true)

/-- DUST_SHEET_RELEASE (R39, R193, R299, R312): an entry leaves the dust sheet and a release frame names it. -/
def execDustSheetRelease (hdr : Nat) (s : State) : Res :=
  match Table.find s.ubl.sheet.entries hdr with
  | none => .next s
  | some e =>
    if s.entryFree e then
      .next (s.releaseEntry hdr e)
    else .next s

/-! ### Completions -/

/-- Synchronous replication covers a write (R301): a persistence FLUSH response of every attachment of its root. -/
def State.replCovers (s : State) (c : Cmd) : Bool :=
  !changesBlocks c.cap.op ||
  (match s.ns? c.cap.nsid with
    | none => true
    | some n => s.rdm.atts.all fun (_, a) =>
        !a.source || a.detached || !a.sync || decide (a.sd ≠ c.sd ∨ n.root ∉ a.roots) || decide (c.stamp ≤ a.durable))

/-- A fence succeeds once every command of its before set has completed (R48 step 5). -/
def State.fenceStatus (s : State) (c : Cmd) : Cmd :=
  if c.cap.op = 0x84 ∧ c.status.isNone ∧ c.tags.isEmpty ∧ s.fe.cmds.all (fun x => !x.before c s || x.posted) then
    { c with status := some stOk }
  else c

/-- Add a completion latency to the QoS group of a command's namespace (Table 14.3). -/
def State.addLatency (s : State) (nsid us : Nat) : State :=
  match (s.ns? nsid).bind (·.qos) with
  | none => s
  | some g =>
    let (t, n) := Table.getD s.scr.lat g (0, 0)
    { s with scr := { s.scr with lat := Table.put s.scr.lat g (t + us, n + 1) } }

/-- COMPLETION_POSTED (R46, R48, R55, R73, R255, R261, R301, R317): the response of a decided command, after those of
every lower-stamped overlapping command; `us` is the latency that Screed samples. -/
def execCompletionPosted (sd : SD) (stamp us : Nat) (s : State) : Res :=
  match (s.cmd? sd stamp).map s.fenceStatus with
  | none => .next s
  | some c =>
    match c.status with
    | none => .next s
    | some st =>
      if c.posted ∨ !c.tags.isEmpty ∨ !s.up .fe ∨ (st = stOk ∧ !s.replCovers c) ∨
          s.fe.cmds.any (fun x => decide (x.stamp < c.stamp) && !x.posted && overlap x c) then .next s
      else
        let s1 := match c.cap.origin with
          | some tag => if c.out.isEmpty then s else s.send (.fwdData tag 0 c.out)
          | none => s
        let s2 := (s1.answer c.cap st c.dw0 c.out).updCmd sd stamp fun x => { x with status := some st, posted := true }
        .next ((s2.addLatency c.cap.nsid us).dropCmd sd stamp)

/-! ### The read side -/

/-- The root and granule for which a page's sector is wanted: by a read that has no entry yet, or by a waiting delta. -/
def State.wanted (s : State) (d : SD) (mpid : Nat) : Option (Nat × Nat) :=
  let on (root gran : Nat) : Bool := match Table.find (s.metaOf d).roots root with
    | some r => (rootPath (s.metaOf d) r gran).any (·.1 = mpid)
    | none => false
  match s.dp.rgrans.find? fun r => decide (r.sd = d) && r.entry.isNone && on r.root r.gran with
  | some r => some (r.root, r.gran)
  | none => s.dp.pend.findSome? fun p => match p with
    | .gran id => (s.gran? id).bind fun g =>
        if g.sd = d then ((deltaRoots (s.metaOf d) g.root g.stamp).find? (on · g.gran)).map (·, g.gran) else none
    | .relink e r g _ _ => if e = d ∧ on r g then some (r, g) else none

/-- With the cache off the fetch itself gives the entry (R149): the sector is the last one of a granule's path. -/
def State.fetchGives (s : State) (r : RGran) (mpid sector : Nat) : Bool :=
  match Table.find (s.metaOf r.sd).roots r.root with
  | none => false
  | some x => match (rootPath (s.metaOf r.sd) x r.gran).getLast? with
    | some (p, l) => decide (p = mpid ∧ sector = sectorOf (if l = 0 then r.gran % 512 else dirIdx l (r.gran / 512)))
    | none => false

/-- SECTOR_INSTALL (R81, R82, R142 to R145, R149): the HBM tier, filled where it must be, gives a sector; it is installed, and the reads whose entry it gives
take it. -/
def execSectorInstall (d : SD) (mpid sector : Nat) (s : State) : Res :=
  match s.wanted d mpid with
  | none => .next s
  | some (root, gran) =>
    if sector ≥ 16 ∨ !s.up .map ∨ s.map.sectorValid d mpid sector then .next s
    else
      let s1 := (s.fillPage d mpid).installSector d mpid sector (some (root, gran / 512))
      let off := !s.map.en || decide (s.map.busy = 1)
      let rs := s1.dp.rgrans.filter fun r => decide (r.sd = d) && r.entry.isNone &&
        (if off then s1.fetchGives r mpid sector else s1.mapHit d r.root r.gran)
      .next (s.evbHold (rs.foldl (fun s r => s.resolveGran s.hour r) s1))

/-- Change a fetch. -/
def State.updFetch (s : State) (id : Nat) (f : Fetch → Fetch) : State :=
  s.updDp fun p => { p with fetches := Table.upd p.fetches id f }

/-- Packs in CIP's decrypt hold (Table 03.3). -/
def State.decrypting (s : State) : Nat := (s.dp.fetches.filter fun (_, f) => f.released).length

/-- PACK_RELEASE (R70, R77, R81, R84): a confirmed pack leaves its read buffer for CIP, where there is room, and its pin ends; the pack
of a cancelled read, or the status that came for it, is freed without reaching CIP. -/
def execPackRelease (id : Nat) (s : State) : Res :=
  match Table.find s.dp.fetches id with
  | none => .next s
  | some f =>
    .next (if !s.up .mlk then s
      else if f.dropped then (if f.image.isSome || f.st.isSome then (s.freeFetch id).count .dpRaDropped else s)
      else if f.image.isSome && f.st.isNone && !f.spec && !f.released && decide (s.decrypting < 16)
      then ((s.updFetch id fun f => { f with released := true }).unpin f.port f.pseg).nextRead f.port else s)

/-- PACK_OPEN (R77, R78, R182, R183, R247): plaintext only where the tag verifies. A ladder step that yields such a
pack is counted, and from step 3 on its stripe is queued for refresh. -/
def execPackOpen (id : Nat) (s : State) : Res :=
  match Table.find s.dp.fetches id with
  | none => .next s
  | some f =>
    match f.image with
    | none => .next s
    | some img =>
      if !f.released ∨ f.plain.isSome ∨ !s.up .cip then .next s
      else
        match s.openImage f.sd f.pack img with
        | .plain b r =>
          let s1 := (s.updFetch id fun f => { f with plain := some (b, r) }).count .cipMsgDone
          .next (if f.step ≤ 7 then s1.ladderDone f.sd f.port (f.pack / 4096) f.step else s1)
        | .slotEmpty => .next ((s.raise .cip 2).failFetch id)
        | .tagFail =>
          let s1 := (s.count .cipTagFail).raise .cip 0
          .next (if f.step ≥ 8 then s1.failFetch id
            else (s1.updFetch id fun f => { f with image := none, released := false, st := some .uncorrectable }).pin f.port f.pseg)

/-- DECODE (R78, R124, R125, R128): a granule of an opened pack, its continuation from its successor where it is
chained. -/
def execDecode (id stamp gran : Nat) (s : State) : Res :=
  match Table.find s.dp.fetches id with
  | none => .next s
  | some f =>
    match f.plain, (s.dp.rgrans.find? fun r => r.sd = f.sd ∧ r.stamp = stamp ∧ r.gran = gran).bind (·.entry) with
    | some (b, rct), some w =>
      match MapEnt.ofWord w with
      | .stored raw loc chain =>
        if loc / 4096 ≠ f.pack ∨ (stamp, gran) ∉ f.users ∨ !s.up .dp then .next s
        else
          let more := match chain with
            | none => some []
            | some c => (s.dp.fetches.findSome? fun (_, x) =>
                if x.sd = f.sd ∧ x.pack = s.succPack f.sd loc c ∧ (stamp, gran) ∈ x.users then x.plain else none).map (·.1)
          match more with
          | none => .next s
          | some m =>
            let done (s : State) (b : List Byte) (failed : Bool) : State := (s.gotGran f.sd stamp gran b failed).leaveAll f.sd (stamp, gran)
            match decodeGranule raw (loc % 4096) b rct m with
            | .good x => .next (done s x false)
            | .format => .next (done (s.granuleBad f.sd loc true) (zeros 4096) true)
            | .check => .next (done (s.granuleBad f.sd loc false) (zeros 4096) true)
      | _ => .next s
    | _, _ => .next s

/-- READ_RETRY (R78, R182): the next step of the ladder for an authoritative read that failed; past step 7 the ladder
has failed and the read goes to reconstruction. -/
def execReadRetry (id : Nat) (s : State) : Res :=
  match Table.find s.dp.fetches id with
  | none => .next s
  | some f =>
    if f.spec ∨ f.dropped ∨ f.st.isNone ∨ f.step ≥ 8 ∨ !s.up .mlk then .next s
    else if f.step = 7 then .next ((s.updFetch id fun f => { f with step := 8 }).ladderFailed f.port)
    else
      let f1 := { f with step := f.step + 1, st := none, image := none }
      .next ((s.updFetch id fun _ => f1).issueRead id s.hour f1)

/-- DEGRADED_READ (R189, R200, R206, R207, R209): the slot from k available slots of its row, each read with its own ladder; `bad`
are member positions whose ladder fails. -/
def execDegradedRead (id : Nat) (bad : List Nat) (s : State) : Res :=
  match Table.find s.dp.fetches id with
  | none => .next s
  | some f =>
    if f.spec ∨ f.st.isNone ∨ f.step ≠ 8 ∨ !s.up .str ∨ !s.mayIssue (.sd f.sd) then .next s
    else
      match stripeOf (s.metaOf f.sd) (f.pack / 4096) with
      | none => .next (s.failFetch id)
      | some (n, pos, t) =>
        let s1 := if pos ∈ t.missing then s.count .strDegradedReads else s
        match s1.rebuildRow f.sd n t (f.pack % 4096) pos bad with
        | (none, gone, s2) => .next ((s2.loseGone f.sd n t (f.pack % 4096) gone).failFetch id)
        | (some img, _, s2) =>
          let s3 := s2.updFetch id fun f => { f with image := some img, st := none, released := true }
          .next (if f.released then s3 else (s3.unpin f.port f.pseg).nextRead f.port)

end Sys2Proof.Machine
end

