-- ==== Sys2Proof/Machine/Fabric.lean ====
section
/-!
DEFINITION. The on-chip network (R26, R27): which slots the datapath flows have reserved, and who is served in a slot.
-/

namespace Sys2Proof.Machine

/-- Slots of an alignment period, and fabric ports (R26). -/
def fabSlots : Nat := 15

/-- A plan made legal: slots and ports that exist, and in each slot one source for each destination port (R26). -/
def legalPlan (l : List (Nat × Nat × Nat)) : List (Nat × Nat × Nat) :=
  l.foldl (fun acc x =>
    if x.1 < fabSlots ∧ x.2.1 < 16 ∧ x.2.2 < 16 ∧ !(acc.any fun y => y.1 = x.1 ∧ y.2.2 = x.2.2) then acc ++ [x] else acc) []

/-- Terzan reserves slots when DP is enabled; they count from the next boundary (R27). Which ones is not stated (assumption 96). -/
def Fabric.reserve (f : Fabric) : Fabric := { f with next := some (legalPlan (Config.slotPlan f.plans)), plans := f.plans + 1 }

/-- Buckets of 256 B in the region that Terzan sets for the hot index at an enable of DP, 48 GiB by default (R96; assumption 105). -/
def hotBuckets (plan : Nat) : Nat := (((Config.hotRegion plan).getD 51539607552) / 256)

/-- A block has been enabled: for DP, slots are reserved (R27) and the region of the hot index is set (R96); a region of another
size holds nothing yet. For STR, the size of a journal ring is set (R191). For MAP, the room of the second tier of the map page cache is set (Table 01.4; assumption 106). -/
def State.reserveSlots (s : State) (b : Blk) : State :=
  if b = .dp then
    let nb := hotBuckets s.top.fab.plans
    { s with
      top := { s.top with fab := s.top.fab.reserve }
      dp := { s.dp with nb := nb, hot := if nb = s.dp.nb then s.dp.hot else [] } }
  else if b = .str then { s with str := { s.str with ring := (Config.journalRing s.draws).getD 268435456 }, draws := s.draws + 1 }
  else if b = .map then { s with map := { s.map with ddrCap := Config.ddrPages s.draws }, draws := s.draws + 1 }
  else s

/-- The slot table changes at a commit epoch boundary (R27). -/
def Fabric.boundary (f : Fabric) : Fabric := { f with table := f.next.getD f.table, next := none }

/-- The flow that a slot at a destination port is reserved for, by its source port. -/
def Fabric.flowAt (f : Fabric) (slot dst : Nat) : Option Nat := (f.table.find? fun x => x.1 = slot ∧ x.2.2 = dst).map (·.2.1)

/-- The classes of unreserved traffic (R27): 0 garbage collection, 1 the trowel pass, 2 the second coat, 3 control cluster accesses,
4 register traffic. -/
def fabClasses : Nat := 5

/-- The next class in turn, of those that want a slot. -/
def nextTurn (wants : Nat → Bool) (last : Nat) : Option Nat :=
  ((List.range fabClasses).map fun i => (last + 1 + i) % fabClasses).find? wants

/-- Who is served in a slot at a destination port (R27): the flow that reserved it where it has something to send, else the
unreserved class in turn. A datapath flow never waits for unreserved traffic. -/
inductive Grant where
  | flow (src : Nat)
  | unreserved (cls : Nat)
  | idle
  deriving DecidableEq, Repr

/-- The grant of a slot. -/
def Fabric.grant (f : Fabric) (busy : Nat → Bool) (wants : Nat → Bool) (slot dst : Nat) : Grant :=
  let free : Grant := match nextTurn wants (f.turn.getD dst 0) with
    | some c => .unreserved c
    | none => .idle
  match f.flowAt slot dst with
  | some src => if busy src then .flow src else free
  | none => free

/-- A slot passes at every destination port: the turn moves where an unreserved class was served. -/
def Fabric.slotPasses (busy wants : Nat → Bool) (f : Fabric) (slot : Nat) : Fabric :=
  { f with turn := (List.range 16).map fun dst => match f.grant busy wants slot dst with
      | .unreserved c => c
      | _ => f.turn.getD dst 0 }

/-- A datapath block at a fabric port has something to send (Table 01.3). -/
def State.flowBusy (s : State) (src : Nat) : Bool :=
  match src with
  | 0 => !s.fe.cmds.isEmpty
  | 1 => !s.dp.grans.isEmpty
  | 2 => !s.dp.rgrans.isEmpty
  | 3 => !s.dp.closed.isEmpty || s.dp.fetches.any fun x => x.2.released
  | 4 => !s.str.rows.isEmpty
  | 5 => s.mlk.out.any fun o => decide (o.cmd.port < 24)
  | 6 => s.mlk.out.any fun o => decide (o.cmd.port ≥ 24)
  | 7 => !s.ubl.tx.a.unacked.isEmpty || !s.ubl.tx.b.unacked.isEmpty
  | 8 => !s.dp.pend.isEmpty
  | _ => false

/-- A class of unreserved traffic has something to carry. -/
def State.unresWants (s : State) (cls : Nat) : Bool :=
  match cls with
  | 0 => s.med.victims.any fun v => decide (v.stage = 1)
  | 1 => !s.med.folds.isEmpty
  | 2 => decide (s.dp.coatLeft ≠ 0)
  | 3 => s.mbx.chans.any fun x => decide (x.2.state = 1)
  | _ => false

/-- One scr-cycle of the fabric: half an alignment period of 20 ns (R22, R26). -/
def State.fabTick (s : State) : State :=
  let slots := if s.top.fab.half then (List.range fabSlots).drop 8 else List.range 8
  let f := slots.foldl (Fabric.slotPasses s.flowBusy s.unresWants) s.top.fab
  { s with top := { s.top with fab := { f with half := !f.half } } }

end Sys2Proof.Machine
end

