-- ==== Sys2Proof/Machine/MapCache.lean ====
section
/-!
DEFINITION. The map cache operations, the eviction buffer, snapshots, the freeing of pages, the second coat, the
hot and full indexes and the checkpoint: rows INVALIDATE to FULL_INDEX_DELTA_APPLY, and CHECKPOINT.
-/

namespace Sys2Proof.Machine

/-- Change MAP. -/
def State.updMap (s : State) (f : MapState → MapState) : State := { s with map := f s.map }

/-- A map cache operation written to MAP_CACHE_CMD (R148): LAST_OP, then refused with a reason or accepted. An access
while MAP's domain is off is a violation (R359). -/
def State.mapOp (s : State) (r : Requester) (op : Nat) (refuse : Nat) (go : State → State) : State :=
  if !s.powered .map then s.violation (violSource r) true 0x00700100
  else
    let s1 := s.updMap fun m => { m with lastOp := op }
    let why := if !(s.blk.get .map).enable then rsnDepOff else if s.map.busy ≠ 0 then rsnBusy else refuse
    if why = 0 then go (s1.updMap fun m => { m with refused := false, reason := 0 })
    else (s1.updMap fun m => { m with refused := true, reason := why }).raise .map 1

/-- Clear every tag, VALID bit and the walk cache; the sectors that leave write their hints (R148, R152). -/
def MapState.clear (m : MapState) : MapState :=
  let m1 := m.sets.foldl (fun m (_, l) => l.foldl MapState.leaveHints m) m
  { m1 with sets := Table.mapV (fun l => l.map fun x => { x with tag := none, valid := 0, dirty := 0 }) m1.sets, walk := [] }

/-- An operation of Terzan's that has completed: LAST_OP and OP_DONE (R148). -/
def State.mapDone (s : State) (op : Nat) : State :=
  (s.updMap fun m => { m with lastOp := op, refused := false, reason := 0 }).raise .map 0

/-- Terzan flushes and disables the cache (R150). -/
def State.cacheOff (s : State) : State :=
  let s1 := (s.updMap fun m => { m with
    evb := [], wt := true, busy := 0, sets := Table.mapV (fun l => l.map fun x => { x with dirty := 0 }) m.sets }).mapDone 2
  (s1.updMap fun m => { m with en := false, invalidated := false, wt := false }).mapDone 3

/-- Terzan invalidates and enables the cache (R150). -/
def State.cacheOn (s : State) : State :=
  ((s.updMap fun m => { m.clear with invalidated := true, busy := 0 }).mapDone 1).updMap (fun m => { m with en := true, wt := false }) |>.mapDone 4

/-- INVALIDATE (R148). -/
def execInvalidate (r : Requester) (s : State) : Res :=
  .next (s.mapOp r 1 (if s.map.dirtyCount ≠ 0 then rsnDirty else 0) fun s => s.updMap fun m => { m.clear with busy := 1 })

/-- FLUSH (R148): write-through at once. -/
def execMapFlush (r : Requester) (s : State) : Res :=
  .next (s.mapOp r 2 0 fun s => s.updMap fun m => { m with wt := true, busy := 2 })

/-- DISABLE (R148). -/
def execMapDisable (r : Requester) (s : State) : Res :=
  .next (s.mapOp r 3 (if s.map.dirtyCount ≠ 0 then rsnDirty else 0) fun s =>
    (s.updMap fun m => { m with en := false, invalidated := false, wt := false }).raise .map 0)

/-- ENABLE (R148): write-back. -/
def execMapEnable (r : Requester) (s : State) : Res :=
  .next (s.mapOp r 4 (if s.map.invalidated then 0 else rsnNotInvalidated) fun s =>
    (s.updMap fun m => { m with en := true, wt := false }).raise .map 0)

/-- WRITEBACK (R148). -/
def execWriteback (r : Requester) (s : State) : Res :=
  .next (s.mapOp r 5 (if s.map.en then 0 else rsnDepOff) fun s => (s.updMap fun m => { m with wt := false }).raise .map 0)

/-- INVALIDATE_DONE (R148). -/
def execInvalidateDone (s : State) : Res :=
  .next (if s.map.busy = 1 then (s.updMap fun m => { m with busy := 0, invalidated := true }).raise .map 0 else s)

/-- FLUSH_COMPLETE (R144, R148): every dirty sector has been written back and the eviction buffer is empty. -/
def execFlushComplete (s : State) : Res :=
  .next (if s.map.busy = 2 then
    (s.updMap fun m => { m with
      busy := 0, evb := [], sets := Table.mapV (fun l => l.map fun x => { x with dirty := 0 }) m.sets }).raise .map 0
    else s)

/-- EVICTION_WRITEBACK_ACK (R146): the oldest entry of the eviction buffer has been written back. -/
def execEvictionWritebackAck (s : State) : Res := .next (s.updMap fun m => { m with evb := m.evb.drop 1 })

/-- SNAPSHOT_SEALED (R155). -/
def execSnapshotSealed (d : SD) (root : Nat) (s : State) : Res := .next (if s.up .map then s.sealRoot d root else s)

/-- The record of a deleted root goes with its last page (R156). -/
def State.dropRoot (s : State) (d : SD) (root : Nat) : State :=
  if (s.metaOf d).freeing.any fun (_, r) => r = root then s
  else match Table.find (s.metaOf d).roots root with
    | some r => if r.deleting then s.delta d (.root root none) else s
    | none => s

/-- A child page loses the page that named it; with SHARE 0 it is freed for the same root (R156). -/
def State.dropChild (s : State) (d : SD) (root : Option Nat) (mpid : Nat) : State :=
  let s1 := s.share d mpid (· - 1)
  if ((Table.find (s1.metaOf d).pages mpid).map (·.share)) = some 0 then s1.delta d (.freeing mpid root) else s1

/-- PAGE_FREE (R156, R158): a page whose SHARE has reached 0 is freed; a directory page lowers its children's SHARE, a
leaf releases the granules it names. -/
def execPageFree (d : SD) (mpid : Nat) (s : State) : Res :=
  match Table.find (s.metaOf d).pages mpid with
  | none => .next s
  | some p =>
    if p.share ≠ 0 ∨ !s.up .map ∨ !s.owns d ∨ s.logFull d then .next s
    else
      let root := Table.find (s.metaOf d).freeing mpid
      let s1 := p.ents.foldl (fun s (_, e) =>
        if p.level = 0 then (match (MapEnt.ofWord e).loc? with
          | some l => s.subRef d l
          | none => s)
        else (match dirChild e with
          | some c => s.dropChild d root c
          | none => s))
        ((((s.delta d (.page mpid none)).delta d (.pageAt mpid none)).delta d (.freeing mpid none)).leaveTiers d mpid)
      .next (match root with
        | some r => s1.dropRoot d r
        | none => s1)

/-! ### The second coat (R107 to R110) -/

/-- Dedup domains the pass walks: modes On and On, verify, rising (R107). -/
def State.coatDomains (s : State) : List Nat := (s.dp.kdoms.filter fun (_, k) => k.mode ≠ .off).map Prod.fst

/-- What the pass walks in a storage domain: every root with entries of every such dedup domain, deleted roots whose
records still stand included, each with its size in granules (R107). -/
def State.coatRoots (s : State) (d : SD) : List (Nat × Nat × Nat) :=
  s.coatDomains.flatMap fun k =>
    ((s.metaOf d).roots.filter fun (_, r) => r.kdom = k ∧ r.size ≠ 0).map fun (id, r) => (k, id, r.size)

/-- The entry the pass examines next: the one at the cursor, else the first of the next root in order of domain and root,
and after the last the first of all (R107, R110). None while nothing is walked. -/
def State.coatAt (s : State) (d : SD) (c : Cursor) : Option Cursor :=
  let l := s.coatRoots d
  if l.any fun (k, id, n) => k = c.x ∧ id = c.y ∧ c.z < n then some c
  else ((l.find? fun (k, id, _) => c.x < k ∨ (k = c.x ∧ c.y < id)).orElse fun _ => l.head?).map fun (k, id, _) => ⟨k, id, 0⟩

/-- Step 3 of R107 and R109: the copy and the granule are read and compared; in the same read the fingerprint of the
granule is checked. True lets the relink go on. -/
def State.coatVerify (s : State) (d : SD) (x c : Nat) (rx rc : RefRec) : Bool × State :=
  let key := ((Table.find s.dp.kdoms rx.ddom).map (·.fpKey)).getD []
  match s.readStored d rc.raw c (chainOf c rc.succ) with
  | (bc, s1) =>
    match s1.readStored d rx.raw x (chainOf x rx.succ) with
    | (.bytes b, s2) =>
      if (kmac256 key b 32 (ascii "VXFP")).take 24 ≠ fit rx.fp 24 then
        (false, (s2.delta d (.ref x (some { rx with fpBad := true }))).snag 6 0x1003 (some d) 0xFF (leBytes 1 rx.ddom ++ leBytes 6 x))
      else (decide (bc = .bytes b), s2)
    | (_, s2) => (false, s2)

/-- The granule an entry names and its canonical copy, with their reference records, where step 2 of R107 goes on: the
full index names another copy of the content, and that copy is live. -/
def State.coatPair (s : State) (d : SD) (c : Cursor) : Option (Nat × RefRec × Nat × RefRec) :=
  (MapEnt.ofWord (entryOf (s.metaOf d) c.y c.z)).loc?.bind fun x =>
    (s.refOf d x).bind fun rx =>
      ((s.metaOf d).fullAt (fullKey rx.ddom rx.fp)).bind fun cp =>
        (s.refOf d cp).bind fun rc =>
          if cp = x ∨ rc.st ≠ .live ∨ rx.fpBad then none else some (x, rx, cp, rc)

/-- Credit an entry costs: 1, and 16 for each of the two data reads of step 3, the copy's and the granule's (R110;
DESIGN CHOICE, assumption 102). -/
def coatCost (verify : Bool) : Nat := if verify then 33 else 1

/-- SECOND_COAT_EXAMINE (R107, R109, R110): the next entry of a storage domain's pass, within the epoch's credit. Each
domain owned has a pass and a cursor of its own and both spend one credit (DESIGN CHOICE, assumption 103); an entry the
credit left does not cover waits for the next epoch's (DESIGN CHOICE, assumption 102). -/
def execSecondCoatExamine (d : SD) (s : State) : Res :=
  if !s.up .dp ∨ !s.up .map ∨ !s.owns d ∨ s.logFull d then .next s
  else
    match s.coatAt d (s.metaOf d).coat with
    | none => .next s
    | some c =>
      let pair := s.coatPair d c
      let verify := pair.isSome && decide (((Table.find s.dp.kdoms c.x).map (·.mode)) = some .verify)
      if s.dp.coatLeft < coatCost verify then .next s
      else
        let s1 := (s.updDp fun p => { p with coatLeft := p.coatLeft - coatCost verify }).delta d (.cursor 2 { c with z := c.z + 1 })
        match pair with
        | none => .next s1
        | some (x, rx, cp, rc) =>
          let (ok, s2) := if verify then s1.coatVerify d x cp rx rc else (true, s1)
          .next (if ok then s2.updDp fun p => { p with pend := p.pend ++ [.relink d c.y c.z x cp] } else s2)

/-- RELINK (R108): the relink delta at place `i` of the Delta recording point. -/
def execRelink (i : Nat) (s : State) : Res :=
  match s.dp.pend[i]? with
  | some (.relink d root gran x c) =>
    .next (if s.up .map && !s.logFull d && s.mapReady d root gran && !s.pendFirst i (.relink d root gran x c)
      then s.evbHold (s.relink d root gran x c) else s)
  | _ => .next s

/-- HOT_INDEX_RELOAD (R100): an entry of the full index enters the hot index with SRC 1. -/
def execHotIndexReload (d : SD) (ddom : Nat) (fp : List Byte) (s : State) : Res :=
  match (s.metaOf d).fullAt (fullKey ddom fp) with
  | none => .next s
  | some loc =>
    .next (if s.owns d && s.up .dp
      then s.updDp fun p => (p.insertHot ⟨fTag (fit fp 24), loc, ddom, true, d, true, s.epoch48, 0⟩ (fit fp 24)).1 else s)

/-- FULL_INDEX_DELTA_APPLY (R104): the oldest delta not applied yet. -/
def execFullIndexDeltaApply (s : State) : Res :=
  match s.dp.fullQ with
  | [] => .next s
  | (d, x) :: q => .next ((s.updDp fun p => { p with fullQ := q }).setMeta d ((s.metaOf d).applyFull x))

/-! ### Checkpoints (R142, R161) -/

/-- The pages that covering the `n` oldest sealed logs of a domain takes to flash: those the logs change, and those that
metadata stripes to be emptied still hold. -/
def State.ckptPages (s : State) (d : SD) (n : Nat) : List Nat :=
  let x := s.ckptMeta d n
  ((((s.map.logs.get d).take n).flatMap fun l => l.deltas.flatMap x.1.touched) ++ s.strayPages d).eraseDups.filter fun id =>
    decide (id / 2 ^ 44 ≠ 0) || (Table.find x.1.pages id).isSome

/-- Move the oldest sealed delta log of a domain to flash. -/
def State.coverLog (s : State) (d : SD) : State :=
  match s.map.logs.get d with
  | [] => s
  | l :: rest => s.updMap fun m => { m with
      flash := m.flash.upd d fun x => l.deltas.foldl Meta.applyAll x
      flashSeg := l.deltas.foldl flashPSeg m.flashSeg
      ckpt := m.ckpt.set d l.epoch
      logs := m.logs.set d rest }

/-- Cover `n` logs. -/
def State.coverLogs (s : State) (d : SD) : Nat → State
  | 0 => s
  | n + 1 => (s.coverLog d).coverLogs d n

/-- A checkpoint goes on (R142, R161): its pages are packed as far as placement goes; once all of them have been programmed the
checkpoint record covers its logs, and pages that waited for their flash copy leave DDR5. -/
def State.ckptGo (s : State) (d : SD) (w : CkptWork) : State :=
  let (w1, s1) := s.writePages d w.todo.length w
  if w1.todo.isEmpty && w1.packs.all fun p => (s1.heldPack d p).isNone then
    ((s1.coverLogs d w.logs).updMap fun m => { m with work := m.work.set d none }).trimDdr
  else s1.updMap fun m => { m with work := m.work.set d (some w1) }

/-- CHECKPOINT (R142, R161): Terzan writes to flash what the `n` oldest sealed epochs changed, their full-index deltas applied, and
then the checkpoint record that frees their delta logs. A checkpoint that has begun goes on. -/
def execCheckpoint (d : SD) (n : Nat) (s : State) : Res :=
  if !s.owns d ∨ !s.up .map ∨ s.logFull d ∨ s.dp.fullQ.any (fun (e, _) => e = d) then .next s
  else
    match s.map.work.get d with
    | some w => .next (s.ckptGo d w)
    | none =>
      let k := min n (s.map.logs.get d).length
      .next (if k = 0 then s else s.ckptGo d ⟨k, s.ckptPages d k, []⟩)

end Sys2Proof.Machine
end

