-- ==== Sys2Proof/Machine/DomainOps.lean ====
section
/-!
DEFINITION. Operations over a whole storage domain or module: leaving a domain, members out of service, the failing
of a module, dust-sheet sizing, formation of stripes, and writes into a module's segments.
-/

namespace Sys2Proof.Machine

/-! ### Modules -/

/-- Change MLK. -/
def State.updMlk (s : State) (f : MlkState → MlkState) : State := { s with mlk := f s.mlk }

/-- Change a module. -/
def State.updMod (s : State) (port : Nat) (f : Module → Module) : State :=
  s.updMlk fun m => { m with mods := Table.upd m.mods port f }

/-- Store an image in a slot; the first program after an erase sets the segment's domain tag (R219, R220). -/
def Module.store (m : Module) (pseg pidx : Nat) (x : SlotSt) (d : Dom) : Module :=
  { m with slots := Table.put m.slots (slotKey pseg pidx) x
           tags := if (Table.find m.tags pseg).isSome then m.tags else Table.put m.tags pseg d }

/-- A segment after its erase: no programmed slot and no domain tag (R219, R220). -/
def Module.erase (m : Module) (pseg : Nat) : Module :=
  { m with slots := Table.keep (fun k _ => decide (k / 4096 ≠ pseg)) m.slots, tags := Table.del m.tags pseg }

/-- The programmed slots of a segment: pack index and content. -/
def Module.slotsOf (m : Module) (pseg : Nat) : List (Nat × SlotSt) :=
  (m.slots.filter fun (k, _) => k / 4096 = pseg).map fun (k, x) => (k % 4096, x)

/-- Fold a program's die temperature and hour into the cure stamp (R164). -/
def State.stamp (s : State) (d : SD) (port pseg : Nat) (t : Int) : State :=
  match s.psegOf port pseg with
  | some r => s.noteHour.delta d (.pseg port pseg { r with hour := s.hour, tmin := min r.tmin t, tmax := max r.tmax t })
  | none => s

/-- The free segment of a module that a substitution or rebuild takes, spare-reserved ones included (R171, R202). -/
def State.spareSeg (s : State) (finish : Bool) (port : Nat) : Option (Nat × Nat) :=
  if s.present port && !s.markedErase port then (s.pickSeg port finish).map fun p => (port, p) else none

/-- The ports a stripe has members on. -/
def State.stripePorts (s : State) (d : SD) (t : Stripe) : List Nat :=
  t.members.filterMap fun m => (s.segOf d m).map (·.port)

/-- A free segment on a module not in the stripe, most free segments first (R168, R171, R203). -/
def State.otherSeg (s : State) (d : SD) (t : Stripe) (finish : Bool) : Option (Nat × Nat) :=
  let used := s.stripePorts d t
  (((List.range 48).filter fun p => p ∉ used).foldr (s.rankInsert finish) []).findSome? (s.spareSeg finish)

/-- Whether a stripe has no record of the kinds that block its reuse. -/
def Stripe.live (t : Stripe) : Bool := t.st ≠ .freed

/-- Try to form the next stripes of every domain, layer and kind the controller owns (R168, R170); metadata stripes lie in the finish
layer, which the trowel pass leaves alone (DESIGN CHOICE, assumption 106). -/
def State.formAll (s : State) : State :=
  s.owned.foldl (fun s d => [(false, false), (true, false), (true, true)].foldl
    (fun s (f, m) => (s.formStripe d f m).formStripe d f m) s) s

/-! ### Dust-sheet sizes (R197, R452, R453) -/

/-- Present modules of a head's vault set (R196). -/
def State.vaultCount (s : State) (h : Nat) : Nat := (s.presentPorts.filter fun p => p % 2 = h).length

/-- The largest G, in GiB, whose T_HOLD stays within the hold-up with `n` modules (R452). -/
def holdGiB (holdup n : Nat) : Nat := if n = 0 then 0 else (holdup - 92) * min n 20 / (11 * 20)

/-- EVR_SEGS: segments of the snag-log partition on each module; 0 acts as 1 (R363, R434). -/
def State.evrSegs (s : State) : Nat := max 1 (bitsOf s.top.vaultPart.toNat 3 0)

/-- The slots of 4 KiB that the dust-sheet partitions of the own vault set hold beside the parity chunks (R197): 256 chunks of 1 MiB
to a segment, as many on each module as on the one with the least room. -/
def State.vaultSlots (s : State) : Nat :=
  let ports := s.presentPorts.filter fun p => p % 2 = s.top.head % 2
  let n := ports.length
  let per := ports.foldl (fun m p => min m (((s.mod? p).map Module.vsegs).getD 0 - s.evrSegs)) (2 ^ 16)
  per * 256 * n * vaultData n / vaultGroup n * 256

/-- Dust-sheet sizes in GiB of slots of 4 KiB. -/
def gibSlots : Nat := 2 ^ 18

/-- Terzan sizes the dust sheets to the hold-up (R453): where both together exceed it, the larger is reduced. The own one is limited
to what the vault set's partitions hold; a vault set of one module carries no parity (R197). -/
def State.sizeSheets (s : State) : State :=
  let n := min (s.vaultCount 0) (s.vaultCount 1)
  let lim := holdGiB s.med.holdup n * gibSlots
  let own := s.ubl.sheet.size
  let peer := s.ubl.peerSheet
  let s1 := if decide (s.vaultCount (s.top.head % 2) = 1) then s.raise .str 6 else s
  let s2 := if n = 0 ∨ own + peer ≤ lim ∨ own < peer then s1
    else (s1.updUbl fun u => { u with sheet := { u.sheet with size := lim - peer } }).raise .str 6
  if s.vaultCount (s.top.head % 2) = 0 ∨ s2.ubl.sheet.size + peer ≤ s.vaultSlots then s2
  else (s2.updUbl fun u => { u with sheet := { u.sheet with size := s.vaultSlots - peer } }).raise .str 6

/-! ### Members out of service (R199, R206) -/

/-- Every row written of a stripe whose missing members outnumber its parity loses its missing slots (R206). -/
def State.loseMissing (s : State) (d : SD) (n : Nat) : State :=
  match s.stripe? d n with
  | none => s
  | some t =>
    if t.missing.length ≤ t.p ∨ t.st = .freed ∨ t.st = .formed then s
    else (List.range t.rows).foldl (fun s r => s.loseRow d n t r t.missing 0) s

/-- A module is absent or failed: its members' stripes are closed early and marked missing (R199). -/
def State.outOfService (s : State) (port : Nat) : State :=
  s.owned.foldl (fun s d =>
    let hit := (s.metaOf d).stripes.filterMap fun (n, t) =>
      if t.st = .freed then none
      else (t.members.findIdx? fun m => ((s.segOf d m).map (·.port)) = some port).map fun i => (n, i)
    let s1 := hit.foldl (fun s (n, i) => s.setMissing d n i) s
    let s2 := hit.foldl (fun s (n, _) =>
      if s.inPair d n then s.closeEarly d n else s) s1
    hit.foldl (fun s (n, _) => s.loseMissing d n) s2) s

/-- The members of a domain's stripes on modules that are out of service are missing (R199). -/
def State.markMembers (s : State) (d : SD) : State :=
  (s.metaOf d).stripes.foldl (fun s (n, t) =>
    if t.st = .freed then s
    else
      let gone := (t.members.zipIdx).filter fun (m, _) => (s.segOf d m).any fun e => decide ((s.port e.port).state ∈ [0, 3, 4, 5])
      if gone.isEmpty then s else (gone.foldl (fun s (_, i) => s.setMissing d n i) s).loseMissing d n) s

/-- The commands of a list that MLK has submitted and that have no completion. -/
def submitted (l : List Out) : List MCmd := (l.filter fun o => o.res.isNone && o.queue.isSome).map (·.cmd)

/-- Commands outstanding on a port complete as timeouts (R224). -/
def State.endOuts (s : State) (port : Nat) : State :=
  s.updMlk fun m => { m with
    out := m.out.map fun o => if o.cmd.port = port ∧ o.res.isNone then { o with res := some ⟨.internal, 0, []⟩ } else o
    late := m.late ++ submitted (m.out.filter fun o => o.cmd.port = port) }

/-- Mark a serial for erase and name it in the snag log (R275). -/
def State.markSerial (s : State) (port : Nat) : State :=
  match s.mod? port with
  | none => s
  | some m =>
    let s1 := { s with med := { s.med with serials := s.med.serials.map fun (x : Serial) => if x.serial = m.serial then { x with erase := true } else x } }
    s1.snag 0x10 0x100A none port

/-- A module is failed (R199, R224, R275, R453). -/
def State.failModule (s : State) (port cause : Nat) : State :=
  if (s.port port).state = 4 ∨ (s.port port).state = 0 then s
  else
    let was := (s.port port).state
    let s1 := ((s.updPort port fun p => { p with state := 4, ownA := false, ownB := false, rate := 0, width := 0 }).raise .mlk 2).endOuts port
    let s2 := if was = 3 then s1 else s1.outOfService port
    let s3 := if (s2.fe.progress.map fun p => decide (p.op = 2 ∧ p.phase = 4)) = some true then s2.markSerial port else s2
    (s3.notify 0x10 0x0205 true none port (leBytes 1 cause)).sizeSheets

/-- The programs outstanding on a port that goes absent: their segments are to be substituted on its return (R201). -/
def State.cutPrograms (s : State) (port : Nat) : State :=
  let mine (o : Out) : Bool := decide (o.cmd.port = port) && o.res.isNone && decide (o.cmd.op = .program)
  let s1 := (s.mlk.out.filter mine).foldl (fun s o => match o.cmd.why, o.cmd.dom with
    | .slot n _ pos, .sd d => (match s.stripe? d n with
        | some t =>
          let seg := t.members.getD pos 0
          if s.subDue d seg then s.stageFor d seg o.cmd.pidx o.cmd.image
          else s.updMed fun m => { m with subs := m.subs ++ [Sub.mk d seg port o.cmd.pseg [(o.cmd.pidx, o.cmd.image)]] }
        | none => s)
    | _, _ => s) s
  s1.updMlk fun m => { m with out := m.out.filter fun o => !mine o, late := m.late ++ submitted (m.out.filter mine) }

/-- Terzan makes a module absent (R199). -/
def State.makeAbsent (s : State) (port : Nat) : State :=
  ((((s.updPort port fun p => { p with state := 3 }).cutPrograms port).endOuts port).outOfService port).sizeSheets

/-- Put a progress record in force (R274): part of the epoch state, and written to the dust-sheet partition of the vault set. -/
def State.setProgress (s : State) (p : Option Progress) : State :=
  let s1 := (s.owned.foldl (fun s d => s.delta d (.progress p)) s).updFe fun f => { f with progress := p }
  { s1 with vault := { s1.vault with progress := p } }

/-! ### Leaving and taking a domain -/

/-- Whether this controller's fence for a domain is in force on a port (MLK_PORT_STATE). -/
def Port.setOwn (p : Port) (d : SD) (v : Bool) : Port :=
  match d with
  | .a => { p with ownA := v }
  | .b => { p with ownB := v }

/-- An empty delta log of the current epoch. -/
def State.freshLog (s : State) (d : SD) : DLog := ⟨s.top.epoch, s.ubl.oepoch.get d, []⟩

/-- The queue pairs and windows of a domain's attachments end with its ownership (R297, R303). -/
def State.dropAtts (s : State) (d : SD) : State :=
  let mine := s.rdm.atts.filter fun (_, a) => a.sd = d
  let s1 := mine.foldl (fun s (_, a) =>
    let ws := (s.rdm.windows.filter fun (_, w) => w.isOpen ∧ w.qp = a.qp).map Prod.fst
    ((ws.foldl State.closeWindow s).qpError a.qp none).updRdm fun r => { r with qps := Table.del r.qps a.qp }) s
  s1.updRdm fun r => { r with atts := Table.keep (fun _ a => decide (a.sd ≠ d)) r.atts }

/-- Everything the controller holds of a domain it no longer owns goes (R222, R464); hosts see the change of ANA
state (R267). -/
def State.leaveDomain (s : State) (d : SD) : State :=
  let s1 := (s.dp.fetches.filter fun (_, f) => f.sd = d).foldl (fun s (id, _) => s.freeFetch id) s
  let s2 := s1.updDp fun p => { p with
    grans := Table.keep (fun _ g => decide (g.sd ≠ d)) p.grans
    packs := p.packs.filter fun x => decide (x.sd ≠ d)
    closed := p.closed.filter fun x => decide (x.sd ≠ d)
    pend := p.pend.filter fun x => match x with
      | .gran id => (Table.find p.grans id).any fun g => decide (g.sd ≠ d)
      | .relink e _ _ _ _ => decide (e ≠ d)
    rgrans := p.rgrans.filter fun x => decide (x.sd ≠ d)
    fullQ := p.fullQ.filter fun x => decide (x.1 ≠ d)
    hot := Table.mapV (fun l => l.map fun e => if e.sd = d then { e with valid := false } else e) p.hot }
  let s3 := s2.updFe fun f => { f with
    cmds := f.cmds.filter fun c => decide (c.sd ≠ d)
    inflight := f.inflight.filter fun x => decide (x.sd ≠ d) }
  let s4 := s3.updMap fun m => { m.dropDomain d with
    live := m.live.set d Meta.empty, log := m.log.set d (s.freshLog d), logs := m.logs.set d [] }
  let s5 := s4.updStr fun x => { x with
    rows := x.rows.filter (fun r => decide (r.sd ≠ d)), journal := x.journal.set d [] }
  let s6 := s5.updMed fun m => { m with
    formed := m.formed.filter (fun f => decide (f.sd ≠ d))
    victims := m.victims.filter (fun v => decide (v.sd ≠ d))
    copied := m.copied.filter (fun c => decide (c.sd ≠ d))
    folds := m.folds.filter (fun f => decide (f.sd ≠ d))
    subs := m.subs.filter (fun x => decide (x.sd ≠ d)) }
  let s7 := s6.updUbl fun u => { u with
    own := u.own.set d false, battenOut := u.battenOut.set d false, waits := u.waits.set d [], hold := u.hold.set d false }
  let s8 := s7.updMlk fun m => { m with ports := Table.mapV (·.setOwn d false) m.ports }
  (s8.dropAtts d).anaChanged

end Sys2Proof.Machine
end

