-- ==== Sys2Proof/Machine/TrustOps.lean ====
section
/-!
DEFINITION. The digest engine's contexts, the measurement registers and their log, and the requests the trust services
take (R383 to R387, R400).
-/

namespace Sys2Proof.Machine

/-- Change DIG. -/
def State.updDig (s : State) (f : DigState → DigState) : State := { s with dig := f s.dig }

/-- A digest operation ends: its reason and data (R380: nothing else leaves the engine). -/
def State.digDone (s : State) (reason : Nat) (data : List Byte) : State := s.updDig fun g => { g with last := ⟨reason, data⟩ }

/-- A digest context. -/
def State.ctx (s : State) (c : Nat) : DCtx := s.dig.ctxs.getD c (DCtx.clear false)

/-- Change a digest context. -/
def State.updCtx (s : State) (c : Nat) (f : DCtx → DCtx) : State := s.updDig fun g => { g with ctxs := updAt g.ctxs c f }

/-- Feed bytes into a context: whole blocks are absorbed, and what is left is the tail (R383). -/
def DCtx.feed (c : DCtx) (b : List Byte) : DCtx :=
  let l := c.tail ++ b
  let n := l.length / 136
  { c with st := keccakAbsorbN n c.st l, count := c.count + b.length, tail := l.drop (136 * n) }

/-- The 72 bytes that follow the old register value in an EXTEND of a digest (R384, R386). -/
def extendInput (d : List Byte) : List Byte := fit d 64 ++ keccakPad 0x1F 128

/-- A 64 B event digest: SHAKE256 with 512 bits of output. -/
def eventDigest (b : List Byte) : List Byte := shake256 b 64

/-- The new value of a measurement register: one block, absorbed into a zero state, 64 bytes squeezed (R386). -/
def extendValue (m input : List Byte) : List Byte := (keccakBytes (keccakAbsorb keccakZero (fit m 64 ++ input))).take 64

/-- An entry of the measurement log; past 1,024 extends none is made and LOG_FULL is set (R400). -/
def State.logExtend (s : State) (e : LogEnt) : State :=
  if s.dig.log.length < 1024 then s.updDig fun g => { g with log := g.log ++ [e] }
  else if s.dig.logFull then s
  else (s.updDig fun g => { g with logFull := true }).raise .dig 2

/-- An extend that is made (R386, R387). -/
def State.extendReg (s : State) (i : Nat) (input : List Byte) (event subject : Nat) (unmatched : Bool) : State :=
  let s1 := s.updDig fun g => { g with
    m := updAt g.m i fun m => extendValue m input
    counts := updAt g.counts i fun n => if n = BitVec.allOnes 32 then n else n + 1 }
  (s1.logExtend ⟨i, event, subject, unmatched, input.take 64⟩).digDone 0 []

/-- A refused extend (R387, R391). -/
def State.refuseExtend (s : State) (reason : Nat) : State := (s.digDone reason []).raise .dig 3

/-- EXTEND as the security core issues it: refused after an alarm (R386, R391). -/
def State.extend (s : State) (i : Nat) (input : List Byte) (event subject : Nat) (unmatched : Bool) : State :=
  if s.dig.alarmed then s.refuseExtend rsnAlarm else s.extendReg i input event subject unmatched

/-- Terzan may ask for an extend of a register (R387, Table 17.2): M5 once in each boot and before the boot record is signed,
M6, M7 and M12 to M23, each with its own event types. -/
def State.mayExtend (s : State) (reg event : Nat) : Bool :=
  match reg with
  | 5 => decide (event = 0x06) && !s.dig.m5 && !s.dig.recordSigned
  | 6 => decide (event = 0x07)
  | 7 => decide (event = 0x08)
  | _ => decide (12 ≤ reg ∧ reg ≤ 23 ∧ (event = 0x10 ∨ event = 0x11))

/-- Terzan puts a request into its message window (R28, R380). -/
def State.askTrust (s : State) (b : List Byte) : State := s.updDig fun g => { g with toSec := b.take 4096 }

/-- The trust services answer in theirs. -/
def State.replyTrust (s : State) (b : List Byte) : State := s.updDig fun g => { g with toTerzan := b.take 4096 }

/-- What the trust services do with a request for an extend (R387, R391). -/
def State.extendAsked (s : State) (reg event subject : Nat) (unmatched : Bool) (d : List Byte) : State :=
  if s.dig.alarmed then s.refuseExtend rsnAlarm
  else if !s.mayExtend reg event then s.refuseExtend rsnUnsupported
  else
    let s1 := if reg = 5 then s.updDig fun g => { g with m5 := true } else s
    s1.extendReg reg (extendInput d) event subject unmatched

/-- A request of Terzan for an extend, through the message windows (R28, R387, R391): it names the register, the event type and D, and
is answered with the reason. -/
def State.extendFor (s : State) (reg event subject : Nat) (unmatched : Bool) (d : List Byte) : State :=
  let s1 := (s.askTrust (LogEnt.bytes ⟨reg, event, subject, unmatched, d⟩)).extendAsked reg event subject unmatched d
  s1.replyTrust (leBytes 2 s1.dig.last.reason)

/-- The extends of an admission (R387, R388): the descriptor's digest, then the digest recorded for the serial's image, or of
the FW field alone, UNMATCHED, where none is recorded or FW differs from the recorded version string. -/
def State.extendModule (s : State) (port : Nat) (desc fw : List Byte) (image : Option (List Byte × List Byte)) : State :=
  let s1 := s.extendFor (12 + port / 4) 0x10 port false (eventDigest desc)
  match image with
  | some (ver, dg) => if ver = fw then s1.extendFor (12 + port / 4) 0x11 port false dg
    else s1.extendFor (12 + port / 4) 0x11 port true (eventDigest fw)
  | none => s1.extendFor (12 + port / 4) 0x11 port true (eventDigest fw)

end Sys2Proof.Machine
end

