-- ==== Sys2Proof/Machine/MediaLink.lean ====
section
/-!
DEFINITION. Media commands as a module executes them, their completions at MLK, timeouts, failing and admission of
modules: rows MEDIA_RAW_READ to MODULE_RETURN.
-/

namespace Sys2Proof.Machine

/-! ### A module executes a command -/

/-- The command a module executes and the head whose port it arrives on (R214): one submitted here, one whose identifier has been
retired meanwhile (R223), or the peer's. -/
def State.modCmd (s : State) (port : Nat) (src : MSrc) (op : MOp) : Option (Nat × MCmd) :=
  match src with
  | .own i => match s.mlk.out[i]? with
    | some o => if o.cmd.port = port ∧ o.cmd.op = op ∧ o.res.isNone ∧ o.queue.isSome then some (s.top.head, o.cmd) else none
    | none => none
  | .late i => match s.mlk.late[i]? with
    | some c => if c.port = port ∧ c.op = op then some (s.top.head, c) else none
    | none => none
  | .peer c => if c.port = port ∧ c.op = op then some (1 - s.top.head, c) else none

/-- A module answers: an own command gets its completion, that of a retired identifier is discarded, the peer's goes to the peer. -/
def State.modAnswer (s : State) (src : MSrc) (r : MRes) : State :=
  match src with
  | .own i => s.updMlk fun m => { m with out := updAt m.out i fun o => { o with res := some r } }
  | .late i => s.updMlk fun m => { m with late := m.late.eraseIdx i }
  | .peer _ => s

/-- A module checks a command (R462) and, where every check passes, executes it: its new contents and completion. -/
def State.modRun (s : State) (port : Nat) (src : MSrc) (op : MOp) (f : Module → Nat → MCmd → Module × MRes) : State :=
  match s.mod? port, s.modCmd port src op with
  | some m, some (h, c) =>
    match moduleCheck m h c with
    | .ok =>
      let (m1, r) := f m h c
      (s.updMod port fun _ => m1).modAnswer src r
    | e => s.modAnswer src ⟨e, 0, []⟩
  | _, _ => s

/-- What a read of a slot in no defined state returns (R219): free; an image comes with the highest corrected bit count. -/
def tornRead (bits n : Nat) : MRes :=
  match (Config.tornKind n).toNat with
  | 0 => ⟨.erased, 0, []⟩
  | 1 => ⟨.uncorrectable, 0, []⟩
  | _ => ⟨.ok, min bits 0xFFFF, fit (Config.tornImage n) imageLen⟩

/-- MEDIA_RAW_READ (R219, R220): `bits` is the highest corrected bit count; `unc` says the module cannot correct. -/
def execMediaRawRead (port : Nat) (src : MSrc) (bits : Nat) (unc : Bool) (s : State) : Res :=
  .next ({ s with draws := s.draws + 1 }.modRun port src .read fun m _ c =>
    (m, match Table.find m.tags c.pseg, Table.find m.slots (slotKey c.pseg c.pidx) with
      | some _, some (.image b) => if unc then ⟨.uncorrectable, 0, []⟩ else ⟨.ok, min bits 0xFFFF, b⟩
      | some _, some .torn => tornRead bits s.draws
      | _, _ => ⟨.erased, 0, []⟩))

/-- MEDIA_RAW_PROGRAM (R219, R220): `st` is how the flash operation ends, success, PROGRAM_FAILED or a transport-class
status of the data transfer; `temp` is the die temperature. -/
def execMediaRawProgram (port : Nat) (src : MSrc) (st : MSt) (temp : Int) (s : State) : Res :=
  .next (s.modRun port src .program fun m _ c =>
    match st with
    | .ok => (m.store c.pseg c.pidx (.image c.image) c.dom, ⟨.ok, tempByte temp, []⟩)
    | .programFailed => (m.store c.pseg c.pidx .torn c.dom, ⟨.programFailed, tempByte temp, []⟩)
    | .internal => (m, ⟨.internal, 0, []⟩)
    | _ => (m, ⟨.transfer, 0, []⟩))

/-- MEDIA_ERASE (R164, R219, R220): an erase that fails keeps the tag, and its slots are left in no defined state. -/
def execMediaErase (port : Nat) (src : MSrc) (ok : Bool) (temp : Int) (s : State) : Res :=
  .next (s.modRun port src .erase fun m _ c =>
    if ok then (m.erase c.pseg, ⟨.ok, tempByte temp, []⟩)
    else ((m.slotsOf c.pseg).foldl (fun m (i, _) => m.store c.pseg i .torn c.dom) m, ⟨.eraseFailed, tempByte temp, []⟩))

/-- The fold report (R219). -/
def foldReport (tmin tmax : Int) (n : Nat) (fail : Option Nat) : List Byte :=
  leBytes 1 (tempByte tmin) ++ leBytes 1 (tempByte tmax) ++ leBytes 2 n ++ leBytes 2 (fail.getD 0xFFFF) ++ zeros 10

/-- MEDIA_FOLD (R219, R220): every programmed slot goes to the same place of the target, up to the first that fails. -/
def execMediaFold (port : Nat) (src : MSrc) (tmin tmax : Int) (fail : Option Nat) (s : State) : Res :=
  .next (s.modRun port src .fold fun m _ c =>
    let all : List (Nat × SlotSt) := m.slotsOf c.pseg
    let bad := fail.bind fun i => if all.any (·.1 = i) then some i else none
    let l : List (Nat × SlotSt) := match bad with
      | some i => all.filter (fun (p : Nat × SlotSt) => decide (p.1 < i))
      | none => all
    let m1 := l.foldl (fun m (i, x) => m.store c.tpseg i x c.dom) m
    (m1, ⟨if bad.isSome then .foldFailed else .ok, 0, foldReport tmin tmax l.length bad⟩))

/-- A fold or erase stopped by a fence (R228 step 3): a fold keeps the slots copied before `n`; an erase leaves its slots
in no defined state and its tag. -/
def Module.stop (m : Module) (c : MCmd) (n : Nat) : Module :=
  match c.op with
  | .fold => ((m.slotsOf c.pseg).filter fun p => p.1 < n).foldl (fun m (i, x) => m.store c.tpseg i x c.dom) m
  | .erase => (m.slotsOf c.pseg).foldl (fun m (i, _) => m.store c.pseg i .torn c.dom) m
  | _ => m

/-- OWNER_FENCE (R228): `stopped` lists the own folds and erases in flight, each with the slot it stopped at. Own commands
of the domain under an older epoch that have not started end FENCED; one that has started and ends normally has its own
row before this one. -/
def execOwnerFence (port : Nat) (src : MSrc) (stopped : List (Nat × Nat)) (s : State) : Res :=
  match s.mod? port, s.modCmd port src .fence with
  | some m, some (h, c) =>
    match moduleCheck m h c, c.dom with
    | .ok, .sd d =>
      let old := m.oepoch.get d
      if c.oepoch = old ∧ m.oport.get d = some h then .next (s.modAnswer src ⟨.ok, old.toNat, []⟩)
      else
        let m1 := stopped.foldl (fun m (i, n) => match s.mlk.out[i]? with
          | some o => if o.cmd.port = port ∧ o.cmd.dom = .sd d ∧ o.res.isNone then m.stop o.cmd n else m
          | none => m) m
        let s1 := s.updMod port fun _ => { m1 with oepoch := m1.oepoch.set d c.oepoch, oport := m1.oport.set d (some h) }
        .next ((s1.modAnswer src ⟨.ok, old.toNat, []⟩).updMlk fun x => { x with
          out := x.out.map fun o =>
            if o.cmd.port = port ∧ o.cmd.dom = .sd d ∧ o.res.isNone ∧ o.queue.isSome ∧ o.cmd.op ≠ .fence ∧ o.cmd.oepoch < c.oepoch
            then { o with res := some fencedRes } else o
          late := x.late.filter fun l => ¬(l.port = port ∧ l.dom = .sd d ∧ l.op ≠ .fence ∧ l.oepoch < c.oepoch) })
    | .ok, .vault => .next (s.modAnswer src ⟨.invalidField, 0, []⟩)
    | e, _ => .next (s.modAnswer src ⟨e, 0, []⟩)
  | _, _ => .next s

/-- MEDIA_DESCRIPTOR_READ (R219); `ok` false is a failed read. -/
def execMediaDescriptorRead (port : Nat) (src : MSrc) (ok : Bool) (s : State) : Res :=
  .next (s.modRun port src .descr fun m _ _ => (m, if ok then ⟨.ok, 0, m.desc⟩ else ⟨.internal, 0, []⟩))

/-- MEDIA_TEMPERATURE (R219). -/
def execMediaTemperature (port : Nat) (src : MSrc) (hi lo ctl : Int) (s : State) : Res :=
  .next (s.modRun port src .temp fun m _ _ =>
    ({ m with temps := ⟨hi, lo, ctl⟩ }, ⟨.ok, tempByte hi + 2 ^ 8 * tempByte lo + 2 ^ 16 * tempByte ctl, []⟩))

/-- LAYER_SPLIT (R218): feature 0xC0; an own admin command carries VSEGS in its PSEG and SSEGS in its TPSEG. -/
def execLayerSplit (port : Nat) (src : MSrc) (s : State) : Res :=
  .next (s.modRun port src .admin fun m _ c =>
    match m.split with
    | some x => (m, ⟨if x = (c.pseg, c.tpseg) then .ok else .sequence, 0, []⟩)
    | none =>
      if 4 * (c.pseg + c.tpseg) > m.units then (m, ⟨.invalidField, 0, []⟩)
      else ({ m with split := some (c.pseg, c.tpseg) }, ⟨.ok, 0, []⟩))

/-! ### Admission (R226) -/

/-- Refuse a module. -/
def State.refuse (s : State) (port cause : Nat) : State :=
  (s.updPort port fun p => { p with state := 5, cause := cause, step := 0 }).raise .mlk 1

/-- The descriptor's checks (R225, R226): the cause of refusal, if any. -/
def descCause (b : List Byte) : Option Nat :=
  if leAt b 0 4 ≠ 0x444D5856 ∨ b.length ≠ 4096 ∨ !crcOk b 4088 then some 1
  else if leAt b 4 2 ≠ 1 then some 2
  else if leAt b 32 2 > 45 ∨ leAt b 34 2 > 110 then some 3
  else if leAt b 46 2 > 5000 then some 4
  else if leAt b 16 4 = 0 ∨ leAt b 20 4 = 0 then some 7
  else none

/-- Set the admission step of a port. -/
def State.admitStep (s : State) (port n : Nat) : State := s.updPort port fun p => { p with step := n }

/-- A Media Descriptor Read of admission has ended (R226 step 3): read again once after a failure. -/
def State.gotDesc (s : State) (port : Nat) (r : Option (List Byte)) : State :=
  match r with
  | some b => match descCause b with
    | some c => s.refuse port c
    | none => s.admitStep port 4
  | none =>
    if (s.port port).descrFails ≥ 1 then s.refuse port 6
    else (s.updPort port fun p => { p with descrFails := 1 }).issue (MCmd.mk0 port .descr .vault .descr)

/-- The records of a module's segments outside the vault region at first admission (R164, R166). -/
def Module.records (m : Module) (port : Nat) (t : Table PSegRec) : Table PSegRec :=
  (List.range (m.fsegs - m.vsegs)).foldl (fun t i =>
    let p := m.vsegs + i
    Table.put t (psegKey port p) (PSegRec.fresh (decide (p ≥ m.vsegs + m.ssegs)))) t

/-- The split has been written (R226 step 4): every segment is erased, the serial joins the array configuration and the
peer is told. -/
def State.splitDone (s : State) (port : Nat) : State :=
  match s.mod? port with
  | none => s
  | some m =>
    let x : Serial := ⟨m.serial, m.vsegs, m.ssegs, false, none⟩
    let s1 := s.updMod port fun m => { m with slots := [], tags := [] }
    let s2 := s1.updMed fun d => { d with serials := d.serials ++ [x], pseg := m.records port d.pseg }
    let s3 := s2.updMap fun d => { d with flashSeg := m.records port d.flashSeg }
    (s3.send (.message 3 .a (fit m.serial 16 ++ leBytes 2 m.vsegs ++ leBytes 2 m.ssegs))).admitStep port 5

/-- Issue Owner Fence for a domain to a port (R229). -/
def State.fence (s : State) (d : SD) (port : Nat) : State :=
  s.issue { MCmd.mk0 port .fence (.sd d) (.fence d) with oepoch := s.ubl.oepoch.get d }

/-- The mark for erase goes once this controller has nothing left to erase for it (R226 step 6). -/
def State.unmark (s : State) (port : Nat) : State :=
  match s.mod? port with
  | none => s
  | some m =>
    let busy := s.med.pseg.any fun (k, r) => decide (k / 2 ^ 20 = port ∧ (r.st = .pendingErase ∨ r.st = .erasing)) && s.owns r.sd
    if busy then s
    else s.updMed fun d => { d with serials := d.serials.map fun (x : Serial) => if x.serial = m.serial then { x with erase := false } else x }

/-- Erase what a mark for erase asks of this controller (R167, R226 step 6, R275): segments outside the vault region tagged with
a domain it owns, and the untagged ones for the owner of Domain A, become pending-erase. -/
def State.eraseMarked (s : State) (port : Nat) : State :=
  match s.mod? port with
  | none => s
  | some m =>
    let mine (p : Nat) : Option SD := match Table.find m.tags p with
      | some (.sd d) => if s.owns d then some d else none
      | some .vault => none
      | none => if s.owns .a then some .a else none
    (s.med.pseg.foldl (fun s (k, r) =>
      match (if k / 2 ^ 20 = port ∧ k % 2 ^ 20 ≥ m.vsegs ∧ (r.st = .free ∨ r.st = .allocated) then mine (k % 2 ^ 20) else none) with
      | some d => s.delta d (.pseg port (k % 2 ^ 20) { r with st := .pendingErase, sd := d, changed := s.top.epoch })
      | none => s) s).unmark port

/-- The cards a selector names: valid now, or by a write that waits for its boundary. -/
def Cfg.cards (x : Cfg) : List Nat :=
  ([some x.value, x.near, x.far].filterMap id).filterMap fun v => if bitOf v.toNat 8 then some (v.toNat % 8) else none

/-- Load a module's shade card and write its selector (R180, R226 step 7): a card of the same type that a selector names is shared,
else the lowest card no selector names is written. DESIGN CHOICE (assumption 94): a module of a ninth NAND type gets no selector,
and MED_STATUS.NO_CARD shows it. -/
def State.loadCard (s : State) (port : Nat) : State :=
  match s.mod? port with
  | none => s
  | some m =>
    let card := slice m.desc 128 1056
    let named := s.med.sels.flatMap fun x => x.2.cards
    match (List.range 8).find? fun i => i ∈ named ∧ Table.find s.med.cards i = some card with
    | some c => s.writeSel false port (c + 0x100)
    | none =>
      match (List.range 8).find? fun i => i ∉ named with
      | some c => (s.updMed fun d => { d with cards := Table.put d.cards c card }).writeSel false port (c + 0x100)
      | none => s

/-- ADMISSION (R214, R218, R226, R229, R388): the admission of a port goes on by the step it stands at. The DOM that Media Descriptor
Read and Media Temperature carry is not stated; it is 0b11 (DESIGN CHOICE, assumption 117). -/
def execAdmission (port : Nat) (s : State) : Res :=
  let p := s.port port
  if p.state ≠ 1 ∨ !s.up .mlk then .next s
  else
    match s.mod? port with
    | none => .next s
    | some m =>
      match p.step with
      | 2 => .next ((s.admitStep port 3).issue (MCmd.mk0 port .descr .vault .descr))
      | 4 =>
        match s.med.serials.find? (·.serial = m.serial) with
        | some x => .next (if m.split = some (x.vsegs, x.ssegs) then s.admitStep port 5 else s.refuse port 5)
        | none =>
          .next (if s.med.commissioned && s.owns .a
            then (s.admitStep port 40).issue { MCmd.mk0 port .admin .vault .admin with pseg := s.med.vsegs, tpseg := s.med.ssegs }
            else s)
      | 5 =>
        if s.owned.isEmpty then .next (s.admitStep port 6)
        else .next (s.owned.foldl (fun s d => s.fence d port) (s.admitStep port 50))
      | 6 =>
        let s0 := s.extendModule port m.desc (slice m.desc 1184 16) ((s.med.serials.find? (·.serial = m.serial)).bind (·.image))
        let s1 := if s0.markedErase port then s0.eraseMarked port else s0
        .next (((s1.loadCard port).admitStep port 7).issue (MCmd.mk0 port .temp .vault .temp))
      | _ => .next s

/-- Admission ends at the boundary at which the port's selector applies (R226 step 7). -/
def State.admitted (s : State) (port : Nat) : State :=
  let p := s.port port
  if p.state = 1 ∧ p.step = 7 then
    ((s.updPort port fun p => { p with state := 2, step := 0, cause := 0 }).raise .mlk 0).sizeSheets.formAll
  else s

/-- LINK_UP (R213, R226): a port reaches link-up at a rate (1 to 6) and width (1, 2); `new` is the module plugged in,
where it is another than before. -/
def execLinkUp (port rate width : Nat) (new : Option Module) (s : State) : Res :=
  let p := s.port port
  if port ≥ 48 ∨ p.state ≠ 1 ∨ !p.power ∨ p.step > 1 ∨ !s.up .mlk then .next s
  else
    let s0 := match new with
      | some m => s.updMlk fun x => { x with mods := Table.put x.mods port m }
      | none => s
    if (s0.mod? port).isNone then .next s
    else
      let s1 := (s0.updPort port fun p => { p with rate := rate, width := width, step := 2, descrFails := 0 }).updMed fun m =>
        { m with temps := Table.del m.temps port }
      .next (if rate < 6 ∨ width < 2 then s1.raise .mlk 4 else s1)

/-- ADMISSION_TIMEOUT (R226): link-up not reached 1 s after power-on. -/
def execAdmissionTimeout (port : Nat) (s : State) : Res :=
  let p := s.port port
  .next (if p.state = 1 ∧ p.step ≤ 1 then s.refuse port 8 else s)

/-- ABSENT_TIMEOUT (R199, R410): a module under activation that has not been admitted again counts as absent. -/
def execAbsentTimeout (port : Nat) (s : State) : Res :=
  let act : Bool := (Table.find s.upd.mods port).any fun x => decide (x.state = 4 ∨ x.state = 5)
  .next (if (s.port port).state = 3 ∨ (s.port port).state ∈ [1, 5] ∧ act then s.failModule port 4 else s)

/-- PRESENCE_DROP (R215, R224): the module is taken out of its slot; unless it is absent it is failed at once. -/
def execPresenceDrop (port : Nat) (s : State) : Res :=
  let s1 := if (s.port port).state = 3 then s else s.failModule port 5
  .next ((s1.updPort port fun p => { p with power := false }).updMlk fun m => { m with mods := Table.del m.mods port })

/-- MODULE_FAILED (R224): cause 1 three timeouts within a second, 2 fatal status, 3 link loss. -/
def execModuleFailed (port cause : Nat) (s : State) : Res :=
  let p := s.port port
  let now := s.pwr.rtc.toNat
  .next (if p.state ∈ [1, 2] ∧ (cause = 2 ∨ cause = 3 ∨ cause = 1 ∧ p.state = 2 ∧ (p.timeouts.filter fun t => now - t ≤ 1000000).length ≥ 3)
    then s.failModule port cause else s)

/-- MEDIA_LINK_DOWN (R224): the link retrains; `back` is the rate and width it returns with within 100 ms, none where it
does not return. -/
def execMediaLinkDown (port : Nat) (back : Option (Nat × Nat)) (s : State) : Res :=
  if (s.port port).state ∉ [1, 2] ∨ (s.port port).rate = 0 then .next s
  else
    match back with
    | none => .next (s.failModule port 3)
    | some (r, w) =>
      let s1 := (s.updPort port fun p => { p with rate := r, width := w }).count .mlkRetrains
      .next (if r < 6 ∨ w < 2 then s1.raise .mlk 4 else s1)

/-! ### Completions at MLK (R222 to R224, R463) -/

/-- A command counts as a timeout of its port (R223, R224); one of an admission counts toward no failure (R226). -/
def State.noteTimeout (s : State) (c : MCmd) : State :=
  let now := s.pwr.rtc.toNat
  let s0 := s.count .mlkTimeouts
  let s1 := s0.updPort c.port fun p => { p with timeouts := (p.timeouts ++ [now]).filter fun t => now - t ≤ 1000000 }
  if (s.port c.port).state ≠ 2 then s0
  else if c.op = .fence ∨ c.op = .admin ∨ (s1.port c.port).timeouts.length ≥ 3 then s1.failModule c.port 1
  else s1

/-- MEDIA_STATUS in the snag log (Table 20.2). -/
def State.mediaSnag (s : State) (c : MCmd) (st : MSt) : State :=
  s.snag 10 0x1009 (match c.dom with | .sd d => some d | .vault => none) c.port
    (leBytes 3 c.pseg ++ leBytes 1 c.dom.num ++ leBytes 2 c.pidx ++ leBytes 1 st.code)

/-- A program of a segment has failed (R171): its image, and every later one for the segment, stays in program staging
until the substitution. -/
def State.needSub (s : State) (d : SD) (seg : Nat) (c : MCmd) : State :=
  if s.subDue d seg then s.stageFor d seg c.pidx c.image
  else s.updMed fun m => { m with subs := m.subs ++ [Sub.mk d seg c.port c.pseg [(c.pidx, c.image)]] }

/-- Allocate a fold's target on the module and issue the fold (R172). None where the module has no free segment. -/
def State.foldMember (s : State) (d : SD) (n pos seg fails : Nat) : Option State :=
  match s.segOf d seg with
  | none => none
  | some e =>
    (if s.freeCount e.port true > 0 then s.pickSeg e.port true else none).map fun t =>
      let s1 := s.allocSeg d seg e.port t
      let s2 := s1.updMed fun m => { m with folds := m.folds ++ [Folding.mk d n pos e.port e.pseg t fails none] }
      s2.issue { MCmd.mk0 e.port .fold (.sd d) (.fold n pos) with oepoch := s.ubl.oepoch.get d, pseg := e.pseg, tpseg := t }

/-- A skim stripe goes to garbage collection (R172). -/
def State.foldFallback (s : State) (d : SD) (n : Nat) : State := (s.victim d n 1).raise .med 0

/-- A fold has failed (R172): its target is retired; the member is folded again once, then its stripe is collected. -/
def State.foldFailed (s : State) (d : SD) (n pos : Nat) : State :=
  match s.med.folds.find? fun f => f.sd = d ∧ f.stripe = n ∧ f.pos = pos with
  | none => s
  | some f =>
    let s1 := (s.updMed fun m => { m with folds := m.folds.filter fun x => x ≠ f }).retire d f.port f.dst
    let seg := ((s.stripe? d n).map fun t => t.members.getD pos 0).getD 0
    let again := if f.fails = 0 then s1.foldMember d n pos seg 1 else none
    again.getD (s1.foldFallback d n)

/-- A program ended: its slot is done, or its segment is to be substituted (R171, R190). -/
def State.programEnd (s : State) (d : SD) (n row pos : Nat) (c : MCmd) (ok : Bool) (temp : Int) : State :=
  if ok then ((s.stamp d c.port c.pseg temp).slotDone d n row pos)
  else match s.stripe? d n with
    | some t => s.needSub d (t.members.getD pos 0) c
    | none => s

/-- An erase ended (R164, R167, R222). -/
def State.eraseEnd (s : State) (d : SD) (c : MCmd) (st : MSt) : State :=
  match st.cls, st with
  | .success, _ =>
    let s1 := (s.setPSeg d c.port c.pseg fun r => { PSegRec.fresh r.finish with erases := r.erases + 1, sd := r.sd }).updMed fun m =>
      { m with reads := Table.del m.reads (psegKey c.port c.pseg) }
    ((s1.noteErase c.port c.finish).unmark c.port).formAll
  | .owner, .domainMismatch => s.retire d c.port c.pseg
  | .owner, _ => s
  | .protocol, _ => s
  | _, _ => s.retire d c.port c.pseg

/-- A read attempt ended (R82, R182, R206): the image, or the status the ladder or the compare takes up. A slot of another
domain's segment is unavailable at once. -/
def State.readEnd (s : State) (id : Nat) (r : MRes) : State :=
  s.updFetch id fun f =>
    if r.st = .ok then { f with image := some r.data, st := none }
    else { f with st := some r.st, image := none, step := if r.st = .domainMismatch then 8 else f.step }

/-- Owner-class statuses (R222, R229): counted; STALE_OWNER, NOT_OWNER and a module's FENCED say that the controller has
been fenced, so it stops issuing for the domain and gives it up. -/
def State.ownerReject (s : State) (o : Out) (st : MSt) : State :=
  if st.cls ≠ .owner ∨ o.loc then s
  else
    let s1 := s.count .mlkOwnerRejects
    let s2 := (if st = .fenced then s1.count .mlkFenced
      else if st = .domainMismatch then (s1.raise .mlk 6).mediaSnag o.cmd st
      else s1).raise .mlk 3
    match o.cmd.dom with
    | .sd d =>
      if st ≠ .domainMismatch ∧ s2.owns d ∧ o.cmd.oepoch = s2.ubl.oepoch.get d
      then (s2.updMlk fun m => { m with stopped := m.stopped.set d true }).leaveDomain d
      else s2
    | .vault => s2

/-- A fold has completed with its report (R219). -/
def State.foldReported (s : State) (d : SD) (n pos : Nat) (b : List Byte) : State :=
  s.updMed fun m => { m with folds := m.folds.map fun f =>
    if f.sd = d ∧ f.stripe = n ∧ f.pos = pos then { f with report := some b } else f }

/-- The read of a fetch that is speculative still: its outcome waits for the compare and enters no counter or record (R82). -/
def State.unconfirmed (s : State) (c : MCmd) : Option Nat := match c.why with
  | .fetch id => ((Table.find s.dp.fetches id).filter (·.spec)).map fun _ => id
  | _ => none

/-- What MLK does with a completed command (Table 09.4). A Layer Split of an admission that fails refuses the module with CAUSE 5, which
the spec does not state (DESIGN CHOICE, assumption 118). -/
def State.complete (s : State) (o : Out) (r : MRes) : State :=
  let c : MCmd := o.cmd
  match s.unconfirmed c with
  | some id => s.readEnd id r
  | none =>
  let st : MSt := r.st
  let s1 : State := if st.cls = .transport ∧ !o.loc then s.noteTimeout c else s
  let s2 : State := if st.cls = .protocol then (s1.count .mlkProtocol).raise .mlk 5 else s1
  let s3 : State := if st = .notErased then s2.mediaSnag c st else s2
  let s4 : State := match c.why with
    | .fetch id => s3.readEnd id r
    | .slot n row pos => (match c.dom with
        | .sd d => if st = .fenced ∨ st = .staleOwner ∨ st = .notOwner then s3
          else s3.programEnd d n row pos c (decide (st = .ok)) (BitVec.ofNat 8 r.dw0).toInt
        | .vault => s3)
    | .erase => (match c.dom with | .sd d => s3.eraseEnd d c st | .vault => s3)
    | .fold n pos => (match c.dom with
        | .sd d =>
          if st = .ok then s3.foldReported d n pos r.data
          else if st = .fenced ∨ st = .staleOwner ∨ st = .notOwner then s3
          else s3.foldFailed d n pos
        | .vault => s3)
    | .fence d =>
      if st ≠ .ok then s3
      else
        let s5 := s3.updPort c.port fun p => p.setOwn d true
        let p := s5.port c.port
        if p.state = 1 ∧ p.step = 50 ∧ (!s5.owns .a ∨ p.ownA) ∧ (!s5.owns .b ∨ p.ownB) then s5.admitStep c.port 6 else s5
    | .descr => s3.gotDesc c.port (if st = .ok then some r.data else none)
    | .temp =>
      if st ≠ .ok then s3
      else
        let t (i : Nat) : Int := (BitVec.ofNat 8 (r.dw0 / 2 ^ (8 * i))).toInt
        s3.noteTemp c.port ⟨t 0, t 1, t 2⟩
    | .vault => if c.op = .program then s3.updMlk fun m => { m with vaultRes := m.vaultRes ++ [(c.port, st)] } else s3
    | .admin =>
      if (s3.port c.port).step ≠ 40 then s3
      else if st = .ok then s3.splitDone c.port else s3.refuse c.port 5
  s4.ownerReject o st

/-- A command of a port that waits for a queue entry is submitted once one is free (R214). -/
def State.submitNext (s : State) (port : Nat) : State :=
  match s.mlk.out.findIdx? fun o => o.cmd.port = port ∧ o.queue.isNone ∧ o.res.isNone with
  | none => s
  | some i => match s.mlk.out[i]? with
    | none => s
    | some o =>
      let s1 := s.updMlk fun m => { m with out := updAt m.out i fun _ => s.taken o.cmd }
      if s.mayIssue o.cmd.dom then s1 else s1.count .mlkFenced

/-- MEDIA_COMMAND_COMPLETION (R214, R222): the completion of an outstanding command reaches MLK. -/
def execMediaCommandCompletion (i : Nat) (s : State) : Res :=
  match s.mlk.out[i]? with
  | none => .next s
  | some o =>
    match o.res with
    | none => .next s
    | some r => .next (((s.updMlk fun m => { m with out := m.out.eraseIdx i }).complete o r).submitNext o.cmd.port)

/-- COMMAND_TIMEOUT (R214, R223, R224): the identifier of a submitted command is retired, and it is a failed attempt of its kind.
The module is told to abort it (DESIGN CHOICE, assumption 120: whether it still executes the command is open), and a completion
that it has given already is discarded. -/
def execCommandTimeout (i : Nat) (s : State) : Res :=
  match s.mlk.out[i]? with
  | none => .next s
  | some o =>
    if o.loc ∨ o.queue.isNone then .next s
    else
      let s1 := s.updMlk fun m => { m with
        out := m.out.eraseIdx i, late := m.late ++ (if o.res.isNone then [o.cmd] else []) }
      .next ((s1.complete o ⟨.internal, 0, []⟩).submitNext o.cmd.port)

end Sys2Proof.Machine
end

