-- ==== Sys2Proof/Machine/Frontend.lean ====
section
/-!
DEFINITION. Commands of the front end: capsules, acceptance, I/O commands, fences, reservations, Abort and the
admin and fabrics commands (rows CAPSULE_RECEIVED to RDMA_CM_CONNECT_REQUEST, without Format NVM and Sanitize).
-/

namespace Sys2Proof.Machine

/-! ### Receive and accept -/

/-- CAPSULE_RECEIVED (R65, R256, R418): a SEND on the queue pair of its queue; before Connect the queue names the
queue pair's INDEX. -/
def execCapsuleReceived (icrcOk : Bool) (psn : Nat) (c : Capsule) (s : State) : Res :=
  let i := match s.fe.queue c.q with
    | some x => x.qp
    | none => c.q.qid
  match s.qp? i with
  | none => .next s
  | some q =>
    .next (if s.works .rdm && s.powered .rdm && icrcOk && s.ethPort q.port
      then s.rxPkt ⟨q.gen * 65536 + i, psn, q.port, .send c⟩ else s)

/-- The queue for which a READ work request fetches. -/
def State.fetchQueue (s : State) (sd : SD) (stamp : Nat) : Option QId :=
  match s.cmd? sd stamp with
  | some c => some c.cap.q
  | none =>
    match s.fe.fwd.find? fun f => fwdKey f.tag = stamp ∧ f.sd = sd with
    | some f => some f.cap.q
    | none => (s.fe.waiting.find? fun w => capKey w.cap = stamp ∧ w.cap.origin.isNone ∧ w.asked).map (·.cap.q)

/-- RDMA_READ_RESPONSE (R53, R65, R66): fetched data of a command; nothing is placed before the packet's checks pass. -/
def execRdmaReadResponse (icrcOk psnOk : Bool) (sd : SD) (stamp : Nat) (data : List Byte) (s : State) : Res :=
  match (s.fetchQueue sd stamp).bind s.fe.queue with
  | none => .next s
  | some x => .next (if s.works .rdm && s.powered .rdm && icrcOk && psnOk && !x.err then s.dataArrived x.qp sd stamp data else s)

/-- What a capsule needs before it is stamped (assumption 17): the list of a fence (R47), the data of a reservation command (R44). -/
def Capsule.dataFirst (c : Capsule) : Bool := !c.inCapsule && decide (c.op ∈ [0x0D, 0x11, 0x15, 0x84])

/-- It is at hand; a forwarded fence has left its list behind. -/
def State.dataReady (s : State) (w : Waiting) : Bool :=
  !w.cap.dataFirst || (decide (w.cap.op = 0x84) && w.cap.origin.isSome) || decide (w.data.length ≥ s.capBytes w.cap)

/-- Post the RDMA READ of a capsule's data, once (R47, R65). The domain in the request only names it. -/
def State.fetchCap (s : State) (w : Waiting) : State :=
  if w.asked ∨ w.cap.origin.isSome then s
  else (s.updFe fun f => { f with waiting := f.waiting.map fun x => if x.cap = w.cap then { x with asked := true } else x }).postRead
    w.cap.q .a (capKey w.cap) (s.capBytes w.cap)

/-- Take a waiting capsule off. -/
def State.takeWait (s : State) (w : Waiting) : State :=
  s.updFe fun f => match takeFirst (fun x => x.cap = w.cap) f.waiting with
    | some (_, r) => if w.cap.origin.isSome then { f with waiting := r } else { f with waiting := r }.acceptOn w.cap.q
    | none => f

/-- Stamp a waiting capsule of a namespace of an owned domain, or raise what holds it. -/
def State.stampWait (s : State) (w : Waiting) (n : Namespace) : State :=
  match s.holdOf w.cap n with
  | .context => s.raise .fe 0
  | .table => s.raise .fe 1
  | .wait => s
  | .go => ((s.takeWait w).acceptOwned w.cap n w.data).getD s

/-- Admit the front capsule of an I/O queue (R38 to R46, R253, R259, R260, R275, R324). -/
def State.intoFe (s : State) (w : Waiting) : State :=
  let c := w.cap
  match s.admitStatus c with
  | some st => s.failFront c st
  | none =>
    if c.op = 0x84 then s
    else if c.nsid = 0xFFFFFFFF then
      if s.spanOpen (s.spans c.q.cntlid) then (s.takeWait w).acceptSpan c (s.spans c.q.cntlid) else s
    else
      match s.attachedNs c with
      | none => s
      | some n =>
        if s.fe.gap.get n.sd then s
        else if !s.owns n.sd then (if s.ubl.up then (s.takeWait w).forward c n.sd else s)
        else if !s.dataReady w then s.fetchCap w
        else s.stampWait w n

/-- An earlier command forwarded for the same host controller waits: a forwarded fence stands after those it counted (R48). -/
def State.fenceBehind (s : State) (c : Capsule) : Bool :=
  decide (c.op = 0x84) &&
  (s.fe.waiting.takeWhile fun w => decide (w.cap ≠ c)).any fun w => w.cap.origin.isSome && decide (w.cap.q.cntlid = c.q.cntlid)

/-- A forwarded Set or Get Features of feature 0x83, whose value belongs to the namespace's domain (R268). -/
def State.fwdFeature (s : State) (c : Capsule) : State :=
  match s.attachedNs c with
  | none => s.answer c stBadNs 0 []
  | some n =>
    let r := s.resvOf n.sd c.nsid
    if !s.owns n.sd then s.answer c stTransition 0 []
    else if c.op = 0x09 then (s.setResv n.sd c.nsid { r with ptpl := bitOf (c.cdw 11) 0 }).answer c stOk 0 []
    else s.answer c stOk (b2n r.ptpl) []

/-- Admit a forwarded command (R40, R42, R48, R276, R317): the owner stamps it; a command of a domain that has moved meanwhile
completes with Asymmetric Access Transition. -/
def State.admitFwd (s : State) (w : Waiting) : State :=
  let c := w.cap
  if c.q.qid = 0 then (s.takeWait w).fwdFeature c else
  match s.admitStatus c with
  | some st => (s.takeWait w).answer c st 0 []
  | none =>
    if s.fenceBehind c then s
    else if c.nsid = 0xFFFFFFFF then
      let ds := (s.spans c.q.cntlid).filter s.owns
      if ds.any (s.fe.gap.get ·) then s else (s.takeWait w).acceptSpan c ds
    else
      match s.attachedNs c with
      | none => s
      | some n =>
        if s.fe.gap.get n.sd then s
        else if !s.owns n.sd then (s.takeWait w).answer c stTransition 0 []
        else if !s.dataReady w then s
        else s.stampWait w n

/-- The list of a waiting fence. -/
def Waiting.list (w : Waiting) : List Byte := if w.cap.inCapsule then w.cap.data else w.data

/-- The fence that a waiting fence capsule makes. -/
def Waiting.fence (w : Waiting) : Fence :=
  ⟨w.cap, (fenceEntries w.list (bitsOf (w.cap.cdw 10) 6 0)).map fun (a, b, _) => (a, b), none, false⟩

/-- A fence capsule of this head fails at once (R49). -/
def State.fenceFails (s : State) (w : Waiting) : Bool :=
  s.fenceBad w.cap (((s.fe.queue w.cap.q).map (·.acc)).getD 0 + 1) (fenceEntries w.list (bitsOf (w.cap.cdw 10) 6 0))

/-- A capsule would be stamped now: nothing holds it, and it does not fail. -/
def State.goes (s : State) (w : Waiting) : Bool :=
  let c := w.cap
  s.feOpen && (c.origin.isSome || !s.fe.fenced c.q && decide (c.q.qid ≠ 0) && decide (c.q.cntlid ≠ 0xFFFF)) &&
  (s.admitStatus c).isNone && s.dataReady w && !s.fenceBehind c &&
  (if c.op = 0x84 ∧ c.origin.isNone then
    !s.fenceFails w && (s.updFe fun f => f.acceptOn c.q).fenceMet w.fence
  else if c.nsid = 0xFFFFFFFF then s.spanOpen (s.spans c.q.cntlid)
  else match s.attachedNs c with
    | none => false
    | some n => s.owns n.sd && !s.fe.gap.get n.sd && decide (s.holdOf c n = .go) &&
        ((s.takeWait w).acceptOwned c n w.data).isSome)

/-- Two capsules come on one queue of one head. -/
def Waiting.along (a b : Waiting) : Bool := decide (a.cap.q = b.cap.q ∧ a.cap.origin.isSome = b.cap.origin.isSome)

/-- The first waiting capsule of every queue, in the order of their arrival. -/
def fronts (ws : List Waiting) : List Waiting := ws.foldl (fun l w => if l.any w.along then l else l ++ [w]) []

/-- Something that came earlier would be stamped now (R43, R48 step 1): the front capsule of another queue, or a fence that has
reached its fence point. -/
def State.comesFirst (s : State) (w : Waiting) : Bool :=
  s.fe.fences.any (fun f => f.point.isNone && s.fenceMet f) ||
  ((fronts s.fe.waiting).takeWhile fun x => !x.along w).any s.goes

/-- The front capsule of a queue as it waits: of this head's, else the first one forwarded from a queue of the peer's. -/
def FeState.frontWait (f : FeState) (q : QId) : Option Waiting :=
  ((fronts f.waiting).find? fun w => w.cap.q = q ∧ w.cap.origin.isNone) <|> ((fronts f.waiting).find? fun w => w.cap.q = q)

/-- ACCEPT: the front capsule of an I/O queue, unless a fence of the queue holds it (R48), FE is not open, or a capsule that came
earlier on another queue goes first (R43); of a queue of the peer's, the first command forwarded from it. -/
def execAccept (q : QId) (s : State) : Res :=
  match s.fe.frontWait q with
  | none => .next s
  | some w =>
    if !s.feOpen ∨ s.comesFirst w then .next s
    else if w.cap.origin.isSome then .next (s.admitFwd w)
    else .next (if !s.fe.fenced q && decide (q.qid ≠ 0) && decide (q.cntlid ≠ 0xFFFF) then s.intoFe w else s)

/-! ### I/O commands -/

/-- Start the fetch of a command's data by RDMA READ (R65): one work request on its queue pair. -/
def State.fetchHost (s : State) (c : Cmd) : State :=
  let s1 := s.updCmd c.sd c.stamp fun x => { x with started := true }
  if c.cap.origin.isSome then s1 else s1.postRead c.cap.q c.sd c.stamp (s.needBytes c)

/-- A command whose status is open and whose opcode is as expected. -/
def State.live (s : State) (sd : SD) (stamp op : Nat) : Option Cmd :=
  match s.cmd? sd stamp with
  | some c => if c.cap.op = op ∧ c.status.isNone then some c else none
  | none => none

/-- WRITE (R39, R53, R66): the data in the capsule lands, or its fetch starts. -/
def execWrite (sd : SD) (stamp : Nat) (s : State) : Res :=
  match s.live sd stamp 0x01 with
  | none => .next s
  | some c =>
    .next (if c.started then s
      else if c.cap.inCapsule then (s.updCmd sd stamp fun x => { x with started := true }).feed sd stamp c.cap.data
      else s.fetchHost c)

/-- READ (R41): every granule is resolved, from the dust sheet, by run-ahead or from the map. -/
def execRead (sd : SD) (stamp : Nat) (s : State) : Res :=
  match s.live sd stamp 0x02 with
  | none => .next s
  | some _ => .next (s.startRead s.hour sd stamp)

/-- COMPARE (R44, R256): ordered and resolved as a read; its own data is fetched where it is not in the capsule. -/
def execCompare (sd : SD) (stamp : Nat) (s : State) : Res :=
  match s.live sd stamp 0x05 with
  | none => .next s
  | some c =>
    if c.started ∨ s.mustHold c then .next s
    else
      let s1 := s.startRead s.hour sd stamp
      .next (if c.cap.inCapsule then s1
        else match s1.cmd? sd stamp with
          | some x => s1.fetchHost x
          | none => s1)

/-- VERIFY (R256): the read path to the Check stage. -/
def execVerify (sd : SD) (stamp : Nat) (s : State) : Res :=
  match s.live sd stamp 0x0C with
  | none => .next s
  | some _ => .next (s.startRead s.hour sd stamp)

/-- The units of a write in both domains' scope are in both dust sheets (R51): complete and, where there is a
mirror, acknowledged; an abandoned unit holds nothing. -/
def Cmd.safe (c : Cmd) (noMirror : Bool) : Bool :=
  (!c.units.isEmpty || c.status.isSome) && c.units.all fun u => u.abandoned || (u.complete && (noMirror || u.acked))

/-- A Flush covers a write (R51): in its scope and stamped below it. -/
def Cmd.flushes (f c : Cmd) (s : State) : Bool :=
  changesBlocks c.cap.op &&
  (decide (f.cap.nsid = c.cap.nsid) || (decide (f.cap.nsid = 0xFFFFFFFF) && (match s.ns? c.cap.nsid with
    | some n => decide (f.cap.q.cntlid ∈ n.attached)
    | none => false))) &&
  ((f.sd, f.stamp) :: f.stamps).any fun (d, t) => d = c.sd ∧ c.stamp < t

/-- FLUSH (R51, R326): complete once every write it covers is held in both dust sheets. -/
def execFlush (sd : SD) (stamp : Nat) (s : State) : Res :=
  match s.live sd stamp 0x00 with
  | none => .next s
  | some f =>
    .next (if f.tags.isEmpty && s.fe.cmds.all (fun c => !f.flushes c s || c.safe s.noMirror)
      then s.result sd stamp stOk else s)

/-- Land every unit of a Write Zeroes or deallocation (R53, R257). -/
def State.landUnits (s : State) (sd : SD) (stamp : Nat) : State :=
  match s.cmd? sd stamp with
  | none => s
  | some c =>
    match s.ns? c.cap.nsid with
    | none => s
    | some n =>
      let s1 := c.units.foldl (fun s u => s.landZero c n u) s
      (if c.units.isEmpty then s1.result sd stamp stOk else s1).settleWrite sd stamp

/-- WRITE_ZEROES (R53, R256, R257). -/
def execWriteZeroes (sd : SD) (stamp : Nat) (s : State) : Res :=
  match s.live sd stamp 0x08 with
  | none => .next s
  | some c => .next (if c.started then s else (s.updCmd sd stamp fun x => { x with started := true }).landUnits sd stamp)

/-- DATASET_MANAGEMENT (R53, R256, R257): deallocation of the ranges of its list once it is at hand; without AD the
command has no effect. The list's ranges lie inside the namespace. -/
def execDatasetManagement (sd : SD) (stamp : Nat) (s : State) : Res :=
  match s.live sd stamp 0x09 with
  | none => .next s
  | some c =>
    match s.ns? c.cap.nsid with
    | none => .next (s.result sd stamp stBadNs)
    | some n =>
      let nr := bitsOf (c.cap.cdw 10) 7 0 + 1
      if !bitOf (c.cap.cdw 11) 2 then .next (s.result sd stamp stOk)
      else
        let list := if c.cap.inCapsule then c.cap.data else c.host
        if list.length < 16 * nr then .next (if c.started then s else s.fetchHost c)
        else
          let rs := dsmRanges list nr
          if rs.any fun (a, k) => a + k > s.nsze n then .next ((s.abandon sd stamp).result sd stamp stLbaRange)
          else
            let made := if c.units.isEmpty then s.makeUnits c n 0 (dsmUnits n.lbaf rs) else some s
            match made with
            | none => .next s
            | some s1 => .next ((s1.updCmd sd stamp fun x => { x with started := true }).landUnits sd stamp)

/-! ### Ordering Fence (R47 to R49) -/

/-- ORDERING_FENCE: the front capsule of a queue is a fence. A list outside the capsule is fetched first, as write data is; `data`
is what the host's memory answers to a READ that has been posted. It fails at once, reaches its fence point at once, or waits. -/
def execOrderingFence (q : QId) (data : List Byte) (s : State) : Res :=
  match s.fe.frontWait q with
  | none => .next s
  | some w0 =>
    let c := w0.cap
    if c.op ≠ 0x84 ∨ c.origin.isSome ∨ q.qid = 0 ∨ s.fe.fenced q ∨ !s.feOpen then .next s
    else
      match s.admitStatus c with
      | some st => .next (s.failFront c st)
      | none =>
        if !s.dataReady w0 ∧ !w0.asked then .next (s.fetchCap w0)
        else
          let s0 := if s.dataReady w0 then s else match s.fe.queue q with
            | some x => s.capArrived x.qp .a c data
            | none => s
          match s0.fe.frontWait q with
          | none => .next s0
          | some w =>
            if !s0.dataReady w ∨ s0.comesFirst w then .next s0
            else if s0.fenceFails w then .next (s0.failFront c stBadField)
            else
              let s1 := (s0.takeWait w).updFe fun x => { x with fences := x.fences ++ [w.fence] }
              .next (if s1.fenceMet w.fence then s1.fencePoint w.fence else s1)

/-- FENCE_POINT_REACHED (R48): a waiting fence, by its queue and command identifier. -/
def execFencePointReached (q : QId) (cid : Nat) (s : State) : Res :=
  match s.fe.fences.find? fun f => f.cap.q = q ∧ f.cap.cid = cid with
  | some f => .next (if s.fenceMet f then s.fencePoint f else s)
  | none => .next s

/-- FENCE_SOURCE_LOST (R49): a queue a waiting fence lists is gone, or its queue pair is in the error state, before
it reached its SUBC; what a queue had reached when it ended is no longer listed. -/
def execFenceSourceLost (q : QId) (cid : Nat) (s : State) : Res :=
  match s.fe.fences.find? fun f => f.cap.q = q ∧ f.cap.cid = cid with
  | none => .next s
  | some f =>
    let lost := f.ents.any fun (k, subc) =>
      match s.fe.queue ⟨q.cntlid, k⟩ with
      | none => true
      | some x => x.err && !entryMet x.acc subc
    if lost then
      .next (((s.updFe fun x => { x with fences := x.fences.filter (· ≠ f) }).answer f.cap stFenceLost 0 []).raise .fe 6)
    else .next s

/-! ### Reservations (R44, R268, R269) -/

/-- A reservation notification to the host controllers of one host on this head (R268, R269): a log page entry and
its asynchronous event, unless the host masked the kind by feature 0x82. -/
def State.resvEvent (s : State) (host nsid kind : Nat) : State :=
  s.fe.hosts.foldl (fun s (n, h) =>
    if h.hostId = host ∧ !bitOf (Table.getD h.feats 0x82 0) kind then
      let e := fit (leBytes 8 (h.resvLog.length + 1) ++ leBytes 1 kind ++ leBytes 1 h.resvLog.length ++ zeros 2 ++ leBytes 4 nsid) 64
      (s.updFe fun f => { f with hosts := Table.upd f.hosts n fun h => { h with resvLog := (h.resvLog ++ [e]).take 255 } }).asyncTo n ⟨6, 0, 0x80⟩
    else s) s

/-- A reservation notification to every host controller of the hosts named, on this head and, by a MESSAGE frame, on
the peer (R268, R269): kinds 1 registration preempted, 2 reservation released, 3 reservation preempted. -/
def State.resvNotify (s : State) (d : SD) (hosts : List Nat) (kind nsid : Nat) : State :=
  if hosts.isEmpty then s
  else
    (hosts.foldl (fun s h => s.resvEvent h nsid kind) s).send
      (.message 1 d (leBytes 4 nsid ++ leBytes 1 kind ++ hosts.flatMap (leBytes 16)))

/-- A reservation command fails the check. -/
def State.resvFail (s : State) (c : Cmd) : State := (s.result c.sd c.stamp stResvConflict).count .feResvConflict

/-- Run a reservation command (R44, R269): its effect on the state that the commands stamped before it leave; its data was at
hand when it was stamped. -/
def State.resvRun (s : State) (sd : SD) (stamp op : Nat) : Res :=
  match s.live sd stamp op with
  | none => .next s
  | some c =>
    if s.resvEarlier sd stamp c.cap.nsid then .next s
    else
      let e := (s.resvOf sd c.cap.nsid).act c.cap c.resvData
      let s1 := if e.changed then s.setResv sd c.cap.nsid e.next else s
      let s2 := if e.st = stResvConflict then s1.resvFail c else s1.result sd stamp e.st
      .next (e.notes.foldl (fun s (hosts, kind) => s.resvNotify sd hosts kind c.cap.nsid) s2)

/-- RESERVATION_REGISTER. -/
def execReservationRegister (sd : SD) (stamp : Nat) (s : State) : Res := s.resvRun sd stamp 0x0D

/-- RESERVATION_REPORT. -/
def execReservationReport (sd : SD) (stamp : Nat) (s : State) : Res :=
  match s.live sd stamp 0x0E with
  | none => .next s
  | some c =>
    let b := (s.resvAt sd c.cap.nsid stamp).report
    .next ((s.updCmd sd stamp fun x => { x with out := b.take (4 * (c.cap.cdw 10 + 1)) }).result sd stamp stOk)

/-- RESERVATION_ACQUIRE: acquire, preempt, preempt and abort. -/
def execReservationAcquire (sd : SD) (stamp : Nat) (s : State) : Res := s.resvRun sd stamp 0x11

/-- RESERVATION_RELEASE: release and clear. -/
def execReservationRelease (sd : SD) (stamp : Nat) (s : State) : Res := s.resvRun sd stamp 0x15

/-! ### Admin commands -/

/-- The front capsule of an admin queue, if it is the command asked for. -/
def State.adminFront (s : State) (q : QId) (op : Nat) : Option (Capsule × HostCtl) :=
  match s.fe.front q, Table.find s.fe.hosts q.cntlid with
  | some c, some h => if q.qid = 0 ∧ c.op = op ∧ c.fuse = 0 ∧ s.works .fe ∧ s.powered .fe then some (c, h) else none
  | _, _ => none

/-- Take the front capsule of an admin queue. -/
def State.takeAdmin (s : State) (q : QId) : State := s.updFe fun f => (f.dropFront q).acceptOn q

/-- Answer an admin command. -/
def State.adminDone (s : State) (c : Capsule) (st : Status) (dw0 : Nat) (data : List Byte) : State :=
  (s.takeAdmin c.q).answer c st dw0 data

/-- Change a host controller. -/
def State.updHost (s : State) (cntlid : Nat) (f : HostCtl → HostCtl) : State :=
  s.updFe fun x => { x with hosts := Table.upd x.hosts cntlid f }

/-- The result of an Abort: caught or not (R270). -/
def State.abortDone (s : State) (c : Capsule) (caught : Bool) : State :=
  let s1 := s.adminDone c stOk (if caught then 0 else 1) []
  if caught then s1.count .feAbortCaught else s1

/-- A write no unit of which has reached its data-complete point while it awaits data (R56). -/
def Cmd.abortable (c : Cmd) : Bool :=
  c.held || (decide (c.cap.op = 0x01 ∨ c.cap.op = 0x09) && !c.cap.inCapsule && !c.units.any (·.complete))

/-- A capsule is held at admission by a fence of its queue, by the write hold of R38 or by a Screed limit (R56). -/
def State.heldAtFe (s : State) (c : Capsule) : Bool :=
  s.fe.fenced c.q && c.origin.isNone || s.screedStops ||
  (match s.attachedNs c with
    | some n => !s.hasToken n || (changesBlocks c.op && s.ubl.hold.get n.sd)
    | none => false)

/-- Catch a command of a queue, if it is held and has not started (R56). -/
def State.catchCmd (s : State) (p : Capsule → Bool) : Option State :=
  match s.fe.waiting.find? fun w => p w.cap with
  | some w => if s.heldAtFe w.cap then some ((s.takeWait w).answer w.cap stAborted 0 []) else none
  | none =>
    match s.fe.fences.find? fun f => p f.cap with
    | some f => some ((s.updFe fun x => { x with fences := x.fences.filter (· ≠ f) }).answer f.cap stAborted 0 [])
    | none =>
      match s.fe.cmds.find? fun c => p c.cap ∧ c.status.isNone ∧ !c.posted with
      | some c =>
        if c.abortable then
          some (((s.abandon c.sd c.stamp).updCmd c.sd c.stamp fun x => { x with held := false }).result c.sd c.stamp stAborted)
        else none
      | none => none

/-- ABORT (R56, R270). -/
def execAbort (q : QId) (s : State) : Res :=
  match s.adminFront q 0x08 with
  | none => .next s
  | some (c, h) =>
    let sqid := bitsOf (c.cdw 10) 15 0
    let cid := bitsOf (c.cdw 10) 31 16
    if h.aborts ≥ 4 then .next (s.adminDone c stAbortLimit 0 [])
    else
      let t (x : Capsule) : Bool := decide (x.q = ⟨q.cntlid, sqid⟩ ∧ x.cid = cid ∧ x.origin = none)
      if sqid = 0 then .next (s.abortDone c false)
      else
        match s.fe.fwd.find? fun f => t f.cap with
        | some f =>
          -- the owner decides; the Abort completes with its answer
          let s1 := (s.takeAdmin q).updHost q.cntlid fun h => { h with aborts := h.aborts + 1 }
          .next ((s1.updFe fun x => { x with fwd := x.fwd.map fun y => if y.tag = f.tag then { y with abort := some (c.q, c.cid) } else y }).send
            (.fwdAbort f.tag))
        | none =>
          match s.catchCmd t with
          | some s1 => .next (s1.abortDone c true)
          | none => .next (s.abortDone c false)

/-- A Sanitize record is open (R275). -/
def State.sanitizing (s : State) : Bool := (s.fe.progress.map (·.op)) = some 2

/-- The log pages that NVMe lets a host read while a Sanitize runs: Error Information, SMART, Changed Namespace List, Reservation
Notification, Sanitize Status (PRESUMED, assumption 127). Every other admin command of Table 11.3 but Format NVM is allowed then. -/
def sanitizePages : List Nat := [0x01, 0x02, 0x04, 0x80, 0x81]

/-- GET_LOG_PAGE (R258, R266, R275). -/
def execGetLogPage (q : QId) (s : State) : Res :=
  match s.adminFront q 0x02 with
  | none => .next s
  | some (c, h) =>
    let lid := bitsOf (c.cdw 10) 7 0
    let numd := bitsOf (c.cdw 10) 31 16 + 65536 * bitsOf (c.cdw 11) 15 0 + 1
    let off := c.cdw 12 + 2 ^ 32 * c.cdw 13
    if s.sanitizing ∧ lid ∉ sanitizePages then .next (s.adminDone c stSanitizing 0 [])
    else match s.logPage q.cntlid h lid c.nsid with
    | none => .next (s.adminDone c stBadLogPage 0 [])
    | some (st, b) =>
      let s1 := s.adminDone c st 0 (if st = stOk then slice b off (4 * numd) else [])
      .next (if bitOf (c.cdw 10) 15 then s1 else s1.updHost q.cntlid fun h => h.pageRead lid)

/-- IDENTIFY (R52, R256). -/
def execIdentify (q : QId) (s : State) : Res :=
  match s.adminFront q 0x06 with
  | none => .next s
  | some (c, h) =>
    match s.identify q.cntlid h (bitsOf (c.cdw 10) 7 0) c.nsid (bitsOf (c.cdw 11) 31 24) with
    | some (st, b) => .next (s.adminDone c st 0 b)
    | none => .next (s.adminDone c stBadField 0 [])

/-- SET_FEATURES (R256, Table 11.3). -/
def execSetFeatures (q : QId) (s : State) : Res :=
  match s.adminFront q 0x09 with
  | none => .next s
  | some (c, _) =>
    match bitsOf (c.cdw 10) 7 0 with
    | 0x06 => .next (s.adminDone c stNotChangeable 0 [])
    | 0x07 => .next (s.adminDone c stOk 0x007F007F [])
    | 0x0B => .next ((s.adminDone c stOk 0 []).updHost q.cntlid fun h => { h with feats := Table.put h.feats 0x0B (c.cdw 11) })
    | 0x0F =>
      if c.cdw 11 < 1000 ∨ c.cdw 11 > 300000 then .next (s.adminDone c stBadField 0 [])
      else .next ((s.adminDone c stOk 0 []).updHost q.cntlid fun h => { h with kato := (c.cdw 11 + 99) / 100 })
    | 0x81 => .next (s.adminDone c stSequence 0 [])
    | 0x82 => .next ((s.adminDone c stOk 0 []).updHost q.cntlid fun h => { h with feats := Table.put h.feats 0x82 (c.cdw 11) })
    | 0x83 =>
      match s.attachedNs c with
      | none => .next (s.adminDone c stBadNs 0 [])
      | some n =>
        if !s.owns n.sd then .next ((s.takeAdmin q).forward c n.sd)
        else
          .next ((s.setResv n.sd c.nsid { s.resvOf n.sd c.nsid with ptpl := bitOf (c.cdw 11) 0 }).adminDone c stOk 0 [])
    | _ => .next (s.adminDone c stBadField 0 [])

/-- GET_FEATURES (R256): PTPL of a namespace of the peer's domain is asked of the peer. -/
def execGetFeatures (q : QId) (s : State) : Res :=
  match s.adminFront q 0x0A with
  | none => .next s
  | some (c, h) =>
    if bitsOf (c.cdw 10) 7 0 = 0x83 ∧ ((s.attachedNs c).map fun n => s.owns n.sd) = some false then
      .next ((s.takeAdmin q).forward c (((s.attachedNs c).map (·.sd)).getD .a))
    else match s.feature c h (bitsOf (c.cdw 10) 7 0) with
    | some (v, b) => .next (s.adminDone c stOk v b)
    | none => .next (s.adminDone c stBadField 0 [])

/-- Asynchronous Event Request Limit Exceeded. -/
def stAerLimit : Status := ⟨1, 0x05⟩

/-- ASYNCHRONOUS_EVENT_REQUEST (R271): it takes a kept event or waits; at most 8 are outstanding (AERL 7). -/
def execAsynchronousEventRequest (q : QId) (s : State) : Res :=
  match s.adminFront q 0x0C with
  | none => .next s
  | some (c, h) =>
    match h.kept with
    | e :: rest =>
      .next ((s.updHost q.cntlid fun h => { h with kept := rest }).adminDone c stOk (e.etype + e.info * 2 ^ 8 + e.page * 2 ^ 16) [])
    | [] =>
      if h.aers.length ≥ 8 then .next (s.adminDone c stAerLimit 0 [])
      else .next ((s.takeAdmin q).updHost q.cntlid fun h => { h with aers := h.aers ++ [c.cid] })

/-- ASYNCHRONOUS_EVENT (R271): an event for one host controller. -/
def execAsynchronousEvent (cntlid : Nat) (e : AEvent) (s : State) : Res := .next (s.asyncTo cntlid e)

/-- KEEP_ALIVE (R256). -/
def execKeepAlive (q : QId) (s : State) : Res :=
  match s.adminFront q 0x18 with
  | none => .next s
  | some (c, _) => .next (s.adminDone c stOk 0 [])

/-- KEEP_ALIVE_TIMEOUT (R252): the host controller ends and its queue pairs enter the error state. -/
def execKeepAliveTimeout (cntlid : Nat) (s : State) : Res :=
  match Table.find s.fe.hosts cntlid with
  | none => .next s
  | some h => .next (if h.kato = 0 then s else s.endController cntlid)

/-! ### Fabrics commands -/

/-- The well-known discovery NQN. -/
def discoveryNqn : List Byte := ascii "nqn.2014-08.org.nvmexpress.discovery"

/-- An NQN field without its padding. -/
def nqnOf (b : List Byte) : List Byte := b.takeWhile (· ≠ 0)

/-- The lowest CNTLID of this head's range that no host controller uses (R252). -/
def State.freeCntlid (s : State) : Option Nat :=
  let base := s.top.head * 0x800 + 1
  (List.range 2048).findSome? fun i => if (Table.find s.fe.hosts (base + i)).isNone then some (base + i) else none

/-- A blank host controller. -/
def HostCtl.new (hostId kato : Nat) (disc : Bool) : HostCtl := ⟨hostId, kato, disc, 0, [], [], [], [], [], [], [], 0, 0⟩

/-- Connect: the status, or the queue it makes and the host controller it creates (R252, R253). -/
def State.connect (s : State) (qp : Nat) (c : Capsule) : Sum Status (Queue × Option HostCtl) :=
  let qid := leAt c.sqe 42 2
  let size := leAt c.sqe 44 2 + 1
  let kato := leAt c.sqe 48 4
  let hostId := leAt c.data 0 16
  let cnt := leAt c.data 16 2
  let sub := nqnOf (slice c.data 256 256)
  let disc := decide (sub = discoveryNqn)
  if !disc ∧ sub ≠ s.fe.nqn then .inl stConnectParam
  else if qid = 0 then
    if cnt ≠ 0xFFFF ∨ size < 2 ∨ size > 32 then .inl stConnectParam
    else if kato ≠ 0 ∧ (kato < 1000 ∨ kato > 300000) then .inl stConnectParam
    else
      match s.freeCntlid with
      | none => .inl stBusy
      | some n => .inr (⟨⟨n, 0⟩, size, 0, 0, qp, false⟩, some (HostCtl.new hostId ((kato + 99) / 100) disc))
  else
    match Table.find s.fe.hosts cnt with
    | none => .inl stConnectParam
    | some h =>
      if h.hostId ≠ hostId ∨ h.discovery ∨ !bitOf h.cc 0 ∨ qid > 128 ∨ size < 2 ∨ size > 1024 ∨ (s.fe.queue ⟨cnt, qid⟩).isSome then
        .inl stConnectParam
      else if (s.fe.queues.filter fun x => x.q.cntlid = cnt ∧ x.q.qid ≠ 0).length ≥ 128 then .inl stBusy
      else if s.fe.queues.length ≥ 65024 then .inl stBusy
      else .inr (⟨⟨cnt, qid⟩, size, 0, 0, qp, false⟩, none)

/-- CONNECT: the Connect capsule that waits on a queue pair. -/
def execConnect (qp : Nat) (s : State) : Res :=
  match s.fe.front ⟨0xFFFF, qp⟩ with
  | none => .next s
  | some c =>
    if c.op ≠ 0x7F ∨ c.fctype ≠ 1 ∨ !s.works .fe ∨ !s.powered .fe then .next s
    else
      let s1 := s.updFe fun f => f.dropFront ⟨0xFFFF, qp⟩
      match s1.connect qp c with
      | .inl st => .next (s1.respond ⟨⟨0xFFFF, qp⟩, c.cid, st, 0, [], false⟩)
      | .inr (x, h) =>
        let s2 := s1.updFe fun f => { f with
          queues := f.queues ++ [x]
          hosts := match h with
            | some v => Table.put f.hosts x.q.cntlid v
            | none => f.hosts }
        let s3 := s2.updQp qp fun q => { q with q := some x.q }
        .next (s3.respond ⟨x.q, c.cid, stOk, x.q.cntlid, [], false⟩)

/-- PROPERTY_SET (R256): CC is the one property a host writes. Clearing CC.EN resets the host controller: its I/O queue
pairs enter the error state and its I/O queues end. -/
def execPropertySet (q : QId) (s : State) : Res :=
  match s.adminFront q 0x7F with
  | none => .next s
  | some (c, h) =>
    if c.fctype ≠ 0 then .next s
    else if leAt c.sqe 44 4 ≠ 0x14 then .next (s.adminDone c stBadField 0 [])
    else
      let v := leAt c.sqe 48 4
      let s1 := (s.updHost q.cntlid fun h => { h with cc := v }).adminDone c stOk 0 []
      if bitOf h.cc 0 ∧ !bitOf v 0 then
        let io := s1.fe.queues.filter fun x => x.q.cntlid = q.cntlid ∧ x.q.qid ≠ 0
        let s2 := io.foldl (fun s x => s.qpError x.qp none) s1
        .next (io.foldl (fun s x => s.updFe fun f => f.dropQueue x.q) s2)
      else .next s1

/-- PROPERTY_GET (R256): the value in the completion's first two dwords. -/
def execPropertyGet (q : QId) (s : State) : Res :=
  match s.adminFront q 0x7F with
  | none => .next s
  | some (c, h) =>
    if c.fctype ≠ 4 then .next s
    else
      match h.property (leAt c.sqe 44 4) with
      | some v => .next (s.adminDone c stOk v [])
      | none => .next (s.adminDone c stBadField 0 [])

/-- A queue ends after its last response: its queue pair is destroyed (R292). -/
def State.endQueue (s : State) (q : QId) : State :=
  match s.fe.queue q with
  | none => s
  | some x =>
    let s1 := (s.qpError x.qp none).queueError q
    (s1.updFe fun f => f.dropQueue q).updRdm fun r => { r with qps := Table.del r.qps x.qp }

/-- DISCONNECT (R55, R252): the queue ends; on the admin queue the host controller ends with it. -/
def execDisconnect (q : QId) (s : State) : Res :=
  match s.fe.front q with
  | none => .next s
  | some c =>
    if c.op ≠ 0x7F ∨ c.fctype ≠ 8 ∨ !s.works .fe ∨ !s.powered .fe then .next s
    else
      let s1 := (s.takeAdmin q).answer c stOk 0 []
      .next (if q.qid = 0 then
          let s2 := s1.endController q.cntlid
          (s2.fe.queues.filter (·.q.cntlid = q.cntlid)).foldl (fun s x => s.endQueue x.q) s2
        else s1.endQueue q)

/-- Contexts of one use: NVMe or replication (R254). -/
def State.ctxCount (s : State) (nvme : Bool) : Nat :=
  (s.rdm.qps.filter fun (_, q) => decide (q.kind = .nvme) == nvme).length

/-- The attachment that a new replication queue pair re-establishes (R297, R303): the first of an owned domain that has none. -/
def State.attWaiting (s : State) : Option (Nat × Attach) :=
  s.rdm.atts.find? fun (_, a) => s.owns a.sd && !a.detached && decide (a.qp = noQp)

/-- Give an attachment its queue pair again; a target opens its window, with the control word as the mirror holds it. -/
def State.reattach (s : State) (i : Nat) : State :=
  match s.attWaiting with
  | none => s
  | some (id, a) =>
    let s1 := ({ s with rdm := { s.rdm with atts := Table.put s.rdm.atts id { a with qp := i } } } : State).updQp i fun q => { q with att := some id }
    if a.source then s1
    else
      let word := s.ubl.mirror.readN ((s.sheetBase + s.ubl.peerSheet) * 4096 + a.win.1) 8
      let s2 := s1.updRdm fun r => { r with landing := r.landing.writeAll a.win.1 word }
      ((s2.openWindow i a.win.1 a.win.2 15).map Prod.snd).getD s2

/-- RDMA_CM_CONNECT_REQUEST (R254, R280, R281, R303): a context of its kind, or a reject with No Resources. A request on a
port shows that the port is up. -/
def execRdmaCmConnectRequest (kind : QpKind) (port mtu : Nat) (paths : List Nat) (s : State) : Res :=
  let full := if kind = .nvme then decide (s.ctxCount true ≥ 65024) else decide (s.ctxCount false ≥ 512)
  if !s.works .rdm ∨ !s.powered .rdm then .next s
  else if full then .next (s.tx (.cmReject 0x06))
  else
    let i := Table.free s.rdm.qps s.rdm.qps.length 0
    let g := nextGen (Table.getD s.rdm.gens i 0)
    let ps := (paths.take 8).zipIdx.map fun (p, k) => Path.mk k p true (s.portRate p)
    let q := Qp.new g kind port mtu (s.portRate port) (if kind = .scrim then ps else [])
    let s1 := s.makeRoom
    let s2 := s1.updRdm fun r => { r with
      qps := Table.put r.qps i { q with used := r.uses }, uses := r.uses + 1, gens := Table.put r.gens i g
      portUp := Table.put r.portUp port true }
    .next ((if kind = .nvme then s2 else s2.reattach i).tx (.cmAccept (g * 65536 + i)))

end Sys2Proof.Machine
end

