-- ==== Sys2Proof/Machine/Format.lean ====
section
/-!
DEFINITION. Format NVM and Sanitize: the progress record, its phases and what each does (R272 to R275).
-/

namespace Sys2Proof.Machine

/-- Bytes 0 to 55 of the progress record (Table 11.9). -/
def Progress.body (p : Progress) : List Byte :=
  leBytes 1 p.op ++ leBytes 1 p.action ++ leBytes 1 p.phase ++ leBytes 1 p.lbaf ++ leBytes 4 p.nsid ++ leBytes 2 p.cntlid ++
  leBytes 2 p.prog ++ zeros 4 ++ leBytes 8 p.startEpoch.toNat ++ leBytes 8 p.cursor ++ zeros 24

/-- The progress record's 64 bytes (Table 11.9). -/
def Progress.bytes (p : Progress) : List Byte := p.body ++ leBytes 8 (crc64 p.body).toNat

/-- Read a progress record back. -/
def Progress.ofBytes (b : List Byte) : Option Progress :=
  if b.length = 64 ∧ crcOk b 56 ∧ (leAt b 0 1 = 1 ∨ leAt b 0 1 = 2) then
    some ⟨leAt b 0 1, leAt b 1 1, leAt b 2 1, leAt b 3 1, leAt b 4 4, leAt b 8 2, leAt b 10 2,
      BitVec.ofNat 64 (leAt b 16 8), leAt b 24 8, 0⟩
  else none

/-- The namespaces of a record's scope. -/
def State.scopeNs (s : State) (p : Progress) : List (Nat × Namespace) := s.fe.ns.filter fun (k, _) => s.inScope k p

/-- Keys are erased under a record: SES 2, and both Sanitize actions (Table 11.8). -/
def Progress.keys (p : Progress) : Bool := decide (p.op = 2) || decide (p.action = 2)

/-- Phase 4 applies: Sanitize Block Erase. -/
def Progress.erases (p : Progress) : Bool := decide (p.op = 2 ∧ p.action = 2)

/-- The phase after the present one (Table 11.8). -/
def Progress.nextPhase (p : Progress) : Nat :=
  match p.phase with
  | 1 => if p.keys then 2 else 3
  | 2 => 3
  | 3 => if p.erases then 4 else 5
  | _ => 5

/-- The key domains of a record's scope. -/
def State.scopeKdoms (s : State) (p : Progress) : List Nat :=
  if p.op = 2 then (s.dp.kdoms.map Prod.fst).filter (· ≠ metaKdom) else ((s.scopeNs p).map (·.2.kdom)).eraseDups

/-- Crypto-erase a key domain (R94, R241, R274): its slots are zeroized, a fresh at-rest key is loaded into a new slot
and a fresh fingerprint key is drawn. -/
def State.cryptoErase (s : State) (k : Nat) : State :=
  match Table.find s.dp.kdoms k with
  | none => s
  | some d =>
    let s1 := ((d.slot :: d.oldSlots).foldl State.zeroize s).endSat k
    let (fp, s2) := s1.draw
    let (key, s3) := s2.draw
    let s4 := match s3.needAtRest with
      | some (n, s3) =>
        match s3.loadAtRest n key true with
        | some s5 => s5.updDp fun x => { x with kdoms := Table.put x.kdoms k { d with slot := n, oldSlots := [], fpKey := fp } }
        | none => s3
      | none => s3.updDp fun x => { x with kdoms := Table.put x.kdoms k { d with oldSlots := [], fpKey := fp } }
    s4.sendKdom k

/-- Invalidate the hot-index entries of a key domain in one storage domain. -/
def DpState.clearHot (p : DpState) (kdom : Nat) (d : SD) : DpState :=
  { p with hot := Table.mapV (fun l => l.map fun e => if e.ddom = kdom ∧ e.sd = d then { e with valid := false } else e) p.hot }

/-- Phase 3 (R272, R273): the roots of the scope that this controller owns become empty, and a new LBAF takes
effect. -/
def State.emptyScope (s : State) (p : Progress) : State :=
  if p.op = 2 then
    s.owned.foldl (fun s d =>
      let rs := (s.metaOf d).roots.map Prod.fst
      let ks := ((s.metaOf d).roots.map (·.2.kdom)).eraseDups
      let s1 := rs.foldl (fun s r => s.emptyRoot d r) s
      s1.updDp fun x => ks.foldl (fun x k => x.clearHot k d) x) s
  else
    (s.scopeNs p).foldl (fun s (k, n) =>
      let s1 := s.updFe fun f => { f with ns := Table.put f.ns k { n with lbaf := p.lbaf } }
      if s.owns n.sd then (s1.emptyRoot n.sd n.root).updDp fun x => x.clearHot n.kdom n.sd else s1) s

/-- Phase 4 begins (R273, R274): every stripe of the domains closes and is to be freed; metadata goes to new stripes. The segments
become pending-erase with their stripes, and are erased under Table 07.3. -/
def State.startErase (s : State) : State :=
  (s.owned.foldl (fun s d => (s.metaOf d).stripes.foldl (fun s (n, t) =>
    if t.st = .freed then s
    else (((s.closeEarly d n).victim d n 0).updMed fun m => { m with
      victims := m.victims.map fun v => if v.sd = d ∧ v.stripe = n then { v with stage := 2 } else v })) s) s).formAll

/-- Phase 4 has ended (R273, R274): every stripe there was is freed, and on every present module but those that fail no segment of an
owned domain waits for its erase. -/
def State.erasesDone (s : State) (bad : List Nat) : Bool :=
  s.med.victims.all (fun v => !s.owns v.sd) &&
  s.med.pseg.all fun (k, r) => !s.owns r.sd || !s.present (k / 2 ^ 20) || decide (k / 2 ^ 20 ∈ bad) ||
    decide (r.st ≠ .pendingErase ∧ r.st ≠ .erasing)

/-- The modules that fail or are absent during phase 4 are marked for erase (R275). -/
def State.markBad (s : State) (bad : List Nat) : State :=
  ((List.range 48).filter fun m => (s.mod? m).isSome && (!s.present m || decide (m ∈ bad))).foldl State.markSerial s

/-- The status bit of a record's kind: FORMAT or SANITIZE (FE_STATUS). -/
def Progress.bit (p : Progress) : Nat := if p.op = 2 then 4 else 3

/-- Phase 5 (R274, R275): the record closes; a format completes, or its completion is dropped with its host controller;
a sanitize reports by event and log page. -/
def State.closeRecord (s : State) (p : Progress) : State :=
  let s1 := (s.setProgress none).raise .fe p.bit
  if p.op = 2 then
    (s1.updFe fun f => { f with sanitize := (1, 0xFFFF) }).asyncAll ⟨6, 1, 0x81⟩
  else
    let s2 := (s.scopeNs p).foldl (fun s (k, n) => s.nsChanged k n.attached) s1
    s2.respond ⟨⟨p.cntlid, 0⟩, p.cid, stOk, 0, [], false⟩

/-- Tell the peer of the record's phase (R273, R274). -/
def State.tellPeer (s : State) (p : Progress) : State := s.send (.message 2 .a p.bytes)

/-- Open a record at phase 1 (R274). -/
def State.openRecord (s : State) (p : Progress) : State := ((s.setProgress (some p)).raise .fe p.bit).tellPeer p

/-- The protection settings of Format NVM fit an LBA format (Table 11.5). -/
def formatOk (lbaf pi pil mset : Nat) : Bool :=
  decide (lbaf ≤ 4) && (if lbaf ≥ 2 then decide (pi = 1 ∧ pil = 0 ∧ mset = 1) else decide (pi = 0))

/-- FORMAT_NVM (R272, R274, R275). The head that receives it runs the record; the peer does its part for the domains it owns. -/
def execFormatNvm (q : QId) (s : State) : Res :=
  match s.adminFront q 0x80 with
  | none => .next s
  | some (c, _) =>
    let v := c.cdw 10
    let lbaf := bitsOf v 3 0
    let ses := bitsOf v 11 9
    let scope := if c.nsid = 0xFFFFFFFF then s.nsOf q.cntlid else (s.nsOf q.cntlid).filter (·.1 = c.nsid)
    if s.fe.progress.isSome then .next (s.adminDone c stSequence 0 [])
    else if scope.isEmpty then .next (s.adminDone c stBadNs 0 [])
    else if !formatOk lbaf (bitsOf v 7 5) (bitsOf v 8 8) (bitsOf v 4 4) ∨ bitsOf v 13 12 ≠ 0 then .next (s.adminDone c stBadFormat 0 [])
    else if ses > 2 then .next (s.adminDone c stBadField 0 [])
    else if scope.any fun (_, n) => s.readOnly n then .next (s.adminDone c stProtected 0 [])
    else
      let roots := scope.map fun (_, n) => (n.sd, n.root)
      let kds := scope.map (·.2.kdom)
      let other := [SD.a, SD.b].any fun d => (s.seenMeta d).roots.any fun (r, x) => x.kdom ∈ kds ∧ (d, r) ∉ roots
      if ses = 2 ∧ other then .next (s.adminDone c stBadField 0 [])
      else .next ((s.takeAdmin q).openRecord ⟨1, ses, 1, lbaf, c.nsid, q.cntlid, 0, s.top.epoch, 0, c.cid⟩)

/-- SANITIZE (R273 to R275): it completes at once and runs through its record. -/
def execSanitize (q : QId) (s : State) : Res :=
  match s.adminFront q 0x84 with
  | none => .next s
  | some (c, _) =>
    let act := bitsOf (c.cdw 10) 2 0
    if s.fe.progress.isSome then .next (s.adminDone c stSequence 0 [])
    else if act ≠ 2 ∧ act ≠ 4 then .next (s.adminDone c stBadField 0 [])
    else
      let s1 := (s.adminDone c stOk 0 []).updFe fun f => { f with sanitize := (2, 0) }
      .next (s1.openRecord ⟨2, act, 1, 0, 0xFFFFFFFF, q.cntlid, 0, s.top.epoch, 0, c.cid⟩)

/-- Every accepted command in a record's scope has completed (phase 1), and what it wrote is recorded, so that nothing of it comes
back after phase 3 (DESIGN CHOICE, assumption 112). -/
def State.scopeQuiet (s : State) (p : Progress) : Bool :=
  s.fe.cmds.all (fun c => c.posted || !(c.cap.nsid = 0xFFFFFFFF || s.inScope c.cap.nsid p)) &&
  s.fe.inflight.all fun x => !s.inScope x.nsid p

/-- Zeroize the slots and the fingerprint key of a key domain whose fresh keys the peer draws (R94, R273). -/
def State.zeroizeKdom (s : State) (k : Nat) : State :=
  match Table.find s.dp.kdoms k with
  | none => s
  | some d => (((d.slot :: d.oldSlots).foldl State.zeroize s).endSat k).updDp fun x => { x with kdoms := Table.put x.kdoms k { d with fpKey := [] } }

/-- What a phase does: the keys and the roots go at once, the erases begin. On the head that does not hold the command (`peer`), the
fresh keys come from the other. -/
def State.phaseWork (s : State) (p : Progress) (peer : Bool) : State :=
  match p.phase with
  | 2 => (s.scopeKdoms p).foldl (if peer then State.zeroizeKdom else State.cryptoErase) s
  | 3 => s.emptyScope p
  | 4 => s.startErase
  | _ => s

/-- The owner of an operation resumes it at its phase, after a restart or a takeover (R274). -/
def State.resumeRecord (s : State) : State :=
  match s.fe.progress with
  | some p => (s.updFe fun f => { f with recordPeer := false }).phaseWork p false
  | none => s

/-- This head's part of the present phase is done. -/
def State.phaseQuiet (s : State) (p : Progress) (bad : List Nat) : Bool :=
  match p.phase with
  | 1 => s.scopeQuiet p
  | 4 => s.erasesDone bad
  | _ => true

/-- Tell the head that runs the record that this one has done its part (R273; the message is the model's, assumption 33). -/
def State.tellDone (s : State) (p : Progress) : State := s.send (.message 26 .a (leBytes 1 p.phase))

/-- The record of a peer's Format NVM or Sanitize reaches a phase (R273, R274): this head does its part, and reports at once where
the phase has nothing to wait for. -/
def State.peerPhase (s : State) (p : Progress) : State :=
  if p.phase = 5 then s.updFe fun f => { f with progress := none, recordPeer := false }
  else
    let s1 := (s.updFe fun f => { f with progress := some p, recordPeer := true }).phaseWork p true
    if p.phase = 2 ∨ p.phase = 3 then s1.tellDone p else s1

/-- FORMAT_PHASE_DONE (R167, R273 to R275): the present phase ends, once both heads have done their part, and the next one begins; `bad`
names the modules that fail during phase 4. -/
def execFormatPhaseDone (bad : List Nat) (s : State) : Res :=
  match s.fe.progress with
  | none => .next s
  | some p =>
    if !s.phaseQuiet p bad then .next s
    else
      let s0 := if p.phase = 4 then s.markBad bad else s
      if s0.fe.recordPeer then .next (s0.tellDone p)
      else if !s0.noMirror ∧ !s0.fe.peerDone then .next s
      else
        let n := p.nextPhase
        let p1 := { p with phase := n, cursor := 0, prog := (Config.progress s0.draws).toNat }
        let s1 := ({ s0 with draws := s0.draws + 1 }).updFe fun f => { f with peerDone := false }
        .next (if n = 5 then (s1.closeRecord p1).tellPeer p1 else ((s1.setProgress (some p1)).tellPeer p1).phaseWork p1 false)

end Sys2Proof.Machine
end

