-- ==== Sys2Proof/Machine/Media.lean ====
section
/-!
DEFINITION. Media management: substitution, the trowel pass, garbage collection and relocation, erases, wear
levelling, refresh, temperatures and health: rows MODULE_RETURN to HEALTH_EVENT.
-/

namespace Sys2Proof.Machine

/-! ### Missing members -/

/-- Some stripe that is not freed has a missing member. -/
def State.anyMissing (s : State) : Bool :=
  s.owned.any fun d => (s.metaOf d).stripes.any fun (_, t) => t.st ≠ .freed && !t.missing.isEmpty

/-- Clear a member's MISSING bit (R201, R203); with the last one REBUILD_DONE is set. -/
def State.clearMissing (s : State) (d : SD) (n pos : Nat) : State :=
  match s.stripe? d n with
  | none => s
  | some t =>
    if pos ∉ t.missing then s
    else
      let s1 := s.delta d (.stripe n (some { t with missing := t.missing.filter (· ≠ pos) }))
      if s1.anyMissing then s1 else (s1.raise .str 1).notify 0x10 0x0203

/-! ### Substitution (R171) -/

/-- The images a substitution puts in the new segment: what the old one holds, read back or rebuilt where it cannot be, and
what program staging holds. -/
def State.subImages (s : State) (x : Sub) : List (Nat × List Byte) × State :=
  let old := match s.mod? x.port with
    | some m => m.slotsOf x.pseg
    | none => []
  let (kept, s1) := (old.filter fun p => !(x.staged.any fun q => q.1 = p.1)).foldl
    (fun (z : List (Nat × List Byte) × State) (i, _) => match z.2.readLadder x.sd (x.seg * 4096 + i) fun _ => true with
      | (some b, s) => (z.1 ++ [(i, b)], s)
      | (none, s) => match stripeOf (s.metaOf x.sd) x.seg with
        | none => (z.1, s)
        | some (n, pos, t) => match s.rebuildRow x.sd n t i pos [] with
          | (some b, _, s) => (z.1 ++ [(i, b)], s)
          | (none, gone, s) => (z.1, s.loseGone x.sd n t i gone)) ([], s)
  (kept ++ x.staged, s1)

/-- How the module answers a program of a new segment's slot (R227, R462): what its checks say of it. -/
def State.targetCheck (s : State) (d : SD) (port pseg : Nat) (finish : Bool) (row : Nat) : MCmd × MSt :=
  let c := { MCmd.mk0 port .program (.sd d) (.fetch 0) with
    oepoch := s.ubl.oepoch.get d, pseg := pseg, pidx := row, finish := finish, image := zeros imageLen }
  (c, match s.mod? port with
    | some m => moduleCheck m s.top.head c
    | none => .internal)

/-- Write an image into a segment of a module, with its stamp. -/
def State.writeSlot (s : State) (d : SD) (port pseg row : Nat) (img : List Byte) (temp : Int) : State :=
  (s.updMod port fun m => m.store pseg row (.image img) (.sd d)).stamp d port pseg temp

/-- Drop a substitution. -/
def State.dropSub (s : State) (x : Sub) : State := s.updMed fun m => { m with subs := m.subs.filter fun y => y ≠ x }

/-- No segment can be found: the member is missing and its stripe closes early; nothing staged is programmed, and what is staged
stays until the parity of its rows is programmed (R171). -/
def State.subFails (s : State) (x : Sub) : State :=
  match stripeOf (s.metaOf x.sd) x.seg with
  | some (n, pos, _) => ((s.setMissing x.sd n pos).closeEarly x.sd n).trimSubs
  | none => s.dropSub x

/-- Substitute a segment (R171): `ok` is whether every program to the new segment succeeds. -/
def State.substitute (s : State) (x : Sub) (ok : Bool) (temp : Int) : State :=
  let d := x.sd
  if !s.mayIssue (.sd d) then s.dropSub x
  else
    match stripeOf (s.metaOf d) x.seg, s.segOf d x.seg with
    | some (n, pos, t), some e =>
      let finish := ((s.psegOf x.port x.pseg).map (·.finish)).getD t.finish
      let s1 := if ((s.psegOf x.port x.pseg).map (·.st)) = some .retired then s else s.retire d x.port x.pseg
      match s1.spareSeg finish x.port <|> s1.otherSeg d t finish with
      | none => s1.subFails x
      | some (port, pseg) =>
        let s2 := s1.allocSeg d x.seg port pseg
        let (c, st) := s2.targetCheck d port pseg finish 0
        if st.cls = .owner then (s2.dropSub x).ownerReject ⟨c, none, false, none⟩ st
        else if !ok then s2.retire d port pseg
        else
          let (imgs, s2') := s2.subImages x
          let s3 := imgs.foldl (fun s (i, b) => s.writeSlot d port pseg i b temp) s2'
          let s4 := s3.delta d (.seg x.seg (some { e with port := port, pseg := pseg }))
          let s5 := ((s4.count .medSubstituted).raise .med 3).dropSub x
          x.staged.foldl (fun s (i, _) => s.slotDone d n i pos) s5
    | _, _ => s.dropSub x

/-- SUBSTITUTION (R163, R167, R171): the due substitution at place `i`. It waits for commands still outstanding to the
old segment, and for an absent module to return. -/
def execSubstitution (i : Nat) (ok : Bool) (temp : Int) (s : State) : Res :=
  match s.med.subs[i]? with
  | none => .next s
  | some x =>
    .next (if s.mlk.out.any (fun o => o.cmd.port = x.port ∧ o.cmd.pseg = x.pseg ∧ o.cmd.op = .program) ∨ (s.port x.port).state ∈ [1, 3] ∨ !s.up .med ∨ s.subGone x then s
      else if (s.port x.port).state = 4 then s.subFails x
      else s.substitute x ok temp)

/-- A member's segment is on a present module and not retired: a substitution may have moved it. -/
def State.memberUp (s : State) (d : SD) (n pos : Nat) : Bool :=
  match (s.stripe? d n).bind fun t => s.segOf d (t.members.getD pos 0) with
  | some e => s.present e.port && decide (((s.psegOf e.port e.pseg).map (·.st)) ≠ some .retired)
  | none => false

/-- What the return of an absent module does (R201, R453). -/
def State.returned (s : State) (port : Nat) (temp : Int) : State :=
  let mine := s.owned.flatMap fun d => (s.metaOf d).stripes.flatMap fun (n, t) =>
    if t.st = .freed then []
    else (t.missing.filter fun pos => ((s.segOf d (t.members.getD pos 0)).map (·.port)) = some port).map fun pos => (d, n, pos)
  let s2 := (s.med.subs.filter fun x => x.port = port).foldl (fun s x => s.substitute x true temp) s
  let s3 := mine.foldl (fun s (d, n, pos) => if s.memberUp d n pos then s.clearMissing d n pos else s) s2
  (if s3.markedErase port then s3.eraseMarked port else s3).sizeSheets.formAll

/-- MODULE_RETURN (R201, R453): an absent module returns; the segments whose program was cut are substituted, then its
members are available again. -/
def execModuleReturn (port : Nat) (temp : Int) (s : State) : Res :=
  if (s.port port).state ≠ 3 ∨ (s.mod? port).isNone ∨ !s.up .med then .next s
  else .next ((s.updPort port fun p => { p with state := 2 }).returned port temp)

/-! ### Live bytes -/

/-- Live stored bytes of a stripe (R172): reference records with STATE live and COUNT above 0. -/
def Meta.liveBytes (m : Meta) (t : Stripe) : Nat :=
  m.refs.foldl (fun n (l, r) => if r.st = .live ∧ r.count > 0 ∧ (Loc.ofNum l).seg ∈ t.members then n + r.size else n) 0

/-- The data capacity of a stripe in bytes (R188). -/
def Stripe.capacity (t : Stripe) : Nat := t.k * 4096 * 65536

/-- A stripe is being folded. -/
def State.foldingNow (s : State) (d : SD) (n : Nat) : Bool := s.med.folds.any fun f => f.sd = d ∧ f.stripe = n

/-- A stripe is already a victim. -/
def State.isVictim (s : State) (d : SD) (n : Nat) : Bool := s.med.victims.any fun v => v.sd = d ∧ v.stripe = n

/-! ### The trowel pass (R172) -/

/-- The oldest closed skim stripe that the pass may take. -/
def State.trowelNext (s : State) (d : SD) : Option (Nat × Stripe) :=
  ((s.metaOf d).stripes.filter fun (n, t) => t.st = .closed && !t.finish && t.missing.isEmpty && !s.foldingNow d n && !s.isVictim d n).foldl
    (fun (b : Option (Nat × Stripe)) x => match b with
      | none => some x
      | some y => if x.2.closedAt < y.2.closedAt then some x else some y) none

/-- FOLD_MIN; values above 100 act as 100. -/
def State.foldMin (s : State) : Nat := min 100 (bitsOf s.cfg.medGc.value.toNat 14 8)

/-- A segment number lies in a finish segment: its member has been folded already. -/
def State.inFinish (s : State) (d : SD) (seg : Nat) : Bool :=
  (s.segOf d seg).any fun e => ((s.psegOf e.port e.pseg).map (·.finish)) = some true

/-- TROWEL_PASS (R172): the oldest closed skim stripe is folded, or goes to garbage collection. -/
def execTrowelPass (d : SD) (s : State) : Res :=
  if !s.owns d ∨ !s.up .med ∨ !s.up .mlk then .next s
  else
    match s.trowelNext d with
    | none => .next s
    | some (n, t) =>
      let u := (s.metaOf d).liveBytes t * 100 / t.capacity
      let todo := (t.members.zipIdx).filter fun (m, _) => !s.inFinish d m
      let room := todo.all fun (m, _) => (s.segOf d m).any fun e => s.freeCount e.port true > 0
      if u ≥ s.foldMin ∧ room then
        .next (todo.foldl (fun s (m, pos) => (s.foldMember d n pos m 0).getD s) s)
      else .next (s.foldFallback d n)

/-- Once every member lies in a finish segment, so does the stripe. -/
def State.finishStripe (s : State) (d : SD) (n : Nat) : State :=
  match s.stripe? d n with
  | none => s
  | some t =>
    if !t.finish ∧ t.members.all (s.inFinish d) then
      s.delta d (.stripe n (some { t with finish := true }))
    else s

/-- FOLD_COMPLETE (R163, R164, R167, R172): the fold at place `i` has its report; the stamp comes from it, the segment
number is remapped and the skim segment becomes pending-erase. -/
def execFoldComplete (i : Nat) (s : State) : Res :=
  match s.med.folds[i]? with
  | none => .next s
  | some f =>
    match f.report, s.stripe? f.sd f.stripe with
    | some rep, some t =>
      let seg := t.members.getD f.pos 0
      match s.segOf f.sd seg with
      | none => .next s
      | some e =>
        let s1 := s.noteHour
        let s2 := s1.setPSeg f.sd f.port f.dst fun r => { r with
          hour := s1.hour, tmin := sbyte (rep.getD 0 0), tmax := sbyte (rep.getD 1 0) }
        let s3 := s2.delta f.sd (.seg seg (some { e with port := f.port, pseg := f.dst }))
        let s4 := s3.setPSeg f.sd f.port f.src fun r => { r with st := .pendingErase }
        let s5 := s4.updMed fun m => { m with folds := m.folds.eraseIdx i }
        .next ((s5.count .medFoldsDone).finishStripe f.sd f.stripe)
    | _, _ => .next s

/-! ### Garbage collection (R173 to R175) -/

/-- U, A and HOUR of a stripe's youngest member (R173). -/
def State.youngest (s : State) (d : SD) (t : Stripe) : Nat × Nat :=
  t.members.foldl (fun (b : Nat × Nat) m =>
    match (s.segOf d m).bind fun e => s.psegOf e.port e.pseg with
    | some r => if segAge s.hour r < b.1 then (segAge s.hour r, r.hour) else b
    | none => b) (0xFFFFFFFF, 0)

/-- The score S of a stripe (R173). -/
def State.score (s : State) (d : SD) (t : Stripe) : Nat :=
  let u := (s.metaOf d).liveBytes t * 1000 / t.capacity
  (1000 - u) * min (s.youngest d t).1 8760 / (1000 + u)

/-- The stripe garbage collection takes by score; ties by lower HOUR, then lower number. -/
def State.bestScored (s : State) (d : SD) : Option Nat :=
  let l := (s.metaOf d).stripes.filter fun (n, t) => t.st = .closed && t.finish && !t.isMeta && !s.foldingNow d n && !s.isVictim d n
  (l.foldl (fun (b : Option (Nat × Nat × Nat)) (n, t) =>
    let x := s.score d t
    let h := (s.youngest d t).2
    match b with
    | none => some (n, x, h)
    | some (_, y, g) => if x > y ∨ (x = y ∧ h < g) then some (n, x, h) else b) none).map (·.1)

/-- The queued victim of the highest priority that may be collected now. -/
def State.queued (s : State) (d : SD) : Option Nat :=
  let ok (v : Victim) : Bool := decide (v.sd = d ∧ v.stage = 0) && !v.recoat && !s.foldingNow d v.stripe &&
    (match s.stripe? d v.stripe with
      | some t => decide (t.st = .closed ∨ t.st = .broken)
      | none => false)
  ((s.med.victims.filter ok).foldl (fun (b : Option Victim) v => match b with
    | none => some v
    | some w => if v.prio < w.prio then some v else b) none).map (·.stripe)

/-- Change a victim's record. -/
def State.updVictim (s : State) (d : SD) (n : Nat) (f : Victim → Victim) : State :=
  s.updMed fun m => { m with victims := m.victims.map fun v => if v.sd = d ∧ v.stripe = n then f v else v }

/-- GC_VICTIM (R173): the next victim from the queue, or by score. The cursor holds the victim plus 1, the data pack and
the granule. -/
def execGcVictim (d : SD) (s : State) : Res :=
  if (s.metaOf d).gc.x ≠ 0 ∨ !s.owns d ∨ !s.up .med ∨ s.logFull d then .next s
  else
    match s.queued d <|> s.bestScored d with
    | none => .next s
    | some n =>
      let s1 := if (s.queued d).isSome then s else s.noteHour
      .next (((s1.victim d n 4).updVictim d n fun v => { v with stage := 1 }).delta d (.cursor 1 ⟨n + 1, 0, 0⟩))

/-- The place of a pack in a stripe's pack order: row, then data index. -/
def packPlace (t : Stripe) (pack : Nat) : Option Nat :=
  (t.members.findIdx? (· = pack / 4096)).bind fun pos =>
    (dataIdx t.w t.p t.k (pack % 4096) pos).map fun j => (pack % 4096) * 32 + j

/-- The place of a stored granule among those a stripe holds: that of its first pack, or of its successor where only that
lies in the stripe (assumption 18). -/
def granPlace (t : Stripe) (loc : Nat) (r : RefRec) : Option Nat :=
  match packPlace t (loc / 4096) with
  | some p => some (p * 4096 + loc % 4096)
  | none => (r.succ.bind (packPlace t)).map (· * 4096)

/-- The next granule a collection of a stripe copies, at or above a place. -/
def State.nextCopy (s : State) (d : SD) (t : Stripe) (above : Nat) : Option (Nat × Nat × RefRec) :=
  (s.metaOf d).refs.foldl (fun (b : Option (Nat × Nat × RefRec)) (l, r) =>
    match granPlace t l r with
    | none => b
    | some p =>
      if r.st ≠ .live ∨ r.count = 0 ∨ p < above ∨ s.med.copied.any (fun c => c.sd = d ∧ c.src = l) then b
      else match b with
        | none => some (p, l, r)
        | some (q, _, _) => if p < q then some (p, l, r) else b) none

/-- Copy one granule of a victim into the copy stream (R130, R174): its stored bytes as they are. Where its packs cannot be read
the read has lost them, and the cursor goes on. None where placement holds. -/
def State.copyGran (s : State) (d : SD) (n loc : Nat) (r : RefRec) : Option State :=
  match s.storedBytes d r loc with
  | (none, s1) => some s1
  | (some (form, check), s1) =>
    (s1.appendForm d r.ddom true form (if r.raw then check else none) ⟨2, loc⟩).map fun (dst, succ, s2) =>
      (s2.delta d (.ref dst (some (newRef r.fp r.ddom r.raw succ r.size (some loc))))).updMed fun m =>
        { m with copied := m.copied ++ [Copied.mk d loc dst n false] }

/-- Packs of the copy streams open or closed. -/
def State.copyPacks (s : State) (d : SD) : Nat := ((s.dp.packs ++ s.dp.closed).filter fun p => p.sd = d ∧ p.copy).length

/-- A stream would take a new pack for the next granule. -/
def State.needsPack (s : State) (d : SD) (kdom size : Nat) : Bool :=
  !(s.dp.packs.any fun p => p.sd = d ∧ p.kdom = kdom ∧ p.copy ∧ p.body.length + size ≤ 65536)

/-- The free finish stripes of a domain are below MED_GC_CTRL.URGENT (R175). -/
def State.urgent (s : State) (d : SD) : Bool := decide (s.med.freeStripes.get d < bitsOf s.cfg.medGc.value.toNat 7 0)

/-- GC_COPY (R130, R174, R175, R177): the granule at the cursor is copied, within the credit or below URGENT without it; past
the last one the victim waits for relocation, unless copies before the cursor were lost with an owner: those are made again. -/
def execGcCopy (d : SD) (s : State) : Res :=
  let c := (s.metaOf d).gc
  if c.x = 0 ∨ !s.owns d ∨ !s.up .med ∨ !s.up .cip ∨ s.logFull d then .next s
  else
    match s.stripe? d (c.x - 1) with
    | none => .next (s.delta d (.cursor 1 ⟨0, 0, 0⟩))
    | some t =>
      match s.nextCopy d t (c.y * 4096 + c.z) with
      | none => .next (if (s.nextCopy d t 0).isSome then s.delta d (.cursor 1 ⟨c.x, 0, 0⟩)
          else (s.updVictim d (c.x - 1) fun v => { v with stage := 2 }).delta d (.cursor 1 ⟨0, 0, 0⟩))
      | some (p, l, r) =>
        let spent := s.needsPack d r.ddom r.size && decide (s.med.gcSpent ≥ s.cfg.medCredit.value.toNat)
        if spent ∧ !s.urgent d then .next s
        else
          match s.copyGran d (c.x - 1) l r with
          | none => .next s
          | some s1 =>
            let k := s1.copyPacks d - s.copyPacks d
            let s2 := (s1.updMed fun m => { m with gcSpent := m.gcSpent + k }).count .medGcPacks k
            let s3 := s2.delta d (.cursor 1 ⟨c.x, (p + 1) / 4096, (p + 1) % 4096⟩)
            .next (if spent then s3.raise .med 4 else s3)

/-! ### Relocation (R160) -/

/-- The stripe that holds a copy is closed, with every pack and parity pack programmed. -/
def State.copyClosed (s : State) (d : SD) (dst : Nat) : Bool :=
  match stripeOf (s.metaOf d) (Loc.ofNum dst).seg with
  | some (_, _, t) => t.st = .closed
  | none => false

/-- Rewrite one entry that still names X to name X′, moving a reference (R160). -/
def State.relocateOne (s : State) (d : SD) (x dst : Nat) (b : BackRef) : State :=
  match Table.find (s.metaOf d).pages b.mpid, s.refOf d dst with
  | some p, some r =>
    if (MapEnt.ofWord (p.ent b.idx)).loc? ≠ some x then s
    else
      let i := setOf d b.mpid
      let seen := ((s.map.set i).find? fun l => l.tag = some (d, b.mpid)).bind (·.seen)
      let s1 := (s.delta d (.entry b.mpid b.idx (r.ent dst).word)).dirtySector d b.mpid (sectorOf b.idx) none
      let s2 := ((s1.addRef d dst).backRef d b.mpid b.idx dst).subRef d x
      match seen with
      | some (rt, leaf) => { s2 with map := s2.map.hintUpdate d rt (512 * leaf + b.idx) (r.ent dst) }
      | none => s2
  | _, _ => s

/-- X's relocation has ended (R160, R174): a copy that nothing names becomes free-pending with it; a saturated count
passes to the copy. -/
def State.relocateEnd (s : State) (d : SD) (x dst : Nat) : State :=
  match s.refOf d x, s.refOf d dst with
  | none, some rc =>
    let s1 := s.delta d (.ref dst (some { rc with copyOf := none }))
    if rc.count = 0 then s1.freePending d dst else s1
  | some rx, some rc =>
    let rc1 := if rx.sat then { rc with count := countMax, sat := true, copyOf := none } else { rc with copyOf := none }
    let s1 := s.delta d (.ref dst (some rc1))
    let s2 := if rx.sat then (s1.delta d (.ref x (some { rx with count := 0, sat := false }))).freePending d x else s1
    if rc1.count = 0 then s2.freePending d dst else s2
  | _, _ => s

/-- RELOCATION (R146, R158, R159, R160, R174): the copied granule at place `i`, once the stripe of its copy is closed. The
records of its segment's log are processed in order, and the index entries move to the copy; a record for which the eviction
buffer has no entry left waits. A copy that has been lost is made again. -/
def execRelocation (i : Nat) (s : State) : Res :=
  match s.med.copied[i]? with
  | none => .next s
  | some c =>
    if (s.refOf c.sd c.dst).all fun r => decide (r.st ≠ .live) then
      .next ((s.updMed fun m => { m with copied := m.copied.eraseIdx i }).updVictim c.sd c.stripe fun v => { v with stage := 0 })
    else match s.refOf c.sd c.src with
    | none => .next ((s.relocateEnd c.sd c.src c.dst).updMed fun m => { m with copied := m.copied.eraseIdx i })
    | some rx =>
      if !s.copyClosed c.sd c.dst ∨ !s.up .map ∨ s.logFull c.sd then .next s
      else
        let key := fullKey rx.ddom rx.fp
        let named := decide (s.fullNow c.sd key = some c.src)
        let s1 := s.updDp (·.moveHot rx.ddom c.sd rx.fp c.src c.dst)
        let s2 := if named then s1.delta c.sd (.full key (some c.dst)) else s1
        let s3 := (Table.getD (s2.metaOf c.sd).backlog (Loc.ofNum c.src).seg []).foldl (fun s b =>
          if b.loc = c.src then s.evbHold (s.relocateOne c.sd c.src c.dst b) else s) s2
        .next (match s3.refOf c.sd c.src with
          | some r => if r.count = 0 ∨ r.sat then
              (s3.relocateEnd c.sd c.src c.dst).updMed fun m => { m with copied := m.copied.eraseIdx i } else s3
          | none => s3)

/-! ### Freeing and erasing -/

/-- Every granule that a stripe holds is freed, and nothing is being written to it. -/
def State.allFreed (s : State) (d : SD) (n : Nat) (t : Stripe) : Bool :=
  ((s.metaOf d).refs.all fun (l, r) => (granPlace t l r).isNone || decide (r.st = .freed)) &&
  !(s.str.rows.any fun r => r.sd = d ∧ r.stripe = n) &&
  !((s.dp.packs ++ s.dp.closed).any fun p => p.sd = d ∧ p.stripe = n)

/-- Free a stripe (R167, R174): its records, logs and segment numbers go and its segments become pending-erase, the target of a
rebuild not ended among them. -/
def State.freeStripe (s : State) (d : SD) (n : Nat) (t : Stripe) : State :=
  let locs := (s.metaOf d).refs.filter fun (l, _) => (Loc.ofNum l).seg ∈ t.members
  let s1 := locs.foldl (fun s (l, _) => s.delta d (.ref l none)) s
  let s2 := t.members.foldl (fun s m =>
    match s.segOf d m with
    | some e => (((s.setPSeg d e.port e.pseg fun r =>
        if r.st = .allocated ∧ r.sd = d ∧ r.seg = m then { r with st := .pendingErase } else r).delta d (.seg m none)).delta d (.backDrop m))
    | none => s) s1
  let s2 := (s2.med.pseg.filter fun (_, r) => r.st = .allocated ∧ r.sd = d ∧ r.seg ∈ t.members).foldl
    (fun s (k, _) => s.setPSeg d (k / 2 ^ 20) (k % 2 ^ 20) fun r => { r with st := .pendingErase }) s2
  let s3 := s2.delta d (.stripe n (some { t with st := .freed, missing := [] }))
  s3.updMed fun m => { m with
    victims := m.victims.filter fun v => ¬(v.sd = d ∧ v.stripe = n), subs := m.subs.filter fun x => ¬(x.sd = d ∧ x.seg ∈ t.members) }

/-- A stripe can be freed: a victim whose granules are all freed; a closed metadata stripe that holds no current page. -/
def State.freeable (s : State) (d : SD) (n : Nat) (t : Stripe) : Bool :=
  s.allFreed d n t && !s.foldingNow d n &&
  if t.isMeta then decide (t.st = .closed ∨ t.st = .broken) && !((s.metaOf d).locs.any fun x => t.holdsAt x.2)
  else s.med.victims.any fun v => v.sd = d ∧ v.stripe = n ∧ v.stage = 2

/-- STRIPE_FREED (R142, R167, R170, R174): every granule of a victim is freed, or every page of a metadata stripe lies elsewhere. -/
def execStripeFreed (d : SD) (n : Nat) (s : State) : Res :=
  match s.stripe? d n with
  | none => .next s
  | some t =>
    if t.st ≠ .freed ∧ s.owns d ∧ s.up .med ∧ s.freeable d n t then
      .next ((s.freeStripe d n t).count .medGcStripes).formAll
    else .next s

/-- A Block Erase goes on in module and PSEG order (R274): nothing lower on a present module waits for its erase. -/
def State.eraseTurn (s : State) (key : Nat) : Bool :=
  !(s.fe.progress.any fun p => decide (p.phase = 4)) ||
  s.med.pseg.all fun (k, r) => !(decide (k < key ∧ r.st = .pendingErase) && s.owns r.sd && s.present (k / 2 ^ 20))

/-- The cursor of a Block Erase (Table 11.8). -/
def State.eraseCursor (s : State) (port pseg : Nat) : State :=
  match s.fe.progress with
  | some p => if p.phase = 4 then s.setProgress (some { p with cursor := port * 2 ^ 32 + pseg }) else s
  | none => s

/-- ERASE_ISSUE (R70, R167, R177, R274): a pending-erase segment starts erasing once a checkpoint covers its change and no read pins
it; the wait of one that must wait is counted. A segment left erasing by a power failure or another owner is erased again. -/
def execEraseIssue (port pseg : Nat) (s : State) : Res :=
  let k := psegKey port pseg
  match s.psegOf port pseg with
  | none => .next s
  | some r =>
    let again := decide (r.st = .erasing) && !(s.mlk.out.any fun o => o.cmd.op = .erase ∧ o.cmd.port = port ∧ o.cmd.pseg = pseg)
    if (r.st ≠ .pendingErase ∧ !again) ∨ !s.owns r.sd ∨ !s.present port ∨ !s.up .med ∨ !s.up .mlk ∨ !s.eraseTurn k ∨
        (s.mlk.out.any fun o => o.res.isNone && decide (o.cmd.port = port ∧ o.cmd.pseg = pseg ∧ o.cmd.op ≠ .descr ∧ o.cmd.op ≠ .temp ∧ o.cmd.op ≠ .admin ∧ o.cmd.op ≠ .fence)) then .next s
    else if s.map.ckpt.get r.sd < r.changed ∨ Table.getD s.med.pins k 0 ≠ 0 then
      .next (if k ∈ s.med.deferred then s
        else (s.updMed fun m => { m with deferred := m.deferred ++ [k] }).count .medEraseDeferred)
    else
      let s1 := (s.updMed fun m => { m with deferred := m.deferred.filter (· ≠ k) }).eraseCursor port pseg
      .next ((s1.setPSeg r.sd port pseg fun r => { r with st := .erasing }).issue { MCmd.mk0 port .erase (.sd r.sd) .erase with
        oepoch := s.ubl.oepoch.get r.sd, pseg := pseg, finish := r.finish })

/-- STRIPE_FORMATION (R135, R167 to R170, R202): the next stripe of a domain, layer and kind. -/
def execStripeFormation (d : SD) (finish isMeta : Bool) (s : State) : Res :=
  .next (if s.owns d && s.up .med then (s.promote d finish isMeta).formStripe d finish isMeta else s)

/-! ### Wear levelling, refresh, temperatures, health -/

/-- WEAR_LEVELLING (R178): the closed stripe of the module's lowest-count allocated segment, at most once an hour. -/
def execWearLevelling (port : Nat) (finish : Bool) (s : State) : Res :=
  match s.mod? port with
  | none => .next s
  | some m =>
    let l := s.segsOn port finish
    let hi := l.foldl (fun n p => max n p.2.erases) 0
    let lo := l.foldl (fun n p => min n p.2.erases) hi
    let low := (l.filter fun p => p.2.st = .allocated).foldl (fun (b : Option (Nat × PSegRec)) p => match b with
      | none => some p
      | some q => if p.2.erases < q.2.erases then some p else b) none
    let due : Bool := match Table.find s.med.wearAt port with
      | none => true
      | some t => decide (s.pwr.rtc.toNat ≥ t + 3600000000)
    match low with
    | none => .next s
    | some (_, r) =>
      match stripeOf (s.metaOf r.sd) r.seg with
      | some (n, _, t) =>
        if t.st = .closed ∧ (hi - lo) * 20 > m.endurance finish ∧ due ∧ s.owns r.sd ∧ s.present port ∧ s.up .med then
          .next ((s.victim r.sd n 3).updMed fun x => { x with wearAt := Table.put x.wearAt port s.pwr.rtc.toNat })
        else .next s
      | none => .next s

/-- REFRESH_QUEUED (R179): a segment at its read limit, or in age bucket 3. -/
def execRefreshQueued (port pseg : Nat) (s : State) : Res :=
  match s.psegOf port pseg, s.mod? port with
  | some r, some m =>
    let aged : Bool := match s.cardOf port with
      | some card => decide (!r.empty ∧ boundsAt card 4 (segAge s.hour r) = 3)
      | none => false
    let s1 := s.noteHour
    .next (if r.st = .allocated ∧ s.owns r.sd ∧ s.up .med then
        (if aged ∨ Table.getD s.med.reads (psegKey port pseg) 0 ≥ m.readLimit r.finish then s1.refresh r.sd r.seg else s1) else s)
  | _, _ => .next s

/-- TEMPERATURE_POLL (R181): a Media Temperature request to a module that is admitting or present. -/
def execTemperaturePoll (port : Nat) (s : State) : Res :=
  .next (if s.present port && s.up .med && s.up .mlk && !(s.mlk.out.any fun o => o.cmd.port = port ∧ o.cmd.op = .temp)
    then s.issue (MCmd.mk0 port .temp .vault .temp) else s)

/-- Share, in percent of a module's segments in a layer, of its free and spare-reserved ones. -/
def State.sparePct (s : State) (port : Nat) (finish : Bool) : Option (Nat × Nat) :=
  let all := (s.med.pseg.filter fun (k, r) => k / 2 ^ 20 = port ∧ r.finish = finish).length
  if all = 0 then none else some ((s.freeOn port finish).length * 100, all)

/-- Share of a module's first attempts in the trailing hour that needed step 1 or a later one: how many, and of how many. -/
def State.drift (s : State) (port : Nat) : Nat × Nat :=
  let l := (Table.getD s.med.stats port ModStats.empty).reads.filter fun x => s.pwr.rtc.toNat - x.1 ≤ hourUs
  ((l.filter (·.2)).length, l.length)

/-- Allocated segments of a module that wait in the queue for a retention refresh, their age bucket being 3, and all of them. -/
def State.retention (s : State) (port : Nat) : Nat × Nat :=
  let l := s.med.pseg.filter fun (k, r) => k / 2 ^ 20 = port ∧ r.st = .allocated
  let old (r : PSegRec) : Bool := (s.cardOf port).any fun card => decide (!r.empty ∧ boundsAt card 4 (segAge s.hour r) = 3)
  let queued (r : PSegRec) : Bool := match stripeOf (s.metaOf r.sd) r.seg with
    | some (n, _, _) => s.med.victims.any fun v => v.sd = r.sd ∧ v.stripe = n ∧ v.prio = 2 ∧ v.stage = 0
    | none => false
  ((l.filter fun (_, r) => old r && queued r).length, l.length)

/-- Ladder failures of a module in the trailing 24 hours, and in the 24 hours before. -/
def State.failsIn (s : State) (port : Nat) : Nat × Nat :=
  let l := (Table.getD s.med.stats port ModStats.empty).fails.map fun t => s.pwr.rtc.toNat - t
  ((l.filter fun a => a ≤ 24 * hourUs).length, (l.filter fun a => 24 * hourUs < a ∧ a ≤ 48 * hourUs).length)

/-- At the erase rate of the trailing 30 days the mean finish wear of a module stays below its endurance for at least, or for more
than, `days`: the erases still to come, times 30, against those of the 30 days, times `days`. None where nothing was erased. -/
def State.wearDays (s : State) (port : Nat) : Option (Nat × Nat) :=
  let l := s.segsOn port true
  let e := ((Table.getD s.med.stats port ModStats.empty).erases.filter fun t => s.pwr.rtc.toNat - t ≤ 720 * hourUs).length
  match s.mod? port with
  | some m => if e = 0 then none else some (30 * (m.endurance true * l.length - l.foldl (fun n p => n + p.2.erases) 0), e)
  | none => none

/-- A condition of Table 07.9 holds for raising, or for clearing, the event. -/
def State.healthOk (s : State) (port code : Nat) (raised : Bool) : Bool :=
  match code with
  | 1 =>
    let l := [false, true].filterMap (s.sparePct port)
    if raised then l.any fun (f, n) => f < 2 * n else l.all fun (f, n) => f ≥ 3 * n
  | 2 => let (k, n) := s.drift port
    if raised then decide (100 * k > n) else decide (200 * k < n ∨ k = 0)
  | 3 => let (k, n) := s.retention port
    if raised then decide (100 * k > n) else decide (200 * k < n ∨ k = 0)
  | 4 => let (k, before) := s.failsIn port
    if raised then decide (k > 4 ∨ k ≥ 2 ∧ k ≥ 2 * before) else decide (k = 0)
  | 5 => match s.wearDays port with
    | some (left, e) => if raised then decide (left < 180 * e) else decide (left > 210 * e)
    | none => !raised
  | 6 =>
    match Table.find s.med.temps port, s.mod? port with
    | some t, some m =>
      let w := sbyte (m.desc.getD 48 0)
      let since := (Table.getD s.med.stats port ModStats.empty).hot
      if raised then since.any fun x => decide (s.pwr.rtc.toNat ≥ x + 10000000) else decide (t.hi ≤ w - 5)
    | _, _ => false
  | _ => false

/-- The entry of log page 0xC0 (R271). -/
def healthEntry (code port : Nat) (raised : Bool) (epoch : Nat) : List Byte :=
  leBytes 1 code ++ leBytes 1 port ++ [if raised then 1 else 0, 0] ++ leBytes 6 epoch ++ zeros 6

/-- HEALTH_EVENT (R184, R271, R379): a condition of Table 07.9 becomes true, or clears. -/
def execHealthEvent (port code : Nat) (raised : Bool) (s : State) : Res :=
  let on := decide ((port, code) ∈ s.med.health)
  if on = raised ∨ !s.healthOk port code raised then .next s
  else
    let s1 := s.updMed fun m => { m with health := if raised then m.health ++ [(port, code)] else m.health.filter (· ≠ (port, code)) }
    let s2 := s1.notify 0x10 (0x0100 + code) raised none port
    let s3 := s2.updFe fun f => { f with hosts := Table.mapV (fun h =>
      { h with healthLog := let l := h.healthLog ++ [healthEntry code port raised s.epoch48]; l.drop (l.length - 64) }) f.hosts }
    .next (if raised then (s3.asyncAll ⟨7, code, 0xC0⟩).raise .med 1 else s3)

end Sys2Proof.Machine
end

