-- ==== Sys2Proof/Machine/Rebuild.lean ====
section
/-!
DEFINITION. Rebuild, recoat and the replay of the stripe journal: rows REBUILD_SLOT to JOURNAL_REPLAY.
-/

namespace Sys2Proof.Machine

/-! ### Rebuild (R203 to R205) -/

/-- The class of a stripe with a missing member (Table 08.5), times two, plus 1 for the finish layer in class 4. -/
def Stripe.rebuildClass (t : Stripe) : Nat :=
  if t.missing.length ≥ t.p then (if t.isMeta then 2 else 4)
  else if t.isMeta then 6 else 8 + b2n t.finish

/-- The stripes rebuild may take: closed, with a missing member, no victim (R204). -/
def State.rebuildable (s : State) (d : SD) (n : Nat) (t : Stripe) : Bool :=
  decide (t.st = .closed) && !t.missing.isEmpty && !s.isVictim d n

/-- The stripe rebuild takes next: by class, then by lowest number. -/
def State.rebuildNext (s : State) (d : SD) : Option (Nat × Stripe) :=
  ((s.metaOf d).stripes.filter fun (n, t) => s.rebuildable d n t).foldl (fun (b : Option (Nat × Stripe)) x => match b with
    | none => some x
    | some y => if x.2.rebuildClass < y.2.rebuildClass then some x else some y) none

/-- A stripe of class 1 or 2 exists in a domain (R205). -/
def State.rebuildUrgent (s : State) (d : SD) : Bool :=
  (s.metaOf d).stripes.any fun (n, t) => s.rebuildable d n t && decide (t.rebuildClass < 6)

/-- A stripe that is being folded: some member already lies in a finish segment, or folds now. -/
def State.partFolded (s : State) (d : SD) (n : Nat) (t : Stripe) : Bool :=
  !t.finish && (s.foldingNow d n ||
    t.members.any (s.inFinish d))

/-- The segment allocated as the rebuild target of a domain segment number. -/
def State.rebuildTarget (s : State) (d : SD) (seg : Nat) : Option (Nat × Nat) :=
  (s.med.pseg.find? fun (k, r) => decide (r.st = .allocated ∧ r.sd = d ∧ r.seg = seg) && s.present (k / 2 ^ 20) &&
    decide ((s.segOf d seg).map (fun e => psegKey e.port e.pseg) ≠ some k)).map fun (k, _) => (k / 2 ^ 20, k % 2 ^ 20)

/-- The member is rebuilt: its segment number is remapped and its MISSING bit cleared (R203 step 4). -/
def State.rebuilt (s : State) (d : SD) (n pos seg : Nat) (tgt : Nat × Nat) : State :=
  match s.segOf d seg with
  | none => s
  | some e =>
    let s1 := s.delta d (.seg seg (some { e with port := tgt.1, pseg := tgt.2 }))
    let s2 := s1.updMed fun m => { m with folds := m.folds.filter fun f => ¬(f.sd = d ∧ f.stripe = n ∧ f.pos = pos) }
    let s3 := (s2.clearMissing d n pos).finishStripe d n
    -- the stripe is finished before the order is evaluated again (R204)
    let more := (s3.stripe? d n).bind fun t => if s3.rebuildable d n t then t.missing.head? else none
    s3.delta d (.cursor 0 (match more with
      | some q => ⟨n + 1, q, 0⟩
      | none => ⟨0, 0, 0⟩))

/-- REBUILD_SLOT (R163, R200, R203 to R205): one slot of a missing member is reconstructed and programmed; past the last
row the member is remapped. A target that a program fails on is given up for another, on which the member begins again. `bad` are the positions of the row whose ladder failed, `ok` whether the program succeeds.
The cursor holds the stripe plus 1, the member and the row. -/
def execRebuildSlot (d : SD) (bad : List Nat) (ok : Bool) (temp : Int) (s : State) : Res :=
  let urgent := s.rebuildUrgent d
  if !s.owns d ∨ !s.up .str ∨ !s.up .med ∨ s.logFull d ∨ (!urgent ∧ s.med.rebuildSpent ≥ bitsOf s.cfg.strRebuild.value.toNat 11 0) ∨
      !s.mayIssue (.sd d) then .next s
  else
    let c := (s.metaOf d).rebuild
    let cur := if c.x = 0 then none else (s.stripe? d (c.x - 1)).bind fun t =>
      if s.rebuildable d (c.x - 1) t ∧ c.y ∈ t.missing then some (c.x - 1, t, c.y, c.z) else none
    let pick := cur <|> (s.rebuildNext d).bind fun (n, t) => t.missing.head?.map fun pos => (n, t, pos, 0)
    match pick with
    | none => .next s
    | some (n, t, pos, at_) =>
      let seg := t.members.getD pos 0
      let finish := t.finish || s.partFolded d n t
      -- a new target begins at row 0
      let row := if (s.rebuildTarget d seg).isSome then at_ else 0
      match s.rebuildTarget d seg <|> s.otherSeg d t finish with
      | none => .next s
      | some tgt =>
        let s1 := s.allocSeg d seg tgt.1 tgt.2
        let (c, st) := s1.targetCheck d tgt.1 tgt.2 finish row
        if row ≥ t.rows then .next (s1.rebuilt d n pos seg tgt)
        else if st.cls = .owner then .next (s1.ownerReject ⟨c, none, false, none⟩ st)
        else if !ok ∨ st ≠ .ok then .next ((s1.retire d tgt.1 tgt.2).delta d (.cursor 0 ⟨n + 1, pos, 0⟩))
        else
          match s1.rebuildRow d n t row pos bad with
          | (none, gone, s1) => .next (s1.loseGone d n t row gone)
          | (some img, _, s1) =>
            let s2 := ((s1.writeSlot d tgt.1 tgt.2 row img temp).count .strPacksRebuilt).updMed fun m =>
              { m with rebuildSpent := m.rebuildSpent + 1 }
            .next (if row + 1 ≥ t.rows then s2.rebuilt d n pos seg tgt
              else s2.delta d (.cursor 0 ⟨n + 1, pos, row + 1⟩))

/-! ### Recoat (R210, R211) -/

/-- A recoat of a domain runs: its cursor holds 1, or the victim plus 2, the data pack and the granule. -/
def State.recoating (s : State) (d : SD) : Bool := decide ((s.metaOf d).recoat.x ≠ 0)

/-- The next stripe recoat takes: the oldest closed finish stripe of an older GEN. -/
def State.recoatNext (s : State) (d : SD) : Option Nat :=
  let l := (s.metaOf d).stripes.filter fun (n, t) => t.st = .closed && t.finish && decide (t.gen ≠ (s.metaOf d).shape.gen) &&
    !s.foldingNow d n && !s.isVictim d n
  (l.foldl (fun (b : Option (Nat × Stripe)) x => match b with
    | none => some x
    | some y => if x.2.closedAt < y.2.closedAt then some x else some y) none).map (·.1)

/-- Recoat takes a stripe. -/
def State.recoatTake (s : State) (d : SD) (n : Nat) : State :=
  ((s.victim d n 4).updVictim d n fun v => { v with stage := 1, recoat := true }).delta d (.cursor 3 ⟨n + 2, 0, 0⟩)

/-- RECOAT_COPY (R130, R210): the next granule of the stripe under recoat goes to a stripe of the new shape, within the
credit. -/
def execRecoatCopy (d : SD) (s : State) : Res :=
  let c := (s.metaOf d).recoat
  if c.x = 0 ∨ !s.owns d ∨ !s.up .med ∨ !s.up .cip ∨ s.logFull d ∨ s.urgent d ∨ s.rebuildUrgent d ∨
      bitsOf s.cfg.strRecoat.value.toNat 11 0 = 0 then .next s
  else if c.x = 1 then
    .next (match s.recoatNext d with
      | some n => s.recoatTake d n
      | none => s)
  else
    match s.stripe? d (c.x - 2) with
    | none => .next (s.delta d (.cursor 3 ⟨1, 0, 0⟩))
    | some t =>
      match s.nextCopy d t (c.y * 4096 + c.z) with
      | none => .next ((s.updVictim d (c.x - 2) fun v => { v with stage := 2 }).delta d (.cursor 3 ⟨1, 0, 0⟩))
      | some (p, l, r) =>
        if s.needsPack d r.ddom r.size ∧ s.med.recoatSpent ≥ bitsOf s.cfg.strRecoat.value.toNat 11 0 then .next s
        else
          match s.copyGran d (c.x - 2) l r with
          | none => .next s
          | some s1 =>
            let k := s1.copyPacks d - s.copyPacks d
            let s2 := (s1.updMed fun m => { m with recoatSpent := m.recoatSpent + k }).count .strRecoatPacks k
            .next (s2.delta d (.cursor 3 ⟨c.x, (p + 1) / 4096, (p + 1) % 4096⟩))

/-- RECOAT_COMPLETE (R211): the new shape is in force and no stripe of an older GEN is left. -/
def execRecoatComplete (d : SD) (s : State) : Res :=
  let m := s.metaOf d
  .next (if s.recoating d ∧ s.owns d ∧ m.shapeNext.isNone ∧ m.stripes.all (fun (_, t) => decide (t.st = .freed ∨ t.gen = m.shape.gen))
    then ((s.delta d (.cursor 3 ⟨0, 0, 0⟩)).raise .str 5).notify 0x10 0x0204 true (some d) 0xFF (leBytes 1 m.shape.gen)
    else s)

/-! ### Journal replay (R194, R195) -/

/-- A row is open in the journal: PACK or META_PACK records, no ROW_CLOSE, and no accumulator at STR. -/
def State.rowOpen (s : State) (d : SD) (n row : Nat) : Bool :=
  let l := (s.str.journal.get d).filter fun r => r.stripe = n ∧ r.row = row
  !l.isEmpty && l.all (fun r => decide (r.typ ≠ 2)) && (s.row? d n row).isNone

/-- A pack lies in a row that its domain's journal holds open. -/
def State.inOpenRow (s : State) (d : SD) (pack : Nat) : Bool :=
  match stripeOf (s.metaOf d) (pack / 4096) with
  | some (n, _, _) => s.rowOpen d n (pack % 4096)
  | none => false

/-- The entry of the granule that a replayed merge builds on: that of the map or, where it names a pack that waits for its own
replay, as the granule merged may itself, that of the checkpoint on flash. The record's tag tells whether it was the base (DEDUCED,
assumption 116). -/
def State.baseEnt (s : State) (d : SD) (root gran : Nat) : MapEnt :=
  match MapEnt.ofWord (entryOf (s.metaOf d) root gran) with
  | .stored raw loc chain =>
    if s.inOpenRow d (loc / 4096) then MapEnt.ofWord (entryOf (s.map.flash.get d) root gran) else .stored raw loc chain
  | e => e

/-- The bytes of a dust-sheet granule: the entry whose data holds a slot, over the content of the granule before it
where it covers only a part, with the lower-stamped entries of the granule between them (R67, R194). -/
def State.sheetGran (s : State) (d : SD) (slot : Nat) (merged : Bool) : List Byte × State :=
  let own := s.ubl.sheet.entries.find? fun (_, e) => e.sd = d ∧ e.data ≤ slot ∧ slot < e.data + e.nslots
  match own, merged with
  | some (_, e), true =>
    match s.ns? e.nsid with
    | none => (s.slotBytes slot, s)
    | some n =>
      let bp := blocksPer n.lbaf
      let bs := lbaData n.lbaf
      let g := e.slba / bp + (slot - e.data)
      let piece (x : Entry) : List (Nat × List Byte) :=
        (List.range bp).filterMap fun b =>
          let lba := g * bp + b
          if x.nsid = e.nsid ∧ x.sd = d ∧ x.marked ∧ x.stamp ≤ e.stamp ∧ x.slba ≤ lba ∧ lba < x.slba + x.nblk then
            some (b, if x.etype = 1 then slice (s.slotBytes (x.data + (g - x.slba / bp))) (b * bs) bs else zeros bs)
          else none
      let older := (s.ubl.sheet.entries.map (·.2)).foldr (fun x l =>
        let (a, b) := l.span fun (y : Entry) => decide (y.stamp < x.stamp)
        a ++ x :: b) []
      let laid := older.flatMap piece
      let (base, s1) := match s.baseEnt d n.root g with
        | .stored raw loc chain =>
          if (List.range bp).all (fun b => laid.any (·.1 = b)) || s.inOpenRow d (loc / 4096) then (zeros 4096, s)
          else (match s.readStored d raw loc chain with
            | (.bytes b, s1) => (b, s1)
            | (_, s1) => (zeros 4096, s1))
        | _ => (zeros 4096, s)
      (applyBlocks bs (fit base 4096) laid, s1)
  | _, _ => (s.slotBytes slot, s)

/-- A stored form, with its CHECK where it is raw. -/
structure Form where
  bytes : List Byte
  check : Option DWord
  deriving DecidableEq, Repr

/-- The stored form of a granule's bytes as the write side makes it (R121, R123, R194). -/
def formOf (b : List Byte) : Form :=
  match avaEncode b (crc64 b) with
  | some x => ⟨storedForm x, none⟩
  | none => ⟨b, some (crc64 b)⟩

/-- The stored form a source entry names, whole (Table 08.3). -/
def State.srcForm (s : State) (d : SD) (kind addr : Nat) : Option Form × State :=
  if kind = 2 then
    match s.refOf d addr with
    | none => (none, s)
    | some r => match s.storedBytes d r addr with
      | (some (b, c), s1) => (some ⟨b, if r.raw then c else none⟩, s1)
      | (none, s1) => (none, s1)
  else
    let (b, s1) := s.sheetGran d addr (kind = 1)
    (some (formOf b), s1)

/-- How many bytes of a continued granule lie in the pack before, and the kind of its source: by the record of that pack, or,
where its row is closed already, by the granule's reference record. -/
inductive Before where
  | record (r : JRec) (kind : Nat)
  | held (bytes kind : Nat)
  deriving DecidableEq, Repr

/-- What comes before a pack whose first source continues a granule (R128, R194). -/
def State.precedes (s : State) (d : SD) (pack addr : Nat) : Option Before :=
  match (s.str.journal.get d).findSome? fun r => match r.srcs.getLast? with
    | some x => if r.typ = 1 ∧ r.chainOut ∧ x.addr = addr ∧ x.kind ≠ 3 then some (Before.record r x.kind) else none
    | none => none with
  | some b => some b
  | none => ((s.metaOf d).refs.find? fun (_, r) => r.succ = some pack).map fun (l, r) =>
      .held (65536 - 16 * (l % 4096)) (if r.copyOf = some addr then 2 else 1)

/-- The body and raw check table regenerated from the source entries of a pack (R126 to R130, R194); `fuel` bounds the chain of
packs that continue one another. -/
def State.regenBody (d : SD) : Nat → Nat → List Src → State → Option (List Byte × List (Nat × DWord)) × State
  | 0, _, _, s => (none, s)
  | fuel + 1, pack, srcs, s => srcs.foldl (fun acc x => match acc with
      | (none, s) => (none, s)
      | (some (body, rct), s) =>
        if x.kind = 3 then
          match s.precedes d pack x.addr with
          | none => (none, s)
          | some (.held n kind) => (match s.srcForm d kind x.addr with
            | (some f, s1) => (some (body ++ f.bytes.drop n, rct), s1)
            | (none, s1) => (none, s1))
          | some (.record r kind) => (match State.regenBody d fuel pack r.srcs.dropLast s with
            | (some (b, _), s1) => (match s1.srcForm d kind x.addr with
              | (some f, s2) => (some (body ++ f.bytes.drop (65536 - b.length), rct), s2)
              | (none, s2) => (none, s2))
            | (none, s1) => (none, s1))
        else match s.srcForm d x.kind x.addr with
          | (some f, s1) => (some ((body ++ f.bytes).take 65536, rct ++ (f.check.map fun c => (body.length, c)).toList), s1)
          | (none, s1) => (none, s1)) (some ([], []), s)

/-- What a journal record gives for its data slot. -/
inductive Regen where
  | image (b : List Byte)
  | mismatch
  deriving DecidableEq, Repr

/-- The sidecar of a metadata pack carries a raw check table without entries (R129). -/
def metaTail (nonce : List Byte) (slot : Nat) : List Byte := sidecarTail nonce slot 2 (rctBytes [])

/-- Regenerate the image of a record (R194, R195): a zeroized slot counts as a fill pack. -/
def State.regen (s : State) (d : SD) (pack : Nat) (r : JRec) : Regen × State :=
  if r.typ = 3 then (.image (fit r.body 65536 ++ fit r.tag 16 ++ metaTail r.nonce r.slot), s)
  else
    let k := s.kslot r.slot
    if k.state = 0 ∨ k.state = 3 then (.image fillPack, s)
    else
      match State.regenBody d (s.str.journal.get d).length.succ pack r.srcs s with
      | (none, s1) => (.mismatch, s1)
      | (some (b, rct), s1) =>
        let img := sealPack k.key r.nonce r.slot 1 d pack b (rctBytes rct)
        (if imgTag img = fit r.tag 16 then .image img else .mismatch, s1)

/-- What a module's slot holds. -/
def State.slotAt (s : State) (d : SD) (seg row : Nat) : Option (SegEnt × Option SlotSt) :=
  (s.segOf d seg).bind fun e => if s.present e.port then
    (s.mod? e.port).map fun m => (e, Table.find m.slots (slotKey e.pseg row)) else none

/-- Make a slot hold its expected image (R195): an erased one is programmed; another content, or a program that
fails, substitutes the segment. -/
def State.replaySlot (s : State) (d : SD) (t : Stripe) (row pos : Nat) (img : List Byte) (temp : Int) : State :=
  let seg := t.members.getD pos 0
  if pos ∈ t.missing then s
  else
    match s.slotAt d seg row with
    | none => s
    | some (e, none) =>
      let s1 := { s with draws := s.draws + 1 }
      if Config.programFails s.draws then sub e s1 else s1.writeSlot d e.port e.pseg row img temp
    | some (e, some (.image b)) => if b = img then s else sub e s
    | some (e, some .torn) => sub e s
where
  /-- The segment is substituted, with this slot programmed from the expected image. -/
  sub (e : SegEnt) (s : State) : State :=
    let seg := t.members.getD pos 0
    if s.subDue d seg then s.stageFor d seg row img
    else s.updMed fun m => { m with subs := m.subs ++ [Sub.mk d seg e.port e.pseg [(row, img)]] }

/-- The data slots of an open row as the journal gives them (R194, R195): a missing record is a fill pack. -/
def State.rowImages (s : State) (d : SD) (n : Nat) (t : Stripe) (row : Nat) : List Regen × State :=
  (List.range t.k).foldl (fun (x : List Regen × State) j =>
    match (s.str.journal.get d).find? fun r => r.stripe = n ∧ r.row = row ∧ r.didx = j with
    | some r =>
      let (g, s') := x.2.regen d (t.members.getD (posData t.w t.p row j) 0 * 4096 + row) r
      (x.1 ++ [g], s')
    | none => (x.1 ++ [.image fillPack], x.2)) ([], s)

/-- Data slots whose record does not match raise REPLAY_MISMATCH, and the others are programmed where the flash has not got them (R195). -/
def State.replayData (s : State) (d : SD) (n : Nat) (t : Stripe) (row : Nat) (imgs : List Regen) (bad : List Nat) (temp : Int) : State :=
  let s1 := bad.foldl (fun s j =>
    (s.raise .str 4).snag 9 0x1004 (some d) 0xFF (leBytes 4 n ++ leBytes 2 row ++ leBytes 1 j)) s
  (imgs.zipIdx).foldl (fun s (x, j) => match x with
    | .image b => s.replaySlot d t row (posData t.w t.p row j) b temp
    | .mismatch => s) s1

/-- The parity slots of a row whose data slots are all known (R195). -/
def State.replayParity (s : State) (d : SD) (t : Stripe) (row : Nat) (imgs : List Regen) (temp : Int) : State :=
  let l := imgs.filterMap fun x => match x with
    | .image b => some b
    | .mismatch => none
  let s1 := s.replaySlot d t row (posP t.w row) (parityP l) temp
  if t.pq then s1.replaySlot d t row (posQ t.w row) (parityQ l) temp else s1

/-- The positions of a row that cannot be read after a replay with mismatches (R195). -/
def State.replayGone (s : State) (d : SD) (t : Stripe) (row : Nat) (bad : List Nat) : List Nat :=
  let dead (pos : Nat) : Bool := decide (pos ∈ t.missing) || (match s.slotAt d (t.members.getD pos 0) row with
    | some (_, some (.image _)) => false
    | _ => true)
  (List.range t.w).filter fun pos => match dataIdx t.w t.p t.k row pos with
    | some j => pos ∈ t.missing ∨ j ∈ bad
    | none => dead pos

/-- JOURNAL_REPLAY (R194, R195): one open row of a domain's journal, in stripe and row order. -/
def execJournalReplay (d : SD) (n row : Nat) (temp : Int) (s : State) : Res :=
  match s.stripe? d n with
  | none => .next s
  | some t =>
    let first := (s.str.journal.get d).all fun r =>
      !s.rowOpen d r.stripe r.row || decide (n < r.stripe ∨ (n = r.stripe ∧ row ≤ r.row))
    if !s.rowOpen d n row ∨ !first ∨ !s.owns d ∨ !s.up .str ∨ !s.up .med then .next s
    else
      let (imgs, s0) := s.rowImages d n t row
      let bad := (imgs.zipIdx).filterMap fun (x, j) => if x = .mismatch then some j else none
      let s2 := s0.replayData d n t row imgs bad temp
      let gone := s2.replayGone d t row bad
      let s3 := if bad.isEmpty then s2.replayParity d t row imgs temp
        else if gone.length > t.p then s2.loseRow d n t row gone 1 else s2
      .next ((s3.journal d (rowClose n row s.top.epoch)).count .strRowsReplayed)

end Sys2Proof.Machine
end

