-- ==== Sys2Proof/Machine/MbxOps.lean ====
section
/-!
DEFINITION. How a mailbox command runs: the request of a channel, its checks in order, its recorded identifier and its
response (R367, R373 to R377).
-/

namespace Sys2Proof.Machine

/-- Change MBX. -/
def State.updMbx (s : State) (f : MbxState → MbxState) : State := { s with mbx := f s.mbx }

/-- A channel. -/
def State.chan (s : State) (c : Nat) : Chan := Table.getD s.mbx.chans c Chan.reset

/-- Change a channel. -/
def State.updChan (s : State) (c : Nat) (f : Chan → Chan) : State :=
  s.updMbx fun m => { m with chans := Table.put m.chans c (f (s.chan c)) }

/-- The request of opcode `op` that a channel holds and Terzan has not answered: RID and parameters. -/
def State.asked (s : State) (c op : Nat) : Option (List Byte) :=
  let x := s.chan c
  if x.state = 1 ∧ x.op = op ∧ x.ready.isNone then some x.cur else none

/-- RID of a request. -/
def ridOf (r : List Byte) : Nat := leAt r 0 8

/-- A response bank's bytes: the header of Table 16.2 and the data. -/
def bankBytes (rsn op rid : Nat) (data : List Byte) : List Byte :=
  leBytes 2 rsn ++ leBytes 2 data.length ++ leBytes 2 op ++ zeros 2 ++ leBytes 8 rid ++ data

/-- The response of a channel is made; RESPONSE_POSTED makes it readable. -/
def State.reply (s : State) (c rsn : Nat) (data : List Byte) : State :=
  s.updChan c fun x => { x with ready := some (bankBytes rsn x.op (ridOf x.cur) (data.take 1008)) }

/-- The digest of a request's parameters (R373). -/
def paramDigest (r : List Byte) : List Byte := shake256 (r.drop 8) 32

/-- The record of a request identifier, in the array configuration or a domain's epoch state (R373). -/
def State.recorded (s : State) (rid : Nat) : Option RidRec :=
  (s.mbx.rids ++ s.map.live.a.rids ++ s.map.live.b.rids).find? fun x => x.rid = rid

/-- Record a request with its response (R373). -/
def State.record (s : State) (d : Option SD) (op : Nat) (r resp : List Byte) : State :=
  let x : RidRec := ⟨ridOf r, d, op, resp, paramDigest r⟩
  if ridOf r = 0 then s
  else match d with
    | some d => s.delta d (.rid x)
    | none => s.updMbx fun m => { m with rids := let l := m.rids ++ [x]; l.drop (l.length - 4096) }

/-- How a command's run ends: a response, or a run that goes on. -/
inductive Ans where
  | done (rsn : Nat) (data : List Byte) (s : State)
  | later (s : State)

/-- Refuse a command. -/
def Ans.no (rsn : Nat) (s : State) : Ans := .done rsn [] s

/-- The head that owns a domain, as this controller knows it. -/
def State.ownerHead (s : State) (d : SD) : Nat := if s.owns d then s.top.head else 1 - s.top.head

/-- A domain is in a handover or a service gap (R375). -/
def State.inGap (s : State) (d : SD) : Bool := s.fe.gap.get d

/-- Answer a state-changing or read-only command, recording the former. -/
def State.answerCmd (s : State) (c op : Nat) (changes : Bool) (d : Option SD) (r : List Byte) (rsn : Nat) (data : List Byte) : State :=
  let s1 := s.reply c rsn data
  if changes then s1.record d op r (bankBytes rsn op (ridOf r) (data.take 1008)) else s1

/-- What a command names: the domain it acts on (none where it acts on none; an error where what names the domain does
not exist) and the objects it holds. -/
structure Names where
  dom : Option SD
  objs : List (Nat × Nat)
  deriving DecidableEq, Repr

/-- Run a command (R373, R375, R376): repetition, then ownership, then held objects, then its own rules. -/
def State.runCmd (s : State) (c op : Nat) (changes : Bool) (names : State → List Byte → Except Nat Names)
    (f : State → List Byte → Ans) : Res :=
  match s.asked c op with
  | none => .next s
  | some r =>
    match (if changes ∧ ridOf r ≠ 0 then s.recorded (ridOf r) else none) with
    | some x =>
      if x.op = op ∧ x.params = paramDigest r then .next (s.updChan c fun y => { y with ready := some x.resp })
      else .next (s.reply c rsnExists [])
    | none =>
      match names s r with
      | .error e => .next (s.answerCmd c op changes none r e [])
      | .ok n =>
        let waits : Bool := match n.dom with
          | some d => s.inGap d || decide (s.top.phase < 6)
          | none => false
        let foreign : Bool := match n.dom with
          | some d => !s.owns d
          | none => false
        if waits then .next s
        else if foreign then .next (s.reply c rsnNotOwned (leBytes 1 ((n.dom.map s.ownerHead).getD 0)))
        else if n.objs.any (· ∈ s.mbx.running) then .next (s.reply c rsnBusy [])
        else
          match f s r with
          | .done rsn data s1 => .next (s1.answerCmd c op changes n.dom r rsn data)
          | .later s1 => .next (s1.updMbx fun m => { m with running := m.running ++ n.objs })

/-- A command that ran on is answered, and what it held is free. -/
def State.finishCmd (s : State) (c op : Nat) (d : Option SD) (objs : List (Nat × Nat)) (rsn : Nat) (data : List Byte) : State :=
  let s1 := s.updMbx fun m => { m with running := m.running.filter (· ∉ objs) }
  match s1.asked c op with
  | none => s1
  | some r => s1.answerCmd c op true d r rsn data

/-- A command that acts on no domain and holds what it names. -/
def onArray (objs : List Byte → List (Nat × Nat)) : State → List Byte → Except Nat Names := fun _ r => .ok ⟨none, objs r⟩

/-- A command that names its domain in a byte. -/
def onDomain (off : Nat) (s : State) (r : List Byte) : Except Nat Names :=
  let _ := s
  if leAt r off 1 > 1 then .error rsnRange else .ok ⟨some (SD.ofBit (leAt r off 1)), [(7, leAt r off 1)]⟩

/-- The domain of a root, as far as the controller knows it. -/
def State.rootDom (s : State) (root : Nat) : Option SD :=
  [SD.a, SD.b].find? fun d => (s.rootInfo d root).isSome

/-- A command that names a root. -/
def onRoot (off : Nat) (s : State) (r : List Byte) : Except Nat Names :=
  match s.rootDom (leAt r off 4) with
  | some d => .ok ⟨some d, [(1, leAt r off 4)]⟩
  | none => .error rsnNotFound

/-- A command that names a namespace. -/
def onNs (off : Nat) (s : State) (r : List Byte) : Except Nat Names :=
  match s.ns? (leAt r off 4) with
  | some n => .ok ⟨some n.sd, [(1, n.root)]⟩
  | none => .error rsnNotFound

/-- A command that names an attachment. -/
def onAttach (off : Nat) (s : State) (r : List Byte) : Except Nat Names :=
  match Table.find s.rdm.atts (leAt r off 4) with
  | some a => .ok ⟨some a.sd, [(6, leAt r off 4)]⟩
  | none => .error rsnNotFound

end Sys2Proof.Machine
end

