-- ==== Sys2Proof/Machine/PwrOps.lean ====
section
/-!
DEFINITION. Power-state requests and how transitions end (R415 to R417, R420), the flush request of the snag log (R433),
and the way an Ethernet port or every host goes.
-/

namespace Sys2Proof.Machine

/-- Change PWR. -/
def State.updPwr (s : State) (f : PwrState → PwrState) : State := { s with pwr := f s.pwr }

/-- A request ends with a reason: LAST_REASON and an event (R415). -/
def State.endRequest (s : State) (rsn bit : Nat) : State := (s.updPwr fun p => { p with lastReason := rsn }).raise .pwr bit

/-- Start a transition. -/
def State.startTransition (s : State) (r : Nat) : State :=
  s.updPwr fun p => { p with inflight := true, target := r, prepared := false, parkWait := false }

/-- Cancel a pending request with PSTATE_CANCELLED. -/
def State.cancelPending (s : State) : State :=
  if s.pwr.pending.isSome then (s.updPwr fun p => { p with pending := none }).endRequest rsnCancelled 2 else s

/-- A request for a power state (R415). -/
def State.requestState (s : State) (r : Nat) : State :=
  if !s.pwr.inflight then if r = s.pwr.current then s else s.startTransition r
  else if r = s.pwr.target then s.cancelPending
  else
    let s1 := if s.pwr.pending.isSome then s.endRequest rsnReplaced 2 else s
    s1.updPwr fun p => { p with pending := some r }

/-- The transition in flight has ended: a latched wake starts its exit, else a pending request starts unless it equals the
current state (R415, R420). -/
def State.transitionEnded (s : State) : State :=
  let s1 := s.updPwr fun p => { p with inflight := false, target := 0, prepared := false, parkWait := false }
  if !s1.pwr.wakes.isEmpty ∧ s1.pwr.current ≠ 0 then (s1.cancelPending.startTransition 0).raise .pwr 3
  else match s1.pwr.pending with
  | some r =>
    let s2 := s1.updPwr fun p => { p with pending := none }
    if r = s2.pwr.current then s2 else s2.startTransition r
  | none => s1

/-- What a control change of UBL needs of the heartbeat STATE. -/
def State.sayState (s : State) (n : Nat) : State := s.updUbl fun u => { u with hbState := n }

/-- The image of a flush (Table 20.3): header and records, as the log stands. -/
def State.flushImage (s : State) (cause : Nat) : List Byte :=
  let recs := s.evr.log.flatMap Snag.bytes
  let h := leBytes 4 0x47535856 ++ leBytes 1 cause ++ leBytes 1 s.top.head ++ leBytes 2 s.evr.log.length ++
    leBytes 8 s.dig.bootCount.toNat ++ leBytes 6 s.epoch48 ++ leBytes 4 ((s.evr.log.head?.map Snag.rnum).getD 0).toNat ++
    leBytes 4 (s.counter .evrDropped).toNat ++ leBytes 4 (s.evr.flushNum + 1).toNat ++ zeros 22
  h ++ leBytes 8 (crc64 (h ++ recs)).toNat ++ recs

/-- The modules a flush goes to: the two lowest present ports of the vault set (R434). -/
def State.flushPorts (s : State) : List Nat := (s.presentPorts.filter fun p => p % 2 = s.top.head % 2).take 2

/-- A flush of the snag log is asked for (R433), with its CAUSE: 0 PFAIL_N, 1 a fatal code, 2 EVR_CTRL.FLUSH. The log is
frozen. Without EVR enabled or an admitted module of the vault set the flush fails at once. -/
def State.askFlush (s : State) (cause : Nat) : State :=
  if s.evr.flushing then s
  else if !s.works .evr ∨ s.flushPorts.isEmpty then s.raise .evr 3
  else { s with evr := { s.evr with flushing := true, image := s.flushImage cause, issued := false } }

/-- Every Ethernet port goes down: the queue pairs enter the error state and the host controllers end (R252, R292, R322). -/
def State.portsDown (s : State) : State :=
  let s1 := s.updRdm fun r => { r with portUp := r.portUp.map fun (k, _) => (k, false) }
  let s2 := (s1.rdm.qps.map Prod.fst).foldl (fun s i => s.qpError i none) s1
  let s3 := (s2.fe.hosts.map Prod.fst).foldl State.endHost s2
  s3.updPwr fun p => { p with ethUp := false }

end Sys2Proof.Machine
end

