-- ==== Sys2Proof/Machine/UpdOps.lean ====
section
/-!
DEFINITION. Images, their headers and the chain of a push (R402 to R406), and a module's firmware (R388, R410).
-/

namespace Sys2Proof.Machine

/-- Change the update state. -/
def State.updUpd (s : State) (f : UpdState → UpdState) : State := { s with upd := f s.upd }

/-- A component's directory entry. -/
def State.comp (s : State) (c : Nat) : CompDir := Table.getD s.upd.dir c CompDir.empty

/-- Change a component's directory entry. -/
def State.updComp (s : State) (c : Nat) (f : CompDir → CompDir) : State :=
  s.updUpd fun u => { u with dir := Table.put u.dir c (f (s.comp c)) }

/-! ### Images (R403) -/

/-- Bytes of an image header. -/
abbrev hdrLen : Nat := 1536

/-- COMP, VERSION and LENGTH of an image. -/
def imgComp (b : List Byte) : Nat := leAt b 5 1
def imgVersion (b : List Byte) : Nat := leAt b 8 4
def imgLength (b : List Byte) : Nat := leAt b 32 8

/-- The payload of an image as held: encrypted outside an active slot. -/
def imgPayload (b : List Byte) : List Byte := b.drop hdrLen

/-- A key of the device key store. -/
def storeKey (n : Nat) : List Byte := leBytes 32 (Config.deviceKey n).toNat

/-- The plaintext of an image's payload, where TAG verifies under FK and PDIGEST matches (R403, R406). -/
def imgPlain (b : List Byte) : Option (List Byte) :=
  match gcmDec (storeKey 1) (slice b 40 12) (b.take 40) (imgPayload b) (slice b 52 16) with
  | some p => if shake256 p 64 = slice b 68 64 then some p else none
  | none => none

/-- SIG of a header verifies under the Corlum image key (Table 18.2). -/
def imgSigned (b : List Byte) : Bool := Config.falconVerify (Config.publicKey 3) (b.take 256) (slice b 256 1280)

/-- The largest payload of a component (Table 18.1); a module's is its own. -/
def compSize : Nat → Nat
  | 0 => 65536
  | 1 => 4 * 2 ^ 20
  | 2 => 16 * 2 ^ 20
  | 3 => 64 * 2 ^ 20
  | _ => 2 ^ 64

/-- The entries of a manifest's payload (Table 18.3). -/
def manifestEnts (p : List Byte) : List ManEnt :=
  (List.range (p.length / 32)).map fun i => ⟨leAt p (32 * i) 1, leAt p (32 * i + 4) 4, leAt p (32 * i + 8) 4⟩

/-- NAND_TYPE of a present module. -/
def State.nandOf (s : State) (port : Nat) : Nat := ((s.mod? port).map fun m => leAt m.desc 8 4).getD 0

/-- Present modules an image or manifest entry is for, in ascending port order. -/
def State.nandPorts (s : State) (nand : Nat) : List Nat := s.presentPorts.filter fun p => s.nandOf p = nand

/-- v lies in a range. -/
def inRange (v lo hi : Nat) : Bool := decide (lo ≤ v ∧ v ≤ hi)

/-- The header's fixed values and reserved bytes, and its signature (Table 18.5, check 1). -/
def headerValid (b : List Byte) : Bool :=
  decide (b.length ≥ hdrLen ∧ leAt b 0 4 = 0x4D495856 ∧ leAt b 4 1 = 1 ∧ imgComp b ∈ [0, 1, 2, 3, 0x10] ∧ leAt b 6 2 = 0 ∧
    leAt b 30 2 = 0 ∧ imgLength b ≤ compSize (imgComp b)) && allZero (slice b 152 104) && imgSigned b

/-- The release of the header, or its listing in the staged manifest (Table 18.5, check 2). -/
def State.headerListed (s : State) (b : List Byte) : Bool :=
  if imgComp b = 0 then decide (imgVersion b / 65536 ≥ s.ubl.version / 65536)
  else s.upd.manifest.any fun e => decide (e.comp = imgComp b ∧ e.version = imgVersion b) &&
    (decide (imgComp b ≠ 0x10) || decide (e.nand = leAt b 132 4))

/-- The ranges of the header against the peer, the link and the modules (Table 18.5, check 4). -/
def State.headerCompatible (s : State) (b : List Byte) : Bool :=
  match imgComp b with
  | 0 | 3 => true
  | 0x10 => inRange 1 (leAt b 26 2) (leAt b 28 2)
  | _ =>
    inRange s.ubl.peerVersion (leAt b 16 4) (leAt b 20 4) && inRange s.ubl.peerLevel (leAt b 24 1) (leAt b 25 1) &&
    inRange (leAt b 25 1) s.ubl.levelMin s.ubl.level &&
    s.presentPorts.all fun p => inRange (((s.mod? p).map fun m => leAt m.desc 4 2).getD 0) (leAt b 26 2) (leAt b 28 2)

/-- The checks of Table 18.5 in order: the reason of the first that fails. -/
def State.checkHeader (s : State) (b : List Byte) : Option Nat :=
  if !headerValid b then some rsnHeader
  else if !s.headerListed b then some rsnVersion
  else if imgVersion b < (s.comp (imgComp b)).floor then some rsnRollback
  else if !s.headerCompatible b then some rsnPeer
  else if imgComp b = 0x10 ∧ (s.nandPorts (leAt b 132 4)).isEmpty then some 0x0701
  else none

/-! ### Staging (R406) -/

/-- UPDATE_PUSH response data (Table 18.7). -/
def pushData (version refuser modules : Nat) : List Byte := leBytes 4 version ++ leBytes 1 refuser ++ leBytes 1 modules ++ zeros 2

/-- Every staged image goes, with the states of what was staged (R406: a MANIFEST push). -/
def UpdState.eraseStaged (u : UpdState) : UpdState :=
  { u with
    dir := Table.mapV (fun k => if k.state ≤ 1 then { k with state := 0, staged := [] } else k) u.dir
    mods := Table.keep (fun _ m => decide (m.state ≠ 1)) u.mods
    manifest := [] }

/-- A head records STAGED with its whole payload written, extends M6 and posts UPDATE_STAGED (R406 step 5). -/
def State.recordStaged (s : State) (b : List Byte) : State :=
  let c := imgComp b
  let s1 := match c with
    | 0x10 => s
    | 0 => (s.updUpd fun u => { u.eraseStaged with manifest := manifestEnts ((imgPlain b).getD []) }).updComp 0
        fun k => { k with state := 1, staged := b }
    | _ => s.updComp c fun k => { k with state := 1, staged := b }
  (s1.extendFor 6 0x07 0xFFFF false (eventDigest (b.take hdrLen))).notify 0x10 0x0501 true none 0xFF (leBytes 1 c)

/-- The staging slot is erased after a push that failed (R406). -/
def State.dropStaging (s : State) (c : Nat) : State :=
  if c = 0x10 then s else s.updComp c fun k => { k with staged := [], state := if k.state = 1 then 0 else k.state }

/-- The push of head 0 ends without staging: refusal reason and refuser (R406). -/
def State.failPush (s : State) (reason refuser : Nat) : State :=
  match s.upd.push with
  | none => s
  | some p => ((s.updUpd fun u => { u with push := none }).dropStaging p.comp).finishCmd p.chan 0x0701 none [(9, 0)] reason (pushData 0 refuser 0)

/-- The answer of head 1 reaches head 0: reason, version and modules staged. -/
def State.pushReply (s : State) (b : List Byte) : State :=
  match s.upd.push with
  | none => s
  | some p =>
    if s.top.head ≠ 0 then s
    else if leAt b 0 2 ≠ 0 then s.failPush (leAt b 0 2) 1
    else
      let s1 := (s.updUpd fun u => { u with push := none }).recordStaged p.image
      s1.finishCmd p.chan 0x0701 none [(9, 0)] 0 (pushData p.version 0xFF (leAt b 2 1))

/-- An image arrives at head 1 (R406 step 2); UPDATE_PUSH goes on there. -/
def State.pushArrived (s : State) (b : List Byte) : State :=
  if s.top.head ≠ 1 then s else s.updUpd fun u => { u with push := some ⟨imgComp b, 64, imgVersion b, b⟩ }

/-! ### Module firmware (R388, R406 step 4, R410) -/

/-- A module's slot 2 holds an image: its version string and digest are recorded against the serial (R388). -/
def State.stagedModule (s : State) (port version : Nat) (fwstr digest : List Byte) : State :=
  match s.mod? port with
  | none => s
  | some m =>
    let s1 := s.updMod port fun m => { m with fwStaged := some fwstr }
    let s2 := s1.updMed fun d => { d with serials := d.serials.map fun x => if x.serial = m.serial then { x with image := some (fwstr, digest) } else x }
    s2.updUpd fun u => { u with mods := Table.put u.mods port ⟨1, version, fwstr⟩ }

/-- A descriptor with another FW field, and its CRC. -/
def descWithFw (b fw : List Byte) : List Byte :=
  let d := patch b 1184 (fit fw 16)
  patch d 4088 (leBytes 8 (crc64 (d.take 4088)).toNat)

/-- The module runs another of its images after a reset. -/
def Module.runs (m : Module) (fw : List Byte) : Module := { m with fw := fw, desc := descWithFw m.desc fw }

/-- The module is reset through the sideband and admitted again (R410 steps 2, 3). -/
def State.resetModule (s : State) (port : Nat) : State :=
  s.updPort port Port.admitting

/-- A head makes a module absent for its activation; the commit of slot 2 takes effect at the reset (R410 steps 1, 2). -/
def State.activateModule (s : State) (port : Nat) : State :=
  let s1 := (s.makeAbsent port).updMod port fun m => match m.fwStaged with
    | some f => { m.runs f with fwOld := some m.fw }
    | none => m
  (s1.resetModule port).updUpd fun u => { u with mods := Table.upd u.mods port fun x => { x with state := 4 } }

/-- Slot 1 is committed and the module reset once more (R410). -/
def State.revertModule (s : State) (port : Nat) : State :=
  let s1 := s.updMod port fun m => match m.fwOld with
    | some f => { m.runs f with fwOld := none }
    | none => m
  (s1.resetModule port).updUpd fun u => { u with mods := Table.upd u.mods port fun x => { x with state := 5 } }

/-- A module under activation has been admitted again: R201 returns it to service, and it is confirmed where its descriptor
FW equals FWSTR (R410 step 4). -/
def State.settleModule (s : State) (port : Nat) (temp : Int) : State :=
  match Table.find s.upd.mods port, s.mod? port with
  | some x, some m =>
    if (s.port port).state ≠ 2 then s
    else if x.state = 4 ∧ slice m.desc 1184 16 = fit x.fwstr 16 then
      (s.returned port temp).updUpd fun u => { u with mods := Table.put u.mods port { x with state := 0 } }
    else if x.state = 5 ∧ m.fwStaged.isSome then
      (s.returned port temp).updMod port fun m => { m with fwStaged := none }
    else s
  | _, _ => s

/-! ### Activations (R409 to R411) -/

/-- The activation ends, with its command. -/
def State.actEnd (s : State) (reason : Nat) : State :=
  match s.upd.act with
  | some a => (s.updUpd fun u => { u with act := none }).finishCmd a.chan 0x0703 none [(9, 0)] reason []
  | none => s

/-- A head activation, at a step. -/
def State.actAt (s : State) (step : Nat) : Bool :=
  match s.upd.act with
  | some a => decide (a.comp ≠ 0x10 ∧ a.step = step)
  | none => false

/-- Move a head activation to a step. -/
def State.actStep (s : State) (n : Nat) : State := s.updUpd fun u => { u with act := u.act.map fun a => { a with step := n } }

end Sys2Proof.Machine
end

