-- ==== Sys2Proof/Machine/UbxOps.lean ====
section
/-!
DEFINITION. Operations over the peer: sealing and holds (R34, R37, R38), serving without a mirror (R326), declaration
(R320, R323), taking a domain (R229, R316, R325), the journal and entries of a mirror (R195, R311), and re-entry of
mirrored units (R58).
-/

namespace Sys2Proof.Machine

/-! ### Frames -/

/-- A message to the peer's Terzan. -/
def State.tell (s : State) (kind : Nat) (d : SD) (b : List Byte) : State := s.send (.message kind d b)

/-- Both heads serve and are linked, and the peer has been filled. -/
def State.paired (s : State) : Bool := s.ubl.up && s.ubl.peerServing && !s.ubl.unmirrored

/-- The owner epochs that a heartbeat carries: the own domains' and the best known of the others (Table 13.6). -/
def State.hbBytes (s : State) (hseq : Half) : List Byte :=
  let b := [0x48, BitVec.ofNat 8 (s.top.head % 2 + 2 * s.ubl.hbState + 16 * b2n s.ubl.up)] ++ leBytes 2 hseq.toNat ++
    leBytes 4 s.ubl.oepoch.a.toNat ++ leBytes 4 s.ubl.oepoch.b.toNat ++ leBytes 4 s.top.epoch.toNat
  b ++ leBytes 8 (crc64 b).toNat

/-! ### Sealing and holds (R34, R38, R313, R326) -/

/-- The copy of the epochs since a rehearsal's drain began is withheld (R329). -/
def State.withheld (s : State) (d : SD) : Bool :=
  match s.ubl.handover with
  | some h => decide (h.sd = d ∧ h.giver ∧ h.why = 1 ∧ h.step ≥ 1)
  | none => false

/-- The granules of accepted units whose deltas are not recorded (R50, R54): what the sealed log does not describe. -/
def State.openGrans (s : State) (d : SD) : List (Nat × Nat × Nat) :=
  (s.fe.inflight.filter fun x => x.sd = d).map fun x => (x.stamp, x.unitIdx, x.gran)

/-- A unit's metadata is not all in the copied epoch (R58, R325 step 7): it is stamped above its mark, or was open at its seal. -/
def Meta.todo (m : Meta) (e : Entry) : Bool :=
  decide (e.stamp > m.stampHi) || m.opens.any fun o => decide (o.1 = e.stamp ∧ o.2.1 = e.uidx)

/-- The granules of a unit to re-enter: all of them above the mark, the open ones below it. -/
def Meta.todoGran (m : Meta) (e : Entry) (gran : Nat) : Bool :=
  decide (e.stamp > m.stampHi) || decide ((e.stamp, e.uidx, gran) ∈ m.opens)

/-- Seal the delta log of a domain at a boundary, and queue it to the peer (R34, R38, R313). With four sealed epochs
waiting the log stays open. -/
def State.sealLog (s : State) (d : SD) : State :=
  if (s.ubl.waits.get d).length ≥ 4 then s
  else
    let s0 := if (s.metaOf d).stampHi = (s.fe.stamp.get d).toNat then s else s.delta d (.stamp (s.fe.stamp.get d))
    let s1 := if (s.metaOf d).opens = s.openGrans d then s0 else s0.delta d (.opens (s.openGrans d))
    let l := s1.map.log.get d
    let s2 := s1.updMap fun m => { m with logs := m.logs.set d (m.logs.get d ++ [l]) }
    let e := l.epoch.toNat % 65536
    if s.noMirror ∧ s.ubl.filling = 0 then s2.updUbl fun u => { u with copied := u.copied.set d l.epoch }
    else
      let sent := !s.withheld d
      let w : EpochWait := ⟨l, s2.lastMseq d, epochDigest l (Table.getD (s2.ubl.tx.get d).checks e []), 0, 0, sent⟩
      let s3 := s2.updUbl fun u => { u with waits := u.waits.set d (u.waits.get d ++ [w]) }
      if sent then s3.send (.epochLog d l w.mseqLast) else s3

/-- Open the delta log of the new epoch. -/
def State.openLog (s : State) (d : SD) : State :=
  if (s.map.logs.get d).getLast?.map (·.epoch) = some (s.map.log.get d).epoch
  then s.updMap fun m => { m with log := m.log.set d (s.freshLog d) } else s

/-- The write hold of a domain comes into force (R38, R324). -/
def State.holdWrites (s : State) (d : SD) : State := s.updUbl fun u => { u with hold := u.hold.set d true }

/-- The hold ends once fewer than four sealed epochs wait and the link is up (R38, R324). -/
def State.freeHold (s : State) (d : SD) : State :=
  if (s.ubl.up ∨ s.ubl.unmirrored) ∧ (s.ubl.waits.get d).length < 4 then s.updUbl fun u => { u with hold := u.hold.set d false }
  else s

/-- Decide every write whose condition may have been met (R73), and forget what is over. -/
def State.settleAll (s : State) (d : SD) : State :=
  ((s.fe.cmds.filter fun c => c.sd = d ∧ changesBlocks c.cap.op).foldl (fun s c => s.settleWrite d c.stamp) s).updFe fun f =>
    { f with cmds := f.cmds.filter fun c => !(decide (c.sd = d) && c.over s.noMirror) }

/-- Serve without a mirror (R326): nothing more waits for the peer. -/
def State.goUnmirrored (s : State) : State :=
  let s1 := (s.updUbl fun u => { u with
    unmirrored := true, filling := 0, hold := ⟨false, false⟩, waits := ⟨[], []⟩
    copied := ⟨s.top.epoch - 1, s.top.epoch - 1⟩
    tx := ⟨{ u.tx.a with unacked := [], checks := [] }, { u.tx.b with unacked := [], checks := [] }⟩ })
  let s2 := if s.ubl.unmirrored then s1 else s1.raise .ubl 13
  (s2.settleAll .a).settleAll .b

/-- A peer has been filled (R327): UNMIRRORED is cleared. -/
def State.endFill (s : State) : State :=
  (s.updUbl fun u => { u with unmirrored := false, filling := 0, peerServing := true }).updBlk .ubl
    fun k => { k with events := k.events.filter fun e => decide (e.bit ≠ 13) }

/-- An epoch of a domain is copied (R34, R37): its place goes, and journal records that waited for it leave. -/
def State.epochCopied (s : State) (d : SD) : State :=
  match s.ubl.waits.get d with
  | [] => s
  | w :: ws =>
    let s1 := s.updUbl fun u => { u with
      waits := u.waits.set d ws, copied := u.copied.set d w.log.epoch
      tx := u.tx.upd d fun t => { t with checks := Table.del t.checks (w.log.epoch.toNat % 65536) } }
    let s2 := (s1.freeHold d).releaseJournal d
    if s2.ubl.filling = 2 then s2.endFill else s2

/-- Send again what the peer has not acknowledged: mirror frames, sealed logs and forwarded commands. -/
def State.resendPeer (s : State) : State :=
  let frames (s : State) (d : SD) : State :=
    let s1 := (s.ubl.tx.get d).unacked.foldl (fun s f => s.send (.mirror f)) s
    (s.ubl.waits.get d).foldl (fun s w => if w.sent then s.send (.epochLog d w.log w.mseqLast) else s) s1
  let s1 := s.owned.foldl frames s
  s1.fe.fwd.foldl (fun s f => if s.owns f.sd then s else s.send (.fwdCmd f.tag { f.cap with origin := some f.tag })) s1

/-- The link is lost (R307, R315, R324, R406): head 1 yields where heartbeats still arrive on the pair. -/
def State.loseLink (s : State) : State :=
  let s0 := if s.top.head = 0 then s.failPush 0x0601 0xFF else s.updUpd fun u => { u with push := none }
  let s1 := (s0.updUbl fun u => { u with up := false, lanes := 0, lost := true }).raise .ubl 4
  if s1.top.head = 1 ∧ s1.ubl.pairOk then s1.sayState 5 else s1

/-! ### Declaration (R320, R323, R443) -/

/-- No declaration of the peer is made: before phase 6, of a parked peer, and under a restart notice (R411, R422, R443). -/
def State.mayDeclare (s : State) : Bool :=
  decide (s.top.phase = 6) && !s.pwr.peerParked && !s.ubl.peerFailed &&
  (match s.upd.act with
    | some a => !(decide (a.comp ≠ 0x10 ∧ a.step = 2))
    | none => true)

/-- Act on a declaration: hold the peer's domains, and begin to take them (R323, R325 step 1). With BREAK_N asserted nothing
is done. -/
def State.actDeclared (s : State) (rehearsal : Bool) : State :=
  if s.ubl.breakIn then s
  else
    let ds := [SD.a, SD.b].filter fun d => !s.owns d
    let s1 := if rehearsal then s else (s.updUbl fun u => { u with peerServing := false }).goUnmirrored
    let s2 := ds.foldl (fun s d =>
      if s.ubl.takeover.any fun t => t.sd = d then s
      else (s.updFe fun f => { f with gap := f.gap.set d true }).updUbl fun u => { u with
        takeover := u.takeover ++ [⟨d, 1, rehearsal, false⟩] }) s1
    if ds.isEmpty then s2.updUbl fun u => { u with breakOut := true } else s2

/-- Declare the peer failed (R320): by missed heartbeats (0) or a fault report (1). -/
def State.declare (s : State) (how : Nat) : State :=
  if !s.mayDeclare then s
  else
    let rehearsal := decide (how = 1) && [SD.a, SD.b].any fun d => (s.ubl.expectUnits.get d).isSome
    let s1 := ((s.updUbl fun u => { u with peerFailed := true }).raise .ubl 5).notify 13 0x0301 true none 0xFF (leBytes 1 how)
    let s2 := s1.wakeEvent 3
    if s2.top.head = 0 then s2.actDeclared rehearsal
    else s2.updUbl fun u => { u with delay := true, rehearsing := rehearsal }

/-! ### Fences and batten lines (R229, R321) -/

/-- Read the batten input of a domain. -/
def State.seeBatten (s : State) (d : SD) (level : Bool) : State := s.updUbl fun u => { u with battenIn := u.battenIn.set d level }

/-- Assert the batten output of a domain, where no break forbids it. -/
def State.seize (s : State) (d : SD) : State :=
  if s.ubl.breakIn then s else s.updUbl fun u => { u with battenOut := u.battenOut.set d true }

/-- Fence a domain with the next owner epoch on every present module (R229). -/
def State.fenceAll (s : State) (d : SD) : State :=
  let e := s.ubl.oepoch.get d
  let s1 := s.updUbl fun u => { u with oepoch := u.oepoch.set d (if e.toNat < 0xFFFFFFFE then e + 1 else e) }
  let s2 := s1.updMlk fun m => { m with stopped := m.stopped.set d false, ports := Table.mapV (·.setOwn d false) m.ports }
  s2.presentPorts.foldl (fun s p => s.fence d p) s2

/-- Every present module has completed the fence of a domain. -/
def State.fencedAll (s : State) (d : SD) : Bool :=
  s.presentPorts.all fun p => match d with
    | .a => (s.port p).ownA
    | .b => (s.port p).ownB

/-! ### The peer's domain as copied (R316) -/

/-- The domain up to the copied-epoch pointer: the shadow and the copied logs. -/
def State.copiedMeta (s : State) (d : SD) : Meta :=
  (s.ubl.shadowLogs.get d).foldl (fun m l => l.deltas.foldl Meta.applyAll m) (s.ubl.shadow.get d)

/-- A record of another owner's epochs: its epoch marks count as past. -/
def Meta.settle (m : Meta) : Meta :=
  { m with refs := Table.mapV (fun r => { r with zeroAt := 0 }) m.refs }

/-- The stripes at the cursors of garbage collection and recoat are victims still (R174, R177, R210). -/
def Meta.cursorVictims (m : Meta) (d : SD) : List Victim :=
  (if m.gc.x = 0 then [] else [Victim.mk d (m.gc.x - 1) 4 false 1]) ++
  (if m.recoat.x < 2 then [] else [Victim.mk d (m.recoat.x - 2) 4 true 1])

/-- The copies whose relocation has not ended, with the stripe of their source (R174). -/
def Meta.copies (m : Meta) (d : SD) : List Copied :=
  m.refs.filterMap fun (l, r) => r.copyOf.bind fun x => (stripeOf m (Loc.ofNum x).seg).map fun (n, _, _) => Copied.mk d x l n false

/-- Take a domain's copied metadata as the live one (R316, R444): it is checkpointed as taken, the ownership record changes,
and reservations, attachments and progress resume. -/
def State.installDomain (s : State) (d : SD) (m0 : Meta) : State :=
  let m := m0.settle
  let e := s.top.epoch - 1
  let s1 := s.updMap fun x => { x with
    live := x.live.set d m, flash := x.flash.set d m, ckpt := x.ckpt.set d e, logs := x.logs.set d []
    log := x.log.set d (s.freshLog d) }
  let s2 := s1.updUbl fun u => { u with
    own := u.own.set d true, copied := u.copied.set d e, waits := u.waits.set d [], hold := u.hold.set d false
    tx := u.tx.upd d fun t => { t with unacked := [], checks := [] }
    record := u.record.set d (s.top.head, s.ubl.oepoch.get d) }
  let segs := m.segs.map fun (_, x) => psegKey x.port x.pseg
  let mine (k : Nat) (r : PSegRec) : Bool := decide (k ∈ segs) || decide (r.sd = d)
  let s3 := (s2.updMed fun x => { x with
    pseg := x.pseg.map fun (k, r) => if mine k r then (k, { r with changed := 0 }) else (k, r)
    victims := x.victims.filter (fun v => decide (v.sd ≠ d)) ++ m.cursorVictims d
    copied := x.copied.filter (fun c => decide (c.sd ≠ d)) ++ m.copies d }).updMap fun x => { x with
    flashSeg := s2.med.pseg.foldl (fun t (k, r) =>
      if mine k r || (Table.find t k).any (fun o => decide (o.sd = d)) then Table.put t k r else t) x.flashSeg }
  let s4 := s3.updRdm fun r => { r with atts := m.atts.foldl (fun t (k, a) => Table.put t k a.moved) r.atts }
  let s5 := s4.updFe fun f => { f with
    recordPeer := f.recordPeer || (f.progress.isNone && m.prog.isSome)
    ns := m.ns.foldl (fun t (k, n) => Table.put t k n) (Table.keep (fun _ n => decide (n.sd ≠ d)) f.ns)
    progress := f.progress <|> m.prog }
  let broken := m.stripes.filterMap fun (n, t) => if t.st = .broken then some n else none
  let s6 := broken.foldl (fun s n => s.victim d n 0) s5
  s6.delta d (.owner s.top.head (s.ubl.oepoch.get d))

/-- Step 2 of R177: the relocations under way are forgotten, and every live record with COUNT 0, an unused copy among them,
becomes free-pending. -/
def State.dropCopies (s : State) (d : SD) : State :=
  (s.metaOf d).refs.foldl (fun s (l, r) =>
    let s1 := if r.copyOf.isSome then s.delta d (.ref l (some { r with copyOf := none })) else s
    if r.st = .live ∧ r.count = 0 then s1.freePending d l else s1) (s.updMed fun x => { x with copied := x.copied.filter fun c => decide (c.sd ≠ d) })

/-- The steps that restart and takeover take before new placement (R177): allocated segments no entry names move to
pending-erase; live records with COUNT 0 become free-pending; segments in either state are erased by ERASE_ISSUE, which needs no
later checkpoint for them; and the formed stripes of the former owner close at the end of their rows. -/
def State.recoverSteps (s : State) (d : SD) : State :=
  let named (k : Nat) : Bool := (s.metaOf d).segs.any fun (_, x) => psegKey x.port x.pseg = k
  let s1 := s.med.pseg.foldl (fun s (k, r) =>
    if r.sd = d ∧ r.st = .allocated ∧ !named k then
      s.delta d (.pseg (k / 2 ^ 20) (k % 2 ^ 20) { r with st := .pendingErase, changed := 0 })
    else s) s
  let s2 := (s1.dropCopies d).markMembers d
  (s2.metaOf d).stripes.foldl (fun s (n, t) =>
    if (t.st = .formed ∨ t.st = .opened) ∧ !s.inPair d n then s.closeStripe d n else s) s2

/-- Every segment of a domain that waits for its erase on a present module has been erased (R177 step 3). -/
def State.erased (s : State) (d : SD) : Bool :=
  s.med.pseg.all fun (k, r) => decide (r.sd ≠ d) || !s.present (k / 2 ^ 20) || decide (r.st ≠ .pendingErase ∧ r.st ≠ .erasing)

/-! ### The mirror (R191, R195, R310, R311) -/

/-- Read a journal record back from its bytes (Tables 08.2, 08.3). -/
def JRec.ofBytes (b : List Byte) : Option JRec :=
  let t := leAt b 0 1
  let len := 8 * leAt b 2 2
  let n := leAt b 42 2
  if t ∉ [1, 2, 3] ∨ len < 64 + 8 * n ∨ b.length < len then none
  else
    some ⟨t, bitOf (leAt b 1 1) 0, leAt b 4 4, leAt b 8 2, leAt b 10 1, leAt b 12 2, slice b 14 12, slice b 26 16,
      (List.range n).map fun i => ⟨leAt b (64 + 8 * i + 7) 1 / 32, leAt b (64 + 8 * i) 8 % 2 ^ 61⟩,
      BitVec.ofNat 64 (leAt b 44 6), slice b (64 + 8 * n) (len - 64 - 8 * n), 0⟩

/-- The journal records of a domain in the mirror, at their places in the ring, of stripes that are not freed (R195). -/
def State.mirrorJournal (s : State) (d : SD) (m : Meta) : List JRec :=
  ((s.ubl.rx.get d).jour.filterMap fun (o, n) =>
    (JRec.ofBytes (s.ubl.mirror.readN o n)).map fun r => { r with pos := o - d.num * s.str.ring }).filter fun r =>
    match Table.find m.stripes r.stripe with
    | some t => t.st ≠ .freed
    | none => false

/-- The place in a ring after the last record presented. -/
def ringEnd (l : List JRec) : Nat := (l.getLast?.map fun r => r.pos + r.len).getD 0

/-- The unreleased entries of a domain in the mirror, with their header offsets. -/
def State.mirrorEntries (s : State) (d : SD) : List (Nat × Entry) :=
  (s.ubl.rx.get d).hdrs.filterMap fun o => match Entry.ofBytes (s.ubl.mirror.readN o 64) with
    | some e => if e.sd = d then
        some (o, { e with nslots := if e.etype = 1 then (match s.ns? e.nsid with
          | some n => granCount n.lbaf e.slba e.nblk
          | none => 0) else 0 }) else none
    | none => none

/-- Stamp order, then unit order. -/
def Entry.le (a b : Entry) : Bool := decide (a.stamp < b.stamp ∨ (a.stamp = b.stamp ∧ a.uidx ≤ b.uidx))

/-- Entries in stamp order, one unit after another. -/
def sortEntries (l : List Entry) : List Entry :=
  l.foldr (fun x acc => (acc.takeWhile fun y => !x.le y) ++ x :: (acc.dropWhile fun y => !x.le y)) []

/-- The prefix of the units whose markers are present (R58 step 2). -/
def markedPrefix (l : List Entry) : List Entry := l.takeWhile (·.marked)

/-- The marked units whose metadata the copied epoch does not hold (R325 step 7, R329): those re-entry would apply. -/
def State.unitsAbove (s : State) (d : SD) (m : Meta) : List Entry :=
  markedPrefix ((sortEntries ((s.mirrorEntries d).map (·.2))).filter m.todo)

/-- Data slot `i` of a mirrored entry. -/
def State.mirrorSlot (s : State) (e : Entry) (i : Nat) : List Byte := s.ubl.mirror.readN ((e.data + i) * 4096) 4096

/-- The command a replayed unit belongs to: no host waits for it. -/
def replayCmd (e : Entry) (root : Nat) : Cmd :=
  let op : Byte := if e.etype = 1 then 0x01 else if e.etype = 2 then 0x08 else 0x09
  let sqe := patch (patch (zeros 64) 0 [op]) 4 (leBytes 4 e.nsid)
  { Cmd.new e.sd e.stamp ⟨⟨0xFFFF, 0xFFFF⟩, sqe, [], 0, none⟩ with
    root := some root, status := some stOk, posted := true }

/-- Only some granules of a unit are re-entered: the rest are recorded already. -/
def State.narrow (s : State) (e : Entry) (todo : Nat → Bool) : State :=
  let s1 := s.updFe fun f => { f with inflight := f.inflight.filter fun x =>
    ¬(x.sd = e.sd ∧ x.stamp = e.stamp ∧ x.unitIdx = e.uidx) ∨ todo x.gran }
  let left := (s1.fe.inflight.filter fun x => x.sd = e.sd ∧ x.stamp = e.stamp ∧ x.unitIdx = e.uidx).length
  (s1.updCmd e.sd e.stamp fun c => { c with units := c.units.map fun u => if u.idx = e.uidx then { u with left := left } else u }).updDp
    fun p => { p with grans := Table.keep (fun _ g => !(decide (g.sd = e.sd ∧ g.stamp = e.stamp ∧ g.unitIdx = e.uidx) && !todo g.gran)) p.grans }

/-- Re-enter one unit (R58 step 2, R59): an entry of the own dust sheet with its data and marker, its in-flight entries, and
its granules at the write side, as far as their metadata is not there already. None where the dust sheet has no room. -/
def State.reenter (s : State) (e : Entry) (todo : Nat → Bool) (data : Nat → List Byte) : Option State :=
  match s.ns? e.nsid with
  | none => some s
  | some n =>
    let d := e.sd
    let s0 := match s.cmd? d e.stamp with
      | some _ => s
      | none => s.updFe fun f => { f with cmds := f.cmds ++ [replayCmd e n.root] }
    match s0.cmd? d e.stamp with
    | none => some s
    | some c =>
      if c.units.any (·.idx = e.uidx) then some s
      else
        (s0.makeUnits c n e.uidx [(e.slba, e.nblk)]).map fun s1 =>
          match (s1.cmd? d e.stamp).bind fun x => x.units.find? (·.idx = e.uidx) with
          | none => s1
          | some u =>
            if e.etype = 1 then
              let ps := unitPieces n.lbaf e.slba u
              let bs := lbaData n.lbaf
              let s2 := (ps.zipIdx).foldl (fun s (p, i) =>
                let b := slice (data i) (p.blk * bs) (p.nblk * bs)
                let s' := (s.landSlot d p.slot (p.blk * bs) b (if p.last then some u.hdr else none)).setCheck d e.stamp p.unitIdx p.gran b
                s'.enterGran c n p (if p.nblk = blocksPer n.lbaf then some b else none) none) s1
              (s2.completeUnit d e.stamp u).narrow e todo
            else (s1.landZero { c with units := [] } n u).narrow e todo

/-- Re-enter units in order, until one finds no room: what is left. -/
def State.reenterAll (s : State) (todo : Entry → Nat → Bool) (data : State → Entry → Nat → List Byte) : List Entry → State × Bool
  | [] => (s, true)
  | e :: es => match s.reenter e (todo e) (data s e) with
    | some s1 => s1.reenterAll todo data es
    | none => (s, false)

/-! ### Commands forwarded to a failed owner (R58 step 5) -/

/-- Complete every command forwarded for a domain with Asymmetric Access Transition. -/
def State.failForwards (s : State) (d : SD) : State :=
  let mine := s.fe.fwd.filter fun f => f.sd = d
  let tags := mine.map (·.tag)
  let s1 := s.updFe fun f => { f with
    fwd := f.fwd.filter fun x => decide (x.sd ≠ d)
    cmds := f.cmds.map fun c => if c.tags.any (· ∈ tags)
      then { c with tags := c.tags.filter (· ∉ tags), status := some stTransition } else c }
  mine.foldl (fun s f => if s.fe.cmds.any fun c => c.cap = f.cap then s else s.answer f.cap stTransition 0 []) s1

/-- Commands held for a domain go on. -/
def State.endGap (s : State) (d : SD) : State := s.updFe fun f => { f with gap := f.gap.set d false }

/-- Hold a domain's new commands (R58, R328). -/
def State.startGap (s : State) (d : SD) : State := s.updFe fun f => { f with gap := f.gap.set d true }

end Sys2Proof.Machine
end

