-- ==== Sys2Proof/Machine/Epoch.lean ====
section
/-!
DEFINITION. The commit epoch: what a boundary does (Table 01.5) and the acknowledgement of its copy (R34 to R38, R313 to R316).
-/

namespace Sys2Proof.Machine

/-! ### Buffered configuration (R35, R354, R355) -/

/-- A register at a boundary: the nearer pending value applies, the later one comes nearer. -/
def Cfg.boundary (c : Cfg) : Cfg := { value := c.near.getD c.value, near := c.far, far := none }

/-- The registers of the commit-epoch blocks at a boundary. -/
def CfgRegs.boundary (c : CfgRegs) : CfgRegs :=
  { c with dpSpec := c.dpSpec.boundary, dpCoat := c.dpCoat.boundary, medGc := c.medGc.boundary
           medCredit := c.medCredit.boundary, strRebuild := c.strRebuild.boundary, strRecoat := c.strRecoat.boundary
           rdmCc := c.rdmCc.boundary, ublRehearse := c.ublRehearse.boundary }

/-- The commit-epoch registers of a block but for MED's card selectors. -/
def CfgRegs.ofBlk (c : CfgRegs) : Blk → List Cfg
  | .dp => [c.dpSpec, c.dpCoat]
  | .med => [c.medGc, c.medCredit]
  | .str => [c.strRebuild, c.strRecoat]
  | .rdm => [c.rdmCc]
  | .ubl => [c.ublRehearse]
  | _ => []

/-- A write of a block is pending for the next boundary; MED's card selectors are among them (R180). -/
def State.cfgDue (s : State) (b : Blk) : Bool :=
  ((s.cfg.ofBlk b).any fun c => c.near.isSome) || (decide (b = .med) && s.med.sels.any fun x => x.2.near.isSome)

/-- The pending writes of every block apply at the boundary that begins epoch `e` (R355). -/
def State.applyConfig (s : State) (e : Half) : State :=
  let due (b : Blk) : Bool := s.cfgDue b
  let s1 := Blk.all.foldl (fun s b => if due b then s.updBlk b fun k => { k with appliedAt := e } else s) s
  { s1 with cfg := s1.cfg.boundary }

/-! ### What a boundary does to a domain -/

/-- Free-pending granules whose epoch has been copied and whose COUNT is still 0 become freed (R103 step 2). -/
def State.freeGranules (s : State) (d : SD) : State :=
  (s.metaOf d).refs.foldl (fun s (l, r) =>
    if r.st = .freePending ∧ r.count = 0 ∧ s.epochSafe d r.zeroAt then s.delta d (.ref l (some { r with st := .freed })) else s) s

/-- A shape that RECOAT_START set takes effect (R210): every stripe formed from here on has it. The finish and metadata stripes
formed in the old shape close early, so that copies and pages go to the new one; skim stripes keep theirs (DESIGN CHOICE,
assumption 113). -/
def State.takeShape (s : State) (d : SD) : State :=
  match (s.metaOf d).shapeNext with
  | none => s
  | some h =>
    let old := (s.med.formed.filter fun f => f.sd = d ∧ f.finish).flatMap fun f => f.opened.toList ++ f.next.toList
    old.foldl (fun s n => s.closeEarly d n) (s.delta d (.shape h))

/-- The selectors written before the cut-off apply; a present module without a valid one raises NO_CARD (R35, R180). -/
def State.applySels (s : State) : State :=
  let s1 := s.updMed fun m => { m with sels := Table.mapV Cfg.boundary m.sels }
  if s1.presentPorts.any fun p => !bitOf (Table.getD s1.med.sels p (.reset 0)).value.toNat 8 then s1.raise .med 6 else s1

/-- A handover moves on at a boundary (R328): new commands are held, and later the log with everything of the domain has been
sealed. -/
def State.handoverBoundary (s : State) : State :=
  match s.ubl.handover with
  | none => s
  | some h =>
    let put (s : State) (n : Nat) : State := s.updUbl fun u => { u with handover := some { h with step := n } }
    if h.step = 0 then (put s 1).startGap h.sd
    else if h.giver ∧ h.step = 2 ∧
        !(s.dp.closed.any fun p => p.sd = h.sd) ∧ !(s.dp.packs.any fun p => p.sd = h.sd) ∧ s.dp.grans.all (fun (_, g) => decide (g.sd ≠ h.sd)) ∧
        s.dp.pend.isEmpty ∧ s.str.rows.all (fun r => decide (r.sd ≠ h.sd)) ∧
        s.mlk.out.all (fun o => decide (o.cmd.dom ≠ .sd h.sd)) then put s 3
    else s

/-- Epochs counted since the last cut of every attachment, with the last stamp of the epoch that ends. -/
def State.ageAttach (s : State) : State :=
  s.updRdm fun r => { r with atts := Table.mapV (fun a =>
    { a with age := a.age + 1, mark := (s.fe.stamp.get a.sd).toNat }) r.atts }

/-- The logs of the owned domains are sealed, the next epoch begins with logs of its own, and writes are held where four epochs wait (R32, R34, R38). -/
def State.turnEpoch (s : State) : State :=
  let late := s.owned.filter fun d => (s.ubl.waits.get d).length ≥ 4
  let s1 := s.owned.foldl State.sealLog s
  let s2 := { s1 with top := { s1.top with epoch := s.top.epoch + 1, fab := s1.top.fab.boundary } }
  let s3 := s2.owned.foldl State.openLog s2
  let s4 := late.foldl State.holdWrites s3
  if s4.owned.any fun d => s4.ubl.hold.get d then (s4.count .ublEpochHolds).raise .ubl 1 else s4

/-- The commit-epoch registers, modes, credits and card selectors written take effect (R35, R36, R91, R103, R110, R175, R180, R205, R210). -/
def State.boundaryConfig (s : State) : State :=
  let s1 := Blk.all.foldl (fun s b => s.updBlk b fun k => { k with waits := false }) (s.applyConfig (BitVec.ofNat 16 s.top.epoch.toNat))
  let s2 := s1.updDp fun p => { p with
    kdoms := Table.mapV (fun k => { k with mode := k.modeNext.getD k.mode, modeNext := none }) p.kdoms
    coatLeft := s1.cfg.dpCoat.value.toNat }
  (s2.updMed fun m => { m with gcSpent := 0, recoatSpent := 0, rebuildSpent := 0 }).applySels

/-- What the array does at a boundary (R170, R175, R176, R190, R191, R199, R210): modules admitted, shapes, freed granules, stripes, journal, rows. -/
def State.boundaryArray (s : State) : State :=
  let s1 := (List.range 48).foldl State.admitted s
  let s2 := s1.owned.foldl State.takeShape s1
  let s3 := s2.owned.foldl State.freeGranules s2
  let s4 := (s3.updMed fun m => { m with freeStripes := ⟨s3.freeFinish .a, s3.freeFinish .b⟩ }).formAll
  let s5 := if s4.owned.any s4.urgent then s4.raise .med 4 else s4
  let s6 := s5.owned.foldl State.releaseJournal s5
  s6.owned.foldl State.tidyRows s6

/-- EPOCH_BOUNDARY (R27, R32, R34 to R36, R38, R91, R103, R110, R170, R175, R176, R190, R191, R199, R205, R210, R313, R355, R360). -/
def execEpochBoundary (s : State) : Res :=
  if !s.top.running ∨ s.pwr.current = 3 ∨ s.pwr.pllHeld then .next s
  else .next (s.turnEpoch.boundaryConfig.boundaryArray.handoverBoundary.ageAttach)

/-- EPOCH_ACK (R34, R37, R193, R315, R326, R327): the peer's digest of epoch `e` of a domain. -/
def execEpochAck (d : SD) (epoch : DWord) (digest : List Byte) (s : State) : Res :=
  match s.ubl.waits.get d with
  | [] => .next s
  | w :: ws =>
    let s := s.heard 0 1
    if !s.owns d ∨ w.log.epoch ≠ epoch ∨ !w.sent then .next s
    else if w.digest = digest then .next (s.epochCopied d)
    else
      let n := w.mismatches + 1
      let s1 := ((s.count .ublMirrorMismatch).raise .ubl 0).snag 13 0x1005 (some d) 0xFF (leBytes 1 n)
      let put (s : State) (w : EpochWait) : State := s.updUbl fun u => { u with waits := u.waits.set d (w :: ws) }
      if n < 3 then .next ((put s1 { w with mismatches := n }).send (.epochLog d w.log w.mseqLast))
      else if w.retrains < 2 then
        .next (((put s1 { w with mismatches := 0, retrains := w.retrains + 1 }).updUbl fun u => { u with retrainDue := true }).send
          (.epochLog d w.log w.mseqLast))
      else .next (put s1 { w with mismatches := 0 }).loseLink

end Sys2Proof.Machine
end

