-- ==== Sys2Proof/Machine/Rdm.lean ====
section
/-!
DEFINITION. Commands of RDM: packets, contexts, the error state, FLUSH and ATOMIC WRITE, congestion, scrim mode
and links (rows RDMA_PACKET to PORT_LINK_DOWN, LOCAL_ACK_TIMEOUT).
-/

namespace Sys2Proof.Machine

/-- RDM takes packets: it is enabled and its domain is on. -/
def State.rdmOn (s : State) : Bool := s.works .rdm && s.powered .rdm

/-- RDMA_PACKET (R278, R280 to R283): a packet whose ICRC fails is dropped, as the IBTA rules say. -/
def execRdmaPacket (icrcOk : Bool) (p : Pkt) (s : State) : Res :=
  .next (if s.rdmOn && icrcOk && s.ethPort p.port then s.rxPkt p else s)

/-- Insert a parked packet by its distance from the expected PSN (R284). -/
def parkInsert (epsn : Nat) (p : Pkt) : List Pkt → List Pkt
  | [] => [p]
  | x :: xs =>
    if (p.psn + 2 ^ 24 - epsn) % 2 ^ 24 < (x.psn + 2 ^ 24 - epsn) % 2 ^ 24 then p :: x :: xs
    else x :: parkInsert epsn p xs

/-- CONTEXT_INSTALLED (R282, R284): the parked packets resume in PSN order; once the queue pair is in the error
state the rest are discarded. -/
def execContextInstalled (i : Nat) (s : State) : Res :=
  match s.qp? i with
  | none => .next s
  | some q =>
    if !q.fetching then .next s
    else
      let s1 := s.makeRoom.updQp i fun q => { q with onChip := true, fetching := false, parked := [] }
      let ps := q.parked.foldl (fun l p => parkInsert q.epsn p l) []
      .next (ps.foldl (fun s p => match s.qp? i with
        | some x => s.handlePkt i x p
        | none => s) s1)

/-- QP_ERROR (R292): a queue pair enters the error state. -/
def execQpError (i : Nat) (cause : Option WcSt) (s : State) : Res := .next (s.qpError i cause)

/-- The mirror holds everything sent for a domain up to a sequence number, or there is no peer (R291, R73,
R326). -/
def State.mirrored (s : State) (d : SD) (m : Word) : Bool :=
  s.noMirror || (s.ubl.tx.get d).unacked.all fun f => decide (f.mseq.toNat > m.toNat)

/-- RDMA_FLUSH (R291): the oldest waiting FLUSH is answered once its selectivity is met. -/
def execRdmaFlush (i : Nat) (s : State) : Res :=
  match s.qp? i with
  | none => .next s
  | some q =>
    match q.rwaits with
    | ⟨psn, persist, m, none⟩ :: rest =>
      if q.err ∨ (persist ∧ !s.mirrored (s.qpSd i) m) then .next s
      else .next ((s.updQp i fun q => { q with rwaits := rest }).tx (.flushResp i psn))
    | _ => .next s

/-- RDMA_ATOMIC_WRITE (R291): 8 B placed as one store, after every write before it. -/
def execRdmaAtomicWrite (i : Nat) (s : State) : Res :=
  match s.qp? i with
  | none => .next s
  | some q =>
    match q.rwaits with
    | ⟨psn, _, _, some (o, b)⟩ :: rest =>
      if q.err then .next s
      else .next (((s.updQp i fun q => { q with rwaits := rest }).place i o b).tx (.atomicResp i psn))
    | _ => .next s

/-- SEND_WITH_INVALIDATE (R288): a SEND with Invalidate from the bound queue pair's peer. -/
def execSendWithInvalidate (icrcOk : Bool) (qpn psn port rkey : Nat) (s : State) : Res :=
  .next (if s.rdmOn && icrcOk && s.ethPort port then s.rxPkt ⟨qpn, psn, port, .sendInv rkey⟩ else s)

/-- Change the rate of a queue pair, or of one path of a scrim queue pair. -/
def Qp.mapRate (q : Qp) (path : Nat) (f : Nat → Nat) : Qp :=
  if q.kind = .scrim then { q with paths := q.paths.map fun p => if p.idx = path then { p with rate := f p.rate } else p }
  else { q with rate := f q.rate }

/-- The rate after a CNP (R279), in bit/s: never below 1 Gb/s. -/
def cutRate (cc : Half) (r : Nat) : Nat := max 1000000000 (r * (16 - bitsOf cc.toNat 15 12) / 16)

/-- The rate after an interval without a CNP (R279), up to the port rate. -/
def raiseRate (cc : Half) (limit r : Nat) : Nat := min limit (r + 2 ^ bitsOf cc.toNat 3 0 * 100000000)

/-- CNP (R279, R305). -/
def execCnp (i path : Nat) (s : State) : Res :=
  match s.qp? i with
  | none => .next s
  | some _ => .next ((s.count .rdmCnpReceived).updQp i fun q => q.mapRate path (cutRate s.cfg.rdmCc.value))

/-- The local port of a queue pair or of one of its paths. -/
def Qp.portOf (q : Qp) (path : Nat) : Nat :=
  if q.kind = .scrim then ((q.paths.find? (·.idx = path)).map (·.port)).getD q.port else q.port

/-- RATE_RAISE (R279). -/
def execRateRaise (i path : Nat) (s : State) : Res :=
  .next (s.updQp i fun q => q.mapRate path (raiseRate s.cfg.rdmCc.value (s.portRate (q.portOf path))))

/-- SCRIM_PACKET (R293, R294). -/
def execScrimPacket (icrcOk : Bool) (qpn psn port : Nat) (x : Sxh) (data : List Byte) (s : State) : Res :=
  .next (if s.rdmOn && icrcOk && s.ethPort port then s.rxPkt ⟨qpn, psn, port, .scrim x data⟩ else s)

/-- BASE advances past a run of complete messages (R295). -/
def advanceBase (m : Table RMsg) : Nat → Nat → Nat
  | 0, b => b
  | f + 1, b => if ((Table.find m b).map (·.complete)).getD false then advanceBase m f ((b + 1) % 2 ^ 32) else b

/-- SCRIM_COMPLETE (R295): every bit set and every placement finished. -/
def execScrimComplete (i msn : Nat) (s : State) : Res :=
  match s.qp? i with
  | none => .next s
  | some q =>
    match Table.find q.rmsgs msn with
    | none => .next s
    | some m =>
      if q.err ∨ m.complete ∨ m.bitmap ≠ 2 ^ (m.npktM1 + 1) - 1 then .next s
      else
        let ms := Table.put q.rmsgs msn { m with complete := true }
        let b := advanceBase ms 64 q.base
        .next ((s.updQp i fun q => { q with
          rmsgs := Table.keep (fun k _ => (k + 2 ^ 32 - b) % 2 ^ 32 < 64) ms, base := b
          comps := q.comps ++ [Wc.mk true 0 .ok] }).tx (.scrimAck i msn))

/-- SCRIM_ACK (R296): the message is retired, and what waited behind it goes. -/
def execScrimAck (i msn : Nat) (s : State) : Res :=
  match s.qp? i with
  | none => .next s
  | some q =>
    if q.err then .next (s.count .rdmErrDropped)
    else if q.tmsgs.any (·.msn = msn) then
      .next ((s.updQp i fun q => { q with
        tmsgs := q.tmsgs.filter (·.msn ≠ msn), wrs := q.wrs.filter (fun w => w ≠ ⟨msn, .scrim⟩)
        comps := q.comps ++ [Wc.mk false msn .ok] }).pumpAll i)
    else .next s

/-- The path a resent packet takes: its own while that is up, else the lowest that is. -/
def Qp.pathFor (q : Qp) (m : TMsg) (pidx : Nat) : Nat :=
  let p := m.paths.getD pidx 0
  if q.paths.any (fun x => x.idx = p ∧ x.up) then p else ((q.paths.find? (·.up)).map (·.idx)).getD 0

/-- Resend packets of a message (R296): each counts. -/
def State.resend (s : State) (i : Nat) (q : Qp) (m : TMsg) (ps : List Nat) : State :=
  (ps.foldl (fun s p => s.scrimTx i m.msn p (q.pathFor m p) true) s).count .rdmScrimRetx ps.length

/-- SCRIM_NAK (R296): only the packets the bitmap shows missing are resent. -/
def execScrimNak (i msn bitmap : Nat) (s : State) : Res :=
  match s.qp? i with
  | none => .next s
  | some q =>
    if q.err then .next (s.count .rdmErrDropped)
    else
      match q.tmsgs.find? (·.msn = msn) with
      | none => .next s
      | some m => .next (s.resend i q m ((List.range (m.npktM1 + 1)).filter fun p => !bitmap.testBit p))

/-- SCRIM_TIMEOUT (R296): the last packet again with RETRY; the seventh timeout of a message is an error. -/
def execScrimTimeout (i msn : Nat) (s : State) : Res :=
  match s.qp? i with
  | none => .next s
  | some q =>
    match q.tmsgs.find? (·.msn = msn) with
    | none => .next s
    | some m =>
      if m.timeouts + 1 ≥ 7 then .next (s.qpError i (some .retryExceeded))
      else
        let s1 := s.updQp i fun q => { q with tmsgs := q.tmsgs.map fun x => if x.msn = msn then { x with timeouts := x.timeouts + 1 } else x }
        .next (s1.resend i q m [m.npktM1])

/-- A scrim path is removed (R296): its unacknowledged packets are missing and go out again on the others; with the
last path the queue pair enters the error state. -/
def State.dropPath (s : State) (i path : Nat) : State :=
  match s.qp? i with
  | none => s
  | some q =>
    if q.kind ≠ .scrim ∨ q.err ∨ !(q.paths.any fun p => p.idx = path ∧ p.up) then s
    else
      let q1 := { q with paths := q.paths.map fun p => if p.idx = path then { p with up := false } else p }
      let s1 := (s.updQp i fun _ => q1).raise .rdm 3
      if q1.paths.any (·.up) then
        q.tmsgs.foldl (fun s m => s.resend i q1 m ((List.range (m.npktM1 + 1)).filter fun p => m.paths.getD p 0 = path)) s1
      else s1.qpError i (some .retryExceeded)

/-- PATH_DOWN (R296). -/
def execPathDown (i path : Nat) (s : State) : Res := .next (s.dropPath i path)

/-- PORT_LINK_DOWN (R292, R296): queue pairs of the port enter the error state, scrim queue pairs lose a path. -/
def execPortLinkDown (port : Nat) (s : State) : Res :=
  let s1 := s.updRdm fun r => { r with portUp := Table.put r.portUp port false }
  .next (s1.rdm.qps.foldl (fun s (i, q) =>
    if q.kind = .scrim then (q.paths.filter (·.port = port)).foldl (fun s p => s.dropPath i p.idx) s
    else if q.port = port then s.qpError i none else s) s1)

/-- LOCAL_ACK_TIMEOUT (R292): the requester retransmits, or its queue pair enters the error state. -/
def execLocalAckTimeout (i : Nat) (rnr : Bool) (s : State) : Res :=
  match s.qp? i with
  | none => .next s
  | some q => .next (if q.err then s else s.retry i rnr)

end Sys2Proof.Machine
end

