-- ==== Sys2Proof/Machine/Ubius.lean ====
section
/-!
DEFINITION. The Ubius link: mirror and epoch frames, retries and training, forwarding, and the link's states (R306 to R317, R324).
-/

namespace Sys2Proof.Machine

/-! ### Mirror frames received (R311, R312) -/

/-- Write the data of a frame into the mirror, keeping track of entry headers and journal records. -/
def State.mirrorWrite (s : State) (f : MFrame) : State :=
  let ring := s.str.ring
  let rx := s.ubl.rx.get f.sd
  let m1 := s.ubl.mirror.writeAll f.offset f.data
  let m2 := match f.mhdr with
    | some h => m1.writeAll (h + 56) (m1.readN (h + 8) 8)
    | none => m1
  let isHdr := decide (f.offset ≥ 2 * ring ∧ f.offset % 4096 = 0 ∧ f.data.length = 64 ∧ (Entry.ofBytes f.data).isSome)
  let hdrs := if isHdr ∧ f.offset ∉ rx.hdrs then rx.hdrs ++ [f.offset] else rx.hdrs
  let len := 8 * leAt f.data 2 2
  let part := rx.jour.any fun (o, n) => o < f.offset ∧ f.offset < o + n
  let isRec := decide (f.offset < 2 * ring ∧ len ≥ 64) && !part
  let jour := if isRec
    then (rx.jour.filter fun (o, n) => o + n ≤ f.offset ∨ f.offset + len ≤ o) ++ [(f.offset, len)] else rx.jour
  s.updUbl fun u => { u with mirror := m2, rx := u.rx.set f.sd { rx with hdrs := hdrs, jour := jour } }

/-- A frame in MSEQ order whose CHECK passes counts: its CHECK joins the epoch's digest and it is acknowledged (R311 to R313). -/
def State.frameTaken (s : State) (f : MFrame) (check : DWord) : State :=
  (s.updUbl fun u => { u with rx := u.rx.upd f.sd fun x => { x with
    mseq := f.mseq, checks := Table.put x.checks f.epoch16 (Table.getD x.checks f.epoch16 [] ++ [check]) } }).send
    (.mirrorAck f.sd f.mseq)

/-- What the receiver of a frame does: a CHECK that fails is answered with a NAK, a frame taken before with its
acknowledgement, a frame out of order with nothing. -/
def State.receiveFrame (s : State) (f : MFrame) (check : DWord) (g : State → State) : State :=
  let rx := s.ubl.rx.get f.sd
  if s.owns f.sd ∨ !s.ubl.up then s
  else if f.check ≠ check then s.send (.mirrorNak f.sd f.mseq)
  else if f.mseq = rx.mseq + 1 then (g s).frameTaken f check
  else if (rx.mseq - f.mseq).toNat < 2 ^ 31 then s.send (.mirrorAck f.sd rx.mseq)
  else s

/-! ### Epoch frames received (R313, R316) -/

/-- The digest of a log received in full is returned once every frame up to MSEQ_LAST is there; an acknowledged log joins the
shadow's logs, in place of an earlier copy of its epoch. -/
def State.tryAck (s : State) (d : SD) : State :=
  let rx := s.ubl.rx.get d
  match (s.ubl.erx.get d).log, (s.ubl.erx.get d).fin with
  | some l, some (n, last) =>
    if l.deltas.length ≠ n ∨ (rx.mseq - last).toNat ≥ 2 ^ 31 then s
    else
      let e16 := l.epoch.toNat % 65536
      let s1 := s.send (.epochAck d l.epoch (epochDigest l (Table.getD rx.checks e16 [])))
      let old := (s1.ubl.shadowLogs.get d).filter fun (x : DLog) => decide (x.epoch ≠ l.epoch ∨ x.oepoch ≠ l.oepoch)
      let s2 := s1.updUbl fun u => { u with
        erx := u.erx.set d ⟨none, none⟩
        rx := u.rx.set d { rx with checks := Table.keep (fun k _ => decide ((e16 + 65536 - k) % 65536 ≤ 4)) rx.checks }
        shadowLogs := u.shadowLogs.set d (old ++ [l])
        oepoch := u.oepoch.set d (if u.oepoch.get d < l.oepoch then l.oepoch else u.oepoch.get d) }
      l.deltas.foldl (fun s x => match x with
        | .pseg port p v => s.updMed fun m => { m with pseg := Table.put m.pseg (psegKey port p) v }
        | .ns k v => s.updFe fun f => { f with ns := Table.setOpt f.ns k v }
        | .owner h e => s.updUbl fun u => { u with record := u.record.set d (h, e) }
        | _ => s) s2
  | _, _ => s

/-- Copied logs beyond the latest four are applied to the shadow (R316). -/
def State.foldShadow (s : State) (d : SD) : State :=
  let l := s.ubl.shadowLogs.get d
  let k := l.length - 4
  s.updUbl fun u => { u with
    shadow := u.shadow.set d ((l.take k).foldl (fun m x => x.deltas.foldl Meta.applyAll m) (u.shadow.get d))
    shadowLogs := u.shadowLogs.set d (l.drop k)
    shadowEpoch := u.shadowEpoch.set d (((l.take k).getLast?.map (·.epoch)).getD (u.shadowEpoch.get d)) }

/-- MIRROR_FRAME (R311, R312): a data frame of the peer's domain with the CHECK its trailer carries. -/
def execMirrorFrame (f : MFrame) (check : DWord) (s : State) : Res :=
  if f.release then .next s
  else .next (((s.heard 1 (flitsOf (64 + f.data.length))).receiveFrame f check fun s => s.mirrorWrite f).tryAck f.sd)

/-- RELEASE_FRAME (R312): the entries a release frame names leave the mirror. -/
def execReleaseFrame (f : MFrame) (check : DWord) (s : State) : Res :=
  if !f.release then .next s
  else
    let gone := (List.range (f.data.length / 8)).map fun i => leAt f.data (8 * i) 8 * 4096
    .next (((s.heard 1 (flitsOf (64 + f.data.length))).receiveFrame f check fun s => s.updUbl fun u => { u with
      rx := u.rx.upd f.sd fun x => { x with hdrs := x.hdrs.filter (· ∉ gone) } }).tryAck f.sd)

/-- MIRROR_ACK (R51, R73, R312): every frame of a domain up to an MSEQ has been accepted by the peer. -/
def execMirrorAck (d : SD) (mseq : Word) (s : State) : Res :=
  if !s.ubl.up then .next s
  else
    let covers (q : Word) : Bool := decide ((mseq - q).toNat < 2 ^ 31)
    let s1 := (s.heard 0 1).updUbl fun u => { u with
      tx := u.tx.upd d fun t => { t with unacked := t.unacked.filter fun f => !covers f.mseq } }
    let s2 := s1.updFe fun f => { f with cmds := f.cmds.map fun c =>
      if c.sd = d then { c with units := c.units.map fun x =>
        match x.mseq with
        | some q => if covers q then { x with acked := true } else x
        | none => x } else c }
    .next (s2.settleAll d)

/-- EPOCH_FRAME (R313, R316, R327): part of a delta log of the peer's domain, or of the shadow that fills this head. -/
def execEpochFrame (d : SD) (x : EFrame) (s : State) : Res :=
  if s.owns d ∨ !s.ubl.up then .next s
  else
    match x with
    | .shadow m e => .next ((s.heard 2 (max 1 (Config.shadowFlits m))).updUbl fun u => { u with
        shadow := u.shadow.set d m, shadowEpoch := u.shadowEpoch.set d e, shadowLogs := u.shadowLogs.set d []
        rx := u.rx.set d ⟨0, [], [], []⟩ })
    | .log epoch oepoch part fin =>
      let old : List Delta := match (s.ubl.erx.get d).log with
        | some l => if l.epoch = epoch ∧ l.oepoch = oepoch ∧ (s.ubl.erx.get d).fin.isNone then l.deltas else []
        | none => []
      let s1 := (s.heard 2 (logFlits (DLog.bytes ⟨epoch, oepoch, part⟩).length)).updUbl fun u => { u with
        erx := u.erx.set d ⟨some ⟨epoch, oepoch, old ++ part⟩, fin⟩ }
      .next ((s1.tryAck d).foldShadow d)

/-! ### Flits, training and the link (R307, R309, R324) -/

/-- FLIT_ERROR (R307): the receiver discards from a flit on and names the FSEQ it expects. -/
def execFlitError (fseq : Half) (s : State) : Res :=
  .next (if s.ubl.up then ({ s with link := { s.link with fseqRx := fseq - 1 } }).send (.flitNak fseq) else s)

/-- The replay buffer after a NAK that names a flit: those before it are acknowledged, it and all after it are replayed (R307). -/
def replayFlits (l : List Flit) (fseq : Half) : List Flit :=
  (l.dropWhile fun x => decide (x.fseq ≠ fseq)).map fun x => { x with replays := x.replays + 1 }

/-- NAK (R307, R312): the flits of the replay buffer are sent again from the one named; a mirror frame that failed its CHECK is sent
again with all after it. -/
def execNak (n : Nak) (s : State) : Res :=
  if !s.ubl.up then .next s
  else
    let s := s.heard 0 1
    match n with
    | .flit fseq =>
      let l := replayFlits s.link.replay fseq
      if l.isEmpty then .next s
      else .next (({ s with link := { s.link with replay := l, again := l.length } }).count .ublFlitRetry l.length)
    | .mirror d q =>
      .next (((s.ubl.tx.get d).unacked.filter fun f => (f.mseq - q).toNat < 2 ^ 31).foldl (fun s f => s.send (.mirror f)) s)

/-- LINK_RETRAIN (R307, R315): the link trains: after a flit replayed 16 times, under the digest rule, or from the down state;
`groups` lane groups are healthy. -/
def execLinkRetrain (groups : Nat) (s : State) : Res :=
  let again := s.ubl.retrainDue || s.link.replay.any fun f => f.replays ≥ 16
  if !again ∧ s.ubl.lanes ≠ 0 ∨ !s.powered .ubl then .next s
  else
    let lanes := if groups ≥ 3 then 2 else if groups = 2 then 1 else 0
    let s1 := s.retrained.updUbl fun u => { u with lanes := lanes, retrainDue := false, up := u.up && decide (lanes ≠ 0) }
    let s2 := if again then (s1.count .ublRetrains).raise .ubl 3 else s1
    let s3 := if lanes = 1 then s2.raise .ubl 2 else s2
    .next (if lanes ≠ 0 ∧ !s3.ubl.up then s3.sendRaw (.hello s3.top.head s3.ubl.level s3.ubl.version s3.ubl.array)
      else if s3.ubl.up then s3.resendPeer else s3)

/-- UBIUS_LINK_DOWN (R324): the link falls below 16 lanes: UBL_UP clears and the hold of R38 comes into force. -/
def execUbiusLinkDown (s : State) : Res :=
  if !s.ubl.up then .next s
  else
    let s1 := s.updUbl fun u => { u with up := false, lanes := 0 }
    .next (if s1.ubl.unmirrored ∨ s1.owned.isEmpty then s1 else (s1.owned.foldl State.holdWrites s1).raise .ubl 1)

/-- LINK_LOST (R307, R324): the link has been down for 100 ms. -/
def execLinkLost (s : State) : Res := .next (if s.ubl.up ∨ s.ubl.lost then s else s.loseLink)

/-- The peer's HELLO refused (R309, R457): the link stays down. -/
def State.refuseHello (s : State) : State := (s.updUbl fun u => { u with up := false, versionRefused := true }).raise .ubl 14

/-- An activation hears its head again (R411 step 4), or refuses it. -/
def State.actHello (s : State) (ok : Bool) : State :=
  if !s.actAt 2 then s
  else if ok then (s.actStep 3).updUbl fun u => { u with breakOut := false, peerFailed := false }
  else (s.actEnd rsnPeer).declare 1

/-- The peer's HELLO and its identity certificate extend M7 at a link-up (R387). -/
def State.extendHello (s : State) (head level version : Nat) (array cert : List Byte) : State :=
  s.extendFor 7 0x08 0xFFFF false (eventDigest (leBytes 1 head ++ leBytes 1 level ++ leBytes 4 version ++ array ++ cert))

/-- HELLO (R309, R387, R404, R411, R443, R457): the peer's HELLO at link-up, with the identity certificate it sends. -/
def execHello (head level version : Nat) (array cert : List Byte) (s : State) : Res :=
  if s.ubl.lanes = 0 then .next s
  else if head % 2 = s.top.head then .next (s.refuseHello.updUbl fun u => { u with headClash := true })
  else if (!array.isEmpty ∧ !s.ubl.array.isEmpty ∧ array ≠ s.ubl.array) ∨ level < s.ubl.levelMin ∨ level > s.ubl.level then
    .next (s.refuseHello.actHello false)
  else
    let s0 := if s.ubl.up then s.heard 0 1 else s.retrained
    let s1 := s0.updUbl fun u => { u with
      up := true, lost := false, versionRefused := false, peerLevel := level, peerVersion := version, peerServing := true
      array := if u.array.isEmpty then array else u.array }
    let s2 := s1.sendRaw (.hello s1.top.head s1.ubl.level s1.ubl.version s1.ubl.array)
    let s3 := if s.ubl.up then s1 else (s2.extendHello head level version array cert).resendPeer
    .next ((s3.owned.foldl State.freeHold s3).actHello true)

/-! ### Forwarding (R40, R42, R270, R317) -/

/-- FORWARD_CMD (R40, R42, R317): a command forwarded by the peer arrives; it waits at admission as a capsule does. -/
def execForwardCmd (tag : Nat) (c : Capsule) (s : State) : Res :=
  if !s.ubl.up then .next s
  else .next ((s.heard 3 (flitsOf (96 + c.data.length))).updFe fun f => { f with
    waiting := f.waiting ++ [⟨{ c with origin := some tag }, s.top.epoch, [], false⟩] })

/-- FORWARD_DATA (R317): write data for a command this head owns, or read data of one it forwarded, at a byte offset. -/
def execForwardData (tag off : Nat) (b : List Byte) (s : State) : Res :=
  let s := s.heard 3 (flitsOf (32 + b.length))
  match s.fe.cmds.find? fun c => c.cap.origin = some tag with
  | some c => .next (if off = c.host.length then s.feed c.sd c.stamp b else s)
  | none => .next (s.updFe fun f => { f with
      waiting := f.waiting.map fun w => if w.cap.origin = some tag ∧ off = w.data.length then { w with data := w.data ++ b } else w
      fwd := f.fwd.map fun x => if x.tag = tag ∧ off = x.data.length then { x with data := x.data ++ b } else x })

/-- FORWARD_CPL (R40, R317): the owner's completion; the origin posts it, or counts it to the command it is a part of. -/
def execForwardCpl (tag : Nat) (st : Status) (dw0 : Nat) (s : State) : Res :=
  let s := s.heard 3 1
  match s.fe.fwd.find? fun f => f.tag = tag with
  | none => .next s
  | some f =>
    let s1 := s.updFe fun x => { x with fwd := x.fwd.filter fun y => decide (y.tag ≠ tag) }
    if s1.fe.cmds.any fun c => tag ∈ c.tags then
      .next (s1.updFe fun x => { x with cmds := x.cmds.map fun c =>
        if tag ∈ c.tags then { c with tags := c.tags.filter (· ≠ tag), status := if st = stOk then c.status else some st } else c })
    else .next (s1.answer f.cap st dw0 (if f.cap.op = 0x02 ∨ f.cap.op = 0x0E then f.data else []))

/-- FORWARD_ABORT (R56, R270): the owner of a forwarded command is asked to abort it. -/
def execForwardAbort (tag : Nat) (s : State) : Res :=
  let s := s.heard 3 1
  match s.catchCmd fun c => c.origin = some tag with
  | some s1 => .next (s1.send (.fwdAbortRsp tag true))
  | none => .next (s.send (.fwdAbortRsp tag false))

/-- FORWARD_ABORT_RSP (R270): the owner's answer completes the Abort that waits for it. -/
def execForwardAbortRsp (tag : Nat) (caught : Bool) (s : State) : Res :=
  let s := s.heard 3 1
  match s.fe.fwd.find? fun f => f.tag = tag with
  | none => .next s
  | some f =>
    match f.abort with
    | none => .next s
    | some (q, cid) =>
      let s1 := s.updFe fun x => { x with fwd := x.fwd.map fun y => if y.tag = tag then { y with abort := none } else y }
      let s2 := s1.updHost q.cntlid fun h => { h with aborts := h.aborts - 1 }
      let s3 := if caught then s2.count .feAbortCaught else s2
      .next (s3.respond ⟨q, cid, stOk, if caught then 0 else 1, [], false⟩)

end Sys2Proof.Machine
end

