-- ==== Sys2Proof/Machine/Peer.lean ====
section
/-!
DEFINITION. Heartbeats, declaration, the batten and break lines, takeover, fill, handover and rehearsal (R318 to R329).
-/

namespace Sys2Proof.Machine

/-! ### Heartbeats (R318 to R320, R323, R457) -/

/-- A fault report from the peer (R319, R320). -/
def State.faultReported (s : State) : State := (s.updUbl fun u => { u with faultReport := true }).declare 1

/-- HEARTBEAT (R318, R319, R442, R457): a frame of Table 13.6 on a path. -/
def execHeartbeat (path : HbPath) (b : List Byte) (s : State) : Res :=
  let h := match path with
    | .link => s.ubl.hbLink
    | .pair => s.ubl.hbPair
  let q : Half := BitVec.ofNat 16 (leAt b 2 2)
  let fl := leAt b 1 1
  if b.length ≠ 24 ∨ leAt b 0 1 ≠ 0x48 ∨ !crcOk b 16 ∨ (path = .link ∧ !s.ubl.up) ∨ !s.powered .ubl then .next s
  else if fl % 2 = s.top.head % 2 then .next ((s.updUbl fun u => { u with headClash := true }).raise .ubl 14)
  else if (q - h.hseqRx).toNat = 0 ∨ (q - h.hseqRx).toNat ≥ 2 ^ 15 then .next s
  else
    let s := if path = .link then s.heard 0 1 else s
    let h1 : HbSt := { h with hseqRx := q, seen := true }
    let ea : Word := BitVec.ofNat 32 (leAt b 4 4)
    let eb : Word := BitVec.ofNat 32 (leAt b 8 4)
    let up (x y : Word) : Word := if x < y then y else x
    let s1 := s.updUbl fun u => { u with
      hbLink := if path = .link then h1 else u.hbLink, hbPair := if path = .pair then h1 else u.hbPair
      peerState := bitsOf fl 3 1, peerOepoch := ⟨ea, eb⟩
      oepoch := ⟨up u.oepoch.a ea, up u.oepoch.b eb⟩ }
    .next (if bitsOf fl 3 1 = 4 then s1.faultReported else s1)

/-- FAULT_TONE (R319, R320): the peer's tone is recognised. -/
def execFaultTone (s : State) : Res := .next (if s.powered .ubl then s.faultReported else s)

/-- A path's count at the end of a period. -/
def HbSt.tick (h : HbSt) : HbSt := { h with misses := if h.seen then 0 else h.misses + 1, seen := false }

/-- Send this period's frames (R318, R319): none in P3; the tone replaces the pair's. A head that yields sends STATE 5, then 4. -/
def State.beat (s : State) : State :=
  if s.pwr.current = 3 then s
  else
    let l := s.ubl.hbLink.hseqTx + 1
    let p := s.ubl.hbPair.hseqTx + 1
    let s1 := if s.ubl.up then (s.updUbl fun u => { u with hbLink := { u.hbLink with hseqTx := l } }).send (.heartbeat .link (s.hbBytes l)) else s
    let s2 := if s.ubl.tone then s1.sendRaw .tone
      else (s1.updUbl fun u => { u with hbPair := { u.hbPair with hseqTx := p } }).sendRaw (.heartbeat .pair (s.hbBytes p))
    if s2.ubl.hbState = 5 then s2.sayState 4 else s2

/-- HEARTBEAT_PERIOD (R318, R320): a period of 1 ms ends. -/
def execHeartbeatPeriod (s : State) : Res :=
  if !s.powered .ubl then .next s
  else
    let l := s.ubl.hbLink.tick
    let p := s.ubl.hbPair.tick
    let missed := b2n (!s.ubl.hbLink.seen) + b2n (!s.ubl.hbPair.seen)
    let s1 := (s.updUbl fun u => { u with hbLink := l, hbPair := p, pairOk := s.ubl.hbPair.seen }).count .ublHbMisses missed
    let s2 := s1.beat
    .next (if l.misses ≥ 3 ∧ p.misses ≥ 3 then s2.declare 0 else s2)

/-- DECLARATION_DELAY (R323): head 1's 50 µs have passed. -/
def execDeclarationDelay (s : State) : Res :=
  .next (if s.ubl.delay then
    let s1 := s.updUbl fun u => { u with delay := false, rehearsing := false }
    if s.ubl.breakIn then s1 else s1.actDeclared s.ubl.rehearsing
  else s)

/-! ### Takeover (R325, Table 13.7) -/

/-- Change the takeover of a domain. -/
def State.setTake (s : State) (t : Takeover) : State :=
  s.updUbl fun u => { u with takeover := u.takeover.map fun x => if x.sd = t.sd then t else x }

/-- The takeover of a domain ends. -/
def State.dropTake (s : State) (d : SD) : State := s.updUbl fun u => { u with takeover := u.takeover.filter fun x => decide (x.sd ≠ d) }

/-- A rehearsal's units found in the mirror do not match what G sent (R329 step 3): T gives the line and the break back. -/
def State.failRehearsal (s : State) (d : SD) : State :=
  let g := 1 - s.top.head
  let s1 := (s.dropTake d).updUbl fun u => { u with
    battenOut := u.battenOut.set d false, breakOut := false, expectUnits := u.expectUnits.set d none, own := u.own.set d false
    peerFailed := false }
  let s2 := s1.updMap fun m => { m with live := m.live.set d Meta.empty }
  ((((s2.endGap d).tell 15 d []).raise .ubl 12).count .ublRehearsals).notify 13 0x0303 true none 0xFF (leBytes 1 g)

/-- Step 8 (R58, R267, R325): stamping resumes at the copied mark plus 2^32, held commands go on, forwarded ones end. -/
def State.finishTakeover (s : State) (t : Takeover) (gap : Nat) : State :=
  let d := t.sd
  let mark := (s.metaOf d).stampHi
  let s0 := if s.fe.recordPeer && !t.rehearsal then s.resumeRecord else s
  let s1 := (s0.updFe fun f => { f with stamp := f.stamp.set d (BitVec.ofNat 64 (mark + 2 ^ 32 - 1)) }).failForwards d
  let s2 := ((s1.dropTake d).endGap d).updUbl fun u => { u with
    rx := u.rx.set d ⟨(u.rx.get d).mseq, [], [], []⟩, shadow := u.shadow.set d Meta.empty, shadowLogs := u.shadowLogs.set d [] }
  let s3 := (s2.anaChanged.raise .ubl 8).notify 13 0x0302 true (some d) 0xFF (leBytes 4 gap)
  if t.rehearsal then
    let s4 := (s3.updUbl fun u => { u with
      breakOut := false, peerFailed := false, expectUnits := u.expectUnits.set d none
      handover := some ⟨d.other, true, 0, 2, none⟩ }).tell 14 d []
    ((s4.raise .ubl 11).count .ublRehearsals).tell 4 d.other []
  else s3

/-- TAKEOVER (R58, R177, R195, R229, R303, R316, R325, R326, R329): the takeover of a domain goes on by one step of Table 13.7;
`level` is what BATTEN_x_IN reads and `gap` the length of the service gap in µs. -/
def execTakeover (d : SD) (level : Bool) (gap : Nat) (s : State) : Res :=
  match s.ubl.takeover.find? fun t => t.sd = d with
  | none => .next s
  | some t =>
    if s.ubl.breakIn then .next s
    else
      match t.step with
      | 1 => .next ((s.updUbl fun u => { u with breakOut := true }).setTake { t with step := 2 })
      | 2 =>
        let s1 := s.seeBatten d level
        .next (if level then s1 else (((s1.seize d).fenceAll d).setTake { t with step := 3 }))
      | 3 => .next (if s.fencedAll d then s.setTake { t with step := 4 } else s)
      | 4 =>
        let m := s.copiedMeta d
        match s.ubl.expectUnits.get d with
        | some (n, hi) =>
          let l := s.unitsAbove d m
          if t.rehearsal ∧ (l.length ≠ n ∨ (l.getLast?.map (·.stamp)).getD 0 ≠ hi) then .next (s.failRehearsal d)
          else .next (install t m)
        | none => .next (install t m)
      | 5 =>
        let s1 := if (s.str.journal.get d).any fun r => s.rowOpen d r.stripe r.row then s
          else (s.recoverSteps d).setTake { t with step := 6 }
        .next s1
      | 6 =>
        let (s1, ok) := s.reenterAll (s.metaOf d).todoGran (fun s e i => s.mirrorSlot e i) (s.unitsAbove d (s.metaOf d))
        .next (if ok then s1.setTake { t with step := 7 } else s1)
      | _ => .next (s.finishTakeover t gap)
where
  /-- Step 5: the copied metadata becomes the domain's, and the journal is read from the mirror. -/
  install (t : Takeover) (m : Meta) : State :=
    let s1 := s.installDomain d m
    (s1.updStr fun x => { x with journal := x.journal.set d (s.mirrorJournal d m), jpos := x.jpos.set d (ringEnd (s.mirrorJournal d m)) }).setTake { t with step := 5 }

/-- BATTEN_STUCK (R325): the batten input still reads high 5 µs after the break. -/
def execBattenStuck (d : SD) (s : State) : Res :=
  .next (if s.ubl.takeover.any fun t => t.sd = d ∧ t.step = 2 then (s.seeBatten d true).raise .ubl 7 else s)

/-- BATTEN_RECHECK (R321): the batten input is sampled again after the output was asserted. -/
def execBattenRecheck (d : SD) (level : Bool) (s : State) : Res :=
  let s1 := s.seeBatten d level
  .next (if level ∧ s.top.head = 1 ∧ s.ubl.battenOut.get d then
    let s2 := s1.updUbl fun u => { u with battenOut := u.battenOut.set d false }
    s2.updUbl fun u => { u with takeover := u.takeover.map fun t => if t.sd = d ∧ t.step = 3 then { t with step := 2 } else t }
  else s1)

/-! ### The break line (R322, R327, R329, R463) -/

/-- BREAK_ASSERTED (R322, R463): BREAK_N is asserted. -/
def execBreakAsserted (s : State) : Res :=
  if s.ubl.breakIn then .next s
  else
    let n := (s.mlk.out.filter fun o => o.res.isNone).length
    let s1 := (s.updMlk fun m => { m with
      out := m.out.map fun o => if o.res.isNone then { o with res := some fencedRes, loc := true } else o
      late := m.late ++ submitted m.out }).count .mlkFenced n
    let s2 := (s1.updUbl fun u => { u with breakIn := true, breakOut := false, battenOut := ⟨false, false⟩ }).raise .ubl 6
    if s2.ubl.expectBreak ∨ !s2.upd.core0 ∨ !s2.powered .ubl then .next s2
    else
      let s3 := s2.owned.foldl State.leaveDomain (s2.snag 13 0x100C).portsDown
      .next ((s3.sayState 3).requestState 2)

/-- BREAK_DEASSERTED (R322). -/
def execBreakDeasserted (s : State) : Res := .next (s.updUbl fun u => { u with breakIn := false })

/-- BREAK_EXPECTATION_EXPIRY (R329): the 1 s for which G armed its expectation is over. -/
def execBreakExpectationExpiry (s : State) : Res :=
  .next (s.updUbl fun u => { u with expectBreak := u.expectBreak && (u.holdsPeer || s.pwr.parked) })

/-- Send again what is in the own dust sheet of a domain: journal records from the ring's start, data slots, and headers with
their markers (R327). -/
def State.refill (s : State) (d : SD) : State :=
  let js := s.str.journal.get d
  let s0 := s.updStr fun x => { x with journal := x.journal.set d [], jpos := x.jpos.set d 0 }
  let s1 := js.foldl (fun s r => s.journal d r) s0
  (s1.ubl.sheet.entries.filter fun (_, e) => e.sd = d).foldl (fun s (off, e) =>
    let s2 := (List.range e.nslots).foldl (fun s i => s.mirror d false ((e.data + i) * 4096) (s.slotBytes (e.data + i)) none) s
    s2.mirror d false off e.bytes (if e.marked then some off else none)) s1

/-- The units that the fill has sent wait for its acknowledgement (R51, R327). -/
def State.askAcks (s : State) (d : SD) : State :=
  s.updFe fun f => { f with cmds := f.cmds.map fun c => if c.sd = d then { c with units := c.units.map fun u =>
    if u.complete then { u with mseq := some (s.lastMseq d), acked := false } else u } else c }

/-- FILL (R327): the owner sends the shadow tables, then every unreleased entry and journal record; the first epoch copied with
equal digests ends the fill. -/
def execFill (s : State) : Res :=
  if !s.ubl.up ∨ !s.ubl.unmirrored ∨ s.ubl.filling ≠ 0 ∨ s.owned.isEmpty ∨ s.ubl.breakOut then .next s
  else
    let s1 := s.owned.foldl (fun s d => s.send (.shadow d (s.metaOf d) (s.ubl.copied.get d))) s
    let s2 := s1.updUbl fun u => { u with
      filling := 1, tx := ⟨⟨0, [], []⟩, ⟨0, [], []⟩⟩ }
    let s3 := s2.owned.foldl (fun s d => (s.refill d).askAcks d) s2
    .next (s3.updUbl fun u => { u with filling := 2 })

/-- BREAK_RELEASE (R327): head software lets the peer go. -/
def execBreakRelease (c : Nat) (s : State) : Res :=
  s.runCmd c 0x0602 true (onArray fun _ => []) fun s _ =>
    if !s.ubl.up then .no 0x0601 s
    else .done 0 [] ((s.updUbl fun u => { u with breakOut := false, peerFailed := false }).updPwr fun p => { p with peerParked := false })

/-! ### Handover (R328) -/

/-- T asks G to hand over a domain it still owns, or to restart (R411 steps 1, 2). -/
def State.actAsk (s : State) : State := s.tell 7 (([SD.a, SD.b].find? fun d => !s.owns d).getD .a) []

/-- The handover ends here: events, notification, and the command or activation that asked for it. -/
def State.handoverDone (s : State) (h : Handover) : State :=
  let s1 := ((s.updUbl fun u => { u with handover := none }).raise .ubl 9).notify 13 0x0304 true (some h.sd)
  match h.chan with
  | some c => s1.finishCmd c 0x0601 (some h.sd) [(7, h.sd.num)] 0 []
  | none => s1

/-- The handover is aborted (R328 step 2): held commands go on at G, and nothing else changes; an activation that it was part
of ends (R411). -/
def State.abortHandover (s : State) (h : Handover) : State :=
  let s0 := (((s.updUbl fun u => { u with handover := none, expectBreak := false }).endGap h.sd).raise .ubl 10).tell 6 h.sd []
  let s1 := if s0.actAt 4 then s0.actEnd 0x0602 else s0
  match h.chan with
  | some c => s1.finishCmd c 0x0601 (some h.sd) [(7, h.sd.num)] 0x0602 []
  | none => s1

/-- G begins (R328 step 1): both heads hold new commands from their next boundary. -/
def State.beginHandover (s : State) (d : SD) (why : Nat) (chan : Option Nat) : State :=
  (s.updUbl fun u => { u with handover := some ⟨d, true, 0, why, chan⟩, hbState := 2 }).tell 4 d []

/-- T hands the domains back that G had (R411 step 5), one after another; the command then completes. -/
def State.actGive (s : State) : State :=
  match s.upd.act with
  | some a =>
    match a.rest with
    | [] => s.actEnd 0
    | n :: _ => if s.owns (SD.ofBit n) ∧ s.ubl.handover.isNone then s.beginHandover (SD.ofBit n) 2 none else s.actEnd 0x0602
  | none => s

/-- A handover has ended: an activation goes on (R411 steps 1, 5). -/
def State.actMoved (s : State) : State :=
  if s.actAt 1 then s.actAsk
  else if s.actAt 4 then (s.updUpd fun u => { u with act := u.act.map fun a => { a with rest := a.rest.drop 1 } }).actGive
  else s

/-- G restarts for an activation: heartbeat STATE 3, its notice, and a break expected (R411 step 2). -/
def State.restartNotice (s : State) : State :=
  ((s.sayState 3).tell 9 .a []).updUbl fun u => { u with expectBreak := true, holdsPeer := true }

/-- G's part once its accepted commands have completed (R328 steps 2, 3; R329 steps 1, 2). -/
def State.giveStep (s : State) (h : Handover) : State :=
  let d := h.sd
  let put (s : State) (n : Nat) : State := s.updUbl fun u => { u with handover := some { h with step := n } }
  match h.step with
  | 1 =>
    if s.fe.cmds.any fun c => c.sd = d ∧ !c.posted then s
    else if h.why = 1 then
      if !(s.ubl.tx.get d).unacked.isEmpty then s
      else
        let l := (s.ubl.sheet.entries.map (·.2)).filter fun e => e.sd = d ∧ e.marked ∧ (s.metaOf d).todo e
        let hi := l.foldl (fun n e => max n e.stamp) 0
        (((put s 5).tell 8 d (leBytes 4 l.length ++ leBytes 8 hi)).updUbl fun u => { u with expectBreak := true, tone := true }).sayState 4
    else
      let s1 := (s.dp.packs.filter fun p => p.sd = d).foldl State.closePack s
      let open' := s1.med.formed.filterMap fun f => if f.sd = d then f.opened else none
      put (open'.foldl (fun s n => s.closeEarly d n) s1) 2
  | 3 =>
    if (s.ubl.waits.get d).isEmpty then
      let s1 := s.tell 5 d (leBytes 8 (s.fe.stamp.get d).toNat)
      (put (s1.leaveDomain d) 4)
    else s
  | _ => s

/-- T's part once G has let go (R328 step 4). -/
def State.takeStep (s : State) (h : Handover) (level : Bool) : State :=
  let d := h.sd
  let put (s : State) (n : Nat) : State := s.updUbl fun u => { u with handover := some { h with step := n } }
  match h.step with
  | 2 =>
    let s1 := s.seeBatten d level
    if level ∨ s1.ubl.breakIn then s1 else put ((s1.seize d).fenceAll d) 3
  | 3 =>
    if !s.fencedAll d then s
    else
      let s1 := s.installDomain d (s.copiedMeta d)
      let s2 := s1.updFe fun f => { f with stamp := f.stamp.set d (BitVec.ofNat 64 (s.ubl.lastStamp.get d)) }
      let s3 := (s2.updUbl fun u => { u with rx := u.rx.set d ⟨(u.rx.get d).mseq, [], [], []⟩ }).endGap d
      ((s3.anaChanged.tell 16 d (leBytes 4 (s3.ubl.oepoch.get d).toNat)).handoverDone h).actMoved
  | _ => s

/-- DOMAIN_HANDOVER (R7, R229, R259, R328, R464): the command on channel `chan` begins the move of domain `d`, and a move under way
goes on; `level` is what BATTEN_x_IN reads. -/
def execDomainHandover (chan : Option Nat) (d : SD) (level : Bool) (s : State) : Res :=
  match s.ubl.handover with
  | some h => .next (if h.sd ≠ d then s else if h.giver then s.giveStep h else s.takeStep h level)
  | none =>
    match chan with
    | none => .next s
    | some c =>
      s.runCmd c 0x0601 true (onDomain 8) fun s r =>
        if !s.paired then .no 0x0601 s
        else if !s.ubl.takeover.isEmpty then .no rsnBusy s
        else .later (s.beginHandover (SD.ofBit (leAt r 8 1)) 0 (some c))

/-- HANDOVER_ABORT_TIMEOUT (R328 step 2): the drain has taken more than 100 ms. -/
def execHandoverAbortTimeout (s : State) : Res :=
  match s.ubl.handover with
  | some h => .next (if h.giver ∧ h.step ≤ 1 then (s.abortHandover h).sayState 1 else s)
  | none => .next s

/-! ### Rehearsals (R329) -/

/-- What postpones a rehearsal: a handover, update, recoat, or a rebuild of class 1 or 2. -/
def State.rehearsalBusy (s : State) : Bool :=
  s.ubl.handover.isSome || !s.ubl.takeover.isEmpty || s.upd.act.isSome || s.upd.push.isSome ||
  s.owned.any fun d => s.recoating d || s.rebuildUrgent d

/-- G of a rehearsal begins, while it owns one domain. -/
def State.giveRehearsal (s : State) : State :=
  match s.owned with
  | [d] => if s.paired ∧ s.ubl.handover.isNone then s.beginHandover d 1 none else s
  | _ => s

/-- REHEARSAL (R7, R329): the scheduled time of head 0. -/
def execRehearsal (s : State) : Res :=
  let hours := s.cfg.ublRehearse.value.toNat
  let now := s.pwr.rtc.toNat
  if s.top.head ≠ 0 ∨ hours = 0 ∨ now < s.ubl.nextRehearse ∨ !s.paired then .next s
  else if s.rehearsalBusy then
    .next ((s.updUbl fun u => { u with nextRehearse := now + 3600000000 }).count .ublRehearsalPostponed)
  else
    let s1 := s.updUbl fun u => { u with nextRehearse := now + hours * 3600000000, rehearseG := 1 - u.rehearseG }
    .next (if s.ubl.rehearseG = 0 then s1.giveRehearsal else s1.tell 13 .a [])

/-! ### Messages (R308, R328, R329, R406, R411, R422) -/

/-- T asks G to restart: it serves both domains without a mirror and holds G broken (R411 step 2). -/
def State.holdPeer (s : State) : State := (s.updUbl fun u => { u with breakOut := !u.breakIn, peerServing := false }).goUnmirrored

/-- The array configuration takes its values (R104, R166, R186, R252, R453). -/
def State.commission (s : State) (pq : Bool) (k vsegs ssegs holdup : Nat) (array nqn : List Byte) : State :=
  let s1 := s.updMed fun m => { m with commissioned := true, vsegs := vsegs, ssegs := ssegs, holdup := holdup }
  let s2 := (s1.updFe fun f => { f with nqn := nqn }).updUbl fun u => { u with array := array }
  s2.owned.foldl (fun s d => (s.delta d (.shape ⟨pq, k, 0⟩)).delta d (.idxPages Config.indexPages)) s2

/-- MESSAGE_FRAME: a message of the peer's Terzan; the kinds are the model's. -/
def execMessageFrame (kind : Nat) (d : SD) (b : List Byte) (s : State) : Res :=
  if !s.ubl.up then .next s
  else
    let s := (s.heard 4 (flitsOf (32 + b.length))).wakeEvent 3
    match kind with
    | 1 => -- reservation notification: NSID, kind and hosts (R269)
      let nsid := leAt b 0 4
      let hosts := (List.range ((b.length - 5) / 16)).map fun i => leAt b (5 + 16 * i) 16
      .next (hosts.foldl (fun s h => s.resvEvent h nsid (leAt b 4 1)) s)
    | 2 => -- progress record of the peer (R274): this head does its part of the phase
      let p : Progress := ⟨leAt b 0 1, leAt b 1 1, leAt b 2 1, leAt b 3 1, leAt b 4 4, leAt b 8 2, leAt b 10 2,
        BitVec.ofNat 64 (leAt b 16 8), leAt b 24 8, 0⟩
      .next (s.peerPhase p)
    | 26 => -- the peer's part of the present phase is done (R273)
      .next (if (s.fe.progress.map (·.phase)) = some (leAt b 0 1) then s.updFe fun f => { f with peerDone := true } else s)
    | 3 => -- serial split done (R226 step 4)
      let ser := slice b 0 16
      .next (s.updMed fun m => { m with serials := m.serials ++ [⟨ser, leAt b 16 2, leAt b 18 2, false, none⟩] })
    | 4 => .next (s.updUbl fun u => { u with handover := some ⟨d, false, 0, 0, none⟩ })
    | 5 => .next (match s.ubl.handover with
      | some h => if h.sd = d ∧ !h.giver then
          s.updUbl fun u => { u with handover := some { h with step := 2 }, lastStamp := u.lastStamp.set d (leAt b 0 8) } else s
      | none => s)
    | 6 => .next (match s.ubl.handover with
      | some h => if h.sd = d ∧ !h.giver then
          let s1 := (s.updUbl fun u => { u with handover := none }).endGap d
          if s1.actAt 1 then s1.actEnd 0x0602 else s1 else s
      | none => s)
    | 7 => -- an activation of the peer (R411 steps 1, 2)
      .next (if s.owns d ∧ s.ubl.handover.isNone then s.beginHandover d 3 none
        else if s.owned.isEmpty then s.restartNotice else s)
    | 8 => .next ((s.updUbl fun u => { u with expectUnits := u.expectUnits.set d (some (leAt b 0 4, leAt b 4 8)), handover := none }).startGap d)
    | 9 => -- restart notice (R411 step 2): T asserts the break on G
      .next ((if s.actAt 1 then s.actStep 2 else s).holdPeer)
    | 10 => .next ((s.updPwr fun p => { p with peerParked := true }).holdPeer)
    | 11 => -- G's confirmation (R411 step 5)
      .next (if s.actAt 3 then (s.actStep 4).actGive else s)
    | 20 => .next (s.pushArrived b)
    | 21 => .next (s.pushReply b)
    | 22 => -- a module has taken an image (R388)
      .next (s.stagedModule (leAt b 0 1) (leAt b 1 4) (slice b 5 16) (slice b 21 64))
    | 23 => .next (s.activateModule (leAt b 0 1))
    | 24 => .next (s.revertModule (leAt b 0 1))
    | 12 => -- a key domain of the array (R94, R239), wrapped under the link's session key
      .next (s.takeKdom b)
    | 17 => -- the array configuration (ARRAY_COMMISSION)
      .next (s.commission (decide (leAt b 0 1 = 1)) (leAt b 1 1) (leAt b 2 2) (leAt b 4 2) (leAt b 6 2) (slice b 8 8) (b.drop 16))
    | 18 => .next (s.removeKdom (leAt b 0 1))
    | 19 => -- a key domain's mode (R91)
      .next { s with dp := { s.dp with kdoms := Table.upd s.dp.kdoms (leAt b 0 1) fun k => { k with modeNext := some (DMode.ofNum (leAt b 1 1)) } } }
    | 13 => .next s.giveRehearsal
    | 25 => -- the data of a forwarded command will not come (R55)
      let mine (c : Capsule) : Bool := decide (c.origin = some (leAt b 0 8))
      let s1 := s.updFe fun f => { f with waiting := f.waiting.filter fun w => !mine w.cap }
      .next ((s1.fe.cmds.filter fun c => mine c.cap && c.status.isNone && decide (c.host.length < s1.needBytes c)).foldl State.breakOff s1)
    | 14 => -- the rehearsal passed: T owns the domain
      .next (((((s.updUbl fun u => { u with handover := none, tone := false, expectBreak := false }).leaveDomain d).endGap d).sayState 1).updUbl fun u => { u with record := u.record.set d (1 - s.top.head, u.oepoch.get d) })
    | 15 => -- the rehearsal failed: G seizes the line and fences with a new owner epoch (R329 step 3)
      let s1 := (s.updUbl fun u => { u with handover := none, tone := false, expectBreak := false }).sayState 1
      let s2 := (((s1.seize d).fenceAll d).endGap d).updUbl fun u => { u with
        waits := u.waits.set d ((u.waits.get d).map fun w => { w with sent := true }) }
      .next (s2.resendPeer.raise .ubl 12)
    | 16 => .next (match s.ubl.handover with
      | some h => if h.sd = d ∧ h.giver then
          let s1 := (s.updUbl fun u => { u with oepoch := u.oepoch.set d (BitVec.ofNat 32 (leAt b 0 4)), record := u.record.set d (1 - s.top.head, BitVec.ofNat 32 (leAt b 0 4)) }).endGap d
          let s2 := (s1.handoverDone h).sayState 1
          if h.why = 3 ∧ s2.owned.isEmpty then s2.restartNotice else s2.actMoved else s
      | none => s)
    | _ => .next s

end Sys2Proof.Machine
end

