-- ==== Sys2Proof/Machine/SnagLog.lean ====
section
/-!
DEFINITION. The snag log: entry and folding, CLEAR, flushes to the vault and their partition (R428 to R437).
-/

namespace Sys2Proof.Machine

/-- Change EVR. -/
def State.updEvr (s : State) (f : EvrState → EvrState) : State := { s with evr := f s.evr }

/-- An event repeats a record: CODE, SOURCE, FLAGS, PORT and ARG are equal (R430). -/
def Snag.repeats (x r : Snag) : Bool :=
  decide (x.code = r.code ∧ x.source = r.source ∧ x.sd = r.sd ∧ x.port = r.port ∧ x.arg = r.arg)

/-- Fold an event into a record (R430). -/
def Snag.fold (r x : Snag) : Snag :=
  { r with rep := min 0xFFFF (r.rep + 1), lastDelta := min 0xFFFF (x.epoch - r.epoch).toNat }

/-- Codes whose entry flushes the log (Table 20.2): DOMAIN_LOST, DIG_ALARM, BREAK_RECEIVED and TERZAN_FATAL. -/
def flushCodes : List Nat := [0x0202, 0x1006, 0x100C, 0x100D]

/-- An event that is not recorded (R431, R433). -/
def State.dropSnag (s : State) : State := (s.countSat .evrDropped).raise .evr 1

/-- Enter one event (R430, R431): folded into the last record where it repeats it, else appended; a full log only folds. -/
def State.enterSnag (s : State) (x : Snag) : State :=
  let l := s.evr.log
  let fold := match l.getLast? with
    | some r => x.repeats r
    | none => false
  if fold then
    (s.updEvr fun e => { e with log := l.dropLast ++ (l.getLast?.map (·.fold x)).toList }).count .evrMark
  else if l.length ≥ 8192 then s.dropSnag
  else
    let s1 := (s.updEvr fun e => { e with log := l ++ [{ x with rnum := e.nextRnum }], nextRnum := e.nextRnum + 1 }).count .evrMark
    if l.length = 8191 then s1.raise .evr 0 else s1

/-- SNAG_EVENT (R429 to R431, R433): EVR takes the oldest event of its input queue. -/
def execSnagEvent (s : State) : Res :=
  match s.evr.inq with
  | [] => .next s
  | x :: xs =>
    let s1 := s.updEvr fun e => { e with inq := xs }
    if s.evr.flushing then .next s1.dropSnag
    else
      let s2 := s1.enterSnag x
      .next (if x.code ∈ flushCodes then s2.askFlush 1 else s2)

/-- Empty the log (R432, R436, R437). -/
def State.clearLog (s : State) : State :=
  ((s.updEvr fun e => { e with log := [], heldClear := false }).count .evrMark).setCounter .evrDropped 0

/-- A write of EVR_CTRL (R432, R433): FLUSH and CLEAR. A CLEAR while a flush runs, and a reserved bit, is a violation. -/
def State.evrCtrl (s : State) (r : Requester) (v : Half) : State :=
  let flush := bitOf v.toNat 1
  let clear := bitOf v.toNat 0
  let s0 := if v.toNat ≥ 4 ∨ (clear ∧ s.evr.flushing) then s.violation (violSource r) true 0x00300100 else s
  if s.evr.flushing then s0
  else if flush then
    let s1 := s0.askFlush 2
    if clear then (if s1.evr.flushing then s1.updEvr fun e => { e with heldClear := true } else s1.clearLog) else s1
  else if clear then s0.clearLog else s0

/-- EVR_FLUSH (R432, R433): a write of EVR_CTRL with FLUSH 1. -/
def execEvrFlush (r : Requester) (v : Half) (s : State) : Res :=
  .next (if bitOf v.toNat 1 then s.evrCtrl r v else s)

/-- EVR_CLEAR (R432, R436, R437): a write of EVR_CTRL with CLEAR 1 and FLUSH 0. -/
def execEvrClear (r : Requester) (v : Half) (s : State) : Res :=
  .next (if bitOf v.toNat 0 ∧ !bitOf v.toNat 1 then s.evrCtrl r v else s)

/-! ### The partition (R363, R434) -/

/-- The flush ends (R432, R434): FLUSH_DONE with the flush counted, or FLUSH_FAILED; a held CLEAR then empties the log. -/
def State.endFlush (s : State) (ok : Bool) : State :=
  let s1 := s.updEvr fun e => { e with
    flushing := false, image := [], issued := false
    flushNum := if ok then e.flushNum + 1 else e.flushNum
    used := if e.issued then e.used + 1 else e.used }
  let s2 := (s1.updMlk fun m => { m with vaultRes := [] })
  let s3 := if ok then (s2.count .evrFlushes).raise .evr 2 else s2.raise .evr 3
  if s.evr.heldClear then s3.clearLog else s3

/-- The segment and first slot of the next image: the partition's segments are used in turn. -/
def State.flushPlace (s : State) : Nat × Nat := (s.evr.used / 1024 % s.evrSegs, s.evr.used % 1024 * 4)

/-- Four consecutive erased slots on a module. -/
def State.slotsErased (s : State) (port : Nat) (pl : Nat × Nat) : Bool :=
  match s.mod? port with
  | some m => (List.range 4).all fun i => m.erased pl.1 (pl.2 + i)
  | none => false

/-- Program the four packs of an image on a module. -/
def State.programImage (s : State) (img : List Byte) (pl : Nat × Nat) (port : Nat) : State :=
  (List.range 4).foldl (fun s i => s.issue { MCmd.mk0 port .program .vault .vault with
    pseg := pl.1, pidx := pl.2 + i, image := fit (slice img (imageLen * i) imageLen) imageLen }) s

/-- The position of the next image: a full partition of one segment has none. -/
def State.flushRoom (s : State) : Bool := decide (s.evrSegs > 1) || (!s.evr.erasing && decide (s.evr.used < 1024))

/-- SNAG_FLUSH (R434): the frozen image goes to MLK, four programs to each of the two modules, issued together. -/
def execSnagFlush (s : State) : Res :=
  if !s.evr.flushing ∨ s.evr.issued then .next s
  else
    let pl := s.flushPlace
    let ports := if s.flushRoom then s.flushPorts.filter fun p => s.slotsErased p pl else []
    if ports.isEmpty then .next (s.endFlush false)
    else .next (ports.foldl (fun s p => s.programImage s.evr.image pl p) (s.updEvr fun e => { e with issued := true }))

/-- A vault command of a kind is outstanding. -/
def State.vaultBusy (s : State) (op : MOp) : Bool := s.mlk.out.any fun o => o.cmd.why = .vault ∧ o.cmd.op = op

/-- SNAG_FLUSH_END (R432, R434, R437): every program has completed, failed or timed out. One whole image is enough. -/
def execSnagFlushEnd (s : State) : Res :=
  if !s.evr.flushing ∨ !s.evr.issued ∨ s.vaultBusy .program then .next s
  else
    let whole (p : Nat) : Bool := (s.mlk.vaultRes.filter fun r => r.1 = p ∧ r.2 = .ok).length ≥ 4
    .next (s.endFlush ((List.range 48).any whole))

/-- An erase of a vault segment. -/
def MCmd.vaultErase (p g : Nat) : MCmd := { MCmd.mk0 p .erase .vault .vault with pseg := g }

/-- EVR_PARTITION_ERASE (R434): Terzan erases a segment of the partition on the modules of the vault set, where no flush
runs: the one segment once it is full, or the segment after the one being written where it is not erased. The event after
the erases have ended frees it. -/
def execEvrPartitionErase (s : State) : Res :=
  let n := s.evrSegs
  let next := (s.evr.used / 1024 + 1) % n
  let go (s : State) (g : Nat) : State :=
    (s.presentPorts.filter fun p => p % 2 = s.top.head % 2).foldl (fun s p =>
      match s.mod? p with
      | some m => if m.holds g then s.issue (MCmd.vaultErase p g) else s
      | none => s) (s.updEvr fun e => { e with erasing := true })
  if s.evr.flushing ∨ s.vaultBusy .erase then .next s
  else if s.evr.erasing then
    .next (s.updEvr fun e => { e with erasing := false, used := if n = 1 then 0 else e.used })
  else if n = 1 then .next (if s.evr.used ≥ 1024 then go s 0 else s)
  else .next (if s.presentPorts.any fun p => p % 2 = s.top.head % 2 ∧ ((s.mod? p).any fun m => m.holds next) then go s next else s)

/-! ### The image presented at start (R435) -/

/-- The image a module holds at a place of the partition, where its CRC verifies: FLUSH_NUM, and header with records. -/
def Module.flushAt (m : Module) (pl : Nat × Nat) : Option (Nat × List Byte) :=
  let parts := (List.range 4).map fun i => Table.find m.slots (slotKey pl.1 (pl.2 + i))
  let b := parts.flatMap fun
    | some (.image b) => b
    | _ => zeros imageLen
  let n := leAt b 6 2
  let recs := slice b 64 (32 * n)
  if leAt b 0 4 = 0x47535856 ∧ leAt b 56 8 = (crc64 (b.take 56 ++ recs)).toNat then some (leAt b 30 4, b.take 64 ++ recs) else none

/-- The images of the partition on a module, in the order of their places. -/
def State.flushImages (s : State) (m : Module) : List (Nat × List Byte) :=
  ((m.slots.map fun (k, _) => k).filter fun k => k / 4096 < s.evrSegs ∧ k % 4 = 0).filterMap fun k => m.flushAt (k / 4096, k % 4096)

/-- The image with the highest FLUSH_NUM whose CRC verifies, presented at the start (R435). -/
def State.presentFlush (s : State) : State :=
  let all := (s.mlk.mods.filter fun (p, _) => p % 2 = s.top.head % 2).flatMap (fun (_, m) => s.flushImages m)
  let best := all.foldl (fun (a : Nat × List Byte) x => if x.1 ≥ a.1 then x else a) (0, [])
  s.updEvr fun e => { e with presented := best.2 }

end Sys2Proof.Machine
end

