-- ==== Sys2Proof/Machine/RegRead.lean ====
section
/-!
DEFINITION. The register map of BAR0 and the value every register reads (R344 to R350, R355, R356), and the targets of
the indirect spaces.
-/

namespace Sys2Proof.Machine

/-- A dword from fields: (lowest bit, value). -/
def dword (fs : List (Nat × Nat)) : Word := BitVec.ofNat 32 (fs.foldl (fun n (b, v) => n + v * 2 ^ b) 0)

/-- The block of a BAR0 address (Table 15.1). -/
def blkOf (a : Nat) : Option Blk := Blk.all.find? fun b => b.num = a / 2 ^ 20

/-- The datapath blocks, whose configuration is buffered to the commit epoch (Table 15.4). -/
def Blk.datapath (b : Blk) : Bool := b ∈ [.dp, .map, .med, .str, .fe, .rdm, .cip, .ubl]

/-- The common registers of a block (Table 15.3), as a requester reads them. -/
def State.readCommon (s : State) (r : Requester) (b : Blk) (off : Nat) : Option Word :=
  let k := s.blk.get b
  match off with
  | 0x000 => some (dword [(24, b.num), (16, 0xB1), (0, 0x0920)])
  | 0x004 => some (dword [(0, b2n k.enable)])
  | 0x008 => some (dword [(16, k.reason), (8, k.holder), (2, b2n k.checking), (1, b2n k.refused), (0, b2n k.enabled)])
  | 0x00C => some (dword [(0, k.style.get r)])
  | 0x010 => some (dword [(16, k.pendingAt.toNat), (0, k.appliedAt.toNat)])
  | 0x020 => some k.statusReg
  | 0x024 => some 0
  | 0x030 => some (dword [(0, k.indAddr.get r)])
  | _ => none

/-- A row of registers at a step: the index of an offset. -/
def rowIdx (off base step n : Nat) : Option Nat :=
  if base ≤ off ∧ (off - base) % step = 0 ∧ (off - base) / step < n then some ((off - base) / step) else none

/-- TOP_START_STATE (R441). -/
def TopState.startReg (t : TopState) : Word :=
  dword [(7, b2n t.failed), (6, b2n t.dumpPartial), (5, b2n t.peerDeclared), (4, b2n t.took.b), (3, b2n t.took.a), (0, t.phase)]

/-- A timer's control register (Table 15.8). -/
def Timer.ctrl (t : Timer) : Nat := b2n t.en * 2 ^ 15 + b2n t.periodic * 2 ^ 14

/-- TOP's own registers. -/
def State.readTop (s : State) (r : Requester) (off : Nat) : Option Word :=
  let t := s.top
  match off with
  | 0x100 => some (dword [(0, t.epoch.toNat % 2 ^ 32)])
  | 0x104 => some (t.epochHi.get r)
  | 0x200 => some (dword [(0, t.intEn.toNat)])
  | 0x210 => some t.violations
  | 0x214 => some t.violLast
  | 0x218 | 0x230 => some 0
  | 0x220 => some (dword [(0, t.vaultPart.toNat)])
  | 0x234 => some t.resetCause
  | 0x238 => some t.startReg
  | _ =>
    match rowIdx off 0x300 4 14, rowIdx off 0x400 4 32, rowIdx off 0x500 4 4 with
    | some i, _, _ => (t.claims[i]?).map fun c => dword [(16, c.reason), (8, c.refusedId), (0, c.holder)]
    | _, some i, _ => (t.timers[i / 4]?).map fun x =>
        match i % 4 with
        | 0 => dword [(0, x.ctrl)]
        | 1 => dword [(0, x.loadLo.toNat)]
        | 2 => dword [(0, x.loadHi.toNat)]
        | _ => x.count
    | _, _, some i => (t.pinmux[i]?).map fun f => dword [(0, f)]
    | _, _, _ => none

/-- PWR's own registers. -/
def State.readPwr (s : State) (off : Nat) : Option Word :=
  let p := s.pwr
  match off with
  | 0x100 => some 0
  | 0x104 => some (dword [(16, p.lastReason), (14, b2n p.pending.isSome), (12, p.pending.getD 0), (8, b2n p.inflight), (4, p.target), (0, p.current)])
  | 0x108 => some (dword [(0, p.retain.toNat)])
  | 0x10C => some (dword [(0, p.retLost)])
  | _ => (rowIdx off 0x120 4 6).map fun i =>
      let x := Table.getD p.refused (i / 2 + 1) ⟨0, 0, 0, 0⟩
      if i % 2 = 0 then x.count else dword [(16, x.reason), (8, x.refuser), (0, x.row)]

/-- Four bytes of a string at an offset, zero beyond its end. -/
def dwordAt (b : List Byte) (off : Nat) : Word := BitVec.ofNat 32 (leNat (fit (slice b off 4) 4))

/-- A request channel's page (Table 16.1); channel 63 is the notification channel (R378). -/
def State.readChan (s : State) (c off : Nat) : Option Word :=
  let x := s.chan c
  if c = 63 then
    match off with
    | 0x00C => some (dword [(0, b2n s.mbx.ntfInt)])
    | 0x020 => some (dword [(0, s.mbx.prod)])
    | 0x024 => some (dword [(0, s.mbx.cons)])
    | 0x028 => some s.mbx.lost
    | _ => if off ≥ 0x800 then some (dwordAt (Table.getD s.mbx.ntf ((off - 0x800) / 32) []) (off % 32)) else none
  else
    match off with
    | 0x000 => some (dword [(0, x.opcode.toNat)])
    | 0x004 => some (dword [(0, x.len)])
    | 0x008 | 0x024 => some 0
    | 0x00C => some (dword [(0, b2n x.intEn)])
    | 0x020 => some (dword [(24, x.rseq.toNat), (16, x.taken.toNat), (8, x.state)])
    | _ =>
      if off ≥ 0xC00 then some (dwordAt x.bank1 (off - 0xC00))
      else if off ≥ 0x800 then some (dwordAt x.bank0 (off - 0x800))
      else if off ≥ 0x100 then some (dwordAt x.req (off - 0x100))
      else none

/-- MLK_PORT_STATE_m; the ownership bits are held through a takeover (Table 13.8). -/
def State.portReg (s : State) (m : Nat) : Word :=
  let p := s.port m
  let shown (d : SD) (v : Bool) : Nat := b2n (v && !(s.ubl.takeover.any fun t => t.sd = d))
  dword [(20, p.rate), (18, p.width), (17, shown .b p.ownB), (16, shown .a p.ownA), (8, p.cause), (0, p.state)]

/-- UBL_OWN_STATE. -/
def State.ownReg (s : State) : Word :=
  let u := s.ubl
  dword [(17, u.peerState), (16, b2n u.pairOk), (15, b2n u.up), (13, u.lanes), (12, b2n u.breakIn), (11, b2n u.breakOut),
    (10, b2n u.battenIn.b), (9, b2n u.battenOut.b), (8, b2n u.battenIn.a), (7, b2n u.battenOut.a),
    (1, b2n (s.serves .b)), (0, b2n (s.serves .a))]

/-- The applied value of a buffered register. -/
def Cfg.reg (c : Cfg) : Word := dword [(0, c.value.toNat)]

/-- The own registers of the blocks from EVR up. -/
def State.readOwn (s : State) (r : Requester) (b : Blk) (off : Nat) : Option Word :=
  match b, off with
  | .top, _ => s.readTop r off
  | .pwr, _ => s.readPwr off
  | .evr, 0x100 => some 0
  | .evr, 0x104 => some (dword [(15, b2n s.evr.flushing), (0, s.evr.log.length)])
  | .scr, 0x100 => some (dword [(15, b2n s.capturing), (0, s.scr.capLoop)])
  | .scr, 0x104 => some (dword [(16, s.scr.capReason), (8, s.scr.capHolder), (1, b2n s.scr.capDone), (0, b2n s.capturing)])
  | .dig, 0x100 => some (dword [(7, b2n s.dig.alarmed), (6, b2n s.dig.recordSigned), (5, b2n s.dig.busError), (0, s.dig.inputs)])
  | .dig, 0x104 => some (dword [(0, s.dig.bootCount.toNat % 2 ^ 32)])
  | .dig, 0x108 => some (s.dig.bootHi.get r)
  | .dp, 0x100 => some s.cfg.dpSpec.reg
  | .dp, 0x120 => some s.cfg.dpCoat.reg
  | .map, 0x100 => some 0
  | .map, 0x104 => some (dword [(16, s.map.reason), (12, s.map.lastOp), (4, b2n s.map.refused), (3, b2n (s.map.busy ≠ 0)),
      (2, b2n s.map.wt), (1, b2n s.map.invalidated), (0, b2n s.map.en)])
  | .map, 0x108 => some (dword [(0, s.map.dirtyCount)])
  | .med, 0x100 => some s.cfg.medGc.reg
  | .med, 0x104 => some s.cfg.medCredit.reg
  | .str, 0x100 => some s.cfg.strRebuild.reg
  | .str, 0x104 => some s.cfg.strRecoat.reg
  | .mlk, _ => (rowIdx off 0x200 4 48).map s.portReg
  | .rdm, 0x110 => some s.cfg.rdmCc.reg
  | .rdm, 0x120 => some (dword [(0, b2n (s.claimHolder 0 = 0x11))])
  | .rdm, 0x124 => some (dword [(16, s.rdm.traceReason), (8, s.rdm.traceHolder), (0, b2n (s.claimHolder 0 = 0x11))])
  | .rdm, _ => (rowIdx off 0x100 4 4).bind fun i => (s.cfg.cage[i]?).map Cfg.reg
  | .ubl, 0x100 => some s.cfg.ublRehearse.reg
  | .ubl, 0x104 => some s.ownReg
  | .cip, _ => (rowIdx off 0x400 4 256).map fun p => dword [(2, b2n (s.upage p).assigned), (0, (s.upage p).owner)]
  | _, _ => none

/-- A counter's address. -/
def ctrAt (a : Nat) : Option Ctr := Ctr.all.find? fun c => c.addr = a

/-- The registers that a helper style governs ("per <BLK>_ATOMIC_MODE"), by offset in their block, with their RW bits
(R350, R351). -/
def ctlMask (b : Blk) (off : Nat) : Option Nat :=
  match b, off with
  | _, 0x004 => some 1
  | .top, 0x200 => some 0x7FFF
  | .top, 0x220 => some 0xF
  | .top, _ =>
    match rowIdx off 0x400 4 32, rowIdx off 0x500 4 4 with
    | some i, _ => if i % 4 = 0 then some 0xC000 else if i % 4 = 3 then none else some 0xFFFF
    | _, some _ => some 3
    | _, _ => none
  | .pwr, 0x108 => some 0x7F
  | .dp, 0x100 => some 0x0F00
  | .dp, 0x120 => some 0x0FFF
  | .med, 0x100 => some 0x7FFF
  | .med, 0x104 => some 0xFFFF
  | .str, 0x100 | .str, 0x104 => some 0x0FFF
  | .rdm, 0x110 => some 0xFFFF
  | .rdm, _ => (rowIdx off 0x100 4 4).map fun _ => 0x77
  | .ubl, 0x100 => some 0xFFFF
  | _, _ => none

/-- The offset of a register in its block and its alias region: 0 own address, 1 set, 2 clear, 3 toggle. MBX has none
(R348, R351). -/
def aliasOf (b : Blk) (o : Nat) : Nat × Nat := if b = .mbx then (0, o) else (o / 0x40000, o % 0x40000)

/-- The register at an address of a block exists for a requester (R348, R351). -/
def State.regExists (s : State) (r : Requester) (b : Blk) (o : Nat) : Bool :=
  let (q, off) := aliasOf b o
  if q ≠ 0 then decide ((s.blk.get b).style.get r = 2) && (ctlMask b off).isSome
  else if b = .mbx ∧ o ≥ 0x40000 then decide (o < 0x80000) && (s.readChan ((o - 0x40000) / 0x1000) (o % 0x1000)).isSome
  else (s.readCommon r b off).isSome || off = 0x034 || (s.readOwn r b off).isSome || (ctrAt (b.num * 2 ^ 20 + off)).isSome

/-- The dword a register of BAR0 reads for a requester; none where the access is a violation (R351, R359). IND_DATA is
read through its own row. -/
def State.regRead (s : State) (r : Requester) (a : Nat) : Option Word :=
  if a ≥ 0x02000000 then
    if a < 0x02001500 then some (dwordAt (Table.getD s.msix ((a - 0x02000000) / 16) []) (a % 16))
    else if 0x02010000 ≤ a ∧ a < 0x02010040 then
      let i := (a - 0x02010000) * 8
      some (dword ((List.range 32).map fun n => (n, b2n (decide (i + n ∈ s.msixPending)))))
    else none
  else
    match blkOf a with
    | none => none
    | some b =>
      let o := a % 2 ^ 20
      if !s.powered b ∨ !s.regExists r b o then none
      else
        let (_, off) := aliasOf b o
        if b = .mbx ∧ o ≥ 0x40000 then s.readChan ((o - 0x40000) / 0x1000) (o % 0x1000)
        else s.readCommon r b off <|> s.readOwn r b off <|> (ctrAt (b.num * 2 ^ 20 + off)).map s.counter

/-- A key slot as PG_SLOT_s shows it; BOUND saturates. -/
def KSlot.reg (k : KSlot) (bound : Nat) : Word :=
  dword [(28, k.state), (24, k.usage), (23, b2n k.klen), (22, b2n k.npol), (0, min bound 0xFFFF)]

/-- The dword a register of BAR2 reads: a page of another owner reads zero, as a violation (R237, R359), and so does the
offset of no register. Registers that only take writes read 0. -/
def State.bar2Read (s : State) (a : Nat) : Option Word :=
  let p := a / 0x1000
  let u := s.upage p
  if !s.pageOpen p then none
  else match a % 0x1000 with
    | 0x004 | 0x00C | 0x024 | 0x080 => some 0
    | 0x008 => some (dword [(0, u.sqHead)])
    | 0x010 => some (dword [(0, b2n u.intEn)])
    | 0x020 => some (dword ((24, u.seq.toNat) :: u.events.map fun (b, _, _) => (b, 1)))
    | off => (rowIdx off 0x040 4 16).map fun n => (s.kslot (16 * p + n)).reg (s.boundTo (16 * p + n))

/-! ### The indirect spaces (R357) -/

/-- A signed value as a dword. -/
def intWord (x : Int) : Word := BitVec.ofInt 32 x

/-- The dword at an indirect address of a block; none where it names no target (R358). -/
def State.indRead (s : State) (b : Blk) (a : Nat) : Option Word :=
  match b with
  | .pwr =>
    let p := s.pwr
    match a with
    | 0x0 => some (dword [(0, p.rtc.toNat % 2 ^ 32)])
    | 0x4 => some (dword [(0, p.rtc.toNat / 2 ^ 32)])
    | 0x8 => some (dword [(0, p.wakeTime.toNat % 2 ^ 32)])
    | 0xC => some (dword [(0, p.wakeTime.toNat / 2 ^ 32)])
    | 0x10 => some p.faultStatus
    | _ =>
      match rowIdx a 0x10000 4 64, rowIdx a 0x10100 4 32, rowIdx a 0x10200 4 4 with
      | some n, _, _ => some (intWord (Table.getD p.delays n 0))
      | _, some n, _ => some (dword [(0, Table.getD p.rings n 0)])
      | _, _, some n => (p.avs[n]?).map fun v => dword [(0, v)]
      | _, _, _ => none
  | .evr =>
    if a < 0x40000 then some (match s.evr.log[a / 32]? with
      | some x => dwordAt x.bytes (a % 32)
      | none => 0)
    else if 0x100000 ≤ a ∧ a < 0x140040 then some (dwordAt s.evr.presented (a - 0x100000))
    else none
  | .scr =>
    if a < 0x4000 then some ((s.loop (a / 64)).w (a % 64 / 4))
    else if 0x100000 ≤ a ∧ a < 0x140000 then
      if s.claimHolder 0 ≠ 0 ∧ s.claimHolder 0 ≠ 0x10 then none
      else some (if s.scr.cap.owner = 0x10 then dwordAt (s.scr.cap.recs.getD ((a - 0x100000) / 64) []) (a % 64) else 0)
    else none
  | .dig =>
    match rowIdx a 0x800 4 24 with
    | some n => some (s.dig.counts.getD n 0)
    | none => if a < 0x600 then some (dwordAt (s.dig.m.getD (a / 64) []) (a % 64)) else none
  | .med =>
    match rowIdx a 0x4000 4 48 with
    | some m => some (dword [(0, (Table.getD s.med.sels m (.reset 0)).value.toNat)])
    | none => if a < 0x4000 ∧ a % 0x800 < 1056 then some (dwordAt (Table.getD s.med.cards (a / 0x800) []) (a % 0x800)) else none
  | _ => none

/-- What a read of an indirect target does: the retained fault status is cleared by it. -/
def State.indReadEffect (s : State) (b : Blk) (a : Nat) : State :=
  if b = .pwr ∧ a = 0x10 then s.updPwr fun p => { p with faultStatus := 0 } else s

/-- A write of an indirect target (R180, R335, R357): none where the address names no target or the write is a violation. A card
selector is buffered; `late` says that the cut-off of R35 has passed. -/
def State.indWrite (s : State) (late : Bool) (b : Blk) (a : Nat) (w : Word) : Option State :=
  match b with
  | .pwr =>
    match a with
    | 0x8 => some (s.updPwr fun p => { p with wakeTime := BitVec.ofNat 64 (p.wakeTime.toNat / 2 ^ 32 * 2 ^ 32 + w.toNat) })
    | 0xC => some (s.updPwr fun p => { p with wakeTime := BitVec.ofNat 64 (w.toNat * 2 ^ 32 + p.wakeTime.toNat % 2 ^ 32) })
    | _ => if (s.indRead b a).isSome then some s else none
  | .scr =>
    if a < 0x4000 then some (s.setLoop (a / 64) ((s.loop (a / 64)).bufWrite (a % 64 / 4) w))
    else if (s.indRead b a).isSome then some s else none
  | .med =>
    match rowIdx a 0x4000 4 48 with
    | some m => some (s.writeSel late m (w.toNat % 8 + 256 * b2n (bitOf w.toNat 8)))
    | none =>
      if a < 0x4000 ∧ a % 0x800 < 1056 then
        some (s.updMed fun d => { d with
          cards := Table.put d.cards (a / 0x800) (patch (fit (Table.getD d.cards (a / 0x800) []) 1056) (a % 0x800) (leBytes 4 w.toNat)) })
      else none
  | .evr => if (s.indRead b a).isSome then some s else none
  | _ => none

end Sys2Proof.Machine
end

