-- ==== Sys2Proof/Machine/ResetOps.lean ====
section
/-!
DEFINITION. A full-chip reset (R438): what it clears and what survives it.
-/

namespace Sys2Proof.Machine

/-- Bits of TOP_RESET_CAUSE. -/
abbrev causePfail : Nat := 0x80
abbrev causeTrust : Nat := 0x40
abbrev causeSoft : Nat := 0x20
abbrev causePll : Nat := 0x10
abbrev causePin : Nat := 0x08
abbrev causePower : Nat := 0x04

/-- Key slots of at-rest keys: the key store keeps their keys wrapped, and Terzan loads them again at the start (R244). -/
def KSlot.atRest (k : KSlot) : Bool := decide (k.usage = 0 ∧ (k.state = 1 ∨ k.state = 2))

/-- A full-chip reset with its cause (R438, R440): every domain but the always-on one is as after power-on. What survives lies
in the always-on domain, on flash, in the boot flash or on the board; what has gone out to the world stays gone out. -/
def State.fullReset (s : State) (cause : Nat) : State :=
  let r := State.reset
  let (wk, s1) := s.draw
  { r with
    irqs := s.irqs
    top := { r.top with board := s.top.board, head := s.top.head, resetCause := BitVec.ofNat 32 cause }
    evr := { r.evr with flushNum := s.evr.flushNum, used := s.evr.used }
    mbx := { r.mbx with rids := s.mbx.rids }
    ubl := { r.ubl with
      record := s.ubl.record, array := s.ubl.array, battenIn := s.ubl.battenIn, breakIn := s.ubl.breakIn, sent := s.ubl.sent }
    link := { r.link with wire := s.link.wire }
    fe := { r.fe with nqn := s.fe.nqn, responses := s.fe.responses }
    dp := { r.dp with kdoms := Table.mapV (fun k => { k with modeNext := none, fpKey := [] }) s.dp.kdoms }
    map := { r.map with flash := s.map.flash, flashSeg := s.map.flashSeg, ckpt := s.map.ckpt }
    med := { r.med with
      serials := s.med.serials, vsegs := s.med.vsegs, ssegs := s.med.ssegs, commissioned := s.med.commissioned
      holdup := s.med.holdup, rtcFallback := s.med.rtcFallback }
    mlk := { r.mlk with mods := s.mlk.mods }
    cip := { r.cip with
      slots := Table.mapV (fun k => { KSlot.empty with klen := true, key := k.key }) (Table.keep (fun _ k => k.atRest) s.cip.slots)
      dma := s.cip.dma }
    scr := { r.scr with qosTarget := s.scr.qosTarget }
    rdm := { r.rdm with sent := s.rdm.sent }
    pwr := { r.pwr with
      rtc := s.pwr.rtc, rtcSet := s.pwr.rtcSet, rtcSub := s.pwr.rtcSub, wakeTime := s.pwr.wakeTime
      faultStatus := s.pwr.faultStatus, thermtrip := s.pwr.thermtrip }
    dig := { r.dig with stored := s.dig.stored, fuses := s.dig.fuses, wrapKey := wk, signs := s.dig.signs }
    upd := { r.upd with dir := s.upd.dir, manifest := s.upd.manifest, mods := s.upd.mods }
    vault := { r.vault with dump := s.vault.dump, fpKeys := s.vault.fpKeys, progress := s.vault.progress }
    draws := s1.draws
    pending := s.pending }

/-- A power-on reset (R438) of the head the board straps: the always-on domain is reset too. -/
def State.powerOn (s : State) (head : Nat) : State :=
  let s1 := s.fullReset causePower
  { s1 with
    top := { s1.top with head := head % 2 }
    med := { s1.med with rtcFallback := false }
    pwr := { PwrState.reset with pllHeld := false } }

/-- Send heartbeat STATE 4 on both paths (R319, R439). -/
def State.sendState4 (s : State) : State := (s.sayState 4).beat

end Sys2Proof.Machine
end

