-- ==== Sys2Proof/Machine/Registers.lean ====
section
/-!
DEFINITION. Register accesses: helper styles, buffered writes, enable and disable, claims, timers, indirect access and the
generic register write (R33, R345 to R364, R461).
-/

namespace Sys2Proof.Machine

/-- The next state of an outcome. -/
def nextOr (s : State) : Res → State
  | .next t => t
  | _ => s

/-- Change TOP. -/
def State.updTop (s : State) (f : TopState → TopState) : State := { s with top := f s.top }

/-! ### Enable and disable (R360, R361, Table 15.5) -/

/-- The blocks a block requires (Table 15.5). -/
def Blk.requires : Blk → List Blk
  | .med => [.mlk, .map]
  | .str => [.med, .cip]
  | .dp => [.map, .cip, .str]
  | .fe => [.rdm, .dp, .ubl]
  | _ => []

/-- Blocks whose ENABLE does not act (Table 15.5). -/
def Blk.fixed (b : Blk) : Bool := b ∈ [.top, .pwr, .dig]

/-- The sideband pin groups the board record names (R461). -/
def State.boardGroups (s : State) : List Nat := (List.range 4).filter fun g => bitOf s.top.board g

/-- A write of ENABLE (R360, R361). -/
def State.writeEnable (s : State) (r : Requester) (b : Blk) (v : Bool) : State :=
  let k := s.blk.get b
  if b.fixed then s
  else if k.checking then s.violation (violSource r) true (b.num * 2 ^ 20 + 4)
  else if k.draining then (if v then s.updBlk b fun k => { k with refused := true, reason := rsnBusy } else s)
  else if v = k.enabled then s
  else if v then s.updBlk b fun k => { k with checking := true }
  else if Blk.all.any fun x => b ∈ x.requires ∧ (s.blk.get x).enabled then
    s.updBlk b fun k => { k with refused := true, reason := rsnDepOn }
  else if b = .map ∧ s.map.dirtyCount ≠ 0 then s.updBlk b fun k => { k with refused := true, reason := rsnDirty }
  else
    let s1 := s.updBlk b fun k => { k with enable := false, draining := true, refused := false, reason := 0 }
    if b = .map then (s1.updMap fun m => { m with en := false, invalidated := false, wt := false }).mapDone 3 else s1

/-- Refuse an enable at the end of its check. -/
def State.refuseEnable (s : State) (b : Blk) (rsn holder : Nat) : State :=
  s.updBlk b fun k => { k with checking := false, refused := true, reason := rsn, holder := holder }

/-- Step 3 of the check (R360, R362, R364, R461): the claims of a block, all or none: the holder that stands in the way. -/
def State.claimBlock (s : State) (b : Blk) : Nat × State :=
  match b with
  | .evr | .str => if s.claimHolder 13 = 0 then (0, (s.claim 13 (if b = .evr then 0x20 else 0x21)).2) else (0, s)
  | .mlk =>
    match s.boardGroups.find? fun g => s.claimHolder (9 + g) ≠ 0 ∧ s.claimHolder (9 + g) ≠ 0x30 with
    | some g => (s.claimHolder (9 + g), (s.claim (9 + g) 0x30).2)
    | none => (0, s.boardGroups.foldl (fun s g =>
        (s.claim (9 + g) 0x30).2.updTop fun t => { t with pinmux := t.pinmux.set g 1 }) s)
  | _ => (0, s)

/-- CONSISTENCY_CHECK_DONE (R27, R360, R362, R364, R461): the 256 cfg-cycles of a block's check are over. -/
def execConsistencyCheckDone (b : Blk) (s : State) : Res :=
  if !(s.blk.get b).checking then .next s
  else if b.requires.any fun x => !((s.blk.get x).enabled && (s.blk.get x).enable) then .next (s.refuseEnable b rsnDepOff 0)
  else
    let (h, s1) := s.claimBlock b
    if h ≠ 0 then .next (s1.refuseEnable b rsnHeld h)
    else .next ((s1.updBlk b fun k => { k with
      checking := false, enable := true, enabled := true, refused := false, reason := 0
      waits := b.datapath && s.top.running }).reserveSlots b)

/-- A block holds no work (R361). -/
def State.holdsNone (s : State) (b : Blk) : Bool :=
  match b with
  | .mbx => s.mbx.chans.all fun (_, c) => c.state ≠ 1
  | .evr => !s.evr.flushing
  | .map => decide (s.map.busy = 0) && s.map.evb.isEmpty && s.dp.pend.isEmpty
  | .med => s.med.folds.isEmpty && s.med.subs.isEmpty && s.med.victims.all (fun v => v.stage = 0)
  | .str => s.str.rows.isEmpty
  | .mlk => s.mlk.out.isEmpty
  | .dp => s.dp.grans.isEmpty && s.dp.packs.isEmpty && s.dp.closed.isEmpty && s.dp.fetches.isEmpty && s.dp.rgrans.isEmpty
  | .fe => s.fe.cmds.isEmpty && s.fe.fences.isEmpty && s.fe.fwd.isEmpty
  | .rdm => s.rdm.qps.all fun (_, q) => q.wrs.isEmpty && q.parked.isEmpty && !q.fetching && q.rwaits.isEmpty
  | .ubl => s.ubl.takeover.isEmpty && s.ubl.handover.isNone
  | .cip => s.cip.zeroizing.isEmpty && s.cip.streams.all (fun x => x.res.isSome)
  | _ => true

/-- The claims a block gives up (Table 15.6). -/
def State.releaseBlock (s : State) (b : Blk) : State :=
  match b with
  | .evr => if (s.blk.get .str).enabled then s else s.release 13 (s.claimHolder 13)
  | .str => if (s.blk.get .evr).enabled then s else s.release 13 (s.claimHolder 13)
  | .mlk => s.boardGroups.foldl (fun s g => if s.claimHolder (9 + g) = 0x30 then
      (s.release (9 + g) 0x30).updTop fun t => { t with pinmux := t.pinmux.set g 0 } else s) s
  | .scr => s.release 0 0x10
  | .rdm => s.release 0 0x11
  | _ => s

/-- DRAIN_END (R361, R362): a draining block holds no more work, releases its claims and clears ENABLED. -/
def execDrainEnd (b : Blk) (s : State) : Res :=
  if (s.blk.get b).draining ∧ s.holdsNone b then
    .next ((s.updBlk b fun k => { k with draining := false, enabled := false }).releaseBlock b)
  else .next s

/-! ### Claimed registers of TOP (R362, R363) -/

/-- The identity code of a requester as a claimant (Table 15.7). -/
def Requester.code : Requester → Nat
  | .cluster => 1
  | .head => 2

/-- The load value of a timer. -/
def Timer.load (t : Timer) : Word := BitVec.ofNat 32 (t.loadHi.toNat * 65536 + t.loadLo.toNat)

/-- A write of TOP_TIMER_CTRL_n: EN 1 claims and starts, EN 0 stops and releases (R362). -/
def State.writeTimer (s : State) (r : Requester) (n : Nat) (v : Nat) : State :=
  let per := bitOf v 14
  let upd (s : State) (f : Timer → Timer) : State := s.updTop fun t => { t with timers := updAt t.timers n f }
  if bitOf v 15 then
    let (ok, s1) := s.claim (1 + n) r.code
    if ok then upd s1 fun t => { t with en := true, periodic := per, count := t.load } else s1
  else upd (s.release (1 + n) (s.claimHolder (1 + n))) fun t => { t with en := false, periodic := per }

/-- A timer reaches 0: its event, and a reload where it is periodic. -/
def State.timerFires (s : State) (n : Nat) : State :=
  (s.updTop fun t => { t with timers := updAt t.timers n fun x => { x with count := if x.periodic then x.load else 0 } }).raise .top n

/-- Holder code of a sideband pin function (Table 15.7). -/
def funcCode (f : Nat) : Nat := 0x2F + f

/-- A write of TOP_PINMUX_g.FUNC (R362). -/
def State.writePinmux (s : State) (g f : Nat) : State :=
  let put (s : State) : State := s.updTop fun t => { t with pinmux := t.pinmux.set g f }
  if f = 0 then put (s.release (9 + g) (s.claimHolder (9 + g)))
  else
    let (ok, s1) := s.claim (9 + g) (funcCode f)
    if ok then put s1 else s1

/-- A write of TOP_VAULT_PART (R363): refused, and recorded in TOP_CLAIM_13, while the vault is claimed. -/
def State.writeVaultPart (s : State) (r : Requester) (v : Nat) : State :=
  if s.claimHolder 13 = 0 then s.updTop fun t => { t with vaultPart := BitVec.ofNat 16 v }
  else s.updTop fun t => { t with claims := updAt t.claims 13 fun c => { c with refusedId := r.code, reason := rsnHeld } }

/-! ### Control registers under a helper style (R350 to R353) -/

/-- The newest value of a control register (R353). -/
def State.ctlOld (s : State) (b : Blk) (off : Nat) : Nat :=
  match b, off with
  | _, 0x004 => b2n (s.blk.get b).enable
  | .top, 0x200 => s.top.intEn.toNat
  | .top, 0x220 => s.top.vaultPart.toNat
  | .top, _ =>
    match rowIdx off 0x400 4 32, rowIdx off 0x500 4 4 with
    | some i, _ => ((s.top.timers[i / 4]?).map fun t => if i % 4 = 0 then t.ctrl else if i % 4 = 1 then t.loadLo.toNat else t.loadHi.toNat).getD 0
    | _, some g => s.top.pinmux.getD g 0
    | _, _ => 0
  | .pwr, _ => s.pwr.retain.toNat
  | .dp, 0x100 => s.cfg.dpSpec.newest.toNat
  | .dp, _ => s.cfg.dpCoat.newest.toNat
  | .med, 0x100 => s.cfg.medGc.newest.toNat
  | .med, _ => s.cfg.medCredit.newest.toNat
  | .str, 0x100 => s.cfg.strRebuild.newest.toNat
  | .str, _ => s.cfg.strRecoat.newest.toNat
  | .rdm, 0x110 => s.cfg.rdmCc.newest.toNat
  | .rdm, _ => (((rowIdx off 0x100 4 4).bind fun c => s.cfg.cage[c]?).map fun c => c.newest.toNat).getD 0
  | .ubl, _ => s.cfg.ublRehearse.newest.toNat
  | _, _ => 0

/-- A write of RDM_CAGE_MODE_c, applied at once (R277, R354): SPLIT 0b11 is refused and leaves SPLIT as it was; a change of
SPLIT takes the cage's ports down and retrains them. -/
def State.writeCage (s : State) (c v : Nat) : State :=
  let old := ((s.cfg.cage[c]?).map fun x => x.value.toNat).getD 0
  let v1 := if v % 4 = 3 then v / 4 * 4 + old % 4 else v
  let s1 := { s with cfg := { s.cfg with cage := s.cfg.cage.set c (Cfg.reset (BitVec.ofNat 16 v1)) } }
  if v1 % 4 = old % 4 then s1
  else (List.range 8).foldl (fun s i =>
    (nextOr s (execPortLinkDown (8 * c + i) s)).updRdm fun r => { r with portUp := Table.put r.portUp (8 * c + i) true }) s1

/-- Give a control register a new value: buffered where its boundary is the commit epoch, else at once (R354). -/
def State.ctlSet (s : State) (r : Requester) (late : Bool) (b : Blk) (off v : Nat) : State :=
  let h : Half := BitVec.ofNat 16 v
  let buf (f : CfgRegs → CfgRegs) : State := { s with cfg := f s.cfg }.pend b late
  match b, off with
  | _, 0x004 => s.writeEnable r b (bitOf v 0)
  | .top, 0x200 => s.updTop fun t => { t with intEn := h }
  | .top, 0x220 => s.writeVaultPart r v
  | .top, _ =>
    match rowIdx off 0x400 4 32, rowIdx off 0x500 4 4 with
    | some i, _ =>
      if i % 4 = 0 then s.writeTimer r (i / 4) v
      else s.updTop fun t => { t with timers := updAt t.timers (i / 4) fun x =>
        if i % 4 = 1 then { x with loadLo := h } else { x with loadHi := h } }
    | _, some g => s.writePinmux g v
    | _, _ => s
  | .pwr, _ => s.updPwr fun p => { p with retain := h }
  | .dp, 0x100 => buf fun c => { c with dpSpec := c.dpSpec.write late h }
  | .dp, _ => buf fun c => { c with dpCoat := c.dpCoat.write late h }
  | .med, 0x100 => buf fun c => { c with medGc := c.medGc.write late h }
  | .med, _ => buf fun c => { c with medCredit := c.medCredit.write late h }
  | .str, 0x100 => buf fun c => { c with strRebuild := c.strRebuild.write late h }
  | .str, _ => buf fun c => { c with strRecoat := c.strRecoat.write late h }
  | .rdm, 0x110 => buf fun c => { c with rdmCc := c.rdmCc.write late h }
  | .rdm, _ => match rowIdx off 0x100 4 4 with
    | some c => s.writeCage c v
    | none => s
  | .ubl, _ => buf fun c => { c with ublRehearse := c.ublRehearse.write late h }
  | _, _ => s

/-- The value a write of a control register gives, before its reserved bits go, and the bits it writes as 1 into reserved
places (R351, R353, R359). `q` is the alias region. -/
def styled (style q old : Nat) (w : Word) : Nat × Nat :=
  let lo := w.toNat % 65536
  let hi := w.toNat / 65536
  match q with
  | 1 => (old ||| lo, lo)
  | 2 => (old &&& (0xFFFF ^^^ lo), 0)
  | 3 => (old ^^^ lo, lo)
  | _ => if style = 1 then ((old &&& (0xFFFF ^^^ hi)) ||| (lo &&& hi), lo &&& hi) else (lo, lo)

/-- A write of a control register by its helper style: the RW fields take effect, a reserved field written as 1 is a
violation (R359). -/
def State.ctlWrite (s : State) (r : Requester) (late : Bool) (b : Blk) (q off mask : Nat) (w : Word) : State :=
  let (v, ones) := styled (if b = .mbx then 0 else (s.blk.get b).style.get r) q (s.ctlOld b off) w
  let s1 := if ones &&& (0xFFFF ^^^ mask) ≠ 0 then s.violation (violSource r) true (b.num * 2 ^ 20 + q * 0x40000 + off) else s
  s1.ctlSet r late b off (v &&& mask)

/-! ### Mailbox pages (R366 to R371, R378) -/

/-- The opcodes of Table 16.4. -/
def mailOps : List Nat :=
  [1, 2, 3, 4, 0x101, 0x102, 0x103, 0x104, 0x105, 0x106, 0x107, 0x108, 0x109, 0x201, 0x202, 0x203, 0x204, 0x301, 0x302,
   0x303, 0x304, 0x310, 0x311, 0x312, 0x313, 0x314, 0x401, 0x402, 0x403, 0x410, 0x411, 0x501, 0x502, 0x503, 0x504, 0x505,
   0x506, 0x601, 0x602, 0x701, 0x702, 0x703, 0x801, 0x802, 0x803]

/-- The next expected sequence number of a channel (R368). -/
def Chan.expected (x : Chan) : Nat := x.rseq.toNat % 254 + 1

/-- A bank of a channel replaced: bank `s` mod 2. -/
def Chan.setBank (x : Chan) (n : Nat) (b : List Byte) : Chan := if n % 2 = 0 then { x with bank0 := b } else { x with bank1 := b }

/-- The offset of a register of a channel page in BAR0. -/
def chanAddr (c off : Nat) : Nat := 0x00240000 + 0x1000 * c + off

/-- A doorbell write (R368, R371, R378): taken where the channel is IDLE and the value is the expected number; MBX itself
answers an opcode outside Table 16.4 and a length outside 8 to 1,792. -/
def State.doorbell (s : State) (r : Requester) (c : Nat) (w : Word) : State :=
  let x := s.chan c
  let v := w.toNat % 256
  if c = 63 ∨ !s.takes .mbx ∨ x.state ≠ 0 ∨ v ≠ x.expected then
    (s.violation (violSource r) true (chanAddr c 0x008)).raise .mbx 2
  else
    let op := x.opcode.toNat
    let cur := fit x.req x.len
    let refuse := if op ∉ mailOps then some rsnUnsupported else if x.len < 8 ∨ x.len > 1792 then some rsnRange else none
    let s1 := s.updChan c fun x => { (x.setBank v []) with
      taken := BitVec.ofNat 8 v, state := 1, op := op, cur := cur
      ready := refuse.map fun rsn => bankBytes rsn op (ridOf cur) [] }
    let s2 := s1.wakeEvent 2
    if r = .head then { s2 with upd := { s2.upd with doorbell := true } } else s2

/-- A write of MB_RSP_ACK (R370). -/
def State.ackChan (s : State) (r : Requester) (c : Nat) (w : Word) : State :=
  let x := s.chan c
  let same := decide (w.toNat % 256 = x.rseq.toNat)
  if x.state = 2 ∧ same then s.updChan c fun x => { x with state := 0 }
  else if x.state = 0 ∧ same then s
  else s.violation (violSource r) true (chanAddr c 0x024)

/-- A write of MB_NTF_CONS (R378): a value beyond PROD is a violation. -/
def State.writeCons (s : State) (r : Requester) (w : Word) : State :=
  let v := w.toNat % 128
  let left (n : Nat) : Nat := (s.mbx.prod + 128 - n) % 128
  let bad : Bool := decide (left v > left s.mbx.cons)
  let s1 := if bad ∨ bitsOf w.toNat 15 7 ≠ 0 then s.violation (violSource r) true 0x0027F024 else s
  if bad then s1 else s1.updMbx fun m => { m with cons := v }

/-- A write to a channel page (Table 16.1, R369). -/
def State.writeChan (s : State) (r : Requester) (c off : Nat) (w : Word) : State :=
  let x := s.chan c
  let viol := s.violation (violSource r) true (chanAddr c off)
  let ctrl (f : State → State) (mask : Nat) : State := f (if w.toNat % 65536 &&& (0xFFFF ^^^ mask) ≠ 0 then viol else s)
  match off with
  | 0x008 => s.doorbell r c w
  | 0x00C => ctrl (fun s => if c = 63 then s.updMbx fun m => { m with ntfInt := bitOf w.toNat 0 }
      else s.updChan c fun x => { x with intEn := bitOf w.toNat 0 }) 1
  | _ =>
    if c = 63 then (if off = 0x024 then s.writeCons r w else if (s.readChan c off).isSome then s else viol)
    else if off = 0x024 then s.ackChan r c w
    else if off = 0x020 ∨ off ≥ 0x800 then s
    else if off = 0x000 ∨ off = 0x004 ∨ off ≥ 0x100 then
      if x.state = 1 then viol
      else if off = 0x000 then s.updChan c fun x => { x with opcode := BitVec.ofNat 16 w.toNat }
      else if off = 0x004 then ctrl (fun s => s.updChan c fun x => { x with len := bitsOf w.toNat 10 0 }) 0x7FF
      else s.updChan c fun x => { x with req := patch (fit x.req 1792) (off - 0x100) (leBytes 4 w.toNat) }
    else viol

/-! ### Indirect access (R357 to R359) -/

/-- Advance IND_ADDR by 4. -/
def State.advanceInd (s : State) (r : Requester) (b : Blk) : State :=
  s.updBlk b fun k => { k with indAddr := k.indAddr.set r ((k.indAddr.get r + 4) % 2 ^ 32) }

/-- The dword the bridge returns to a requester. -/
def State.answerRead (s : State) (r : Requester) (w : Word) : State := s.updTop fun t => { t with readData := t.readData.set r w }

/-- A read of IND_DATA (R357, R358): the dword at IND_ADDR, or zero and a violation where it names no target. -/
def State.readInd (s : State) (r : Requester) (b : Blk) : State :=
  let a := (s.blk.get b).indAddr.get r
  match s.indRead b a with
  | some w => ((s.answerRead r w).indReadEffect b a).advanceInd r b
  | none => ((s.answerRead r 0).violation (violSource r) false (b.num * 2 ^ 20 + 0x34)).advanceInd r b

/-- A write of IND_DATA (R35, R357, R358). -/
def State.writeInd (s : State) (r : Requester) (late : Bool) (b : Blk) (w : Word) : State :=
  match s.indWrite late b ((s.blk.get b).indAddr.get r) w with
  | some s1 => s1.advanceInd r b
  | none => (s.violation (violSource r) true (b.num * 2 ^ 20 + 0x34)).advanceInd r b

/-! ### Registers written as plain (R352) -/

/-- A write of ATOMIC_MODE (R351): STYLE 0b11, and any other style than plain in MBX (R348), is ignored and a violation. -/
def State.writeStyle (s : State) (r : Requester) (b : Blk) (w : Word) : State :=
  let v := w.toNat % 4
  let bad : Bool := decide (v = 3 ∨ (b = .mbx ∧ v ≠ 0))
  let s1 := if bad ∨ bitsOf w.toNat 15 2 ≠ 0 then s.violation (violSource r) true (b.num * 2 ^ 20 + 0xC) else s
  if bad then s1 else s1.updBlk b fun k => { k with style := k.style.set r v }

/-- A write of STATUS_ACK (R356). -/
def State.writeAck (s : State) (r : Requester) (b : Blk) (w : Word) : State :=
  let a : Byte := BitVec.ofNat 8 w.toNat
  if (s.blk.get b).ackOk a then s.updBlk b (·.ack a) else s.violation (violSource r) true (b.num * 2 ^ 20 + 0x24)

/-- A write of PWR_PSTATE_REQ (R415, R420). DEDUCED from the example of R415, in which requests written while an entry from P0 is
in flight wake nothing: the write is a wake source in P1 and P2. -/
def State.writePstate (s : State) (r : Requester) (w : Word) : State :=
  let s1 := if bitsOf w.toNat 15 2 ≠ 0 then s.violation (violSource r) true 0x00100100 else s
  let s2 := s1.requestState (w.toNat % 4)
  if s.pwr.current = 0 then s2 else s2.wakeEvent 2

/-- A write of TOP_RESET (R439): the key sends STATE 4 and resets the chip. -/
def State.writeReset (s : State) (r : Requester) (w : Word) : State :=
  if w.toNat % 65536 = 0x4B1D then s.sendState4.fullReset causeSoft else s.violation (violSource r) true 0x00000230

/-- A write of MAP_CACHE_CMD (R148): 0x6 to 0xF are ignored and violations. -/
def State.writeMapCmd (s : State) (r : Requester) (w : Word) : State :=
  let op := w.toNat % 16
  let s1 := if bitsOf w.toNat 15 4 ≠ 0 ∨ op ≥ 6 then s.violation (violSource r) true 0x00700100 else s
  match op with
  | 1 => nextOr s1 (execInvalidate r s1)
  | 2 => nextOr s1 (execMapFlush r s1)
  | 3 => nextOr s1 (execMapDisable r s1)
  | 4 => nextOr s1 (execMapEnable r s1)
  | 5 => nextOr s1 (execWriteback r s1)
  | _ => s1

/-- A write of a register that no helper style governs (R352). -/
def State.plainWrite (s : State) (r : Requester) (late : Bool) (b : Blk) (off : Nat) (w : Word) : State :=
  let rsv (mask : Nat) : State :=
    if w.toNat % 65536 &&& (0xFFFF ^^^ mask) ≠ 0 then s.violation (violSource r) true (b.num * 2 ^ 20 + off) else s
  match b, off with
  | _, 0x00C => s.writeStyle r b w
  | _, 0x024 => s.writeAck r b w
  | _, 0x030 => s.updBlk b fun k => { k with indAddr := k.indAddr.set r (w.toNat / 4 * 4) }
  | _, 0x034 => s.writeInd r late b w
  | .top, 0x218 => if bitOf w.toNat 0 then s.updTop fun t => { t with violations := 0, violLast := 0 } else s
  | .top, 0x230 => s.writeReset r w
  | .pwr, 0x100 => s.writePstate r w
  | .evr, 0x100 => s.evrCtrl r (BitVec.ofNat 16 w.toNat)
  | .scr, 0x100 =>
    let s1 := rsv 0x80FF
    if bitOf w.toNat 15 then nextOr s1 (execCaptureStart r (w.toNat % 256) s1) else nextOr s1 (execCaptureStop r (w.toNat % 256) s1)
  | .map, 0x100 => s.writeMapCmd r w
  | .rdm, 0x120 =>
    let s1 := rsv 1
    if bitOf w.toNat 0 then nextOr s1 (execTraceStart r s1) else nextOr s1 (execTraceStop r s1)
  | _, _ => s

/-! ### BAR2 and the MSI-X table (R237, R344, R345, R347, R354) -/

/-- A write of BAR2: a page of another owner than head software, and a reserved address, is a violation (R359). -/
def State.bar2Write (s : State) (a : Nat) (w : Word) : State :=
  let p := a / 0x1000
  let off := a % 0x1000
  if !s.pageOpen p then s.violation 1 true a
  else match off with
    | 0x004 => nextOr s (execPgSqTail p w s)
    | 0x00C => nextOr s (execPgCqHead p w s)
    | 0x010 =>
      let s1 := if bitsOf w.toNat 15 1 ≠ 0 then s.violation 1 true a else s
      s1.setPage p { s.upage p with intEn := bitOf w.toNat 0 }
    | 0x024 => nextOr s (execPgStatusAck p w s)
    | 0x080 => nextOr s (execPgZeroize p w s)
    | _ => if off = 0x008 ∨ off = 0x020 ∨ (rowIdx off 0x040 4 16).isSome then s else s.violation 1 true a

/-- A write of the MSI-X table: a vector unmasked while pending is signalled (R347). -/
def State.msixWrite (s : State) (a : Nat) (w : Word) : State :=
  let v := (a - 0x02000000) / 16
  let e := fit (Table.getD s.msix v []) 16
  let s1 := { s with msix := Table.put s.msix v (patch e (a % 16) (leBytes 4 w.toNat)) }
  if v ∈ s1.msixPending ∧ !s1.msixMasked v then
    { s1 with msixPending := s1.msixPending.filter (· ≠ v), irqs := s1.irqs ++ [v] }
  else s1

/-! ### A register write (R345 to R359) -/

/-- A dword write of BAR0 that the bridge takes; `late` says that the cut-off of R35 has passed. Nothing is taken in P3 and
while the chip is held in reset. -/
def State.regWrite (s : State) (r : Requester) (late : Bool) (a : Nat) (w : Word) : State :=
  if !s.powered .top then s
  else if 0x02000000 ≤ a ∧ a < 0x02001500 then s.msixWrite a w
  else if 0x02010000 ≤ a ∧ a < 0x02010040 then s
  else
    match blkOf a with
    | none => s.violation (violSource r) true a
    | some b =>
      let o := a % 2 ^ 20
      if !s.powered b ∨ !s.regExists r b o then s.violation (violSource r) true a
      else if b = .mbx ∧ o ≥ 0x40000 then s.writeChan r ((o - 0x40000) / 0x1000) (o % 0x1000) w
      else
        let (q, off) := aliasOf b o
        match ctlMask b off with
        | some m => s.ctlWrite r late b q off m w
        | none => s.plainWrite r late b off w

/-- The address of a block's register in an alias region (0 its own address). -/
def regAddr (b : Blk) (al off : Nat) : Nat := b.num * 2 ^ 20 + al % 4 * 0x40000 + off

/-- The value a write would give a control register. -/
def State.ctlNew (s : State) (r : Requester) (b : Blk) (al off : Nat) (w : Word) : Nat :=
  (styled (if b = .mbx then 0 else (s.blk.get b).style.get r) (al % 4) (s.ctlOld b off) w).1

/-! ### The rows -/

/-- BLOCK_ENABLE (R360): a write that makes ENABLE 1. -/
def execBlockEnable (r : Requester) (b : Blk) (al : Nat) (w : Word) (s : State) : Res :=
  .next (if bitOf (s.ctlNew r b al 4 w) 0 then s.regWrite r false (regAddr b al 4) w else s)

/-- BLOCK_DISABLE (R361): a write that makes ENABLE 0. -/
def execBlockDisable (r : Requester) (b : Blk) (al : Nat) (w : Word) (s : State) : Res :=
  .next (if bitOf (s.ctlNew r b al 4 w) 0 then s else s.regWrite r false (regAddr b al 4) w)

/-- ATOMIC_MODE_WRITE (R349, R351). -/
def execAtomicModeWrite (r : Requester) (b : Blk) (w : Word) (s : State) : Res := .next (s.regWrite r false (regAddr b 0 0xC) w)

/-- STATUS_ACK (R15, R356). -/
def execStatusAck (r : Requester) (b : Blk) (w : Word) (s : State) : Res := .next (s.regWrite r false (regAddr b 0 0x24) w)

/-- IND_ADDR_WRITE (R349, R357). -/
def execIndAddrWrite (r : Requester) (b : Blk) (w : Word) (s : State) : Res := .next (s.regWrite r false (regAddr b 0 0x30) w)

/-- IND_DATA_WRITE (R35, R180, R335, R357 to R359); `late` says that the cut-off of R35 has passed. -/
def execIndDataWrite (r : Requester) (b : Blk) (w : Bool × Word) (s : State) : Res := .next (s.regWrite r w.1 (regAddr b 0 0x34) w.2)

/-- IND_DATA_READ (R357 to R359, R428): a read in a block whose domain is off is a violation that reads zero. -/
def execIndDataRead (r : Requester) (b : Blk) (s : State) : Res :=
  .next (if !s.powered .top then s
    else if !s.powered b then (s.answerRead r 0).violation (violSource r) false (regAddr b 0 0x34)
    else s.readInd r b)

/-- EPOCH_LO_READ (R33, R349): the low half is returned and the high half latched for the requester. -/
def execEpochLoRead (r : Requester) (s : State) : Res :=
  .next (if !s.powered .top then s
    else (s.answerRead r (BitVec.ofNat 32 s.top.epoch.toNat)).updTop fun t => { t with
      epochHi := t.epochHi.set r (BitVec.ofNat 32 (t.epoch.toNat / 2 ^ 32)) })

/-- BOOT_COUNT_LO_READ (R349). -/
def execBootCountLoRead (r : Requester) (s : State) : Res :=
  .next (if !s.powered .top then s
    else
      let s1 := s.answerRead r (BitVec.ofNat 32 s.dig.bootCount.toNat)
      { s1 with dig := { s1.dig with bootHi := s1.dig.bootHi.set r (BitVec.ofNat 32 (s.dig.bootCount.toNat / 2 ^ 32)) } })

/-- REGISTER_WRITE (R15, R35, R345, R350 to R355, R359, R369): a write at any address of BAR0 or, from the head CPU, of BAR2. An
address that is not dword aligned stands for a request with a partial byte enable and is a violation. Through a fabric port, a
write of a resource of the security core has no effect and is a violation with SOURCE 3 (R28); the memory behind another fabric
address is reached by the structures it holds (Table 01.4) and takes no register write. -/
def execRegisterWrite (r : Requester) (via : RegPath) (late : Bool) (a : Nat) (w : Word) (s : State) : Res :=
  if !s.powered .top then .next s
  else match via with
  | .fabric => .next (if Config.secCore a then s.violation 3 true a else s)
  | .bar2 =>
    (match r with
    | .head => if a % 4 ≠ 0 ∨ a ≥ 0x100000 then .next (s.violation 1 true a) else .next (s.bar2Write a w)
    | .cluster => .next s)
  | .bar0 => if a % 4 ≠ 0 then .next (s.violation (violSource r) true a) else .next (s.regWrite r late a w)

/-- VIOL_CLEAR (R359). -/
def execViolClear (r : Requester) (w : Word) (s : State) : Res := .next (s.regWrite r false 0x218 w)

/-- VAULT_PART_WRITE (R363). -/
def execVaultPartWrite (r : Requester) (al : Nat) (w : Word) (s : State) : Res := .next (s.regWrite r false (regAddr .top al 0x220) w)

/-- TIMER_START (R362): a write that makes EN of a timer 1. -/
def execTimerStart (r : Requester) (al n : Nat) (w : Word) (s : State) : Res :=
  let off := 0x400 + 0x10 * (n % 8)
  .next (if bitOf (s.ctlNew r .top al off w) 15 then s.regWrite r false (regAddr .top al off) w else s)

/-- TIMER_STOP (R362): a write that makes EN of a timer 0. -/
def execTimerStop (r : Requester) (al n : Nat) (w : Word) (s : State) : Res :=
  let off := 0x400 + 0x10 * (n % 8)
  .next (if bitOf (s.ctlNew r .top al off w) 15 then s else s.regWrite r false (regAddr .top al off) w)

/-- TIMER_EXPIRY (R461): a running timer reaches 0. -/
def execTimerExpiry (n : Nat) (s : State) : Res :=
  match s.top.timers[n]? with
  | some t => .next (if t.en ∧ t.count ≠ 0 ∧ s.powered .top then s.timerFires n else s)
  | none => .next s

/-- PINMUX_WRITE (R362). -/
def execPinmuxWrite (r : Requester) (al g : Nat) (w : Word) (s : State) : Res :=
  .next (s.regWrite r false (regAddr .top al (0x500 + 4 * (g % 4))) w)

/-- TOP_RESET (R32, R374, R438 to R440). -/
def execTopReset (r : Requester) (w : Word) (s : State) : Res := .next (s.regWrite r false 0x230 w)

/-- PSTATE_REQUEST (R415). -/
def execPstateRequest (r : Requester) (w : Word) (s : State) : Res := .next (s.regWrite r false 0x00100100 w)

end Sys2Proof.Machine
end

