-- ==== Sys2Proof/Machine/Repl.lean ====
section
/-!
DEFINITION. Replication (R297 to R303): rows CONSISTENCY_SET_CUT to RESYNC.
-/

namespace Sys2Proof.Machine

/-! ### Records and messages (R298) -/

/-- A record's header and data, padded to 16 B (Table 12.4). -/
def Rec.bytes (r : Rec) : List Byte :=
  leBytes 1 r.rtype ++ leBytes 1 (b2n r.last) ++ leBytes 2 r.nblk ++ leBytes 4 r.root ++ leBytes 8 r.stamp ++
  leBytes 8 r.slba ++ leBytes 8 r.set ++ r.data ++ zeros ((16 - r.data.length % 16) % 16)

/-- Read records back; `bs` gives the block size of a root by its index. None where a record is not of Table 12.4. -/
def recsOf (bs : Nat → Option Nat) : Nat → List Byte → Option (List Rec)
  | 0, _ => none
  | fuel + 1, b =>
    if b.isEmpty then some []
    else if b.length < 32 then none
    else
      let t := leAt b 0 1
      let n := leAt b 2 2
      let len := if t = 1 then (bs (leAt b 4 4)).map (n * ·) else some 0
      match len with
      | none => none
      | some k =>
        if t = 0 ∨ t > 4 ∨ b.length < 32 + k then none
        else
          let r : Rec := ⟨t, bitOf (leAt b 1 1) 0, n, leAt b 4 4, leAt b 8 8, leAt b 16 8, leAt b 24 8, slice b 32 k⟩
          (recsOf bs fuel (b.drop (32 + (k + 15) / 16 * 16))).map fun l => r :: l

/-- The largest plaintext of a message (R298). -/
def msgMax : Nat := 65536

/-- Records gathered into plaintexts of at most 65,536 B. -/
def packRecs (cur : List Byte) : List Rec → List (List Byte)
  | [] => if cur.isEmpty then [] else [cur]
  | r :: rs =>
    let b := r.bytes
    if cur.isEmpty ∨ cur.length + b.length ≤ msgMax then packRecs (cur ++ b) rs else cur :: packRecs b rs

/-- The AAD of a message (R298). -/
def replAad (att msn : Nat) (array : List Byte) : List Byte := leBytes 4 att ++ leBytes 4 msn ++ fit array 8

/-- A record of block data cut into records that fit a message. -/
def cutRec (bs : Nat) (last : Bool) : Nat → Rec → List Rec
  | 0, _ => []
  | fuel + 1, r =>
    let m := (msgMax - 32) / bs
    if r.nblk ≤ m then [{ r with last := last }]
    else { r with nblk := m, last := false, data := r.data.take (m * bs) } ::
      cutRec bs last fuel { r with nblk := r.nblk - m, slba := r.slba + m, data := r.data.drop (m * bs) }

/-! ### The source (R299, R300) -/

/-- The place of a root in the group. -/
def Attach.idx (a : Attach) (root : Nat) : Option Nat := a.roots.findIdx? (· = root)

/-- Dust-sheet entries of the group past their data-complete points, in stamp order, stamped above the shipping cursor. -/
def State.replEntries (s : State) (a : Attach) : List (Entry × Namespace × Nat) :=
  (sortEntries ((s.ubl.sheet.entries.map (·.2)).filter fun e => e.sd = a.sd ∧ e.marked ∧ e.stamp > a.shipped)).filterMap fun e =>
    match s.ns? e.nsid with
    | some n => (a.idx n.root).map fun i => (e, n, i)
    | none => none

/-- The record of a dust-sheet entry: its blocks without protection information. -/
def State.entryRec (s : State) (set : Nat) (e : Entry) (n : Namespace) (i : Nat) : Rec :=
  let u : Unit := ⟨e.uidx, e.slba, e.nblk, 0, e.data, true, false, none, false, 0⟩
  let bs := lbaData n.lbaf
  let data := if e.etype = 1 then (unitPieces n.lbaf e.slba u).flatMap fun p => slice (s.slotBytes p.slot) (p.blk * bs) (p.nblk * bs)
    else []
  ⟨if e.etype = 1 then 1 else if e.etype = 2 then 3 else 2, true, e.nblk, i, e.stamp, e.slba, set, data⟩

/-- The records of entries: LAST on the final record of each source command. -/
def State.entryRecs (s : State) (set : Nat) : List (Entry × Namespace × Nat) → List Rec
  | [] => []
  | (e, n, i) :: rest =>
    let last := match rest with
      | [] => true
      | (f, _, _) :: _ => decide (f.stamp ≠ e.stamp)
    cutRec (lbaData n.lbaf) last (e.nblk + 1) (s.entryRec set e n i) ++ s.entryRecs set rest

/-- The first stamp of the group whose units are not past their data-complete points yet: nothing from it on is shipped. -/
def State.replLimit (s : State) (a : Attach) : Nat :=
  s.fe.cmds.foldl (fun m c =>
    let mine : Bool := decide (c.sd = a.sd) && changesBlocks c.cap.op && (match s.ns? c.cap.nsid with
      | some n => decide (n.root ∈ a.roots)
      | none => false)
    if mine ∧ (c.units.isEmpty ∧ c.status.isNone ∨ c.units.any (·.opened)) then min m c.stamp else m) (2 ^ 64)

/-- The sealed rule of a set (R300, R155): every unit of the group below the cut has recorded its deltas or was abandoned. -/
def State.setSealed (s : State) (a : Attach) (cut : Nat) : Bool := a.roots.all fun r => s.rootQuiet a.sd r (some cut)

/-- Post a work request on a replication queue pair: one PSN; in the error state it is flushed at once (R292). -/
def State.postWr (s : State) (i : Nat) (op : WrOp) : State :=
  s.updQp i fun q =>
    if q.err then { q with comps := q.comps ++ [Wc.mk false q.npsn .flushed] }
    else { q with wrs := q.wrs ++ [⟨q.npsn, op⟩], npsn := (q.npsn + 1) % 2 ^ 24 }

/-- The PSN of the next work request. -/
def State.npsn (s : State) (i : Nat) : Nat := ((s.qp? i).map (·.npsn)).getD 0

/-- Send one message (R298): encrypted under the attachment's slot; none where the slot gives no nonce. On a scrim queue
pair it is a scrim message over the paths that are up (R296). -/
def State.sendMsg (s : State) (id : Nat) (pt : List Byte) : Option State :=
  match Table.find s.rdm.atts id with
  | none => none
  | some a =>
    let k := s.kslot a.slot
    if k.state = 0 ∨ k.state = 3 ∨ k.usage ≠ 1 then none
    else
      match s.msgNonce a.slot with
      | .drawn nonce s1 =>
        let (ct, tag) := gcmEnc k.key nonce (replAad id a.msn s.ubl.array) pt
        let wire := ct ++ fit nonce 12 ++ zeros 4 ++ fit tag 16
        let s2 := (s1.updAtt id fun a => { a with msn := (a.msn + 1) % 2 ^ 32 }).count .cipMsgDone
        match s2.qp? a.qp with
        | none => none
        | some q =>
          if q.kind = .scrim then
            let n := (wire.length + q.mtu - 1) / max 1 q.mtu
            let s3 := s2.updQp a.qp fun q => { q with
              nextMsn := (q.nextMsn + 1) % 2 ^ 32, twait := q.twait ++ [.msg ⟨q.nextMsn, n - 1, 0, [], wire⟩]
              wrs := q.wrs ++ [⟨q.nextMsn, .scrim⟩] }
            some (s3.pumpAll a.qp)
          else some ((s2.postWr a.qp .send).tx (.message a.qp a.msn wire))
      | _ => none

/-- Send several messages, all or none. -/
def State.sendMsgs (s : State) (id : Nat) : List (List Byte) → Option State
  | [] => some s
  | m :: ms => (s.sendMsg id m).bind fun s1 => s1.sendMsgs id ms

/-- The persistence FLUSH that covers every record up to a stamp (R300, R301); in compatibility mode none is sent, and the
order at the peer stands for it (R290). -/
def State.sendFlush (s : State) (id upTo : Nat) : State :=
  match Table.find s.rdm.atts id with
  | none => s
  | some a =>
    let s1 := s.postWr a.qp (.flush id upTo)
    if ((s.qp? a.qp).map (·.kind)) = some .compat then s1 else s1.sendCtl a.qp (.flush a.qp (s.npsn a.qp))

/-- CONSISTENCY_SET_CUT (R300): at the first stamp of an epoch the set ends, and a snapshot of the group is taken there. -/
def execConsistencySetCut (id : Nat) (s : State) : Res :=
  match Table.find s.rdm.atts id with
  | none => .next s
  | some a =>
    if !a.source ∨ a.detached ∨ !s.owns a.sd ∨ !s.top.running ∨ (s.fe.stamp.get a.sd).toNat ≠ a.mark ∨
        a.age < (if a.sync then 15625 else a.interval) then .next s
    else
      match s.takeSnap a.sd a.roots with
      | none => .next s
      | some (p, ids, s1) =>
        .next (s1.updAtt id fun a => { a with
          set := a.set + 1, cuts := a.cuts ++ [(a.set, p)], snaps := a.snaps ++ [(a.set, ids)], age := 0 })

/-! ### Resync (R302) -/

/-- Granules in which two trees differ, below pages of one level: shared pages are skipped. -/
def diffPages (m : Meta) : Nat → Option Nat → Option Nat → Nat → List Nat
  | 0, a, b, base =>
    if a = b then []
    else
      let pa := (a.bind (Table.find m.pages)).map (·.ents)
      let pb := (b.bind (Table.find m.pages)).map (·.ents)
      (List.range 512).filterMap fun i =>
        if Table.getD (pa.getD []) i 0 = Table.getD (pb.getD []) i 0 then none else some (base * 512 + i)
  | l + 1, a, b, base =>
    if a = b then []
    else
      let child (x : Option Nat) (i : Nat) : Option Nat :=
        (x.bind (Table.find m.pages)).bind fun p => dirChild (p.ent i)
      (List.range 512).flatMap fun i => diffPages m l (child a i) (child b i) (base * 512 + i)

/-- Granules of a root that differ from an older snapshot of it; from nothing where there is none. -/
def diffRoots (m : Meta) (new : Nat) (old : Option Nat) : List Nat :=
  match Table.find m.roots new with
  | none => []
  | some r =>
    let o := old.bind (Table.find m.roots)
    (diffPages m r.depth (some r.top) (match o with
      | some x => if x.depth = r.depth then some x.top else none
      | none => none) 0).filter (· < r.size)

/-- The record of a granule of a snapshot. -/
def State.granRec (s : State) (d : SD) (lbaf root i point set gran : Nat) : Option Rec × State :=
  let per := blocksPer lbaf
  let mk (t : Nat) (b : List Byte) : Option Rec := some ⟨t, false, per, i, point, gran * per, set, b⟩
  match MapEnt.ofWord (entryOf (s.metaOf d) root gran) with
  | .unmapped => (mk 2 [], s)
  | .zero => (mk 3 [], s)
  | .stored _ loc _ => match s.readLoc d loc with
    | (.bytes b, s1) => (mk 1 b, s1)
    | (_, s1) => (none, s1)
  | .bad => (none, s)

/-- LAST on the final record. -/
def markLast : List Rec → List Rec
  | [] => []
  | [r] => [{ r with last := true }]
  | r :: rs => r :: markLast rs

/-- The records of a resync set (R302 step 2). -/
def State.resyncRecs (s : State) (a : Attach) (set point : Nat) : List Rec × State :=
  let snapsAt (n : Nat) : List Nat := ((a.snaps.find? (·.1 = n)).map (·.2)).getD []
  let new := snapsAt set
  let old := snapsAt a.acked.1
  (a.roots.zipIdx).foldl (fun (z : List Rec × State) (root, i) =>
    let lbaf := ((s.fe.ns.find? fun (_, n) => n.sd = a.sd ∧ n.root = root).map (·.2.lbaf)).getD 1
    match new[i]? with
    | none => z
    | some x =>
      let (rs, s1) := (diffRoots (s.metaOf a.sd) x (if a.acked.1 = 0 then none else old[i]?)).foldl
        (fun (y : List Rec × State) g =>
          let (r, s') := y.2.granRec a.sd lbaf x i point set g
          (y.1 ++ r.toList, s')) ([], z.2)
      (z.1 ++ markLast rs, s1)) ([], s)

/-- Bytes of the dust sheet held for an attachment (R299, R302). -/
def State.replHeld (s : State) (a : Attach) : Nat :=
  (s.ubl.sheet.entries.filter fun (_, e) => decide (e.sd = a.sd ∧ e.marked = true ∧ e.stamp > a.durable) && (match s.ns? e.nsid with
    | some n => decide (n.root ∈ a.roots)
    | none => false)).foldl (fun k (_, e) => k + 4096 * (e.nslots + 1)) 0

/-- RESYNC (R302): one entry more would exceed REPL_BACKLOG. A snapshot of the group is taken, the held entries are given
up, and the next set is what the snapshot differs in. -/
def execResync (id : Nat) (s : State) : Res :=
  match Table.find s.rdm.atts id with
  | none => .next s
  | some a =>
    if !a.source ∨ a.detached ∨ a.sync ∨ a.resync ∨ !s.owns a.sd ∨ s.replHeld a < s.ubl.sheet.size * 4096 * a.backlog / 256 then .next s
    else
      match s.takeSnap a.sd a.roots with
      | none => .next s
      | some (p, ids, s1) =>
        let s2 := s1.updAtt id fun a => { a with
          set := a.set + 1, cuts := a.cuts.filter (fun c => decide (c.2 ≤ a.shipped)) ++ [(a.set, p)]
          snaps := a.snaps ++ [(a.set, ids)], age := 0, resync := true, durable := max a.durable p }
        .next ((s2.raise .rdm 5).notify 12 0x0403 true (some a.sd) 0xFF (leBytes 4 id))

/-- CONSISTENCY_SET_SHIP (R245, R299, R300, R301): the oldest set that is cut, sealed and not shipped goes out in stamp order,
ended by SET_END, a persistence FLUSH and an ATOMIC WRITE of its number. In synchronous mode, with no such set, the records
at hand of the set being filled go out ahead with a FLUSH of their own. -/
def execConsistencySetShip (id : Nat) (s : State) : Res :=
  match Table.find s.rdm.atts id with
  | none => .next s
  | some a =>
    let live : Bool := match s.qp? a.qp with
      | some q => !q.err
      | none => false
    if !a.source ∨ a.detached ∨ !s.owns a.sd ∨ !live then .next s
    else
      match a.cuts.find? (·.2 > a.shipped) with
      | some (n, cut) =>
        if !s.setSealed a cut then .next s
        else
          let (rs, s) := if a.resync then s.resyncRecs a n cut
            else (s.entryRecs n ((s.replEntries a).filter fun x => x.1.stamp < cut), s)
          let fin : Rec := ⟨4, true, 0, 0, cut, 0, n, []⟩
          match s.sendMsgs id (packRecs [] (rs ++ [fin])) with
          | none => .next s
          | some s1 =>
            let s2 := s1.sendFlush id cut
            let s3 := (s2.postWr a.qp (.atomicWrite id n)).sendCtl a.qp (.word a.qp (s2.npsn a.qp) n)
            .next (s3.updAtt id fun a => { a with shipped := cut, resync := false })
      | none =>
        let es := (s.replEntries a).filter fun x => x.1.stamp < s.replLimit a
        match a.sync, es.getLast? with
        | true, some (e, _, _) =>
          (match s.sendMsgs id (packRecs [] (s.entryRecs a.set es)) with
          | none => .next s
          | some s1 => .next ((s1.sendFlush id e.stamp).updAtt id fun a => { a with shipped := e.stamp }))
        | _, _ => .next s

/-- REPL_SYNC_TIMEOUT (R301): under DEGRADE the attachment becomes asynchronous and completions go out; under HOLD they stay
withheld. -/
def execReplSyncTimeout (id : Nat) (s : State) : Res :=
  match Table.find s.rdm.atts id with
  | none => .next s
  | some a =>
    let withheld := s.fe.cmds.any fun c => c.status = some stOk ∧ !c.posted ∧ c.sd = a.sd ∧ c.stamp > a.durable ∧
      !s.replCovers c
    if !a.source ∨ a.detached ∨ !a.sync ∨ !a.degrade ∨ !withheld then .next s
    else .next (((s.updAtt id fun a => { a with sync := false }).raise .rdm 4).notify 12 0x0401 true (some a.sd) 0xFF (leBytes 4 id))

/-! ### The target (R298 to R300) -/

/-- The namespace through which the target writes a root. -/
def State.rootNs (s : State) (d : SD) (root : Nat) : Option (Nat × Namespace) := s.fe.ns.find? fun (_, n) => n.sd = d ∧ n.root = root

/-- Land the units of an applied command: the record data by unit, in order. -/
def State.landRecs (s : State) (c : Cmd) (n : Namespace) : List Unit → List Byte → State
  | [], _ => s
  | u :: us, data =>
    let bs := lbaData n.lbaf
    if etypeOf c.cap = 1 then
      let s1 := (unitPieces n.lbaf u.slba u).foldl (fun s p =>
        let b := slice data (p.first * bs) (p.nblk * bs)
        let s' := (s.landSlot c.sd p.slot (p.blk * bs) b (if p.last then some u.hdr else none)).setCheck c.sd c.stamp p.unitIdx p.gran b
        s'.enterGran c n p (if p.nblk = blocksPer n.lbaf then some b else none) none) s
      (s1.completeUnit c.sd c.stamp u).landRecs c n us (data.drop (u.nblk * bs))
    else (s.landZero { c with units := [] } n u).landRecs c n us data

/-- Apply the records of one source command as one write (R299): its own stamp here, its units and their data. None where
the dust sheet has no room. -/
def State.applyRecs (s : State) (a : Attach) (rs : List Rec) : Option State :=
  match rs with
  | [] => some s
  | r :: _ =>
    match (a.roots[r.root]?).bind (s.rootNs a.sd) with
    | none => some s
    | some (nsid, n) =>
      let (st, s1) := s.nextStamp a.sd
      let op : Byte := if r.rtype = 1 then 0x01 else if r.rtype = 3 then 0x08 else 0x09
      let sqe := patch (patch (zeros 64) 0 [op]) 4 (leBytes 4 nsid)
      let c : Cmd := { Cmd.new a.sd st ⟨⟨0xFFFF, 0xFFFF⟩, sqe, [], 0, none⟩ with
        root := some n.root, status := some stOk, posted := true }
      let s2 := s1.updFe fun f => { f with cmds := f.cmds ++ [c] }
      let ub := unitBlocks n.lbaf
      let parts := rs.flatMap fun x => splitUnits ub (x.nblk / ub + 2) x.slba x.nblk
      (s2.makeUnits c n 0 parts).map fun s3 =>
        match s3.cmd? a.sd st with
        | none => s3
        | some y => s3.landRecs y n y.units (rs.flatMap (·.data))

/-- Take records in order: those of a command gather until its LAST; a command at or below what its root has had is skipped
(R299). The records left and what has been applied. -/
def State.takeRecs (s : State) (a : Attach) : List Rec → Option (Attach × State)
  | [] => some (a, s)
  | r :: rs =>
    if r.rtype = 4 then s.takeRecs a rs
    else if !r.last then s.takeRecs { a with gather := a.gather ++ [r] } rs
    else
      let l := a.gather ++ [r]
      let b := { a with gather := [] }
      if r.stamp ≤ Table.getD a.applied r.root 0 then s.takeRecs b rs
      else
        match s.applyRecs a l with
        | none => none
        | some s1 => s1.takeRecs { b with applied := Table.put b.applied r.root r.stamp } rs

/-- REPLICATION_MESSAGE (R245, R298, R299): the wire message of an attachment, with the MSN and the source array identity its
AAD takes. With no room for its records it stays where it has landed. -/
def execReplicationMessage (id msn : Nat) (src wire : List Byte) (s : State) : Res :=
  match Table.find s.rdm.atts id with
  | none => .next s
  | some a =>
    let k := s.kslot a.slot
    let n := wire.length - 32
    if a.source ∨ a.detached ∨ !s.owns a.sd then .next s
    else if k.state = 0 ∨ k.state = 3 then .next (s.raise .cip 2)
    else
      let pt := if wire.length < 32 ∨ k.usage ≠ 1 then none
        else gcmDec k.key (slice wire n 12) (replAad id msn src) (wire.take n) (slice wire (n + 16) 16)
      match pt with
      | none =>
        .next ((((s.count .cipTagFail).raise .cip 0).raise .rdm 6).updAtt id (fun a => { a with detached := true }) |>.notify 12 0x0402
          true (some a.sd) 0xFF (leBytes 4 id))
      | some b =>
        let bs (i : Nat) : Option Nat := ((a.roots[i]?).bind (s.rootNs a.sd)).map fun x => lbaData x.2.lbaf
        match recsOf bs (b.length / 32 + 2) b with
        | none => .next s
        | some rs =>
          match (s.count .cipMsgDone).takeRecs a rs with
          | none => .next s
          | some (a1, s1) => .next (s1.updAtt id fun _ => a1)

/-- The attachment's window on the target: the lowest open one of its queue pair. -/
def State.attWindow (s : State) (a : Attach) : Option Window := (s.rdm.windows.find? fun (_, w) => w.isOpen ∧ w.qp = a.qp).map (·.2)

/-- CONTROL_WORD_CHANGE (R300): the target takes a snapshot of every target root and keeps the latest two. -/
def execControlWordChange (id : Nat) (s : State) : Res :=
  match Table.find s.rdm.atts id with
  | none => .next s
  | some a =>
    match s.attWindow a with
    | none => .next s
    | some w =>
      let v := leNat (s.rdm.landing.readN w.base 8)
      if a.source ∨ a.detached ∨ !s.owns a.sd ∨ v = a.word then .next s
      else
        match s.takeSnap a.sd a.roots with
        | none => .next s
        | some (_, ids, s1) =>
          let all := a.snaps ++ [(v, ids)]
          let old := all.take (all.length - 2)
          let s2 := old.foldl (fun s (_, rs) => rs.foldl (fun s r => s.deleteRoot a.sd r) s) s1
          .next (s2.updAtt id fun a => { a with word := v, snaps := all.drop (all.length - 2) })

end Sys2Proof.Machine
end

