-- ==== Sys2Proof/Machine/Mailbox.lean ====
section
/-!
DEFINITION. The mailbox rows: doorbells, responses and notifications (R366 to R372, R378, R379), and the commands of
Table 16.4 but those of dual head, firmware update and trust. Operands besides the channel stand for parameters whose
layout the manual does not give.
-/

namespace Sys2Proof.Machine

/-! ### The channel pages -/

/-- MB_DOORBELL (R368, R369, R371, R378): a requester's write. -/
def execMbDoorbell (r : Requester) (c : Nat) (w : Word) (s : State) : Res :=
  .next (if c < 64 then s.regWrite r false (chanAddr c 0x008) w else s)

/-- MB_RSP_ACK (R370): a requester's write. -/
def execMbRspAck (r : Requester) (c : Nat) (w : Word) (s : State) : Res :=
  .next (if c < 63 then s.regWrite r false (chanAddr c 0x024) w else s)

/-- MB_NTF_CONS (R378): a requester's write. -/
def execMbNtfCons (r : Requester) (w : Word) (s : State) : Res := .next (s.regWrite r false (chanAddr 63 0x024) w)

/-- NOTIFICATION (R378, R379): Terzan posts a notification of its own. -/
def execNotification (code : Nat) (raised : Bool) (sd : Option SD) (port : Nat) (arg : List Byte) (s : State) : Res :=
  .next (if s.works .mbx then s.notify 0x10 code raised sd port arg else s)

/-- What a command waits for has come about: its reason, its data, and what remains to be done. -/
def State.waitOver (s : State) (w : CmdWait) : Option (Nat × List Byte × State) :=
  match w.what, w.sd with
  | .sealed point roots, some d =>
    if roots.all fun r => ((Table.find (s.metaOf d).roots r).map (·.isSealed)).getD true then
      some (0, leBytes 8 point ++ roots.flatMap (leBytes 4), s) else none
  | .quiet root, some d => if s.rootQuiet d root none then some (0, [], s.deleteRoot d root) else none
  | .port n, _ => if (s.port n).state = 1 then none else some (0, leBytes 1 (s.port n).cause, s)
  | .splits, _ => if (List.range 48).any fun p => (s.port p).state = 1 ∧ (s.port p).step = 40 then none else some (0, [], s)
  | .slot n, _ => if (s.kslot n).state = 3 then none else some (0, [], s)
  | _, none => some (0, [], s)

/-- A command that runs on is answered once what it waits for has come about. -/
def State.endWait (s : State) (c : Nat) : State :=
  match (s.chan c).wait with
  | none => s
  | some w =>
    match s.waitOver w with
    | none => s
    | some (rsn, data, s1) =>
      (s1.updChan c fun x => { x with wait := none }).finishCmd c (s.chan c).op w.sd w.objs rsn data

/-- RESPONSE_POSTED (R369): the response that has been made becomes readable, with its vector. -/
def execResponsePosted (c : Nat) (s : State) : Res :=
  let s0 := s.endWait c
  let x := s0.chan c
  match x.ready with
  | none => .next s0
  | some b =>
    if c ≥ 63 ∨ x.state ≠ 1 ∨ !s0.works .mbx then .next s0
    else
      let s1 := s0.updChan c fun x => { (x.setBank x.taken.toNat b) with rseq := x.taken, state := 2, ready := none }
      .next (if x.intEn then s1.signal (16 + c) else s1)

/-- Set what a command waits for, with what it holds. -/
def State.waitFor (s : State) (c : Nat) (what : WaitFor) (d : Option SD) (objs : List (Nat × Nat)) : State :=
  s.updChan c fun x => { x with wait := some ⟨what, d, objs⟩ }

/-! ### General commands -/

/-- NOP (R377). -/
def execNop (c : Nat) (s : State) : Res := s.runCmd c 0x0001 false (onArray fun _ => []) fun s _ => .done 0 [] s

/-- VERSION_GET (R377): five dwords in the order of Table 16.4. -/
def execVersionGet (c : Nat) (s : State) : Res :=
  s.runCmd c 0x0002 false (onArray fun _ => []) fun s _ =>
    .done 0 (leBytes 4 s.ubl.version ++ leBytes 4 7 ++ leBytes 4 0xB1 ++ leBytes 4 s.ubl.level ++ leBytes 4 1) s

/-- Modules that count toward a shape: present, or waiting for their split. -/
def State.shapeModules (s : State) : Nat :=
  ((List.range 48).filter fun p => s.present p || decide ((s.port p).state = 1 ∧ (s.port p).step = 4)).length

/-- A shape R186 allows: its metadata width is at most two below the modules. -/
def State.shapeOk (s : State) (k : Nat) : Bool := decide (4 ≤ k ∧ k ≤ 24 ∧ k + 2 ≤ s.shapeModules - 2)

/-- Step 4 of R226 for every module that waits at it. -/
def State.splitAll (s : State) : State :=
  (List.range 48).foldl (fun s p => if (s.port p).state = 1 ∧ (s.port p).step = 4 then
    (match execAdmission p s with
      | .next s1 => s1
      | _ => s) else s) s

/-- ARRAY_COMMISSION (R4, R166, R186, R226, R252, R377, R453): both heads are present and linked. -/
def execArrayCommission (c : Nat) (nqn array : List Byte) (pq : Bool) (k vsegs ssegs holdup : Nat) (s : State) : Res :=
  s.runCmd c 0x0003 true (onArray fun _ => [(7, 0), (7, 1)]) fun s _ =>
    if s.med.commissioned then .no rsnExists s
    else if !s.ubl.up ∨ !s.ubl.peerServing then .no 0x0601 s
    else if !s.shapeOk k ∨ vsegs > 0xFFFF ∨ ssegs > 0xFFFF then .no rsnRange s
    else
      let v := if vsegs = 0 then 64 else vsegs
      let g := if ssegs = 0 then 2048 else ssegs
      let h := if holdup = 0 then 1500 else holdup
      let s1 := s.commission pq k v g h (fit array 8) nqn
      let s2 := s1.send (.message 17 .a (leBytes 1 (b2n pq) ++ leBytes 1 k ++ leBytes 2 v ++ leBytes 2 g ++ leBytes 2 h ++ fit array 8 ++ nqn))
      .later ((s2.drawMetaKey.splitAll.sizeSheets).waitFor c .splits none [(7, 0), (7, 1)])

/-- RTC_SET (R165, R377, R421): the previous value. -/
def execRtcSet (c : Nat) (v : DWord) (s : State) : Res :=
  s.runCmd c 0x0004 true (onArray fun _ => []) fun s _ =>
    .done 0 (leBytes 8 s.pwr.rtc.toNat) (s.updPwr fun p => { p with rtc := v, rtcSet := true, rtcSub := 0 })

/-! ### Volumes and namespaces -/

/-- A root ID is in use (R140). -/
def State.rootUsed (s : State) (n : Nat) : Bool := decide (n ∈ s.rootIds)

/-- An attachment that is not detached names a root of a domain. -/
def State.attached (s : State) (d : SD) (root : Nat) : Bool := s.rdm.atts.any fun (_, a) => !a.detached && decide (a.sd = d ∧ root ∈ a.roots)

/-- VOL_CREATE (R139, R140, Table 16.5). -/
def execVolCreate (c : Nat) (s : State) : Res :=
  s.runCmd c 0x0101 true (fun _ r =>
      if leAt r 8 1 > 1 then .error rsnRange
      else .ok ⟨some (SD.ofBit (leAt r 8 1)), [(7, leAt r 8 1), (2, leAt r 9 1)] ++
        if leAt r 20 4 = 0xFFFFFFFF then [] else [(1, leAt r 20 4)]⟩) fun s r =>
    let d := SD.ofBit (leAt r 8 1)
    let size := leAt r 12 8
    let want := leAt r 20 4
    if leAt r 10 2 ≠ 0 ∨ leAt r 24 8 ≠ 0 ∨ size = 0 ∨ size > 2 ^ 38 ∨ (want ≠ 0xFFFFFFFF ∧ want > 2097151) then .no rsnRange s
    else if (Table.find s.dp.kdoms (leAt r 9 1)).isNone then .no rsnNotFound s
    else if want ≠ 0xFFFFFFFF ∧ s.rootUsed want then .no rsnExists s
    else
      match (if want = 0xFFFFFFFF then s.freeRoot else some want) with
      | none => .no rsnNoSpace s
      | some n => .done 0 (leBytes 4 n) (s.makeVolume d n (leAt r 9 1) size)

/-- A command that names a root by an operand. -/
def ofRoot (root : Nat) : State → List Byte → Except Nat Names := fun s _ =>
  match s.rootDom root with
  | some d => .ok ⟨some d, [(1, root)]⟩
  | none => .error rsnNotFound

/-- Delete a root (R156): what stands in the way, else the wait for its units. -/
def State.deleteCmd (s : State) (c root : Nat) (snap : Bool) : Ans :=
  match s.rootDom root with
  | none => .no rsnNotFound s
  | some d =>
    match s.rootInfo d root with
    | none => .no rsnNotFound s
    | some r =>
      if decide (r.kind = 1) ≠ snap ∨ r.deleting then .no rsnNotFound s
      else if s.rootNamed d root ∨ s.attached d root then .no rsnInUse s
      else if r.kind = 1 ∧ !r.isSealed then .no rsnBusy s
      else .later (s.waitFor c (.quiet root) (some d) [(1, root)])

/-- VOL_DELETE (R156). -/
def execVolDelete (c root : Nat) (s : State) : Res :=
  s.runCmd c 0x0102 true (ofRoot root) fun s _ => s.deleteCmd c root false

/-- Raise a root's depth by new top pages whose entry 0 names the old top (R139). -/
def State.growTop (s : State) (d : SD) (depth : Nat) : Nat → Nat → Nat → Nat × State
  | 0, _, top => (top, s)
  | fuel + 1, l, top =>
    if l ≥ depth then (top, s)
    else
      let (n, s1) := s.newPage d (l + 1) [(0, dirWord top)]
      s1.growTop d depth fuel (l + 1) n

/-- VOL_RESIZE (R139): growth only; the new DEPTH. -/
def execVolResize (c root size : Nat) (s : State) : Res :=
  s.runCmd c 0x0103 true (ofRoot root) fun s _ =>
    match s.rootDom root with
    | none => .no rsnNotFound s
    | some d =>
      match Table.find (s.metaOf d).roots root with
      | none => .no rsnNotFound s
      | some r =>
        if r.kind = 1 ∨ r.deleting then .no rsnNotFound s
        else if size ≤ r.size ∨ size > 2 ^ 38 then .no rsnRange s
        else
          let dep := max r.depth (depthOf size)
          let (top, s1) := s.growTop d dep 4 r.depth r.top
          let s2 := s1.delta d (.root root (some { r with size := size, depth := dep, top := top }))
          let s3 := (s2.fe.ns.filter fun (_, n) => n.sd = d ∧ n.root = root).foldl (fun s (k, n) => s.nsChanged k n.attached) s2
          .done 0 (leBytes 1 dep) s3

/-- Record a namespace, or its end: in FE and in the epoch state of its domain (R262). -/
def State.putNs (s : State) (nsid : Nat) (d : SD) (n : Option Namespace) : State :=
  (s.updFe fun f => { f with ns := Table.setOpt f.ns nsid n }).delta d (.ns nsid n)

/-- NS_CREATE (R50, R262 to R264, Table 16.6). -/
def execNsCreate (c : Nat) (s : State) : Res :=
  s.runCmd c 0x0104 true (onRoot 8) fun s r =>
    let root := leAt r 8 4
    let want := leAt r 12 4
    match s.rootDom root with
    | none => .no rsnNotFound s
    | some d =>
      match Table.find (s.metaOf d).roots root with
      | none => .no rsnNotFound s
      | some x =>
        if want > 32768 ∨ leAt r 16 1 > 4 ∨ leAt r 17 1 > 1 ∨ leAt r 20 4 ≠ 0 then .no rsnRange s
        else if x.deleting then .no rsnNotFound s
        else if x.kind = 1 ∧ !x.isSealed then .no rsnBusy s
        else if s.rootNamed d root then .no rsnInUse s
        else if want ≠ 0 ∧ (s.ns? want).isSome then .no rsnExists s
        else
          let n := if want = 0 then Table.free s.fe.ns 32768 1 else want
          if n > 32768 then .no rsnNoSpace s
          else
            let ns : Namespace := ⟨root, d, x.kdom, leAt r 16 1, decide (leAt r 17 1 = 1), leAt r 18 2, none, [], []⟩
            .done 0 (leBytes 4 n) (s.putNs n d (some ns))

/-- A command that names a namespace by an operand. -/
def ofNs (nsid : Nat) : State → List Byte → Except Nat Names := fun s _ =>
  match s.ns? nsid with
  | some n => .ok ⟨some n.sd, [(1, n.root)]⟩
  | none => .error rsnNotFound

/-- A command on a namespace. -/
def State.onNamespace (s : State) (nsid : Nat) (f : Namespace → Ans) : Ans :=
  match s.ns? nsid with
  | some n => f n
  | none => .no rsnNotFound s

/-- A domain out of service comes back once its last namespace is deleted (R209). -/
def State.lostOver (s : State) (d : SD) : State :=
  if (s.metaOf d).lost ∧ (s.metaOf d).ns.isEmpty then s.delta d (.lost false) else s

/-- NS_DELETE (R262). -/
def execNsDelete (c nsid : Nat) (s : State) : Res :=
  s.runCmd c 0x0105 true (ofNs nsid) fun s _ => s.onNamespace nsid fun n =>
    if n.attached.isEmpty then .done 0 [] ((s.putNs nsid n.sd none).lostOver n.sd) else .no rsnInUse s

/-- A list of host controllers a command may name (R252). -/
def cntlidsOk (l : List Nat) : Bool := decide (1 ≤ l.length ∧ l.length ≤ 64) && l.all fun x => decide (1 ≤ x ∧ x ≤ 0x1000)

/-- NS_ATTACH (R262, R271, R297). -/
def execNsAttach (c nsid : Nat) (cntlids : List Nat) (s : State) : Res :=
  s.runCmd c 0x0106 true (ofNs nsid) fun s _ => s.onNamespace nsid fun n =>
    if !cntlidsOk cntlids then .no rsnRange s
    else if s.replTarget n.sd n.root then .no rsnInUse s
    else
      let new := cntlids.eraseDups.filter (· ∉ n.attached)
      .done 0 [] ((s.putNs nsid n.sd (some { n with attached := n.attached ++ new })).nsChanged nsid new)

/-- NS_DETACH (R262, R271). -/
def execNsDetach (c nsid : Nat) (cntlids : List Nat) (s : State) : Res :=
  s.runCmd c 0x0107 true (ofNs nsid) fun s _ => s.onNamespace nsid fun n =>
    if !cntlidsOk cntlids then .no rsnRange s
    else
      let gone := cntlids.eraseDups.filter (· ∈ n.attached)
      .done 0 [] ((s.putNs nsid n.sd (some { n with attached := n.attached.filter (· ∉ gone) })).nsChanged nsid gone)

/-- NS_QOS_SET (R336, R342): a group, or 0xFF for none; the loop of a group that is assigned runs. -/
def execNsQosSet (c nsid group : Nat) (s : State) : Res :=
  s.runCmd c 0x0108 true (ofNs nsid) fun s _ => s.onNamespace nsid fun n =>
    if group ≥ 240 ∧ group ≠ 0xFF then .no rsnRange s
    else .done 0 [] ((s.putNs nsid n.sd (some { n with qos := if group = 0xFF then none else some group })).qosChanged group)

/-- QOS_GROUP_SET (R336, R342, Table 14.3): the group's latency target, which its loop takes as SETPOINT. -/
def execQosGroupSet (c group us : Nat) (s : State) : Res :=
  s.runCmd c 0x0109 true (onArray fun _ => []) fun s _ =>
    if group ≥ 240 then .no rsnRange s
    else .done 0 [] ({ s with scr := { s.scr with qosTarget := Table.put s.scr.qosTarget group us } }.qosChanged group)

/-! ### Snapshots -/

/-- The source roots of a SNAP_TAKE request (Table 16.7). -/
def snapSrc (r : List Byte) : List Nat := (List.range (leAt r 8 1)).map fun i => leAt r (12 + 4 * i) 4

/-- The domain of the source roots: all in one (R154). -/
def State.snapNames (s : State) (r : List Byte) : Except Nat Names :=
  let l := snapSrc r
  if l.isEmpty ∨ l.length > 64 ∨ leAt r 9 3 ≠ 0 then .error rsnRange
  else
    match s.rootDom (l.headD 0) with
    | none => .error rsnNotFound
    | some d =>
      if l.any fun x => (s.rootDom x).isNone then .error rsnNotFound
      else if l.any fun x => s.rootDom x ≠ some d then .error rsnRange
      else .ok ⟨some d, l.map fun x => (1, x)⟩

/-- SNAP_TAKE (R154, R155, Table 16.7): answered once every snapshot is sealed. -/
def execSnapTake (c : Nat) (s : State) : Res :=
  s.runCmd c 0x0201 true State.snapNames fun s r =>
    let l := snapSrc r
    match s.rootDom (l.headD 0) with
    | none => .no rsnNotFound s
    | some d =>
      if l.any fun x => match Table.find (s.metaOf d).roots x with
          | some k => decide (k.kind = 1) || k.deleting
          | none => true then .no rsnNotFound s
      else
        match s.takeSnap d l with
        | none => .no rsnNoSpace s
        | some (p, ids, s1) => .later (s1.waitFor c (.sealed p ids) (some d) (l.map fun x => (1, x)))

/-- SNAP_DELETE (R156). -/
def execSnapDelete (c root : Nat) (s : State) : Res :=
  s.runCmd c 0x0202 true (ofRoot root) fun s _ => s.deleteCmd c root true

/-- CLONE_CREATE (R156): a writable root over a sealed snapshot's TOP. -/
def execCloneCreate (c root : Nat) (s : State) : Res :=
  s.runCmd c 0x0203 true (ofRoot root) fun s _ =>
    match s.rootDom root with
    | none => .no rsnNotFound s
    | some d =>
      match Table.find (s.metaOf d).roots root, s.freeRoot with
      | some r, some id =>
        if r.kind ≠ 1 ∨ r.deleting then .no rsnNotFound s
        else if !r.isSealed then .no rsnBusy s
        else
          let s1 := s.share d r.top (· + 1)
          .done 0 (leBytes 4 id) (s1.delta d (.root id (some { r with
            kind := 2, isSealed := false, parent := some root, point := 0, createEpoch := s.top.epoch })))
      | some _, none => .no rsnNoSpace s
      | none, _ => .no rsnNotFound s

/-- A command that names a domain by an operand; a read-only one holds nothing. -/
def ofSd (d : SD) (holds : Bool) : State → List Byte → Except Nat Names := fun _ _ => .ok ⟨some d, if holds then [(7, d.num)] else []⟩

/-- ROOT_LIST (R140, R377): records of Table 06.4 from a root on, as many as the head buffer takes; the next root. -/
def execRootList (c : Nat) (d : SD) (start addr len : Nat) (dmaOk : Bool) (s : State) : Res :=
  s.runCmd c 0x0204 false (ofSd d false) fun s _ =>
    let rs := (s.metaOf d).roots.filter fun (n, _) => n ≥ start
    let some' := rs.take (len / 64)
    let next := ((rs.drop (len / 64)).head?.map Prod.fst).getD 0xFFFFFFFF
    if !dmaOk then .no 0x0208 s
    else .done 0 (leBytes 4 next) (if some'.isEmpty then s else s.dma addr (some'.flatMap fun (n, r) => r.bytes n d))

/-! ### Key domains, keys and pages -/

/-- KDOM_CREATE (R91, R94, R239): fresh at-rest and fingerprint keys, on both heads. -/
def execKdomCreate (c kdom : Nat) (mode : DMode) (s : State) : Res :=
  s.runCmd c 0x0301 true (onArray fun _ => [(2, kdom)]) fun s _ =>
    if kdom > 255 then .no rsnRange s
    else if (Table.find s.dp.kdoms kdom).isSome then .no rsnExists s
    else
      match s.needAtRest with
      | none => .no rsnNoSpace s
      | some (slot, s1) =>
        let (fp, s2) := s1.draw
        let (key, s3) := s2.draw
        match s3.loadAtRest slot key true with
        | none => .no rsnNoSpace s
        | some s4 =>
          .done 0 [] ((s4.updDp fun p => { p with kdoms := Table.put p.kdoms kdom ⟨mode, none, fp, slot, []⟩ }).sendKdom kdom)

/-- KDOM_DELETE (R94, R242). -/
def execKdomDelete (c kdom : Nat) (s : State) : Res :=
  s.runCmd c 0x0302 true (onArray fun _ => [(2, kdom)]) fun s _ =>
    let named (m : Meta) : Bool := m.roots.any fun (_, r) => r.kdom = kdom
    let all (d : SD) : Meta := if s.owns d then s.metaOf d else s.ubl.shadow.get d
    if (Table.find s.dp.kdoms kdom).isNone then .no rsnNotFound s
    else if named (all .a) ∨ named (all .b) then .no rsnInUse s
    else .done 0 [] ((s.removeKdom kdom).send (.message 18 .a (leBytes 1 kdom)))

/-- KDOM_MODE_SET (R91): in force from the next boundary. -/
def execKdomModeSet (c kdom : Nat) (mode : DMode) (s : State) : Res :=
  s.runCmd c 0x0303 true (onArray fun _ => [(2, kdom)]) fun s _ =>
    if (Table.find s.dp.kdoms kdom).isNone then .no rsnNotFound s
    else .done 0 [] ((s.updDp fun p => { p with kdoms := Table.upd p.kdoms kdom fun k => { k with modeNext := some mode } }).send
      (.message 19 .a (leBytes 1 kdom ++ leBytes 1 mode.num)))

/-- KDOM_ROTATE (R239): a new key in another slot; the old slot drains. -/
def execKdomRotate (c kdom : Nat) (s : State) : Res :=
  s.runCmd c 0x0304 true (onArray fun _ => [(2, kdom)]) fun s _ =>
    match Table.find s.dp.kdoms kdom, s.needAtRest with
    | none, _ => .no rsnNotFound s
    | _, none => .no rsnNoSpace s
    | some k, some (slot, s1) =>
      let (key, s2) := s1.draw
      match s2.loadAtRest slot key true with
      | none => .no rsnNoSpace s
      | some s3 =>
        .done 0 (leBytes 2 slot) ((s3.updDp fun p => { p with
          kdoms := Table.put p.kdoms kdom { k with slot := slot, oldSlots := k.oldSlots ++ [k.slot] } }).sendKdom kdom)

/-- Key bytes of a usage and key length (Table 16.8): XTS takes two keys. -/
def keyBytes (usage : Nat) (klen : Bool) : Nat := (if klen then 32 else 16) * (if usage = 5 then 2 else 1)

/-- Why a slot takes no key, if it does not (R236, R239, Table 16.8). -/
def State.slotBars (s : State) (slot usage npol : Nat) : Option Nat :=
  let o := (s.upage (slot / 16)).owner
  if slot > 4095 ∨ usage = 0 ∨ usage > 5 ∨ npol > 1 then some rsnRange
  else if o = 2 ∨ npol = 0 then some rsnUsage
  else if o = 0 then some rsnNotFound
  else if (s.kslot slot).state = 3 then some rsnBusy
  else none

/-- The AAD under which a key is wrapped (Table 16.8). -/
def wrapAad (slot usage klen : Nat) : List Byte := leBytes 2 slot ++ leBytes 1 usage ++ leBytes 1 klen

/-- KEY_LOAD (R238, R240, R245, Table 16.8): the key comes wrapped under a key-encryption key of the security core. It waits
while a stream holds the slot's older register. -/
def execKeyLoad (c : Nat) (s : State) : Res :=
  if (s.asked c 0x0310).any fun r => s.oldHeld (leAt r 8 2) then .next s
  else s.runCmd c 0x0310 true (onArray fun r => [(3, leAt r 8 2)]) fun s r =>
    let slot := leAt r 8 2
    let usage := leAt r 10 1
    let klen := leAt r 11 1
    let n := keyBytes usage (decide (klen = 1))
    match s.slotBars slot usage (leAt r 12 1) with
    | some e => .no e s
    | none =>
      if klen > 1 ∨ leAt r 14 2 ≠ n + 28 ∨ !allZero (slice (fit r 108) (16 + n + 28) (92 - (n + 28))) then .no rsnRange s
      else
        let kek := leBytes 32 (Config.deviceKey (0x100 + leAt r 13 1)).toNat
        match gcmDec kek (slice r 16 12) (wrapAad slot usage klen) (slice r 28 n) (slice r (28 + n) 16) with
        | none => .no rsnUnwrap s
        | some key => .done 0 [] (s.loadPlain slot usage (decide (klen = 1)) key)

/-- Draw a key of up to 64 bytes. -/
def State.drawKey (s : State) (n : Nat) : List Byte × State :=
  let (a, s1) := s.draw
  if n ≤ 32 then (a.take n, s1)
  else
    let (b, s2) := s1.draw
    ((a ++ b).take n, s2)

/-- KEY_GENERATE (R238, R245): the key comes from the security core's DRBG. -/
def execKeyGenerate (c slot usage : Nat) (klen npol : Bool) (s : State) : Res :=
  s.runCmd c 0x0311 true (onArray fun _ => [(3, slot)]) fun s _ =>
    match s.slotBars slot usage (b2n npol) with
    | some e => .no e s
    | none =>
      let (key, s1) := s.drawKey (keyBytes usage klen)
      .done 0 [] (s1.loadPlain slot usage klen key)

/-- KEY_ZEROIZE (R241, R242): answered once the zeroize completes. -/
def execKeyZeroize (c slot : Nat) (s : State) : Res :=
  s.runCmd c 0x0312 true (onArray fun _ => [(3, slot)]) fun s _ =>
    let o := (s.upage (slot / 16)).owner
    if slot > 4095 then .no rsnRange s
    else if o = 2 then .no rsnUsage s
    else if o = 0 then .no rsnNotFound s
    else .later ((s.zeroize slot).waitFor c (.slot slot) none [(3, slot)])

/-- PAGE_OWNER_SET (R236): only while every slot of the page is empty. -/
def execPageOwnerSet (c page owner : Nat) (s : State) : Res :=
  s.runCmd c 0x0313 true (onArray fun _ => [(4, page)]) fun s _ =>
    if page > 255 ∨ owner ∉ [0, 1, 3] then .no rsnRange s
    else if (s.upage page).owner = 2 ∨ !s.pageEmpty page ∨ s.cip.streams.any (fun x => x.page = page) then .no rsnInUse s
    else .done 0 [] (s.setPage page { UPage.empty with owner := owner })

/-- A ring size R249 allows. -/
def ringOk (n : Nat) : Bool := n ∈ [16, 32, 64, 128, 256, 512, 1024, 2048, 4096]

/-- PAGE_ASSIGN (R249): the rings of a head-software page. -/
def execPageAssign (c page sqBase sqSize cqBase cqSize : Nat) (intEn : Bool) (s : State) : Res :=
  s.runCmd c 0x0314 true (onArray fun _ => [(4, page)]) fun s _ =>
    let u := s.upage page
    if page > 255 ∨ !ringOk sqSize ∨ !ringOk cqSize then .no rsnRange s
    else if u.owner ≠ 1 then .no rsnNotFound s
    else .done 0 [] (s.setPage page { u with
      assigned := true, sqBase := sqBase, sqSize := sqSize, cqBase := cqBase, cqSize := cqSize, sqTail := 0, sqHead := 0
      cqHead := 0, cqTail := 0, phase := true, intEn := intEn, heldCpl := [] })

/-! ### Replication and windows -/

/-- A window R286 allows in the landing area. -/
def State.windowOk (s : State) (base len rights : Nat) : Bool :=
  decide (base % 4096 = 0 ∧ len % 4096 = 0 ∧ 4096 ≤ len ∧ len ≤ 2 ^ 32 ∧ base + len ≤ s.rdm.landingSize ∧ rights < 16)

/-- A replication queue pair by its QPN (R280, R281). -/
def State.replQp (s : State) (qpn : Nat) : Option Nat :=
  match s.qp? (qpnIdx qpn) with
  | some q => if q.gen = qpnGen qpn ∧ q.kind ≠ .nvme then some (qpnIdx qpn) else none
  | none => none

/-- The roots of a REPL_ATTACH request (Table 16.9). -/
def replRoots (r : List Byte) : List Nat := (List.range (leAt r 11 1)).map fun i => leAt r (32 + 4 * i) 4

/-- The lowest free attachment ID of a domain: even for Domain A, odd for Domain B, so that the two heads give no ID twice (DESIGN CHOICE,
assumption 130). -/
def State.freeAtt (s : State) (d : SD) : Nat :=
  (((List.range (s.rdm.atts.length + 1)).map fun n => 2 * n + d.num).find? fun i => (Table.find s.rdm.atts i).isNone).getD d.num

/-- REPL_ATTACH (R286, R297, Table 16.9): `qpn` is the queue pair that the exchange with the other array has given, none
where it gave none; `base` and `len` are what a target sets aside for its window. -/
def execReplAttach (c : Nat) (qpn : Option Nat) (base len : Nat) (s : State) : Res :=
  s.runCmd c 0x0401 true (fun _ r =>
      if leAt r 8 1 > 1 then .error rsnRange
      else .ok ⟨some (SD.ofBit (leAt r 8 1)), [(7, leAt r 8 1), (3, leAt r 12 2)] ++ (replRoots r).map fun x => (1, x)⟩) fun s r =>
    let d := SD.ofBit (leAt r 8 1)
    let roots := replRoots r
    let slot := leAt r 12 2
    let source := decide (slice r 16 8 ≠ fit s.ubl.array 8)
    if leAt r 9 1 > 1 ∨ leAt r 10 1 > 1 ∨ roots.isEmpty ∨ roots.length > 64 ∨ leAt r 28 4 ≠ 0 then .no rsnRange s
    else if roots.any fun x => (Table.find (s.metaOf d).roots x).isNone then .no rsnNotFound s
    else if roots.any (s.attached d) then .no rsnInUse s
    else if !source && roots.any (fun x => match s.rootNs d x with
        | some (_, n) => !n.attached.isEmpty
        | none => true) then .no (if roots.all fun x => (s.rootNs d x).isSome then rsnInUse else rsnNotFound) s
    else if slot > 4095 ∨ (s.upage (slot / 16)).owner ≠ 3 then .no rsnUsage s
    else if (s.kslot slot).state = 0 ∨ (s.kslot slot).state = 3 then .no rsnSlotEmpty s
    else if (s.kslot slot).usage ≠ 1 then .no rsnUsage s
    else
      match qpn.bind s.replQp with
      | none => .no rsnNotFound s
      | some i =>
        let id := s.freeAtt d
        let a : Attach :=
          { source := source, sd := d, roots := roots, sync := decide (leAt r 9 1 = 1), degrade := decide (leAt r 10 1 = 1)
            slot := slot, array := slice r 16 8, qp := i, set := 1, cuts := [], age := 0, mark := (s.fe.stamp.get d).toNat
            interval := if leAt r 14 2 = 0 then 15625 else leAt r 14 2 * 1000
            backlog := if leAt r 24 2 = 0 then 32 else leAt r 24 2
            syncTo := if leAt r 26 2 = 0 then 2000 else leAt r 26 2
            shipped := (s.fe.stamp.get d).toNat, durable := (s.fe.stamp.get d).toNat, acked := (0, 0), snaps := []
            resync := false, msn := 0, applied := [], gather := [], word := 0, win := if source then (0, 0) else (base, len), detached := false }
        let s1 := ((s.updRdm fun x => { x with atts := Table.put x.atts id a }).delta d (.attach id (some a))).updQp i fun q =>
          { q with att := some id }
        if source then .done 0 (leBytes 4 id) s1
        else if !s.windowOk base len 15 then .no rsnNoSpace s
        else
          match s1.openWindow i base len 15 with
          | none => .no rsnNoSpace s
          | some (_, s2) => .done 0 (leBytes 4 id) s2

/-- A command that names an attachment by an operand. -/
def ofAtt (id : Nat) (holds : Bool) : State → List Byte → Except Nat Names := fun s _ =>
  match Table.find s.rdm.atts id with
  | some a => .ok ⟨some a.sd, if holds then [(6, id)] else []⟩
  | none => .error rsnNotFound

/-- REPL_DETACH (R286, R301): the attachment, its queue pair and its windows end. -/
def execReplDetach (c id : Nat) (s : State) : Res :=
  s.runCmd c 0x0402 true (ofAtt id true) fun s _ =>
    match Table.find s.rdm.atts id with
    | none => .no rsnNotFound s
    | some a =>
      let ws := (s.rdm.windows.filter fun (_, w) => w.isOpen ∧ w.qp = a.qp).map Prod.fst
      let s1 := (ws.foldl State.closeWindow s).qpError a.qp none
      .done 0 [] ((s1.updRdm fun r => { r with atts := Table.del r.atts id, qps := Table.del r.qps a.qp }).delta a.sd (.attach id none))

/-- REPL_STATUS (R300, R302, R377): mode, last acknowledged cut, set number, backlog bytes. -/
def execReplStatus (c id : Nat) (s : State) : Res :=
  s.runCmd c 0x0403 false (ofAtt id false) fun s _ =>
    match Table.find s.rdm.atts id with
    | none => .no rsnNotFound s
    | some a => .done 0 (leBytes 8 (b2n a.sync) ++ leBytes 8 a.acked.2 ++ leBytes 8 a.set ++ leBytes 8 (s.replHeld a)) s

/-- WINDOW_OPEN (R286): the rkey. -/
def execWindowOpen (c qpn base len rights : Nat) (s : State) : Res :=
  s.runCmd c 0x0410 true (onArray fun _ => []) fun s _ =>
    match s.replQp qpn with
    | none => .no rsnNotFound s
    | some i =>
      if !s.windowOk base len rights then .no rsnRange s
      else
        match s.openWindow i base len rights with
        | none => .no rsnNoSpace s
        | some (k, s1) => .done 0 (leBytes 4 k) s1

/-- WINDOW_REVOKE (R288): a window that is not open any more completes at once. -/
def execWindowRevoke (c rkey : Nat) (s : State) : Res :=
  s.runCmd c 0x0411 true (onArray fun _ => [(5, bitsOf rkey 23 8)]) fun s _ =>
    if rkey ≥ 2 ^ 24 ∨ (Table.find s.rdm.windows (bitsOf rkey 23 8)).isNone then .no rsnNotFound s
    else
      match s.window? rkey with
      | some (w, _) => .done 0 [] ((s.closeWindow w).raise .rdm 2)
      | none => .done 0 [] s

/-! ### Modules and media -/

/-- HEALTH_LIST (R184): the raised events of a port, or of all: port and code. -/
def execHealthList (c port : Nat) (s : State) : Res :=
  s.runCmd c 0x0501 false (onArray fun _ => []) fun s _ =>
    if port ≥ 48 ∧ port ≠ 0xFF then .no rsnRange s
    else .done 0 ((s.med.health.filter fun (p, _) => port = 0xFF ∨ p = port).flatMap fun (p, e) => leBytes 2 p ++ leBytes 2 e) s

/-- MODULE_LIST (R377): MLK_PORT_STATE, serial and firmware version of each port that is not empty. -/
def execModuleList (c : Nat) (s : State) : Res :=
  s.runCmd c 0x0502 false (onArray fun _ => []) fun s _ =>
    .done 0 (((List.range 48).filter fun p => (s.port p).state ≠ 0).flatMap fun p =>
      leBytes 4 (s.portReg p).toNat ++
      (match s.mod? p with
        | some m => fit m.serial 16 ++ fit m.fw 16
        | none => zeros 32)) s

/-- MODULE_REMOVE (R199): the module becomes absent. -/
def execModuleRemove (c port : Nat) (s : State) : Res :=
  s.runCmd c 0x0503 true (onArray fun _ => [(8, port)]) fun s _ =>
    if port ≥ 48 then .no rsnRange s
    else if (s.port port).state ≠ 2 then .no rsnNotFound s
    else .done 0 [] (s.makeAbsent port)

/-- MODULE_ADMIT (R226): the refusal CAUSE, or 0, once the admission has ended. -/
def execModuleAdmit (c port : Nat) (s : State) : Res :=
  s.runCmd c 0x0504 true (onArray fun _ => [(8, port)]) fun s _ =>
    let p := s.port port
    if port ≥ 48 then .no rsnRange s
    else if p.state = 2 ∨ p.state = 3 then .no rsnExists s
    else
      let s1 := if p.state = 1 then s else s.updPort port Port.admitting
      .later (s1.waitFor c (.port port) none [(8, port)])

/-- LOSS_LIST (R207, R377): entries from a cursor, a LOC, on; entries written and the next cursor. -/
def execLossList (c : Nat) (d : SD) (cursor addr len : Nat) (dmaOk : Bool) (s : State) : Res :=
  s.runCmd c 0x0505 false (ofSd d false) fun s _ =>
    let l := (s.metaOf d).loss.filter fun (n, _) => n ≥ cursor
    let now := l.take (len / 16)
    let next := ((l.drop (len / 16)).head?.map Prod.fst).getD (2 ^ 48 - 1)
    if !dmaOk then .no 0x0208 s
    else .done 0 (leBytes 4 now.length ++ leBytes 8 next) (if now.isEmpty then s else s.dma addr (now.flatMap fun (n, e) => lossBytes n e))

/-- RECOAT_START (R186, R210): the shape in force from the next boundary; its generation. -/
def execRecoatStart (c : Nat) (d : SD) (pq : Bool) (k : Nat) (s : State) : Res :=
  s.runCmd c 0x0506 true (ofSd d true) fun s _ =>
    if !s.shapeOk k then .no rsnRange s
    else if s.recoating d then .no rsnBusy s
    else
      let g := ((s.metaOf d).shape.gen + 1) % 256
      .done 0 (leBytes 1 g) ((s.delta d (.shapeNext ⟨pq, k, g⟩)).delta d (.cursor 3 ⟨1, 0, 0⟩))

end Sys2Proof.Machine
end

