-- ==== Sys2Proof/Machine/Trust.lean ====
section
/-!
DEFINITION. The rows of the digest engine, the measurement registers, the boot record, quotes, certificates and alarms
(R383 to R400).
-/

namespace Sys2Proof.Machine

/-! ### Digest engine operations (Table 17.1) -/

/-- START (R383): clears the context; KEYED injects key `n` and marks the context. -/
def execStart (ctx : Nat) (keyed : Option Nat) (s : State) : Res :=
  if ctx ≥ 4 then .next (s.digDone rsnRange [])
  else
    let s1 := s.updCtx ctx fun _ => match keyed with
      | some n => (DCtx.clear true).feed (storeKey n)
      | none => DCtx.clear false
    .next (s1.digDone 0 [])

/-- ABSORB (R383): one whole 136 B block. -/
def execAbsorb (ctx : Nat) (block : List Byte) (s : State) : Res :=
  if ctx ≥ 4 then .next (s.digDone rsnRange [])
  else
    let s1 := s.updCtx ctx fun c => { c with st := keccakAbsorb c.st (fit block 136), count := c.count + 136, finished := false }
    .next (s1.digDone 0 [])

/-- TAP (R383): binds the context to a snoop source with a declared length. -/
def execTap (ctx source len : Nat) (s : State) : Res :=
  if ctx ≥ 4 ∨ source ≥ 2 then .next (s.digDone rsnRange [])
  else .next ((s.updCtx ctx fun c => { c with tap := some ⟨source, len, 0⟩, finished := false }).digDone 0 [])

/-- UNTAP (R383, R385): `bytes` is what passed on the source since TAP. The first LEN bytes are absorbed; the bytes seen are
reported. -/
def execUntap (ctx : Nat) (bytes : List Byte) (s : State) : Res :=
  match (s.ctx ctx).tap with
  | none => .next (s.digDone rsnBadSeq [])
  | some t =>
    let s1 := s.updCtx ctx fun c => { (c.feed (bytes.take t.len)) with tap := none }
    let reason := if bytes.length < t.len then 0x0205 else if bytes.length > t.len then 0x0206 else 0
    .next (s1.digDone reason (leBytes 8 bytes.length))

/-- FINAL (R383 to R385): the bytes that complete the tail block. -/
def execFinal (ctx : Nat) (pad : List Byte) (s : State) : Res :=
  if ctx ≥ 4 then .next (s.digDone rsnRange [])
  else
    let need := 136 - (s.ctx ctx).tail.length
    if pad.length < need then .next (s.digDone 0x0205 [])
    else
      let s1 := s.updCtx ctx fun c => { (c.feed (pad.take need)) with finished := true }
      .next (s1.digDone (if pad.length > need then 0x0206 else 0) [])

/-- SQUEEZE (R383, R385): at most 136 bytes of a finished context; each call takes a fresh output block. -/
def execSqueeze (ctx n : Nat) (s : State) : Res :=
  if ctx ≥ 4 ∨ n > 136 then .next (s.digDone rsnRange [])
  else if !(s.ctx ctx).finished then .next (s.digDone rsnBadSeq [])
  else
    let out := (keccakBytes (s.ctx ctx).st).take n
    .next ((s.updCtx ctx fun c => { c with st := keccakF c.st }).digDone 0 out)

/-- EXTEND (R383, R384, R386): the security core's own operation on a register with a 72-byte input; the event type, subject
and UNMATCHED go to the log. -/
def execExtend (i : Nat) (input : List Byte) (event subject : Nat) (unmatched : Bool) (s : State) : Res :=
  if s.dig.alarmed then .next (s.refuseExtend rsnAlarm)
  else if i ≥ 24 then .next (s.digDone rsnRange [])
  else if input.length < 72 then .next (s.digDone 0x0205 [])
  else if input.length > 72 then .next (s.digDone 0x0206 [])
  else .next (s.extendReg i input event subject unmatched)

/-- EXTEND_REQUEST (R387, R391, R395, R400): Terzan names the register, the event type and D. -/
def execExtendRequest (reg event subject : Nat) (unmatched : Bool) (d : List Byte) (s : State) : Res :=
  .next (s.extendFor reg event subject unmatched d)

/-! ### Export of a context (R393, R394) -/

/-- State, count, tail length and tail of a context: 344 B. -/
def DCtx.raw (c : DCtx) : List Byte :=
  keccakBytes c.st ++ leBytes 8 c.count ++ leBytes 1 c.tail.length ++ fit c.tail 135

/-- A context read back from its 344 bytes. -/
def DCtx.ofRaw (keyed : Bool) (b : List Byte) : DCtx :=
  ⟨keyed, words64 25 b, leAt b 200 8, slice b 209 (leAt b 208 1 % 136), none, false⟩

/-- The wrapped blob of a context under a wrap key and an export number (Table 17.3). -/
def wrapCtx (wk : List Byte) (exp : Nat) (ctx : Nat) (c : DCtx) : List Byte :=
  let e := leBytes 8 exp
  let head := e ++ leBytes 1 (b2n c.keyed) ++ leBytes 1 ctx ++ zeros 6
  let body := xorBytes c.raw (kmac256 wk e 344 (ascii "VXWE"))
  head ++ body ++ kmac256 wk (head ++ body) 32 (ascii "VXWT")

/-- SAVE (R383, R393, R394): raw for an unkeyed context, else only wrapped, with a number of its own. -/
def execSave (ctx : Nat) (wrapped : Bool) (s : State) : Res :=
  if ctx ≥ 4 then .next (s.digDone rsnRange [])
  else if !wrapped then
    .next (if (s.ctx ctx).keyed then s.digDone rsnWrapOnly [] else s.digDone 0 (s.ctx ctx).raw)
  else if s.dig.exports.length ≥ 16 then .next (s.digDone rsnNoSpace [])
  else
    let (v, s1) := s.draw
    let exp := leAt v 0 8
    .next ((s1.updDig fun g => { g with exports := g.exports ++ [exp] }).digDone 0 (wrapCtx s.dig.wrapKey exp ctx (s.ctx ctx)))

/-- RESTORE (R383, R394, R395): a wrapped blob whose TAG verifies and whose number is outstanding, once; or a raw state into an
unkeyed context. Any other blob clears the context. -/
def execRestore (ctx : Nat) (blob : List Byte) (s : State) : Res :=
  let exp := leAt blob 0 8
  let wk := s.dig.wrapKey
  let good : Bool := decide (blob.length = 392 ∧ kmac256 wk (blob.take 360) 32 (ascii "VXWT") = blob.drop 360 ∧ exp ∈ s.dig.exports)
  if ctx ≥ 4 then .next (s.digDone rsnRange [])
  else if good then
    let raw := xorBytes (slice blob 16 344) (kmac256 wk (leBytes 8 exp) 344 (ascii "VXWE"))
    let s1 := s.updCtx ctx fun _ => DCtx.ofRaw (bitOf (leAt blob 8 1) 0) raw
    .next ((s1.updDig fun g => { g with exports := g.exports.erase exp }).digDone 0 [])
  else if blob.length = 344 then .next ((s.updCtx ctx fun _ => DCtx.ofRaw false blob).digDone 0 [])
  else .next ((s.updCtx ctx fun c => DCtx.clear c.keyed).digDone 0x0207 [])

/-! ### Records (R396, R398 to R400) -/

/-- The chip serial, ASCII, 16 B: not stated, so free. -/
def chipSerial : List Byte := (List.range 16).map (Config.hostByte 0x1000)

/-- The primer ROM's version: free. -/
def romVersion : List Byte := (List.range 2).map (Config.hostByte 0x1001)

/-- The trust services' version: VERSION of the active image, free where the directory lists none. -/
def State.trustVersion (s : State) : List Byte :=
  let a := (Table.getD s.upd.dir 1 CompDir.empty).active
  if a.length < 1536 then (List.range 4).map (Config.hostByte 0x1002) else slice a 8 4

/-- A record but for its signature (Table 17.5). -/
def State.recordBody (s : State) (quote : Bool) (nonce : List Byte) : List Byte :=
  let n := s.dig.log.length
  leBytes 4 0x52425856 ++ leBytes 1 (1 + b2n quote) ++ leBytes 1 1 ++ leBytes 2 n ++ leBytes 4 (3104 + 80 * n) ++
  leBytes 1 s.top.head ++ leBytes 1 (b2n s.pwr.rtcSet + 2 * b2n s.dig.logFull) ++ zeros 2 ++
  leBytes 8 s.dig.bootCount.toNat ++ leBytes 8 s.pwr.rtc.toNat ++ leBytes 8 (if quote then s.top.epoch.toNat else 0) ++
  leBytes 4 (if quote then s.dig.qseq else 0) ++ leBytes 1 nonce.length ++ zeros 19 ++ fit nonce 64 ++
  leBytes 4 s.ubl.version ++ leBytes 2 7 ++ leBytes 1 0xB1 ++ leBytes 1 s.ubl.level ++ leBytes 2 1 ++ romVersion ++
  s.trustVersion ++ chipSerial ++ zeros 32 ++ s.dig.m.flatMap (fun m => fit m 64) ++
  s.dig.counts.flatMap (fun n => leBytes 4 n.toNat) ++ s.dig.log.flatMap LogEnt.bytes

/-- The identity key signs: Falcon's padded format, 1,280 B (R396). -/
def State.signBody (s : State) (body : List Byte) : List Byte × State :=
  (body ++ fit (Config.falconSign 0 s.dig.signs body) 1280, s.updDig fun g => { g with signs := g.signs + 1 })

/-- The trust services sign the boot record (R398). After an alarm no signature is released (R391). -/
def State.signRecord (s : State) : State :=
  if s.dig.recordSigned ∨ s.dig.alarmed then s
  else
    let (r, s1) := s.signBody (s.recordBody false [])
    (s1.updDig fun g => { g with record := r, recordSigned := true }).raise .dig 1

/-- BOOT_RECORD_SIGN (R396, R398): Terzan reports that M5 has been extended and that every module present at the start has been
admitted or refused. -/
def execBootRecordSign (s : State) : Res :=
  let open' : Bool := s.mlk.ports.any fun (_, p) => decide (p.state = 1)
  .next (if s.upd.core0 ∧ s.dig.m5 ∧ s.top.phase ≥ 4 ∧ !open' then s.signRecord else s)

/-- BOOT_RECORD_TIMEOUT (R398): 60 s after core 0's release without a report. -/
def execBootRecordTimeout (s : State) : Res := .next (if s.upd.core0 then s.signRecord else s)

/-- ATTEST_QUOTE (R391, R396, R399): the request of channel `c` with a nonce and a head buffer; `dmaOk` false is a failed
access to it. -/
def execAttestQuote (c : Nat) (nonce : List Byte) (addr len : Nat) (dmaOk : Bool) (s : State) : Res :=
  s.runCmd c 0x0801 false (onArray fun _ => []) fun s _ =>
    if s.dig.alarmed then .no rsnAlarm s
    else if nonce.length > 64 then .no rsnRange s
    else if len < 3104 + 80 * s.dig.log.length then .no rsnNoSpace s
    else if !dmaOk then .no 0x0208 s
    else
      let s1 := (s.askTrust (fit nonce 64)).updDig fun g => { g with qseq := g.qseq + 1 }
      let (r, s2) := s1.signBody (s1.recordBody true nonce)
      .done 0 (leBytes 4 r.length) ((s2.replyTrust r).dma addr r)

/-- ATTEST_RECORD_GET (R391, R398). -/
def execAttestRecordGet (c addr len : Nat) (dmaOk : Bool) (s : State) : Res :=
  s.runCmd c 0x0802 false (onArray fun _ => []) fun s _ =>
    if s.dig.alarmed then .no rsnAlarm s
    else if !s.dig.recordSigned then .no rsnBusy s
    else if len < s.dig.record.length then .no rsnNoSpace s
    else if !dmaOk then .no 0x0208 s
    else .done 0 (leBytes 4 s.dig.record.length) (s.dma addr s.dig.record)

/-- A certificate (Table 17.4): public keys 0 device, 1 device CA, 2 root; the issuer's key is the next one. -/
def certBytes (k : Nat) : List Byte :=
  let issued := (List.range 8).map fun i => Config.hostByte 0x1004 (8 * k + i)
  let body := leBytes 4 0x54435856 ++ leBytes 1 (k + 1) ++ leBytes 1 1 ++ zeros 2 ++ issued ++
    (if k = 0 then chipSerial ++ fit (ascii "VX920-B1-F40") 16 else zeros 32) ++
    shake256 (fit (Config.publicKey (k + 1)) 1793) 32 ++ zeros 48 ++ fit (Config.publicKey k) 1793 ++ zeros 7
  body ++ fit (Config.falconSign (k + 1) 0 body) 1280

/-- CERT_GET (R397): the device certificate, then the CA certificate. -/
def execCertGet (c addr len : Nat) (dmaOk : Bool) (s : State) : Res :=
  s.runCmd c 0x0803 false (onArray fun _ => []) fun s _ =>
    if len < 6416 then .no rsnNoSpace s
    else if !dmaOk then .no 0x0208 s
    else .done 0 (leBytes 4 6416) (s.dma addr (certBytes 0 ++ certBytes 1))

/-! ### Alarms (R31, R391) -/

/-- DIG_ALARM_STATE bits [7:0]. -/
def State.alarmByte (s : State) : Nat :=
  128 * b2n s.dig.alarmed + 64 * b2n s.dig.recordSigned + 32 * b2n s.dig.busError + s.dig.inputs

/-- SEC_ALARM (R31, R391): alarm inputs asserted, or a bus error on the security core's private bus. -/
def execSecAlarm (inputs : Nat) (busError : Bool) (s : State) : Res :=
  if inputs % 16 = 0 ∧ !busError then .next s
  else
    let s1 := s.updDig fun g => { g with
      ctxs := List.replicate 4 (DCtx.clear false), m := List.replicate 24 (zeros 64), counts := List.replicate 24 0
      wrapKey := zeros 32, exports := [], alarmed := true, busError := g.busError || busError, inputs := g.inputs ||| (inputs % 16) }
    .next ((s1.raise .dig 0).snag 0x11 0x1006 none 0xFF (leBytes 1 s1.alarmByte))

end Sys2Proof.Machine
end

