-- ==== Sys2Proof/Machine/Update.lean ====
section
/-!
DEFINITION. The rows of firmware update (R402 to R412) and the primer ROM (R389, R392, R407).
-/

namespace Sys2Proof.Machine

/-! ### UPDATE_PUSH (R405, R406) -/

/-- Head 0's part up to the sending of the image: the request's checks, the header's, and the staging slot taken. -/
def State.pushStart (s : State) (c : Nat) (r image : List Byte) (dmaOk : Bool) : Ans :=
  let img := fit image (leAt r 24 4)
  let no (rsn : Nat) : Ans := .done rsn (pushData 0 0 0) s
  if s.top.head ≠ 0 then .done rsnUnsupported (pushData 0 1 0) s
  else if !s.paired ∨ s.top.phase < 6 then .done 0x0601 (pushData 0 0xFF 0) s
  else if s.upd.act.isSome ∨ (s.comp (leAt r 8 1)).state = 4 then .done rsnBusy (pushData 0 0xFF 0) s
  else if leAt r 16 8 % 16 ≠ 0 ∨ !allZero (slice r 9 7) ∨ leAt r 28 4 ≠ 0 then no rsnRange
  else if !dmaOk then no 0x0208
  else match s.checkHeader img with
  | some rsn => no rsn
  | none =>
    if imgComp img ≠ leAt r 8 1 then no rsnHeader
    else if img.length < hdrLen + imgLength img then no 0x0205
    else if img.length > hdrLen + imgLength img then no 0x0206
    else
      let s1 := s.updUpd fun u => { u with push := some ⟨imgComp img, c, imgVersion img, img⟩ }
      let s2 := if imgComp img = 0x10 then s1 else s1.updComp (imgComp img) fun k => { k with staged := [] }
      .later (s2.send (.message 20 .a img))

/-- Head 1's answer to head 0: reason, modules staged. -/
def State.pushAnswer (s : State) (reason modules : Nat) : State :=
  (s.updUpd fun u => { u with push := none }).send (.message 21 .a (leBytes 2 reason ++ leBytes 1 modules))

/-- Head 1's part (R406 steps 3 to 5): its own header check, the payload, and for MODULE the downloads in port order; `bad`
lists the ports whose download fails. -/
def State.pushPeer (s : State) (bad : List Nat) : State :=
  match s.upd.push with
  | none => s
  | some p =>
    if s.top.head ≠ 1 then s
    else match s.checkHeader p.image with
    | some rsn => s.pushAnswer rsn 0
    | none =>
      match p.comp, imgPlain p.image with
      | 0x10, none => s.pushAnswer 0x0207 0
      | 0, none => s.pushAnswer 0x0207 0
      | 0x10, some pt =>
        let ports := (s.nandPorts (leAt p.image 132 4)).filter (· ∉ bad)
        let fw := slice p.image 136 16
        let dg := shake256 pt 64
        let s1 := ports.foldl (fun s q => (s.stagedModule q p.version fw dg).send
          (.message 22 .a (leBytes 1 q ++ leBytes 4 p.version ++ fw ++ dg))) s
        (s1.recordStaged p.image).pushAnswer 0 ports.length
      | _, _ => (s.recordStaged p.image).pushAnswer 0 0

/-- UPDATE_PUSH (R388, R403, R405, R406, R409): the command on channel `c` of head 0, whose DMA reads `image`; or, without a
channel, head 1's part on the image that has arrived. -/
def execUpdatePush (c : Option Nat) (image : List Byte) (dmaOk : Bool) (bad : List Nat) (s : State) : Res :=
  match c with
  | some c => s.runCmd c 0x0701 true (onArray fun _ => [(9, 0)]) fun s r => s.pushStart c r image dmaOk
  | none => .next (s.pushPeer bad)

/-! ### UPDATE_STATUS (R412) -/

/-- VERSION of an image as 4 bytes; zero where there is none. -/
def verBytes (b : List Byte) : List Byte := if b.length < hdrLen then zeros 4 else slice b 8 4

/-- The running version of a head component. -/
def State.running (s : State) (c : Nat) : List Byte :=
  if (s.comp c).active.length ≥ hdrLen then verBytes (s.comp c).active
  else if c = 2 then leBytes 4 s.ubl.version
  else if c = 1 then s.trustVersion
  else (List.range 4).map (Config.hostByte 0x1005)

/-- The entries of this head's components (Table 18.8). -/
def State.compEntries (s : State) : List Byte :=
  [1, 2, 3].flatMap fun c =>
    let k := s.comp c
    leBytes 1 c ++ leBytes 1 s.top.head ++ leBytes 1 k.state ++ zeros 1 ++ s.running c ++ verBytes k.staged ++ verBytes k.fallback

/-- The entry of a module. -/
def State.moduleEntry (s : State) (p : Nat) : List Byte :=
  let x := Table.find s.upd.mods p
  let st := (x.map (·.state)).getD 0
  leBytes 1 0x10 ++ leBytes 1 p ++ leBytes 1 st ++ zeros 1 ++ zeros 4 ++
  leBytes 4 (if st = 0 then 0 else (x.map (·.version)).getD 0) ++ zeros 4

/-- UPDATE_STATUS (R412): `peer` is what the peer's Terzan answers for its own three components. -/
def execUpdateStatus (c : Nat) (peer : List Byte) (s : State) : Res :=
  s.runCmd c 0x0702 false (onArray fun _ => []) fun s _ =>
    let mine := s.compEntries
    let its := fit peer 48
    .done 0 ((if s.top.head = 0 then mine ++ its else its ++ mine) ++ s.presentPorts.flatMap s.moduleEntry) s

/-! ### UPDATE_ACTIVATE (R409 to R411) -/

/-- The metadata of a domain as this head knows it. -/
def State.knownMeta (s : State) (d : SD) : Meta := if s.owns d then s.metaOf d else s.copiedMeta d

/-- Some stripe of either domain has a missing member. -/
def State.someMissing (s : State) : Bool :=
  [SD.a, SD.b].any fun d => (s.knownMeta d).stripes.any fun (_, t) => decide (t.st ≠ .freed) && !t.missing.isEmpty

/-- A module of the staged manifest has not been activated and confirmed. -/
def State.modulesLeft (s : State) : Bool :=
  s.upd.manifest.any fun e => decide (e.comp = 0x10) && (s.nandPorts e.nand).any fun p =>
    match Table.find s.upd.mods p with
    | some x => !(decide (x.state = 0 ∧ x.version = e.version))
    | none => true

/-- What refuses an activation with OP_IN_PROGRESS (R409). -/
def State.activateBusy (s : State) (comp : Nat) : Bool :=
  s.upd.act.isSome || s.upd.push.isSome || !s.ubl.takeover.isEmpty || s.ubl.handover.isSome ||
  [SD.a, SD.b].any (fun d => decide ((s.knownMeta d).recoat.x ≠ 0)) || s.someMissing ||
  (List.range 48).any (fun p => (s.port p).state = 3) || (decide (comp ≠ 0x10) && s.modulesLeft)

/-- Both heads make a module absent and its activation begins (R410). -/
def State.beginModule (s : State) (port : Nat) : State := (s.activateModule port).tell 23 .a (leBytes 1 port)

/-- The staged modules in manifest order, ports ascending in each entry. -/
def State.stagedPorts (s : State) : List Nat :=
  (s.upd.manifest.filter fun e => e.comp = 0x10).flatMap fun e => (s.nandPorts e.nand).filter fun p =>
    (Table.find s.upd.mods p).any fun x => decide (x.state = 1 ∧ x.version = e.version)

/-- The activation of a request begins. -/
def State.startActivate (s : State) (c comp target : Nat) : Ans :=
  if comp ∉ [1, 2, 3, 0x10] then .no rsnRange s
  else if s.activateBusy comp then .no rsnBusy s
  else if !s.paired ∨ s.top.phase < 6 then .no 0x0601 s
  else if comp = 0x10 then
    let ports := if target = 0xFF then s.stagedPorts else if target ∈ s.stagedPorts then [target] else []
    match ports with
    | [] => .no rsnNotFound s
    | p :: ps => .later ((s.updUpd fun u => { u with act := some ⟨comp, p, 1, ps, c⟩ }).beginModule p)
  else if target ≠ 1 - s.top.head then .no rsnRange s
  else
    let theirs := ([SD.a, SD.b].filter fun d => !s.owns d).map SD.num
    .later ((s.updUpd fun u => { u with act := some ⟨comp, target, 1, theirs, c⟩ }).actAsk)

/-- A module activation goes on (R410): the module is confirmed and the next one starts, or the command completes. -/
def State.moduleGoesOn (s : State) (a : Act) : State :=
  let st := ((Table.find s.upd.mods a.target).map (·.state)).getD 0
  let pst := (s.port a.target).state
  if st = 0 then
    if s.someMissing then s
    else match a.rest with
    | [] => s.actEnd 0
    | p :: ps => (s.updUpd fun u => { u with act := some { a with target := p, step := 1, rest := ps } }).beginModule p
  else if pst = 4 ∨ (st = 5 ∧ pst = 2) then s.actEnd rsnHealth
  else s

/-- UPDATE_ACTIVATE (R409 to R411): the command on channel `c`; or, without one, what Terzan does next: modules admitted
again return and are confirmed, the activation goes on, and a head under its restart notice resets once it is broken. -/
def execUpdateActivate (c : Option Nat) (temp : Int) (s : State) : Res :=
  match c with
  | some c => s.runCmd c 0x0703 true (onArray fun _ => [(9, 0)]) fun s r => if !allZero (slice r 10 6) then .no rsnRange s else s.startActivate c (leAt r 8 1) (leAt r 9 1)
  | none =>
    if s.ubl.holdsPeer ∧ s.ubl.breakIn then .next (s.sendState4.fullReset causeSoft)
    else
      let s1 := (s.upd.mods.map Prod.fst).foldl (fun s p => s.settleModule p temp) s
      match s1.upd.act with
      | some a => .next (if a.comp = 0x10 then s1.moduleGoesOn a else s1)
      | none => .next s1

/-- MODULE_CONFIRM_TIMEOUT (R410): 600 s after the reset slot 1 is committed and the module reset once more. -/
def execModuleConfirmTimeout (s : State) : Res :=
  match s.upd.act with
  | some a =>
    if a.comp = 0x10 ∧ a.step = 1 ∧ ((Table.find s.upd.mods a.target).map (·.state)) = some 4 then
      .next (((s.updUpd fun u => { u with act := some { a with step := 2, rest := [] } }).revertModule a.target).tell 24 .a (leBytes 1 a.target))
    else .next s
  | none => .next s

/-- RESTART_HELLO_TIMEOUT (R411): no HELLO accepted within 300 s; G is declared failed. -/
def execRestartHelloTimeout (s : State) : Res := .next (if s.actAt 2 then (s.actEnd rsnHealth).declare 0 else s)

/-- ACTIVATION_CONFIRM_TIMEOUT (R411): no confirmation of G within 600 s of its start: it is broken again. -/
def execActivationConfirmTimeout (s : State) : Res :=
  .next (if s.actAt 3 then
    let s1 := s.actEnd rsnHealth
    if s1.ubl.breakIn then s1 else s1.holdPeer
  else s)

/-! ### Trials (R408) -/

/-- A component in TRIAL is confirmed: IDLE, staging erased, floor raised. -/
def State.confirm (s : State) (c : Nat) : State :=
  if (s.comp c).state = 4 then
    s.updComp c fun k => { k with state := 0, staged := [], floor := max k.floor (leAt k.active 12 4) }
  else s

/-- HEALTH_CONFIRM (R408): `filled` says that fill has ended with a matching digest. Once nothing is left in TRIAL the peer
hears of it (R411 step 5). -/
def execHealthConfirm (filled : Bool) (s : State) : Res :=
  let admitted : Bool := decide (s.top.phase ≥ 4) && s.mlk.ports.all fun (_, p) => decide (p.state ≠ 1)
  let ok : Bool := (!s.ubl.up || filled) && !s.ubl.versionRefused && admitted && s.dig.recordSigned
  let s1 := if ok then (s.confirm 1).confirm 2 else s
  let s2 := if s1.upd.doorbell then s1.confirm 3 else s1
  let left : Bool := [1, 2, 3].any fun c => decide ((s2.comp c).state = 4)
  .next (if s.upd.core0 ∧ ok ∧ !left then s2.tell 11 .a [] else if s.upd.core0 then s2 else s)

/-- TRIAL_TIMEOUT (R408): a component still in TRIAL 600 s after core 0's release. -/
def execTrialTimeout (c : Nat) (s : State) : Res :=
  .next (if (s.comp c).state = 4 then
    (s.updComp c fun k => { k with state := 5 }).notify 0x10 0x0502 true none 0xFF (leBytes 1 c) else s)

/-! ### The primer ROM (R389, R392, R407) -/

/-- One action of Table 18.4 on a component. -/
def CompDir.act1 (k : CompDir) (c : Nat) : CompDir :=
  match k.state with
  | 1 =>
    let ok := (imgPlain k.staged).isSome && imgSigned k.staged && decide (imgVersion k.staged ≥ k.floor ∧ imgComp k.staged = c)
    if ok then { k with state := 2 } else { k with state := 0, staged := [] }
  | 2 => { k with state := 3, fallback := k.active }
  | 3 => { k with state := 4, active := k.staged.take hdrLen ++ (imgPlain k.staged).getD [] }
  | 4 => { k with state := 5 }
  | 5 => { k with state := 6 }
  | 6 => { k with state := 0, active := k.fallback }
  | _ => k

/-- Table 18.4 driven at a start, with at most `n` actions before power goes: IDLE ends it, and so does a TRIAL that this start
has made. Whether the actions sufficed, and whether a fallback was restored. -/
def CompDir.drive (c : Nat) : Nat → CompDir → Bool → CompDir × Bool × Bool
  | 0, k, r => (k, decide (k.state = 0), r)
  | n + 1, k, r =>
    if k.state = 0 then (k, true, r)
    else
      let k1 := k.act1 c
      if k.state = 3 then (k1, true, r) else k1.drive c n (r || decide (k.state = 6))

/-- A component is driven through Table 18.4 (R407). -/
def State.driveComp (s : State) (n c : Nat) : State × Bool :=
  let (k, ok, r) := (s.comp c).drive c n false
  let s1 := s.updComp c fun _ => k
  (if r then s1.updUpd fun u => { u with restored := u.restored ++ [c] } else s1, ok)

/-- The payload a component's active slot serves. -/
def State.activePayload (s : State) (c : Nat) : List Byte :=
  if (s.comp c).active.length ≥ hdrLen then imgPayload (s.comp c).active else Config.factoryImage c

/-- The active image's signature verifies; the image the part was made with is good, and the head region bears none that the
primer ROM checks here. -/
def State.activeSigned (s : State) (c : Nat) : Bool :=
  decide (c = 3 ∨ (s.comp c).active.length < hdrLen) || imgSigned (s.comp c).active

/-- The primer ROM taps and verifies a component: where the active image fails, the fallback is restored and tried. None where
neither runs. -/
def State.bringUp (s : State) (bad badFall : List Nat) (c : Nat) : Option State :=
  if c ∉ bad ∧ s.activeSigned c then some s
  else if (s.comp c).fallback.isEmpty then none
  else
    let s1 := (s.updComp c fun k => { k with state := 0, active := k.fallback }).updUpd fun u => { u with restored := u.restored ++ [c] }
    if c ∉ badFall ∧ s1.activeSigned c then some s1 else none

/-- The boot counter of a start (R392): `ok` says the stored value reads and its MAC verifies. -/
def DigState.advance (g : DigState) (ok : Bool) : DigState :=
  let valid := match g.stored with
    | some v => ok && decide (1024 * g.fuses ≤ v ∧ v ≤ 1024 * g.fuses + 1023)
    | none => false
  let v := g.stored.getD 0
  let set (g : DigState) (n : Nat) : DigState := { g with stored := some n, bootCount := BitVec.ofNat 64 n }
  if g.fuses ≥ 4096 then
    { g with bootCount := if g.stored.isSome ∧ ok then BitVec.ofNat 64 v
                          else BitVec.ofNat 64 (leNat ((List.range 8).map (Config.hostByte 0x1003))) }
  else if valid then
    if v + 1 < 1024 * (g.fuses + 1) then set g (v + 1) else set { g with fuses := g.fuses + 1 } (v + 1)
  else set { g with fuses := g.fuses + 1 } (1024 * (g.fuses + 2))

/-- A phase of the start fails (R441): recorded, flushed, and the fault tone sent. -/
def State.failStart (s : State) : State :=
  let s1 := s.updTop fun t => { t with failed := true }
  ((s1.snag 0x10 0x100D none 0xFF (leBytes 4 s1.top.phase)).askFlush 1).updUbl fun u => { u with tone := true }

/-- Terzan's version and ranges are those of the image that runs (R403, R404). -/
def State.runTerzan (s : State) : State :=
  let b := (s.comp 2).active
  if b.length < hdrLen then s
  else s.updUbl fun u => { u with version := imgVersion b, levelMin := leAt b 24 1, level := leAt b 25 1 }

/-- The extends of the primer ROM (Table 17.2). -/
def State.primerExtend (s : State) (i : Nat) (b : List Byte) : State :=
  s.extend i (extendInput (eventDigest b)) (i + 1) 0xFFFF false

/-- Steps 4 and 5 of R389 for an image set that runs: M2, M3, core 0, then the head region, M4, the lock and HCPU_BOOT_REL. -/
def State.primerRuns (s : State) (acts : Nat) (bad badFall : List Nat) (config : Nat) : State :=
  let p := s.activePayload 2
  let s1 := ((s.primerExtend 2 (p.take (p.length - config))).primerExtend 3 (p.drop (p.length - config))).runTerzan
  let s2 := s1.updUpd fun u => { u with core0 := true }
  let (s3, ok) := s2.driveComp acts 3
  if !ok then s3
  else match s3.bringUp bad badFall 3 with
  | none => s3.failStart
  | some s4 => (s4.primerExtend 4 (s4.activePayload 3)).updUpd fun u => { u with locked := true, bootRel := true }

/-- PRIMER_ROM (R30, R381, R389, R390, R392, R407): the run that follows a full-chip or power-on reset. `rom` is the identity
string with the fuse bank, `config` the bytes of Terzan's signed configuration at the end of its image, `bad` and `badFall`
the components whose active image and fallback fail their tap; `acts` is how many directory actions each component gets
before power goes. -/
def execPrimerRom (rom : List Byte) (config : Nat) (counterOk : Bool) (acts : Nat) (bad badFall : List Nat) (s : State) : Res :=
  if s.top.phase ≠ 0 ∨ s.upd.core0 ∨ s.top.failed ∨ s.pwr.pllHeld then .next s
  else
    let s0 := s.updDig fun g => { g with
      ctxs := List.replicate 4 (DCtx.clear false), m := List.replicate 24 (zeros 64), counts := List.replicate 24 0, log := [] }
    let s1 := (s0.primerExtend 0 rom).updDig fun g => g.advance counterOk
    let (s2, ok1) := s1.driveComp acts 1
    let (s3, ok2) := s2.driveComp acts 2
    if !ok1 ∨ !ok2 then .next s3
    else match s3.bringUp bad badFall 1 with
    | none => .next s3.failStart
    | some s4 =>
      let s5 := s4.primerExtend 1 (s4.activePayload 1)
      match s5.bringUp bad badFall 2 with
      | none => .next s5.failStart
      | some s6 => .next (s6.primerRuns acts bad badFall config)

end Sys2Proof.Machine
end

