-- ==== Sys2Proof/Machine/Power.lean ====
section
/-!
DEFINITION. The rows of PWR: entries to and exits from power states, wake events, the park, regulators, ageing monitors and
the root PLL (R25, R32, R413 to R427).
-/

namespace Sys2Proof.Machine

/-! ### Retained banks (Table 19.6, R423, R424) -/

/-- The power domain that holds a bank. -/
def bankDomain : Nat → Nat
  | 0 => 5
  | 1 => 112
  | 2 => 113
  | 3 => 114
  | 4 => 4
  | 5 => 141
  | _ => 2

/-- Banks whose domain a power state switches off, the snag log first. -/
def banksOff (t : Nat) : List Nat := [6, 0, 1, 2, 3, 4, 5].filter fun b => !domainOn t (bankDomain b)

/-- The banks an entry retains, with the CRC-64 of each kept in always-on registers (R423). -/
def State.saveBanks (s : State) (t : Nat) : State :=
  let keep := (banksOff t).filter fun b => bitOf s.pwr.retain.toNat b
  keep.foldl (fun s b => { s with draws := s.draws + 1 }.updPwr fun p => { p with bankCrc := Table.put p.bankCrc b (Config.bankCrc b s.draws) })
    (s.updPwr fun p => { p with bankCrc := [] })

/-- A bank's contents are gone; Terzan rebuilds what Table 19.6 says can be rebuilt, so that the walk cache, the on-chip hint
table and the snag log alone are found empty (R424). -/
def State.loseBank (s : State) (b : Nat) : State :=
  match b with
  | 1 => s.updMap fun m => { m with walk := [] }
  | 2 => s.updMap fun m => { m with hints := [] }
  | 6 => s.updEvr fun e => { e with log := [], inq := [] }
  | _ => s

/-- A retained bank fails its check at wake (R423). -/
def State.bankLost (s : State) (b : Nat) : State :=
  ((s.loseBank b).raise .pwr 4).notify 0x10 0x0601 true none 0xFF (leBytes 2 b)

/-! ### Entries (R416 to R418, Table 19.2) -/

/-- A rebuild runs in a domain. -/
def State.rebuilding (s : State) (d : SD) : Bool := (s.metaOf d).stripes.any fun (n, t) => s.rebuildable d n t

/-- Rows 1 to 9 of Table 19.2 that refuse an entry: refuser and row. -/
def State.entryRow (s : State) (t : Nat) : Option (Blk × Nat) :=
  let rows : List (Bool × Blk × Nat) :=
    [(s.fe.cmds.any (fun c => !c.posted) || !s.fe.waiting.isEmpty, .fe, 1),
     (!s.dp.packs.isEmpty || s.dp.grans.any (fun (_, g) => g.bytes.isNone && g.unmap.isNone), .dp, 2),
     (!s.str.rows.isEmpty || s.owned.any (fun d => s.recoating d || s.rebuilding d), .str, 3),
     (!s.med.victims.isEmpty || !s.med.folds.isEmpty, .med, 4),
     (!s.rdm.atts.isEmpty, .rdm, 5),
     (s.cip.streams.any (fun x => x.res.isNone), .cip, 6),
     (decide (t ≥ 2) && (!s.owned.isEmpty || s.ubl.handover.isSome), .ubl, 7),
     (decide (t ≥ 2) && !s.fe.hosts.isEmpty, .fe, 8),
     (decide (t ≥ 2) && s.map.en, .map, 9)]
  (rows.find? fun r => r.1).map fun r => (r.2.1, r.2.2)

/-- An entry to the target ends refused or aborted (R417): counted, with reason, refuser and row. -/
def State.refuseEntry (s : State) (rsn refuser row : Nat) : State :=
  let t := s.pwr.target
  let old := (Table.getD s.pwr.refused t ⟨0, 0, 0, 0⟩).count
  let n : Word := if old = BitVec.allOnes 32 then old else old + 1
  let s1 := s.updPwr fun p => { p with refused := Table.put p.refused t ⟨n, rsn, refuser, row⟩, avsTry := [], parked := false, bankCrc := [] }
  let s2 := if s.pwr.parkWait then (s1.updUbl fun u => { u with expectBreak := false }).sayState 1 else s1
  (s2.endRequest rsn 1).transitionEnded

/-- Step 1 of an entry (R71, R150, R416): Terzan closes open packs, and for P2 and P3 flushes and disables the map cache and
destroys the remaining queue pairs. -/
def State.prepareEntry (s : State) (t : Nat) : State :=
  let s1 := s.dp.packs.foldl State.closePack s
  if t < 2 then s1
  else
    let s2 := if (s1.blk.get .map).enabled then s1.cacheOff else s1
    s2.updRdm fun r => { r with qps := [], writeback := [] }

/-- The park begins (R422 step 1): a park request, heartbeat STATE 3, and a break expected. -/
def State.park (s : State) : State :=
  ((s.tell 10 .a []).sayState 3).updUbl (fun u => { u with expectBreak := true }) |>.updPwr fun p => { p with parkWait := true, parked := true }

/-- The switching of an entry whose conditions held (R32, R150, R413, R414, R416 steps 3 and 4): what loses power loses its contents. -/
def State.enter (s : State) (t : Nat) : State :=
  let s1 := s.saveBanks t
  let s2 := ((banksOff t).filter fun b => (Table.find s1.pwr.bankCrc b).isNone).foldl State.loseBank s1
  let s3 := if t ≥ 2 then
    ((s2.updMap fun m => { m with
      sets := [], hbmHints := [], en := false, wt := false, invalidated := false, busy := 0, lastOp := 0, refused := false, reason := 0 }).updDp fun p => { p with hot := [] }).sayState 3 else s2
  let s4 := s3.updPwr fun p => { p with
    current := t, avsTry := [], savedEpoch := if t = 3 then s.top.epoch else p.savedEpoch }
  (s4.endRequest 0 0).transitionEnded

/-- PSTATE_ENTRY (R32, R150, R334, R413, R414, R416 to R419, R423): the entry in flight goes on. Terzan's preparation and the
conditions come first; `prep` says that it finished within 100 ms. The event after that switches the domains, every regulator
having acknowledged. -/
def execPstateEntry (prep : Bool) (s : State) : Res :=
  let t := s.pwr.target
  if !s.pwr.inflight ∨ t = 0 ∨ s.pwr.current ≠ 0 ∨ s.pwr.pllHeld ∨ s.pwr.pfail ≠ 0 then .next s
  else if s.pwr.prepared then .next (s.enter t)
  else if t = 3 ∧ s.pwr.parkWait ∧ !s.ubl.breakIn then .next s
  else if !prep then .next (s.refuseEntry rsnRefused 0xF1 0)
  else if t = 3 ∧ !s.pwr.parkWait then .next (s.prepareEntry t).park
  else
    let s1 := s.prepareEntry t
    match s1.entryRow t with
    | some (b, row) => .next (s1.refuseEntry rsnRefused b.num row)
    | none => .next (s1.updPwr fun p => { p with prepared := true })

/-- PARK (R422): an entry to P3 asks the peer for the break; once it has asked, 10 ms without BREAK_N asserted refuse it. -/
def execPark (s : State) : Res :=
  if !s.pwr.inflight ∨ s.pwr.target ≠ 3 ∨ s.pwr.current ≠ 0 ∨ s.pwr.pllHeld ∨ s.pwr.prepared then .next s
  else if !s.pwr.parkWait then .next (s.prepareEntry 3).park
  else if s.ubl.breakIn then .next s
  else .next (s.refuseEntry rsnRefused Blk.ubl.num 10)

/-! ### Exits (R416, R418, R422 to R425) -/

/-- The power-up half of an exit (R414, R423, R424): banks that failed their check, and the epoch number written back. -/
def State.leave (s : State) (bad : List Nat) : State :=
  let lost := (s.pwr.bankCrc.map Prod.fst).filter (· ∈ bad)
  let lost' := if 6 ∈ lost then 6 :: lost.filter (· ≠ 6) else lost
  let s1 := s.updPwr fun p => { p with
    current := 0, retLost := lost.foldl (fun n b => n ||| 2 ^ b) 0, bankCrc := [], wakes := [], avsTry := [] }
  let s2 := if s.pwr.current = 3 then s1.updTop fun t => { t with epoch := s.pwr.savedEpoch } else s1
  lost'.foldl State.bankLost s2

/-- Terzan's part of an exit from P2 or P3 (R150, R422): the map cache is invalidated and enabled; a parked head says STATE 3 on
both paths, and a head that no break holds serves again. -/
def State.resume (s : State) (was : Nat) : State :=
  if was < 2 then s
  else
    let s1 := if (s.blk.get .map).enabled then s.cacheOn else s
    if was = 3 then ((s1.updPwr fun p => { p with parked := false }).sayState 3).beat
    else if s1.ubl.breakIn then s1
    else (s1.sayState (if s1.top.phase = 6 then 1 else 0)).updPwr fun p => { p with ethUp := decide (s1.top.phase = 6) }

/-- PSTATE_EXIT (R32, R150, R413, R414, R416, R418, R422 to R425, R438): the exit in flight runs. `bad` lists the banks whose CRC-64
differs at wake, `codeOk` says that Terzan's code matches its digest. -/
def execPstateExit (bad : List Nat) (codeOk : Bool) (s : State) : Res :=
  let was := s.pwr.current
  if !s.pwr.inflight ∨ was = 0 ∨ s.pwr.pllHeld then .next s
  else if was = 3 ∧ !codeOk then .next (s.fullReset causeTrust)
  else
    let s1 := (s.leave bad).resume was
    .next (if s1.pwr.target = 0 then (s1.endRequest 0 0).transitionEnded else s1)

/-! ### Wake events (R420, R421) -/

/-- The bit of the retained fault status for a comparator of R421, by its row of Table 19.5. -/
def faultBit : Nat → Nat
  | 5 => 1
  | 6 => 2
  | 7 => 4
  | 8 => 8
  | _ => 0

/-- WAKE (R420 to R422): source `src` of Table 19.5 fires, or 0 for one latched already; a latched wake starts an exit to P0 once
no entry is in flight, and replaces a pending request. -/
def execWake (src : Nat) (s : State) : Res :=
  let fires : Bool := decide (4 ≤ src ∧ src ≤ 8) && (decide (src ≠ 5) || decide (s.pwr.rtc ≥ s.pwr.wakeTime))
  let s1 := if !fires then s
    else
      let s0 := s.wakeEvent src
      if s.pwr.current = 3 then s0.updPwr fun p => { p with faultStatus := p.faultStatus ||| BitVec.ofNat 32 (faultBit src) } else s0
  if s1.pwr.wakes.isEmpty ∨ s1.pwr.pllHeld then .next s1
  else
    let s2 := s1.cancelPending
    .next (if s2.pwr.inflight ∨ s2.pwr.current = 0 then s2 else s2.startTransition 0)

/-! ### Regulators and ageing (R24, R419, R426, R427, R450) -/

/-- VMIN and VMAX of the AVS rails in mV (Table 22.5). -/
def vmin (r : Nat) : Nat := [650, 650, 700, 720].getD r 0
def vmax (r : Nat) : Nat := [850, 850, 900, 880].getD r 0

/-- The slack margin of a rail in ps (R426). -/
def margin (r : Nat) : Int := if r < 3 then 40 else 25

/-- REGULATOR_TIMEOUT (R417, R419): a voltage write of a rail is not acknowledged or does not settle: it is retried once; a
second failure is REGULATOR_NAK, and aborts an entry in flight. -/
def execRegulatorTimeout (r : Nat) (s : State) : Res :=
  if r ≥ 4 ∨ !s.powered .pwr then .next s
  else if r ∉ s.pwr.avsTry then .next (s.updPwr fun p => { p with avsTry := p.avsTry ++ [r] })
  else
    let s1 := ((s.updPwr fun p => { p with avsTry := p.avsTry.filter (· ≠ r) }).raise .pwr 5).snag 1 0x1008 none 0xFF (leBytes 1 r)
    .next (if s1.pwr.inflight ∧ s1.pwr.target ≠ 0 ∧ s1.pwr.prepared then s1.refuseEntry rsnRegulator 0xF0 0 else s1)

/-- The re-plan of a rail (R426): its target and the readings of S, the first before any step and one after each step. -/
def replanUp (r : Nat) : Nat → List Int → Nat × Int
  | v, [] => (v, 0)
  | v, [x] => (v, x)
  | v, x :: y :: l => if x < margin r ∧ v < vmax r then replanUp r (v + 5) (y :: l) else (v, x)

/-- The lowering of a re-plan: at most `n` steps of 5 mV. -/
def replanDown (r : Nat) : Nat → Nat → List Int → Nat × Int
  | _, v, [] => (v, 0)
  | _, v, [x] => (v, x)
  | 0, v, x :: _ => (v, x)
  | n + 1, v, x :: y :: l => if x ≥ margin r + 10 ∧ v > vmin r then replanDown r n (v - 5) (y :: l) else (v, x)

/-- What a re-plan makes of a rail's target. -/
def replan (r v : Nat) (l : List Int) : Nat × Int :=
  match l with
  | [] => (v, 0)
  | x :: _ => if x < margin r then replanUp r v l else if x > margin r + 30 then replanDown r 2 v l else (v, x)

/-- Two's complement of a slack in 2 bytes. -/
def slackBytes (x : Int) : List Byte := leBytes 2 (x % 65536).toNat

/-- One rail of a re-plan. -/
def State.replanRail (s : State) (reads : List (List Int)) (r : Nat) : State :=
  let l := reads.getD r []
  if l.isEmpty then s
  else
    let old := s.pwr.avs.getD r 0
    let (v, x) := replan r old l
    let s1 := (s.updPwr fun p => { p with avs := p.avs.set r v, avsTry := p.avsTry.filter (· ≠ r) }).snag 0x10 0x1007 none 0xFF
      (leBytes 1 r ++ leBytes 2 old ++ leBytes 2 v ++ slackBytes x)
    if v ≥ vmax r ∧ x < margin r then s1.raise .pwr 6 else s1

/-- 30 days in microseconds. -/
def days30 : Nat := 30 * 86400 * 1000000

/-- A re-plan is due: after every boot, after SLACK_LOW, and 30 days after the last one of RTC time, or of P0 time while
MED_STATUS.RTC_UNSET holds (R426, R427; DESIGN CHOICE, assumption 131). -/
def State.replanNow (s : State) : Bool :=
  s.pwr.replanDue || (if bitOf (s.blk.get .med).statusReg.toNat 7 then decide (s.pwr.p0Time ≥ s.pwr.replanP0) else decide (s.pwr.rtc ≥ s.pwr.replanAt))

/-- AGEING_REPLAN (R24, R419, R426): the monitors as read, and for each rail the readings of S: before any step, and after every
step. A rail without a reading is left. It runs in P0, when it is due. -/
def execAgeingReplan (delays : List Int) (rings : List Nat) (reads : List (List Int)) (s : State) : Res :=
  if s.pwr.current ≠ 0 ∨ s.pwr.inflight ∨ s.pwr.pllHeld ∨ !s.upd.core0 ∨ !s.replanNow then .next s
  else
    let s1 := s.updPwr fun p => { p with
      delays := (delays.take 64).zipIdx.map fun (x, i) => (i, x)
      rings := (rings.take 32).zipIdx.map fun (x, i) => (i, x)
      replanDue := false, replanAt := p.rtc + BitVec.ofNat 64 days30, replanP0 := p.p0Time + BitVec.ofNat 64 days30 }
    .next ((List.range 4).foldl (fun s r => s.replanRail reads r) s1)

/-- SLACK_LOW (R427, R450): path-delay monitor `n`, of rail `r`, reads a slack below 10 ps. -/
def execSlackLow (n r : Nat) (slack : Int) (s : State) : Res :=
  if n ≥ 64 ∨ r ≥ 4 ∨ slack ≥ 10 ∨ !domainOn s.pwr.current 3 ∨ s.pwr.pllHeld then .next s
  else
    let v := s.pwr.avs.getD r 0
    .next ((s.updPwr fun p => { p with
      delays := Table.put p.delays n slack, avs := p.avs.set r (min (v + 5) (max v (vmax r))), avsTry := p.avsTry.filter (· ≠ r), replanDue := true }).raise .pwr 7)

/-! ### The root PLL (R25, R319, R438) -/

/-- PLL_LOSS_OF_LOCK (R25, R32, R319, R374, R438, R440, R454): a full-chip reset, held; the cause stays in the retained fault status
and the fault tone goes out. DESIGN CHOICE: the bit of the fault status that records it is 0x10 (assumption 97). -/
def execPllLossOfLock (s : State) : Res :=
  if s.pwr.pllHeld ∨ s.pwr.current = 3 then .next s
  else
    let s1 := (s.fullReset causePll).updPwr fun p => { p with pllHeld := true, faultStatus := p.faultStatus ||| 16 }
    .next ((s1.updUbl fun u => { u with tone := true }).sendRaw .tone)

/-- PLL_RELOCK (R25): locked for 1 ms: the reset is released. -/
def execPllRelock (s : State) : Res :=
  .next (if s.pwr.pllHeld then (s.updPwr fun p => { p with pllHeld := false }).updUbl fun u => { u with tone := false } else s)

end Sys2Proof.Machine
end

