-- ==== Sys2Proof/Machine/Start.lean ====
section
/-!
DEFINITION. The rows of reset, start-up, power fail and the vault restart (R438 to R446, R452 to R459), and the fatal fault
of the control cluster (R319).
-/

namespace Sys2Proof.Machine

/-! ### Resets (R438 to R440) -/

/-- RESET_N (R32, R374, R394, R438, R440, R454): a full-chip reset, with HEAD_ID sampled (R456). It is ignored while a dump runs. -/
def execResetN (head : Nat) (s : State) : Res :=
  if s.pwr.pfail = 1 then .next s
  else
    let s1 := (s.fullReset causePin).updTop fun t => { t with head := head % 2 }
    .next (s1.updPwr fun p => { p with pllHeld := s.pwr.pllHeld })

/-- POWER_ON_RESET (R32, R165, R374, R438, R440): the always-on supply rises. -/
def execPowerOnReset (head : Nat) (s : State) : Res := .next (s.powerOn head)

/-- PERST_N (R438): the PCIe endpoint alone: the MSI-X table and pending bits, TOP_INT_EN, and the head CPU's copies of
ATOMIC_MODE and IND_ADDR. -/
def execPerstN (s : State) : Res :=
  let s1 := Blk.all.foldl (fun s b => s.updBlk b fun k => { k with style := k.style.set .head 0, indAddr := k.indAddr.set .head 0 }) s
  .next ({ s1 with msix := [], msixPending := [] }.updTop fun t => { t with intEn := 0 })

/-- THERMTRIP (R459): the output is latched until a power-on reset; nothing else happens. -/
def execThermtrip (s : State) : Res := .next (s.updPwr fun p => { p with thermtrip := true })

/-- FATAL_FAULT (R319, R438): the fault tone replaces the pair's frames; the fault class and the core and address bits go to the
snag log, which flushes. -/
def execFatalFault (cls core : Nat) (s : State) : Res :=
  if !s.upd.core0 ∨ s.pwr.pllHeld then .next s
  else
    let s1 := (s.updUbl fun u => { u with tone := true }).snag 0x10 0x100D none 0xFF (leBytes 4 cls ++ leBytes 6 core)
    .next (s1.sendRaw .tone)

/-! ### Power fail (R196, R197, R421, R445, R452, R454, R455) -/

/-- The delta logs of an own domain that no checkpoint covers, the one being written among them. -/
def State.uncovered (s : State) (d : SD) : List DLog := s.map.logs.get d ++ [s.map.log.get d]

/-- The dump as it is written (R196): the dust sheet with its journals, the mirror, and the delta logs. -/
def State.makeDump (s : State) : Dump where
  holders := (s.presentPorts.filter fun p => p % 2 = s.top.head % 2).map fun p => ((s.mod? p).map Module.serial).getD []
  ended := false
  sheet := s.ubl.sheet
  journal := s.str.journal
  jpos := s.str.jpos
  mirror := s.ubl.mirror
  hdrs := ⟨s.ubl.rx.a.hdrs, s.ubl.rx.b.hdrs⟩
  logs := ⟨if s.owns .a then s.uncovered .a else [], if s.owns .b then s.uncovered .b else []⟩
  peerLogs := s.ubl.shadowLogs
  progress := s.fe.progress
  peerSheet := s.ubl.peerSheet
  size := (s.sheetBase + s.ubl.sheet.size + s.ubl.peerSheet) * 4096 +
    ((if s.owns .a then s.uncovered .a else []) ++ (if s.owns .b then s.uncovered .b else []) ++ s.ubl.shadowLogs.a ++ s.ubl.shadowLogs.b).foldl
      (fun n l => n + l.bytes.length) 0
  lost := []

/-- A slot of the dust sheet as it lies in DDR5: data, an entry's header, or the records of a journal ring over it. -/
def Dump.slot (x : Dump) (ring i : Nat) : List Byte :=
  let b := match Table.find x.sheet.entries (i * 4096) with
    | some e => fit e.bytes 4096
    | none => fit (Table.getD x.sheet.slots i []) 4096
  let laid (d : SD) (b : List Byte) : List Byte := (x.journal.get d).foldl (fun b r =>
    let off := d.num * ring + r.pos
    if off / 4096 ≤ i ∧ i * 4096 < off + r.len then
      patch b (off - i * 4096) ((r.bytes.drop (i * 4096 - off)).take (4096 - (off - i * 4096))) else b) b
  laid .b (laid .a b)

/-- The bytes of a dump in the order of R196 (DESIGN CHOICE, assumption 114): the dust sheet with its journals, the mirror, and the
delta logs, the own ones first. -/
def Dump.bytes (x : Dump) (ring : Nat) : List Byte :=
  (List.range (2 * ring / 4096 + x.sheet.size)).flatMap (x.slot ring) ++ x.mirror.readN 0 (x.peerSheet * 4096) ++
  (x.logs.a ++ x.logs.b ++ x.peerLogs.a ++ x.peerLogs.b).flatMap DLog.bytes

/-- A chunk is 1 MiB (R197). -/
abbrev chunkLen : Nat := 1048576

/-- The number of groups of a dump on `n` modules. -/
def Dump.groups (x : Dump) : Nat := if x.holders.length = 0 then 0 else x.size / (chunkLen * vaultData x.holders.length) + 1

/-- The chunks of a group: the data chunks and, but on one module, the parity chunk, which is their XOR (R197). -/
def groupChunks (b : List Byte) (n i : Nat) : List (List Byte) :=
  let data := (List.range (vaultData n)).map fun c => fit (slice b ((i * vaultData n + c) * chunkLen) chunkLen) chunkLen
  if n ≤ 1 then data else data ++ [chunkParity data]

/-- The port whose module has a serial. -/
def State.portOf (s : State) (serial : List Byte) : Option Nat := s.presentPorts.find? fun p => ((s.mod? p).map Module.serial) = some serial

/-- The dump is written (R197): the chunks of every group, one to a module, round robin. -/
def State.writeDump (s : State) (x : Dump) : State :=
  let n := x.holders.length
  (List.range x.groups).foldl (fun s i =>
    (List.zip (vaultPorts (List.range n) i) (groupChunks (x.bytes s.str.ring) n i)).foldl (fun s (h, c) =>
      match s.portOf (x.holders.getD h []) with
      | some p => s.updMod p fun m => { m with vault := Table.put m.vault i c }
      | none => s) s) s

/-- An entry in flight is aborted and a pending request cancelled (R421). A controller in P3 wakes (R445). -/
def State.abortEntry (s : State) : State :=
  let s1 := s.cancelPending
  let s2 := if s1.pwr.inflight ∧ s1.pwr.target ≠ 0 then
    s1.updPwr fun p => { p with inflight := false, target := 0, prepared := false, parkWait := false } else s1
  if s2.pwr.current = 3 ∧ !s2.pwr.inflight then s2.startTransition 0 else s2

/-- The ports are idle (R445 step 5). -/
def State.idlePorts (s : State) : State := (s.updPwr fun p => { p with pfail := 2 }).portsDown

/-- PFAIL (R50, R66, R196, R197, R421, R433, R445, R452, R454, R455): PFAIL_N is recognised. Admission closes; the snag log
flushes; from phase 6 on, outside P2 and P3, the dump begins; else the ports go idle at once. -/
def execPfail (s : State) : Res :=
  if s.pwr.pfail ≠ 0 ∨ s.pwr.pllHeld then .next s
  else
    let s1 := (s.updPwr fun p => { p with pfail := 1, pfailReleased := false }).abortEntry.askFlush 0
    if s.top.phase = 6 ∧ s.pwr.current ≤ 1 then
      .next { s1 with vault := { s1.vault with dump := some s1.makeDump, dumping := true } }
    else .next s1.idlePorts

/-- DUMP_END (R196, R197, R445): the dump's last group and the DUMP_END records have been written; the ports go idle. Where PFAIL_N was
released meanwhile, a full-chip reset follows. -/
def execDumpEnd (s : State) : Res :=
  if !s.vault.dumping then .next s
  else
    let v : VaultState := { s.vault with dumping := false, dump := s.vault.dump.map (fun x => { x with ended := true }) }
    let s0 := match s.vault.dump with
      | some x => s.writeDump x
      | none => s
    let s1 := ({ s0 with vault := v } : State).idlePorts
    .next (if s1.pwr.pfailReleased then s1.fullReset causePfail else s1)

/-- PFAIL_RELEASE (R440, R445): the dump completes first; then a full-chip reset with cause PFAIL_DUMP. -/
def execPfailRelease (s : State) : Res :=
  .next (if s.pwr.pfail = 1 then s.updPwr fun p => { p with pfailReleased := true }
    else if s.pwr.pfail = 2 then s.fullReset causePfail else s)

/-! ### The dump read back (R197, R198) -/

/-- A chunk of a group does not read: its module is not present, or the chunk on it is lost. -/
def State.chunkGone (s : State) (x : Dump) (i place : Nat) : Bool :=
  let n := x.holders.length
  match ((vaultPorts (List.range n) i)[place]?).bind fun h => s.portOf (x.holders.getD h []) with
  | some p => decide (i * vaultGroup n + place ∈ x.lost) || ((s.mod? p).bind fun m => Table.find m.vault i).isNone
  | none => true

/-- The places of a group whose chunks do not read. -/
def State.groupGone (s : State) (x : Dump) (i : Nat) : List Nat := (List.range (vaultGroup x.holders.length)).filter (s.chunkGone x i)

/-- Parity gives every chunk of a group (R198). -/
def State.groupOk (s : State) (x : Dump) (i : Nat) : Bool :=
  decide ((s.groupGone x i).length ≤ (if x.holders.length ≤ 1 then 0 else 1))

/-- A dump is readable: it ended with DUMP_END and no group lacks more than parity repairs (R198). -/
def State.readable (s : State) (x : Dump) : Bool :=
  x.ended && decide (x.holders.length ≠ 0) && (List.range x.groups).all (s.groupOk x)

/-- Bytes of a dump can be restored: each chunk of them reads, or its group's parity gives it. -/
def State.bytesRead (s : State) (x : Dump) (off n : Nat) : Bool :=
  let k := vaultData x.holders.length
  (List.range ((off + n - 1) / chunkLen - off / chunkLen + 1)).all fun i =>
    let c := off / chunkLen + i
    decide (x.holders.length ≠ 0) && (s.groupOk x (c / k) || !s.chunkGone x (c / k) (c % k))

/-- The own dump, where it is readable. -/
def State.ownDump (s : State) : Option Dump := s.vault.dump.bind fun x => if s.readable x then some x else none

/-! ### Phases (R441 to R444) -/

/-- Enable a block and let its check end (R360). -/
def State.enableNow (s : State) (b : Blk) : State :=
  let s1 := s.writeEnable .cluster b true
  nextOr s1 (execConsistencyCheckDone b s1)

/-- The data slots a dust sheet of `n` slots may have in a region of at most 64 GiB, after the two stripe journals (Table 01.4). -/
def State.sheetCap (s : State) (n : Nat) : Nat := min n (2 ^ 24 - s.sheetBase)

/-- Phase 1 (R29, R30, R32, R150, R441): core 0 releases the other cores; the blocks in the order of Table 15.5, the map cache
invalidated and enabled, the DDR5 regions of Table 01.4. -/
def State.beginInit (s : State) (sheet peerSheet landing : Nat) : State :=
  let s1 := (s.updTop fun t => { t with phase := 1, running := true }).updUpd fun u => { u with cores := true }
  let s2 := [Blk.mbx, .evr, .scr, .map, .cip, .mlk, .rdm, .ubl, .med, .str, .dp, .fe].foldl State.enableNow s1
  let s3 := s2.cacheOn
  (s3.updUbl fun u => { u with
    sheet := { u.sheet with size := s3.sheetCap sheet }, peerSheet := s3.sheetCap peerSheet }).updRdm fun r => { r with landingSize := landing }

/-- Phase 2 (R379, R407, R435): the notification ring empty, PRIOR_FAULT, TERZAN_STARTED, the flush image, restored fallbacks. -/
def State.beginMailbox (s : State) : State :=
  let s1 := (s.updTop fun t => { t with phase := 2 }).updMbx fun m => { m with ntf := [], prod := 0, cons := 0 }
  let s2 := if s1.pwr.faultStatus ≠ 0 then s1.snag 0x12 0x100B none 0xFF (leBytes 4 s1.pwr.faultStatus.toNat) else s1
  let s3 := (s2.notify 0x10 0x0001 true none 0xFF (leBytes 4 s2.ubl.version)).presentFlush
  let s4 := s3.upd.restored.foldl (fun s c => s.notify 0x10 0x0502 true none 0xFF (leBytes 1 c)) s3
  s4.updUpd fun u => { u with restored := [] }

/-- Phase 3 (R226, R441): every module that is there is admitted. -/
def State.beginModules (s : State) : State :=
  (s.mlk.mods.map Prod.fst).foldl (fun s p => s.updPort p Port.admitting)
    ((s.updTop fun t => { t with phase := 3 }).updMed fun m => { m with temps := [] })

/-- The ownership record of a domain that the delta logs of a dump give: head and owner epoch. -/
def dumpOwner (d : SD) (x : Dump) : Option (Nat × Word) :=
  ((x.logs.get d ++ x.peerLogs.get d).flatMap (·.deltas)).foldl (fun o y => match y with
    | .owner h e => (match o with
      | some (_, e0) => if e > e0 then some (h, e) else o
      | none => some (h, e))
    | _ => o) none

/-- The ownership record in force (R442): the own one, unless the peer's heartbeats, or the logs of the own dump where none has
arrived, show a higher owner epoch. -/
def State.assigned (s : State) (d : SD) : Bool :=
  let (h, e) := s.ubl.record.get d
  let heard : Bool := decide (s.ubl.hbLink.hseqRx ≠ 0 ∨ s.ubl.hbPair.hseqRx ≠ 0)
  if heard then decide (h = s.top.head) && decide (s.ubl.peerOepoch.get d ≤ e)
  else match s.ownDump.bind (dumpOwner d) with
  | some (h1, e1) => decide ((if e1 > e then h1 else h) = s.top.head)
  | none => decide (h = s.top.head)

/-- The domains assigned to this head. -/
def State.mine (s : State) : List SD := [SD.a, SD.b].filter s.assigned

/-- Phase 4 (R229, R321, R442): the batten lines of the assigned domains that read low, seized, and the domains fenced. -/
def State.seizeMine (s : State) (levels : Nat) : State :=
  s.mine.foldl (fun s d =>
    let s1 := s.seeBatten d (bitOf levels d.num)
    if bitOf levels d.num ∨ s1.ubl.breakIn ∨ s1.ubl.battenOut.get d then s1 else (s1.seize d).fenceAll d) s

/-- Phase 4 begins: the physical segment records are read from flash. -/
def State.beginOwn (s : State) (levels : Nat) : State :=
  let up (d : SD) (e : Word) : Word := let r := (s.ubl.record.get d).2; if e < r then r else e
  let s1 := (s.updTop fun t => { t with phase := 4 }).updUbl fun u => { u with
    oepoch := ⟨up .a u.oepoch.a, up .b u.oepoch.b⟩ }
  (s1.updMed fun m => { m with pseg := s.map.flashSeg }).seizeMine levels

/-- Phase 5 begins: what has been taken, the mirror of the own dump, the at-rest and the fingerprint keys (R94, R244,
R446). -/
def State.beginRecover (s : State) : State :=
  let took := s.mine.filter fun d => s.ubl.battenOut.get d
  let s1 := s.updTop fun t => { t with
    phase := 5, took := ⟨decide (SD.a ∈ took), decide (SD.b ∈ took)⟩
    resetCause := if s.ownDump.isSome then t.resetCause ||| 2 else t.resetCause }
  let s2 := match s.ownDump with
    | some x => s1.updUbl fun u => { u with
        mirror := x.mirror, shadowLogs := x.peerLogs
        rx := ⟨{ u.rx.a with hdrs := x.hdrs.a }, { u.rx.b with hdrs := x.hdrs.b }⟩ }
    | none => s1
  let s3 := (s2.cip.slots.filter fun (_, k) => k.state = 0 ∧ !k.key.isEmpty).foldl (fun s (n, k) =>
    (s.loadAtRest n k.key false).getD s) s2.loadFpKeys
  { s3 with vault := { s3.vault with restore := took.foldl (fun t d => Table.put t d.num 1) [] } }

/-- Phase 6 (R342, R441, R443): ports up; the controller serves, and Terzan has set up its loops (DESIGN CHOICE, assumption 124). The dump has been restored and its partition may be written again. -/
def State.beginServing (s : State) : State :=
  let s1 := (s.updTop fun t => { t with phase := 6 }).updPwr fun p => { p with ethUp := true }
  let s2 := (s1.updRdm fun r => { r with portUp := [] }).sayState 1
  let s3 := s2.updMlk fun m => { m with mods := Table.mapV (fun x : Module => { x with vault := [] }) m.mods }
  { s3 with vault := { s3.vault with dump := none } }.startLoops

/-- START_PHASE (R150, R229, R321, R342, R379, R435, R441 to R444, R457): the present phase has ended and the next begins; `ok` false is
a phase that fails. `levels` is what the batten inputs read (bit 0 A, bit 1 B); the sizes are those of the DDR5 regions. -/
def execStartPhase (ok : Bool) (levels sheet peerSheet landing : Nat) (s : State) : Res :=
  if s.top.failed ∨ s.pwr.pllHeld ∨ s.pwr.pfail ≠ 0 ∨ !s.upd.core0 ∨ s.top.phase ≥ 6 then .next s
  else if !ok then .next s.failStart
  else match s.top.phase with
  | 0 => .next (if s.upd.bootRel then s.beginInit sheet peerSheet landing else s)
  | 1 => .next s.beginMailbox
  | 2 => .next s.beginModules
  | 3 =>
    if s.mlk.ports.any fun (_, p) => decide (p.state = 1 ∧ p.step ≠ 4) then .next s
    else if s.ubl.headClash then .next (s.raise .ubl 14).failStart
    else .next (s.beginOwn levels)
  | 4 => .next (if s.mine.all fun d => s.ubl.battenOut.get d && s.fencedAll d then s.beginRecover else s.seizeMine levels)
  | _ => .next (if s.vault.restore.isEmpty then s.beginServing else s)

/-- START_HELLO_TIMEOUT (R443): 300 s of phase 6 without HELLO or heartbeat: the peer is declared failed, and its domain is taken from
the checkpoint on flash, which `ck` is, and the delta logs of the own dump. -/
def execStartHelloTimeout (ck : Meta) (s : State) : Res :=
  if s.top.phase ≠ 6 ∨ s.ubl.up ∨ s.ubl.hbLink.seen ∨ s.ubl.hbPair.seen ∨ s.ubl.peerFailed then .next s
  else
    let s1 := [SD.a, SD.b].foldl (fun s d => if s.owns d then s else s.updUbl fun u => { u with shadow := u.shadow.set d ck }) s
    .next ((s1.updTop fun t => { t with peerDeclared := true }).declare 0)

/-! ### The restore of a domain (R446) -/

/-- Delta logs in the order of R444: by owner epoch, then by epoch. -/
def sortLogs (l : List DLog) : List DLog :=
  let le (a b : DLog) : Bool := decide (a.oepoch < b.oepoch ∨ (a.oepoch = b.oepoch ∧ a.epoch ≤ b.epoch))
  l.foldr (fun x acc => (acc.takeWhile fun y => !le x y) ++ x :: (acc.dropWhile fun y => !le x y)) []

/-- Where a domain's dust sheet is restored from: 0 the own dump, 1 the mirror in the peer's dump, 2 the readable chunks of the own
dump, 3 nothing was dumped. -/
def State.restoreFrom (s : State) (mirror : Option MirrorDump) : Nat :=
  if s.ownDump.isSome then 0 else if mirror.isSome then 1 else if s.vault.dump.isSome then 2 else 3

/-- The delta logs that apply to a domain: of the own dump, copied from the peer among them, or of the peer's. -/
def State.restoreLogs (s : State) (d : SD) (mirror : Option MirrorDump) : List DLog :=
  let own := match s.vault.dump with
    | some x => x.logs.get d ++ x.peerLogs.get d
    | none => []
  sortLogs (if s.ownDump.isSome then own else match mirror with
    | some m => m.logs
    | none => own)

/-- The entries of a domain that are replayed, in stamp order: every marked unit of an own dump that reads (R59), else the prefix of
R58 step 2, as far as their chunks read. -/
def State.restoreUnits (s : State) (d : SD) (mirror : Option MirrorDump) : List Entry :=
  let of (x : Sheet) : List (Nat × Entry) := x.entries.filter fun (_, e) => e.sd = d
  let own := match s.vault.dump with
    | some x => of x.sheet
    | none => []
  match s.restoreFrom mirror with
  | 0 => sortEntries ((own.map Prod.snd).filter (·.marked))
  | 1 => markedPrefix (sortEntries (((mirror.map fun m => of m.sheet).getD []).map Prod.snd))
  | 2 => markedPrefix ((sortEntries (own.map Prod.snd)).takeWhile fun e => match own.find? fun x => x.2 = e, s.vault.dump with
    | some (off, _), some x => s.bytesRead x off ((1 + e.nslots) * 4096)
    | _, _ => false)
  | _ => []

/-- Data slot `i` of an entry that is restored. -/
def State.restoreSlot (s : State) (mirror : Option MirrorDump) (e : Entry) (i : Nat) : List Byte :=
  let x : Option Sheet := if s.restoreFrom mirror = 1 then mirror.map (·.sheet) else s.vault.dump.map (·.sheet)
  ((x.bind fun y => Table.find y.slots (e.data + i))).getD (zeros 4096)

/-- Read counts start at half the read limit of the segment's layer (R179). -/
def State.halfReads (s : State) (d : SD) : State :=
  let half (k : Nat) (r : PSegRec) : Nat :=
    ((s.mod? (k / 2 ^ 20)).map fun x => leAt x.desc (if r.finish then 24 else 28) 4).getD 0 / 2
  let segs := s.med.pseg.filter fun (_, r) => r.sd = d ∧ r.st = .allocated
  s.updMed fun m => { m with reads := segs.foldl (fun t x => Table.put t x.1 (half x.1 x.2)) m.reads }

/-- Step 2 (R161): the checkpoint on flash, or `ck` for a domain this controller has written none for, and the later logs. -/
def State.restoreMeta (s : State) (d : SD) (mirror : Option MirrorDump) (ck : Option Meta) : State :=
  let logs := s.restoreLogs d mirror
  let m := logs.foldl (fun m l => l.deltas.foldl Meta.applyAll m) (ck.getD (s.map.flash.get d))
  let s1 := s.updMed fun x => { x with pseg := logs.foldl (fun t l => l.deltas.foldl flashPSeg t) x.pseg }
  let hi := (s.restoreUnits d mirror).foldl (fun n e => max n e.stamp) m.stampHi
  let s2 := s1.installDomain d m
  s2.updFe fun f => { f with stamp := f.stamp.set d (BitVec.ofNat 64 (if s.restoreFrom mirror = 0 then hi else hi + 2 ^ 32 - 1)) }

/-- Step 3 (R195): the journal of the dump, or of the mirror. -/
def State.restoreJournal (s : State) (d : SD) (mirror : Option MirrorDump) : State :=
  let own := (s.vault.dump.map fun x => x.journal.get d).getD []
  let j := if s.restoreFrom mirror = 1 then (mirror.map (·.journal)).getD [] else own
  s.updStr fun x => { x with journal := x.journal.set d j, jpos := x.jpos.set d (ringEnd j) }

/-- Step 6 (R268, R274): the progress record goes on at its phase, and reservations without PTPL are cleared. -/
def State.restoreRest (s : State) (d : SD) : State :=
  let p := s.vault.progress <|> (s.vault.dump.bind (·.progress)) <|> (s.metaOf d).prog
  let s1 := if s.fe.progress.isSome then s else (s.updFe fun f => { f with progress := p }).resumeRecord
  (s1.metaOf d).resv.foldl (fun s (n, r) => if r.ptpl then s else s.delta d (.resv n Resv.none)) s1

/-- Chunks of the own dump turn out not to read. -/
def State.loseChunks (s : State) (l : List Nat) : State :=
  { s with vault := { s.vault with dump := s.vault.dump.map fun x => { x with lost := x.lost ++ l } } }

/-- VAULT_RESTORE (R50, R54, R59, R67, R100, R161, R167, R177, R179, R195, R198, R268, R274, R444, R446): the restore of a domain goes on
by one step. `mirror` is what the peer's dump holds of it, `ck` the checkpoint on flash where the peer wrote it, `lost` the
chunks of the own dump that are found not to read. -/
def execVaultRestore (d : SD) (mirror : Option MirrorDump) (ck : Option Meta) (lost : List Nat) (s : State) : Res :=
  let put (s : State) (n : Nat) : State := { s with vault := { s.vault with restore := Table.put s.vault.restore d.num n } }
  match (if s.top.phase = 5 then Table.find s.vault.restore d.num else none) with
  | none => .next s
  | some 1 =>
    let s := s.loseChunks lost
    let s1 := if s.restoreFrom mirror = 2 then
      (s.updTop fun t => { t with dumpPartial := true }).notify 0x10 0x0206 true (some d) 0xFF (leBytes 1 d.num ++ leBytes 1 0) else s
    .next (put (s1.restoreMeta d mirror ck) 3)
  | some 3 => .next (put (s.restoreJournal d mirror) 4)
  | some 4 =>
    if (s.str.journal.get d).any fun r => s.rowOpen d r.stripe r.row then .next s
    else .next (put ((s.recoverSteps d).halfReads d) 5)
  | some 5 =>
    if !s.erased d then .next s else
    let done : List Nat := (s.ubl.sheet.entries.filter fun (_, e) => e.sd = d).map fun (_, e) => e.stamp * 65536 + e.uidx
    let todo := (s.restoreUnits d mirror).filter fun e => e.stamp * 65536 + e.uidx ∉ done
    let (s1, ok) := s.reenterAll (fun _ _ => true) (fun s e i => s.restoreSlot mirror e i) todo
    .next (if ok then put s1 6 else s1)
  | some _ =>
    let s1 := s.restoreRest d
    .next { s1 with vault := { s1.vault with restore := Table.del s1.vault.restore d.num } }

end Sys2Proof.Machine
end

