-- ==== Sys2Proof/Machine/Dispatch.lean ====
section
/-! DEFINITION. One arm for each command: its meaning. -/

namespace Sys2Proof.Machine

/-- The effect of a command on everything but the queue. -/
def exec (i : Instr) (s : State) : Host.Outcome State Fault Refusal :=
  match i with
  | .capsuleReceived icrcOk psn c => Sys2Proof.Machine.execCapsuleReceived icrcOk psn c s
  | .rdmaReadResponse icrcOk psnOk sd stamp data => Sys2Proof.Machine.execRdmaReadResponse icrcOk psnOk sd stamp data s
  | .accept q => Sys2Proof.Machine.execAccept q s
  | .write sd stamp => Sys2Proof.Machine.execWrite sd stamp s
  | .read sd stamp => Sys2Proof.Machine.execRead sd stamp s
  | .flush sd stamp => Sys2Proof.Machine.execFlush sd stamp s
  | .compare sd stamp => Sys2Proof.Machine.execCompare sd stamp s
  | .writeZeroes sd stamp => Sys2Proof.Machine.execWriteZeroes sd stamp s
  | .datasetManagement sd stamp => Sys2Proof.Machine.execDatasetManagement sd stamp s
  | .verify sd stamp => Sys2Proof.Machine.execVerify sd stamp s
  | .orderingFence q data => Sys2Proof.Machine.execOrderingFence q data s
  | .fencePointReached q cid => Sys2Proof.Machine.execFencePointReached q cid s
  | .fenceSourceLost q cid => Sys2Proof.Machine.execFenceSourceLost q cid s
  | .reservationRegister sd stamp => Sys2Proof.Machine.execReservationRegister sd stamp s
  | .reservationReport sd stamp => Sys2Proof.Machine.execReservationReport sd stamp s
  | .reservationAcquire sd stamp => Sys2Proof.Machine.execReservationAcquire sd stamp s
  | .reservationRelease sd stamp => Sys2Proof.Machine.execReservationRelease sd stamp s
  | .abort q => Sys2Proof.Machine.execAbort q s
  | .getLogPage q => Sys2Proof.Machine.execGetLogPage q s
  | .identify q => Sys2Proof.Machine.execIdentify q s
  | .setFeatures q => Sys2Proof.Machine.execSetFeatures q s
  | .getFeatures q => Sys2Proof.Machine.execGetFeatures q s
  | .asynchronousEventRequest q => Sys2Proof.Machine.execAsynchronousEventRequest q s
  | .asynchronousEvent cntlid e => Sys2Proof.Machine.execAsynchronousEvent cntlid e s
  | .keepAlive q => Sys2Proof.Machine.execKeepAlive q s
  | .keepAliveTimeout cntlid => Sys2Proof.Machine.execKeepAliveTimeout cntlid s
  | .formatNvm q => Sys2Proof.Machine.execFormatNvm q s
  | .sanitize q => Sys2Proof.Machine.execSanitize q s
  | .formatPhaseDone bad => Sys2Proof.Machine.execFormatPhaseDone bad s
  | .connect qp => Sys2Proof.Machine.execConnect qp s
  | .propertySet q => Sys2Proof.Machine.execPropertySet q s
  | .propertyGet q => Sys2Proof.Machine.execPropertyGet q s
  | .disconnect q => Sys2Proof.Machine.execDisconnect q s
  | .rdmaCmConnectRequest kind port mtu paths => Sys2Proof.Machine.execRdmaCmConnectRequest kind port mtu paths s
  | .merge id => Sys2Proof.Machine.execMerge id s
  | .fingerprint id => Sys2Proof.Machine.execFingerprint id s
  | .lookupResult id => Sys2Proof.Machine.execLookupResult id s
  | .laneResult id => Sys2Proof.Machine.execLaneResult id s
  | .verifyCompare id => Sys2Proof.Machine.execVerifyCompare id s
  | .packerDecision id => Sys2Proof.Machine.execPackerDecision id s
  | .deltaRecorded ix => Sys2Proof.Machine.execDeltaRecorded ix s
  | .pageCopy d root gran => Sys2Proof.Machine.execPageCopy d root gran s
  | .packClose d kdom copy terzan => Sys2Proof.Machine.execPackClose d kdom copy terzan s
  | .packAgeClose d kdom copy => Sys2Proof.Machine.execPackAgeClose d kdom copy s
  | .packEncrypt => Sys2Proof.Machine.execPackEncrypt s
  | .dustSheetRelease hdr => Sys2Proof.Machine.execDustSheetRelease hdr s
  | .completionPosted sd stamp us => Sys2Proof.Machine.execCompletionPosted sd stamp us s
  | .sectorInstall d mpid sector => Sys2Proof.Machine.execSectorInstall d mpid sector s
  | .packRelease id => Sys2Proof.Machine.execPackRelease id s
  | .packOpen id => Sys2Proof.Machine.execPackOpen id s
  | .decode id stamp gran => Sys2Proof.Machine.execDecode id stamp gran s
  | .readRetry id => Sys2Proof.Machine.execReadRetry id s
  | .degradedRead id bad => Sys2Proof.Machine.execDegradedRead id bad s
  | .epochBoundary => Sys2Proof.Machine.execEpochBoundary s
  | .epochAck d epoch digest => Sys2Proof.Machine.execEpochAck d epoch digest s
  | .mirrorFrame f check => Sys2Proof.Machine.execMirrorFrame f check s
  | .mirrorAck d mseq => Sys2Proof.Machine.execMirrorAck d mseq s
  | .releaseFrame f check => Sys2Proof.Machine.execReleaseFrame f check s
  | .epochFrame d x => Sys2Proof.Machine.execEpochFrame d x s
  | .flitError fseq => Sys2Proof.Machine.execFlitError fseq s
  | .nak n => Sys2Proof.Machine.execNak n s
  | .linkRetrain groups => Sys2Proof.Machine.execLinkRetrain groups s
  | .linkLost => Sys2Proof.Machine.execLinkLost s
  | .hello head level version array cert => Sys2Proof.Machine.execHello head level version array cert s
  | .forwardCmd tag c => Sys2Proof.Machine.execForwardCmd tag c s
  | .forwardData tag off b => Sys2Proof.Machine.execForwardData tag off b s
  | .forwardCpl tag st dw0 => Sys2Proof.Machine.execForwardCpl tag st dw0 s
  | .forwardAbort tag => Sys2Proof.Machine.execForwardAbort tag s
  | .forwardAbortRsp tag caught => Sys2Proof.Machine.execForwardAbortRsp tag caught s
  | .messageFrame kind d b => Sys2Proof.Machine.execMessageFrame kind d b s
  | .heartbeatPeriod => Sys2Proof.Machine.execHeartbeatPeriod s
  | .heartbeat path b => Sys2Proof.Machine.execHeartbeat path b s
  | .faultTone => Sys2Proof.Machine.execFaultTone s
  | .declarationDelay => Sys2Proof.Machine.execDeclarationDelay s
  | .takeover d level gap => Sys2Proof.Machine.execTakeover d level gap s
  | .battenStuck d => Sys2Proof.Machine.execBattenStuck d s
  | .battenRecheck d level => Sys2Proof.Machine.execBattenRecheck d level s
  | .breakAsserted => Sys2Proof.Machine.execBreakAsserted s
  | .breakDeasserted => Sys2Proof.Machine.execBreakDeasserted s
  | .fill => Sys2Proof.Machine.execFill s
  | .handoverAbortTimeout => Sys2Proof.Machine.execHandoverAbortTimeout s
  | .rehearsal => Sys2Proof.Machine.execRehearsal s
  | .domainHandover chan d level => Sys2Proof.Machine.execDomainHandover chan d level s
  | .breakRelease c => Sys2Proof.Machine.execBreakRelease c s
  | .rdmaPacket icrcOk p => Sys2Proof.Machine.execRdmaPacket icrcOk p s
  | .contextInstalled ix => Sys2Proof.Machine.execContextInstalled ix s
  | .qpError ix cause => Sys2Proof.Machine.execQpError ix cause s
  | .rdmaFlush ix => Sys2Proof.Machine.execRdmaFlush ix s
  | .rdmaAtomicWrite ix => Sys2Proof.Machine.execRdmaAtomicWrite ix s
  | .sendWithInvalidate icrcOk qpn psn port rkey => Sys2Proof.Machine.execSendWithInvalidate icrcOk qpn psn port rkey s
  | .cnp ix path => Sys2Proof.Machine.execCnp ix path s
  | .rateRaise ix path => Sys2Proof.Machine.execRateRaise ix path s
  | .scrimPacket icrcOk qpn psn port x data => Sys2Proof.Machine.execScrimPacket icrcOk qpn psn port x data s
  | .scrimComplete ix msn => Sys2Proof.Machine.execScrimComplete ix msn s
  | .scrimAck ix msn => Sys2Proof.Machine.execScrimAck ix msn s
  | .scrimNak ix msn bitmap => Sys2Proof.Machine.execScrimNak ix msn bitmap s
  | .scrimTimeout ix msn => Sys2Proof.Machine.execScrimTimeout ix msn s
  | .pathDown ix path => Sys2Proof.Machine.execPathDown ix path s
  | .portLinkDown port => Sys2Proof.Machine.execPortLinkDown port s
  | .consistencySetCut id => Sys2Proof.Machine.execConsistencySetCut id s
  | .consistencySetShip id => Sys2Proof.Machine.execConsistencySetShip id s
  | .controlWordChange id => Sys2Proof.Machine.execControlWordChange id s
  | .replicationMessage id msn src wire => Sys2Proof.Machine.execReplicationMessage id msn src wire s
  | .replSyncTimeout id => Sys2Proof.Machine.execReplSyncTimeout id s
  | .resync id => Sys2Proof.Machine.execResync id s
  | .offloadMessage p desc src aad tag run => Sys2Proof.Machine.execOffloadMessage p desc src aad tag run s
  | .zeroizeDone slot => Sys2Proof.Machine.execZeroizeDone slot s
  | .nonceSafe slot => Sys2Proof.Machine.execNonceSafe slot s
  | .screedTick temps late => Sys2Proof.Machine.execScreedTick temps late s
  | .loopDeadlineMiss => Sys2Proof.Machine.execLoopDeadlineMiss s
  | .captureStart r loop => Sys2Proof.Machine.execCaptureStart r loop s
  | .captureStop r loop => Sys2Proof.Machine.execCaptureStop r loop s
  | .captureFull => Sys2Proof.Machine.execCaptureFull s
  | .traceStart r => Sys2Proof.Machine.execTraceStart r s
  | .traceStop r => Sys2Proof.Machine.execTraceStop r s
  | .traceFull => Sys2Proof.Machine.execTraceFull s
  | .invalidate r => Sys2Proof.Machine.execInvalidate r s
  | .mapFlush r => Sys2Proof.Machine.execMapFlush r s
  | .mapDisable r => Sys2Proof.Machine.execMapDisable r s
  | .mapEnable r => Sys2Proof.Machine.execMapEnable r s
  | .writeback r => Sys2Proof.Machine.execWriteback r s
  | .invalidateDone => Sys2Proof.Machine.execInvalidateDone s
  | .flushComplete => Sys2Proof.Machine.execFlushComplete s
  | .evictionWritebackAck => Sys2Proof.Machine.execEvictionWritebackAck s
  | .snapshotSealed d root => Sys2Proof.Machine.execSnapshotSealed d root s
  | .pageFree d mpid => Sys2Proof.Machine.execPageFree d mpid s
  | .secondCoatExamine d => Sys2Proof.Machine.execSecondCoatExamine d s
  | .relink ix => Sys2Proof.Machine.execRelink ix s
  | .hotIndexReload d ddom fp => Sys2Proof.Machine.execHotIndexReload d ddom fp s
  | .fullIndexDeltaApply => Sys2Proof.Machine.execFullIndexDeltaApply s
  | .mediaRawRead port src bits unc => Sys2Proof.Machine.execMediaRawRead port src bits unc s
  | .mediaRawProgram port src st temp => Sys2Proof.Machine.execMediaRawProgram port src st temp s
  | .mediaErase port src ok temp => Sys2Proof.Machine.execMediaErase port src ok temp s
  | .mediaFold port src tmin tmax fail => Sys2Proof.Machine.execMediaFold port src tmin tmax fail s
  | .ownerFence port src stopped => Sys2Proof.Machine.execOwnerFence port src stopped s
  | .mediaDescriptorRead port src ok => Sys2Proof.Machine.execMediaDescriptorRead port src ok s
  | .mediaTemperature port src hi lo ctl => Sys2Proof.Machine.execMediaTemperature port src hi lo ctl s
  | .layerSplit port src => Sys2Proof.Machine.execLayerSplit port src s
  | .mediaCommandCompletion ix => Sys2Proof.Machine.execMediaCommandCompletion ix s
  | .commandTimeout ix => Sys2Proof.Machine.execCommandTimeout ix s
  | .moduleFailed port cause => Sys2Proof.Machine.execModuleFailed port cause s
  | .presenceDrop port => Sys2Proof.Machine.execPresenceDrop port s
  | .mediaLinkDown port back => Sys2Proof.Machine.execMediaLinkDown port back s
  | .linkUp port rate width new => Sys2Proof.Machine.execLinkUp port rate width new s
  | .admission port => Sys2Proof.Machine.execAdmission port s
  | .admissionTimeout port => Sys2Proof.Machine.execAdmissionTimeout port s
  | .absentTimeout port => Sys2Proof.Machine.execAbsentTimeout port s
  | .moduleReturn port temp => Sys2Proof.Machine.execModuleReturn port temp s
  | .substitution ix ok temp => Sys2Proof.Machine.execSubstitution ix ok temp s
  | .trowelPass d => Sys2Proof.Machine.execTrowelPass d s
  | .foldComplete ix => Sys2Proof.Machine.execFoldComplete ix s
  | .gcVictim d => Sys2Proof.Machine.execGcVictim d s
  | .gcCopy d => Sys2Proof.Machine.execGcCopy d s
  | .relocation ix => Sys2Proof.Machine.execRelocation ix s
  | .stripeFreed d n => Sys2Proof.Machine.execStripeFreed d n s
  | .eraseIssue port pseg => Sys2Proof.Machine.execEraseIssue port pseg s
  | .stripeFormation d finish isMeta => Sys2Proof.Machine.execStripeFormation d finish isMeta s
  | .wearLevelling port finish => Sys2Proof.Machine.execWearLevelling port finish s
  | .refreshQueued port pseg => Sys2Proof.Machine.execRefreshQueued port pseg s
  | .temperaturePoll port => Sys2Proof.Machine.execTemperaturePoll port s
  | .healthEvent port code raised => Sys2Proof.Machine.execHealthEvent port code raised s
  | .rebuildSlot d bad ok temp => Sys2Proof.Machine.execRebuildSlot d bad ok temp s
  | .recoatCopy d => Sys2Proof.Machine.execRecoatCopy d s
  | .recoatComplete d => Sys2Proof.Machine.execRecoatComplete d s
  | .journalReplay d n row temp => Sys2Proof.Machine.execJournalReplay d n row temp s
  | .blockEnable r b al w => Sys2Proof.Machine.execBlockEnable r b al w s
  | .consistencyCheckDone b => Sys2Proof.Machine.execConsistencyCheckDone b s
  | .blockDisable r b al w => Sys2Proof.Machine.execBlockDisable r b al w s
  | .drainEnd b => Sys2Proof.Machine.execDrainEnd b s
  | .atomicModeWrite r b w => Sys2Proof.Machine.execAtomicModeWrite r b w s
  | .statusAck r b w => Sys2Proof.Machine.execStatusAck r b w s
  | .indAddrWrite r b w => Sys2Proof.Machine.execIndAddrWrite r b w s
  | .indDataRead r b => Sys2Proof.Machine.execIndDataRead r b s
  | .indDataWrite r b w => Sys2Proof.Machine.execIndDataWrite r b w s
  | .epochLoRead r => Sys2Proof.Machine.execEpochLoRead r s
  | .bootCountLoRead r => Sys2Proof.Machine.execBootCountLoRead r s
  | .registerWrite r via late a w => Sys2Proof.Machine.execRegisterWrite r via late a w s
  | .violClear r w => Sys2Proof.Machine.execViolClear r w s
  | .vaultPartWrite r al w => Sys2Proof.Machine.execVaultPartWrite r al w s
  | .timerStart r al n w => Sys2Proof.Machine.execTimerStart r al n w s
  | .timerStop r al n w => Sys2Proof.Machine.execTimerStop r al n w s
  | .timerExpiry n => Sys2Proof.Machine.execTimerExpiry n s
  | .pinmuxWrite r al g w => Sys2Proof.Machine.execPinmuxWrite r al g w s
  | .topReset r w => Sys2Proof.Machine.execTopReset r w s
  | .pgSqTail p v => Sys2Proof.Machine.execPgSqTail p v s
  | .pgCqHead p v => Sys2Proof.Machine.execPgCqHead p v s
  | .pgStatusAck p v => Sys2Proof.Machine.execPgStatusAck p v s
  | .pgZeroize p v => Sys2Proof.Machine.execPgZeroize p v s
  | .mbDoorbell r c w => Sys2Proof.Machine.execMbDoorbell r c w s
  | .responsePosted c => Sys2Proof.Machine.execResponsePosted c s
  | .mbRspAck r c w => Sys2Proof.Machine.execMbRspAck r c w s
  | .notification code raised sd port arg => Sys2Proof.Machine.execNotification code raised sd port arg s
  | .mbNtfCons r w => Sys2Proof.Machine.execMbNtfCons r w s
  | .nop c => Sys2Proof.Machine.execNop c s
  | .versionGet c => Sys2Proof.Machine.execVersionGet c s
  | .arrayCommission c nqn array pq k vsegs ssegs holdup => Sys2Proof.Machine.execArrayCommission c nqn array pq k vsegs ssegs holdup s
  | .rtcSet c v => Sys2Proof.Machine.execRtcSet c v s
  | .volCreate c => Sys2Proof.Machine.execVolCreate c s
  | .volDelete c root => Sys2Proof.Machine.execVolDelete c root s
  | .volResize c root size => Sys2Proof.Machine.execVolResize c root size s
  | .nsCreate c => Sys2Proof.Machine.execNsCreate c s
  | .nsDelete c nsid => Sys2Proof.Machine.execNsDelete c nsid s
  | .nsAttach c nsid cntlids => Sys2Proof.Machine.execNsAttach c nsid cntlids s
  | .nsDetach c nsid cntlids => Sys2Proof.Machine.execNsDetach c nsid cntlids s
  | .nsQosSet c nsid group => Sys2Proof.Machine.execNsQosSet c nsid group s
  | .qosGroupSet c group us => Sys2Proof.Machine.execQosGroupSet c group us s
  | .snapTake c => Sys2Proof.Machine.execSnapTake c s
  | .snapDelete c root => Sys2Proof.Machine.execSnapDelete c root s
  | .cloneCreate c root => Sys2Proof.Machine.execCloneCreate c root s
  | .rootList c d start addr len dmaOk => Sys2Proof.Machine.execRootList c d start addr len dmaOk s
  | .kdomCreate c kdom mode => Sys2Proof.Machine.execKdomCreate c kdom mode s
  | .kdomDelete c kdom => Sys2Proof.Machine.execKdomDelete c kdom s
  | .kdomModeSet c kdom mode => Sys2Proof.Machine.execKdomModeSet c kdom mode s
  | .kdomRotate c kdom => Sys2Proof.Machine.execKdomRotate c kdom s
  | .keyLoad c => Sys2Proof.Machine.execKeyLoad c s
  | .keyGenerate c slot usage klen npol => Sys2Proof.Machine.execKeyGenerate c slot usage klen npol s
  | .keyZeroize c slot => Sys2Proof.Machine.execKeyZeroize c slot s
  | .pageOwnerSet c page owner => Sys2Proof.Machine.execPageOwnerSet c page owner s
  | .pageAssign c page sqBase sqSize cqBase cqSize intEn => Sys2Proof.Machine.execPageAssign c page sqBase sqSize cqBase cqSize intEn s
  | .replAttach c qpn base len => Sys2Proof.Machine.execReplAttach c qpn base len s
  | .replDetach c id => Sys2Proof.Machine.execReplDetach c id s
  | .replStatus c id => Sys2Proof.Machine.execReplStatus c id s
  | .windowOpen c qpn base len rights => Sys2Proof.Machine.execWindowOpen c qpn base len rights s
  | .windowRevoke c rkey => Sys2Proof.Machine.execWindowRevoke c rkey s
  | .healthList c port => Sys2Proof.Machine.execHealthList c port s
  | .moduleList c => Sys2Proof.Machine.execModuleList c s
  | .moduleRemove c port => Sys2Proof.Machine.execModuleRemove c port s
  | .moduleAdmit c port => Sys2Proof.Machine.execModuleAdmit c port s
  | .lossList c d cursor addr len dmaOk => Sys2Proof.Machine.execLossList c d cursor addr len dmaOk s
  | .recoatStart c d pq k => Sys2Proof.Machine.execRecoatStart c d pq k s
  | .updatePush c image dmaOk bad => Sys2Proof.Machine.execUpdatePush c image dmaOk bad s
  | .updateStatus c peer => Sys2Proof.Machine.execUpdateStatus c peer s
  | .updateActivate c temp => Sys2Proof.Machine.execUpdateActivate c temp s
  | .moduleConfirmTimeout => Sys2Proof.Machine.execModuleConfirmTimeout s
  | .restartHelloTimeout => Sys2Proof.Machine.execRestartHelloTimeout s
  | .healthConfirm filled => Sys2Proof.Machine.execHealthConfirm filled s
  | .trialTimeout c => Sys2Proof.Machine.execTrialTimeout c s
  | .attestQuote c nonce addr len dmaOk => Sys2Proof.Machine.execAttestQuote c nonce addr len dmaOk s
  | .attestRecordGet c addr len dmaOk => Sys2Proof.Machine.execAttestRecordGet c addr len dmaOk s
  | .certGet c addr len dmaOk => Sys2Proof.Machine.execCertGet c addr len dmaOk s
  | .primerRom rom config counterOk acts bad badFall => Sys2Proof.Machine.execPrimerRom rom config counterOk acts bad badFall s
  | .start ctx keyed => Sys2Proof.Machine.execStart ctx keyed s
  | .absorb ctx block => Sys2Proof.Machine.execAbsorb ctx block s
  | .tap ctx source len => Sys2Proof.Machine.execTap ctx source len s
  | .untap ctx bytes => Sys2Proof.Machine.execUntap ctx bytes s
  | .final ctx pad => Sys2Proof.Machine.execFinal ctx pad s
  | .squeeze ctx n => Sys2Proof.Machine.execSqueeze ctx n s
  | .extend ix input event subject unmatched => Sys2Proof.Machine.execExtend ix input event subject unmatched s
  | .extendRequest reg event subject unmatched d => Sys2Proof.Machine.execExtendRequest reg event subject unmatched d s
  | .save ctx wrapped => Sys2Proof.Machine.execSave ctx wrapped s
  | .restore ctx blob => Sys2Proof.Machine.execRestore ctx blob s
  | .bootRecordSign => Sys2Proof.Machine.execBootRecordSign s
  | .bootRecordTimeout => Sys2Proof.Machine.execBootRecordTimeout s
  | .secAlarm inputs busError => Sys2Proof.Machine.execSecAlarm inputs busError s
  | .pstateRequest r w => Sys2Proof.Machine.execPstateRequest r w s
  | .pstateEntry prep => Sys2Proof.Machine.execPstateEntry prep s
  | .pstateExit bad codeOk => Sys2Proof.Machine.execPstateExit bad codeOk s
  | .regulatorTimeout r => Sys2Proof.Machine.execRegulatorTimeout r s
  | .wake src => Sys2Proof.Machine.execWake src s
  | .park => Sys2Proof.Machine.execPark s
  | .ageingReplan delays rings reads => Sys2Proof.Machine.execAgeingReplan delays rings reads s
  | .slackLow n r slack => Sys2Proof.Machine.execSlackLow n r slack s
  | .pllLossOfLock => Sys2Proof.Machine.execPllLossOfLock s
  | .pllRelock => Sys2Proof.Machine.execPllRelock s
  | .pfail => Sys2Proof.Machine.execPfail s
  | .pfailRelease => Sys2Proof.Machine.execPfailRelease s
  | .dumpEnd => Sys2Proof.Machine.execDumpEnd s
  | .resetN head => Sys2Proof.Machine.execResetN head s
  | .powerOnReset head => Sys2Proof.Machine.execPowerOnReset head s
  | .perstN => Sys2Proof.Machine.execPerstN s
  | .thermtrip => Sys2Proof.Machine.execThermtrip s
  | .startPhase ok levels sheet peerSheet landing => Sys2Proof.Machine.execStartPhase ok levels sheet peerSheet landing s
  | .startHelloTimeout ck => Sys2Proof.Machine.execStartHelloTimeout ck s
  | .vaultRestore d mirror ck lost => Sys2Proof.Machine.execVaultRestore d mirror ck lost s
  | .snagEvent => Sys2Proof.Machine.execSnagEvent s
  | .evrFlush r v => Sys2Proof.Machine.execEvrFlush r v s
  | .evrClear r v => Sys2Proof.Machine.execEvrClear r v s
  | .snagFlush => Sys2Proof.Machine.execSnagFlush s
  | .snagFlushEnd => Sys2Proof.Machine.execSnagFlushEnd s
  | .evrPartitionErase => Sys2Proof.Machine.execEvrPartitionErase s
  | .ubiusLinkDown => Sys2Proof.Machine.execUbiusLinkDown s
  | .localAckTimeout ix rnr => Sys2Proof.Machine.execLocalAckTimeout ix rnr s
  | .checkpoint d n => Sys2Proof.Machine.execCheckpoint d n s
  | .fatalFault cls core => Sys2Proof.Machine.execFatalFault cls core s
  | .activationConfirmTimeout => Sys2Proof.Machine.execActivationConfirmTimeout s
  | .breakExpectationExpiry => Sys2Proof.Machine.execBreakExpectationExpiry s

end Sys2Proof.Machine
end

