-- ==== Sys2Proof/Machine/Tick.lean ====
section
/-!
DEFINITION. What one scr-cycle does when no command waits: the general timers count, the RTC advances and CIP's drawn
values are ready again (assumption 1).
-/

namespace Sys2Proof.Machine

/-- Timer `n` passes one scr-cycle (R461): it counts down, and on reaching 0 it sets its bit of TOP_STATUS and, when
PERIODIC is 1, reloads. -/
def State.timerTick (s : State) (n : Nat) : State :=
  match s.top.timers[n]? with
  | none => s
  | some t =>
    if !t.en ∨ t.count = 0 then s
    else if t.count = 1 then s.timerFires n
    else s.updTop fun x => { x with timers := updAt x.timers n fun y => { y with count := y.count - 1 } }

/-- The RTC passes one scr-cycle: it counts microseconds of 100 scr-cycles in every power state (Table 19.1, R421), and the time in P0
with it (R426). -/
def PwrState.rtcTick (p : PwrState) : PwrState :=
  if p.rtcSub + 1 ≥ 100 then { p with rtc := p.rtc + 1, rtcSub := 0, p0Time := if p.current = 0 then p.p0Time + 1 else p.p0Time } else { p with rtcSub := p.rtcSub + 1 }

/-- The Ubius link passes one scr-cycle: flits go (R308), and host beats that mirror credit held go on (Table 03.3). -/
def State.linkTick (s : State) : State :=
  if !s.powered .ubl then s
  else
    let s1 := { s with link := s.link.cycle s.ubl.lanes s.ubl.up }
    if s1.ubl.up ∧ !s1.mirrorFull then s1.landHeld else s1

/-- One scr-cycle with no command waiting. TOP's timers and the fabric run while TOP's domain is powered; CIP keeps 64 drawn values
ready (R245), its shared pool runs the streams bound to it (R233), and the link carries flits. -/
def State.tick (s : State) : State :=
  let s0 := { s with pwr := s.pwr.rtcTick, cip := { s.cip with ready := 64 } }
  let s1 := (if s0.works .cip ∧ s0.powered .cip then s0.poolTick else s0).linkTick
  if s1.powered .top then (List.range 8).foldl State.timerTick s1.fabTick else s1

end Sys2Proof.Machine
end

