-- ==== Sys2Proof/Machine/Timing.lean ====
section
/-!
DEFINITION. The manual's times: the exact on-chip counts, the bounds of external waits, and the cycle tables as sums of
them. State carries no clock (assumption 7): these are the functions a claim about time is stated in.
-/

namespace Sys2Proof.Machine.Timing

/-- The on-chip paths of Table 03.4 (R85). -/
inductive Path where
  | receive | accept | forward | dataIssue | dataRequest | dataFetched | hop | land | mirror | marker | fingerprint
  | lookupIssue | lookupResult | compress | append | missDelta | hitDelta | hotInsert | packToCip | cipherBeat | tag
  | programIssue | parityFold | journal | complProtected | complFast | mapHit | mapMiss | fetchIssue | sectorInstall
  | compare | reissue | hint | readIssue | release | decryptHold | expand | expandAll | check | send | readCompletion
  deriving DecidableEq, Repr

/-- The exact count of a path in dp-cycles (Table 03.4, R85). -/
def count : Path → Nat
  | .receive => 10
  | .accept => 12
  | .forward => 22
  | .dataIssue => 2
  | .dataRequest => 6
  | .dataFetched => 12
  | .hop => 6
  | .land => 0
  | .mirror => 10
  | .marker => 11
  | .fingerprint => 3
  | .lookupIssue => 8
  | .lookupResult => 12
  | .compress => 289
  | .append => 1
  | .missDelta => 7
  | .hitDelta => 7
  | .hotInsert => 9
  | .packToCip => 2
  | .cipherBeat => 18
  | .tag => 20
  | .programIssue => 6
  | .parityFold => 4
  | .journal => 2
  | .complProtected => 16
  | .complFast => 13
  | .mapHit => 4
  | .mapMiss => 3
  | .fetchIssue => 8
  | .sectorInstall => 10
  | .compare => 1
  | .reissue => 1
  | .hint => 2
  | .readIssue => 28
  | .release => 1
  | .decryptHold => 21
  | .expand => 25
  | .expandAll => 256
  | .check => 3
  | .send => 11
  | .readCompletion => 5

/-- Beats of 128 bytes in `n` bytes. -/
def beats (n : Nat) : Nat := (n + 127) / 128

/-- The last of `n` beats presented one per dp-cycle from cycle `t`. -/
def lastBeat (t n : Nat) : Nat := t + n - 1

/-- The bounds of Table 03.5 in dp-cycles (R86). -/
def hbmBound : Nat := 240
def ddrBound : Nat := 330
def mirrorAckBound : Nat := 2250
def skimReadBound : Nat := 67500
def finishReadBound : Nat := 165000

/-- A command is accepted (Table 03.6). -/
def accepted : Nat := count .receive + count .accept

/-! ### Table 03.6: an in-capsule write of one granule -/

def writeFirstBeat : Nat := accepted + count .dataIssue
def writeDelivered : Nat := writeFirstBeat + count .hop
def writeMirrorFirst : Nat := writeDelivered + count .mirror
def writeLastDelivered : Nat := lastBeat writeDelivered (beats 4096)
/-- The data-complete point. -/
def writeDataComplete : Nat := writeLastDelivered + count .land
def writeFingerprint : Nat := writeLastDelivered + count .fingerprint
def writeLookup : Nat := writeFingerprint + count .lookupIssue
/-- The trailer with the marker at the Ubius crossing. -/
def writeTrailer : Nat := writeLastDelivered + count .marker
def writeLaneResult : Nat := writeDelivered + count .compress
/-- The packer's decision, from the bucket's arrival `e2`. -/
def writeDecision (e2 : Nat) : Nat := max (writeLaneResult + 1) (e2 + count .lookupResult + 1)
/-- The deltas of a miss. -/
def writeMissDelta (e2 : Nat) : Nat := writeDecision e2 + count .append + count .missDelta
/-- The deltas of a hit (Table 03.8). -/
def writeHitDelta (e2 : Nat) : Nat := writeDecision e2 + count .hitDelta
def writeInsert (e2 : Nat) : Nat := writeDecision e2 + count .append + count .hotInsert
/-- The response capsule of a protected write, from the peer's acknowledgement `e1`. -/
def writeProtectedResponse (e1 : Nat) : Nat := e1 + count .complProtected
/-- The response capsule on a fast namespace. -/
def writeFastResponse : Nat := writeDataComplete + count .complFast

/-! ### Tables 03.9 and 03.10: a read of one granule, its map sector in HBM -/

def readAtMap : Nat := accepted + count .hop
def readSectorFetch : Nat := readAtMap + count .mapMiss
def readGuess : Nat := readSectorFetch + count .hint
def readSectorAtHbm : Nat := readSectorFetch + count .fetchIssue
/-- The speculative Media Raw Read at the module boundary. -/
def readSpeculative : Nat := readGuess + count .readIssue
/-- The Media Raw Read after a map hit. -/
def readAfterHit : Nat := readAtMap + count .mapHit + count .readIssue
/-- The authoritative entry, from the sector's arrival `e1`. -/
def readEntry (e1 : Nat) : Nat := e1 + count .sectorInstall
def readCompared (e1 : Nat) : Nat := readEntry e1 + count .compare
/-- The confirmation crosses the fabric before a beat is released. -/
def readConfirmed (e1 : Nat) : Nat := readCompared e1 + count .hop
/-- J1: the first pack beat presented to CIP, from the pack's arrival `e2`. -/
def readJoin (e1 e2 : Nat) : Nat := max (e2 + count .release) (readConfirmed e1 + count .release)
/-- The correct Media Raw Read after a wrong guess. -/
def readReissued (e1 : Nat) : Nat := readCompared e1 + count .reissue + count .readIssue
/-- The tag verified, from J1: the last of a pack's 512 beats delivered, and the Tag count. -/
def readTag (j1 : Nat) : Nat := lastBeat (j1 + count .hop) 512 + count .tag
def readFirstGranule (j1 : Nat) : Nat := lastBeat (j1 + count .hop) 512 + count .decryptHold
def readFirstOutput (j1 : Nat) : Nat := readFirstGranule j1 + count .hop + count .expand
def readLastOutput (j1 : Nat) : Nat := lastBeat (readFirstOutput j1) (count .expandAll)
def readChecked (j1 : Nat) : Nat := readLastOutput j1 + count .check
def readFirstSent (j1 : Nat) : Nat := readChecked j1 + count .send
def readLastSent (j1 : Nat) : Nat := lastBeat (readFirstSent j1) (beats 4096)
/-- The response capsule at the Ethernet crossing. -/
def readResponse (j1 : Nat) : Nat := readLastSent j1 + count .readCompletion

/-! ### Other cycle tables -/

/-- The compress lane's stages (Table 05.9, R131): predictors, merge, coders. -/
def laneStages : List Nat := [4096 / 16, 1, 4096 / 16 / 8]

/-- Table 12.2 (R282): the first parked packet resumes, from the context's arrival `e1`. -/
def parkedResumes (e1 : Nat) : Nat := e1 + count .hop + 3
/-- The first parked payload delivered to FE. -/
def parkedDelivered (e1 : Nat) : Nat := parkedResumes e1 + 7

/-- Table 14.1 (R332): the k-th due loop's first and last evaluation cycle and its output's cycle. -/
def loopFirst (k : Nat) : Nat := 40 + 15 * k
def loopLast (k : Nat) : Nat := 53 + 15 * k
def loopOutput (k : Nat) : Nat := 54 + 15 * k
/-- A tick's scr-cycles (R331). -/
def tickCycles : Nat := 1000

/-- The clocks of Table 00.2 in cycles of 64 µs: the commit epoch. -/
def epochDpCycles : Nat := 96000
def epochScrCycles : Nat := 6400
def epochCfgCycles : Nat := 16000

/-- The media command timeouts of Table 09.6 in µs, from the descriptor's values (R223). -/
def readTimeout (tr : Nat) : Nat := 4 * tr + 50
def programTimeout (tp : Nat) : Nat := 4 * tp + 50
def eraseTimeout (te : Nat) : Nat := 4 * te
def foldTimeout (tf : Nat) : Nat := 4 * tf
def fenceTimeout (tof : Nat) : Nat := 2 * tof
def descriptorTimeout : Nat := 10000
def adminTimeout : Nat := 1000000

/-- The takeover's steps 1 to 8 in µs from the declaration (Table 13.7, R325). -/
def takeoverBounds : List Nat := [0, 1, 10, 10000, 35000, 75000, 100000, 120000]

/-- Power-state transition bounds in µs (Table 19.3, R418), entries then exits of P1, P2, P3. -/
def entryBounds : List Nat := [40, 150000, 250000]
def exitBounds : List Nat := [20, 60000, 400000]

end Sys2Proof.Machine.Timing
end

