-- ==== Sys2Proof/WellFormed.lean ====
section
/-!
DEFINITION. Commands whose operands fit the fields the manual gives them. Every meaning is total: an operand that does
not fit is one no wire of the part can carry.
-/

namespace Sys2Proof.Machine

/-- A value fits a field of `w` bits. -/
def bits (w v : Nat) : Bool := decide (v < 2 ^ w)

/-- A number below a count: a port, a channel, a context, a page, a timer. -/
def below (n v : Nat) : Bool := decide (v < n)

/-- The same of an operand that may be absent. -/
def optBelow (n : Nat) : Option Nat → Bool
  | none => true
  | some v => below n v

/-- A byte string of a fixed length. -/
def exactly (n : Nat) (b : List Byte) : Bool := decide (b.length = n)

/-- A byte string no longer than its field. -/
def atMost (n : Nat) (b : List Byte) : Bool := decide (b.length ≤ n)

/-- A queue's numbers (R252, R253). -/
def QId.wf (q : QId) : Bool := bits 16 q.cntlid && bits 16 q.qid

/-- A command capsule: its submission queue entry is 64 bytes (R65), its forwarding tag 16 bits (Table 13.5). -/
def Capsule.wf (c : Capsule) : Bool :=
  c.q.wf && exactly 64 c.sqe && bits 128 c.hostId && (match c.origin with | none => true | some t => bits 16 t)

/-- A packet's header (R278). -/
def Pkt.wf (p : Pkt) : Bool := bits 24 p.qpn && bits 24 p.psn && below 32 p.port

/-- A scrim header (Table 12.3). -/
def Sxh.wf (x : Sxh) : Bool :=
  bits 32 x.msn && bits 8 x.pidx && bits 8 x.npktM1 && bits 8 x.path && bits 32 x.rkey && bits 32 x.moff

end Sys2Proof.Machine

namespace Sys2Proof

open Sys2Proof.Machine

/-- Every operand of the command fits. -/
def Instr.wf : Instr → Bool
  | .capsuleReceived _ psn c => bits 24 psn && c.wf
  | .rdmaReadResponse _ _ _ stamp _ => bits 64 stamp
  | .accept q => q.wf
  | .write _ stamp => bits 64 stamp
  | .read _ stamp => bits 64 stamp
  | .flush _ stamp => bits 64 stamp
  | .compare _ stamp => bits 64 stamp
  | .writeZeroes _ stamp => bits 64 stamp
  | .datasetManagement _ stamp => bits 64 stamp
  | .verify _ stamp => bits 64 stamp
  | .orderingFence q _ => q.wf
  | .fencePointReached q cid => q.wf && bits 16 cid
  | .fenceSourceLost q cid => q.wf && bits 16 cid
  | .reservationRegister _ stamp => bits 64 stamp
  | .reservationReport _ stamp => bits 64 stamp
  | .reservationAcquire _ stamp => bits 64 stamp
  | .reservationRelease _ stamp => bits 64 stamp
  | .abort q => q.wf
  | .getLogPage q => q.wf
  | .identify q => q.wf
  | .setFeatures q => q.wf
  | .getFeatures q => q.wf
  | .asynchronousEventRequest q => q.wf
  | .asynchronousEvent cntlid _ => bits 16 cntlid
  | .keepAlive q => q.wf
  | .keepAliveTimeout cntlid => bits 16 cntlid
  | .formatNvm q => q.wf
  | .sanitize q => q.wf
  | .formatPhaseDone _ => true
  | .connect _ => true
  | .propertySet q => q.wf
  | .propertyGet q => q.wf
  | .disconnect q => q.wf
  | .rdmaCmConnectRequest _ port _ _ => below 32 port
  | .merge _ => true
  | .fingerprint _ => true
  | .lookupResult _ => true
  | .laneResult _ => true
  | .verifyCompare _ => true
  | .packerDecision _ => true
  | .deltaRecorded _ => true
  | .pageCopy _ _ _ => true
  | .packClose _ _ _ _ => true
  | .packAgeClose _ _ _ => true
  | .packEncrypt => true
  | .dustSheetRelease _ => true
  | .completionPosted _ stamp _ => bits 64 stamp
  | .sectorInstall _ _ _ => true
  | .packRelease _ => true
  | .packOpen _ => true
  | .decode _ stamp _ => bits 64 stamp
  | .readRetry _ => true
  | .degradedRead _ _ => true
  | .epochBoundary => true
  | .epochAck _ _ _ => true
  | .mirrorFrame _ _ => true
  | .mirrorAck _ _ => true
  | .releaseFrame _ _ => true
  | .epochFrame _ _ => true
  | .flitError _ => true
  | .nak _ => true
  | .linkRetrain _ => true
  | .linkLost => true
  | .hello head _ _ _ _ => below 2 head
  | .forwardCmd tag c => bits 16 tag && c.wf
  | .forwardData tag _ _ => bits 16 tag
  | .forwardCpl tag _ _ => bits 16 tag
  | .forwardAbort tag => bits 16 tag
  | .forwardAbortRsp tag _ => bits 16 tag
  | .messageFrame _ _ _ => true
  | .heartbeatPeriod => true
  | .heartbeat _ _ => true
  | .faultTone => true
  | .declarationDelay => true
  | .takeover _ _ _ => true
  | .battenStuck _ => true
  | .battenRecheck _ _ => true
  | .breakAsserted => true
  | .breakDeasserted => true
  | .fill => true
  | .handoverAbortTimeout => true
  | .rehearsal => true
  | .domainHandover chan _ _ => optBelow 63 chan
  | .breakRelease c => below 63 c
  | .rdmaPacket _ p => p.wf
  | .contextInstalled _ => true
  | .qpError _ _ => true
  | .rdmaFlush _ => true
  | .rdmaAtomicWrite _ => true
  | .sendWithInvalidate _ qpn psn port rkey => bits 24 qpn && bits 24 psn && below 32 port && bits 32 rkey
  | .cnp _ _ => true
  | .rateRaise _ _ => true
  | .scrimPacket _ qpn psn port x _ => bits 24 qpn && bits 24 psn && below 32 port && x.wf
  | .scrimComplete _ _ => true
  | .scrimAck _ _ => true
  | .scrimNak _ _ _ => true
  | .scrimTimeout _ _ => true
  | .pathDown _ _ => true
  | .portLinkDown port => below 32 port
  | .consistencySetCut _ => true
  | .consistencySetShip _ => true
  | .controlWordChange _ => true
  | .replicationMessage _ _ _ _ => true
  | .replSyncTimeout _ => true
  | .resync _ => true
  | .offloadMessage p desc _ _ _ _ => below 256 p && exactly 64 desc
  | .zeroizeDone slot => below 4096 slot
  | .nonceSafe slot => below 4096 slot
  | .screedTick _ _ => true
  | .loopDeadlineMiss => true
  | .captureStart _ _ => true
  | .captureStop _ _ => true
  | .captureFull => true
  | .traceStart _ => true
  | .traceStop _ => true
  | .traceFull => true
  | .invalidate _ => true
  | .mapFlush _ => true
  | .mapDisable _ => true
  | .mapEnable _ => true
  | .writeback _ => true
  | .invalidateDone => true
  | .flushComplete => true
  | .evictionWritebackAck => true
  | .snapshotSealed _ _ => true
  | .pageFree _ _ => true
  | .secondCoatExamine _ => true
  | .relink _ => true
  | .hotIndexReload _ _ _ => true
  | .fullIndexDeltaApply => true
  | .mediaRawRead port _ _ _ => below 48 port
  | .mediaRawProgram port _ _ _ => below 48 port
  | .mediaErase port _ _ _ => below 48 port
  | .mediaFold port _ _ _ _ => below 48 port
  | .ownerFence port _ _ => below 48 port
  | .mediaDescriptorRead port _ _ => below 48 port
  | .mediaTemperature port _ _ _ _ => below 48 port
  | .layerSplit port _ => below 48 port
  | .mediaCommandCompletion _ => true
  | .commandTimeout _ => true
  | .moduleFailed port _ => below 48 port
  | .presenceDrop port => below 48 port
  | .mediaLinkDown port _ => below 48 port
  | .linkUp port _ _ _ => below 48 port
  | .admission port => below 48 port
  | .admissionTimeout port => below 48 port
  | .absentTimeout port => below 48 port
  | .moduleReturn port _ => below 48 port
  | .substitution _ _ _ => true
  | .trowelPass _ => true
  | .foldComplete _ => true
  | .gcVictim _ => true
  | .gcCopy _ => true
  | .relocation _ => true
  | .stripeFreed _ _ => true
  | .eraseIssue port _ => below 48 port
  | .stripeFormation _ _ _ => true
  | .wearLevelling port _ => below 48 port
  | .refreshQueued port _ => below 48 port
  | .temperaturePoll port => below 48 port
  | .healthEvent port code _ => bits 8 port && bits 16 code
  | .rebuildSlot _ _ _ _ => true
  | .recoatCopy _ => true
  | .recoatComplete _ => true
  | .journalReplay _ _ _ _ => true
  | .blockEnable _ _ _ _ => true
  | .consistencyCheckDone _ => true
  | .blockDisable _ _ _ _ => true
  | .drainEnd _ => true
  | .atomicModeWrite _ _ _ => true
  | .statusAck _ _ _ => true
  | .indAddrWrite _ _ _ => true
  | .indDataRead _ _ => true
  | .indDataWrite _ _ _ => true
  | .epochLoRead _ => true
  | .bootCountLoRead _ => true
  | .registerWrite _ _ _ _ _ => true
  | .violClear _ _ => true
  | .vaultPartWrite _ _ _ => true
  | .timerStart _ _ n _ => below 8 n
  | .timerStop _ _ n _ => below 8 n
  | .timerExpiry n => below 8 n
  | .pinmuxWrite _ _ g _ => below 4 g
  | .topReset _ _ => true
  | .pgSqTail p _ => below 256 p
  | .pgCqHead p _ => below 256 p
  | .pgStatusAck p _ => below 256 p
  | .pgZeroize p _ => below 256 p
  | .mbDoorbell _ c _ => below 63 c
  | .responsePosted c => below 63 c
  | .mbRspAck _ c _ => below 63 c
  | .notification code _ _ port arg => bits 16 code && bits 8 port && atMost 16 arg
  | .mbNtfCons _ _ => true
  | .nop c => below 63 c
  | .versionGet c => below 63 c
  | .arrayCommission c _ _ _ _ _ _ _ => below 63 c
  | .rtcSet c _ => below 63 c
  | .volCreate c => below 63 c
  | .volDelete c _ => below 63 c
  | .volResize c _ _ => below 63 c
  | .nsCreate c => below 63 c
  | .nsDelete c nsid => below 63 c && bits 32 nsid
  | .nsAttach c nsid _ => below 63 c && bits 32 nsid
  | .nsDetach c nsid _ => below 63 c && bits 32 nsid
  | .nsQosSet c nsid _ => below 63 c && bits 32 nsid
  | .qosGroupSet c _ _ => below 63 c
  | .snapTake c => below 63 c
  | .snapDelete c _ => below 63 c
  | .cloneCreate c _ => below 63 c
  | .rootList c _ _ addr _ _ => below 63 c && bits 64 addr
  | .kdomCreate c _ _ => below 63 c
  | .kdomDelete c _ => below 63 c
  | .kdomModeSet c _ _ => below 63 c
  | .kdomRotate c _ => below 63 c
  | .keyLoad c => below 63 c
  | .keyGenerate c _ _ _ _ => below 63 c
  | .keyZeroize c _ => below 63 c
  | .pageOwnerSet c _ _ => below 63 c
  | .pageAssign c _ _ _ _ _ _ => below 63 c
  | .replAttach c _ _ _ => below 63 c
  | .replDetach c _ => below 63 c
  | .replStatus c _ => below 63 c
  | .windowOpen c qpn _ _ _ => below 63 c && bits 24 qpn
  | .windowRevoke c rkey => below 63 c && bits 32 rkey
  | .healthList c port => below 63 c && below 48 port
  | .moduleList c => below 63 c
  | .moduleRemove c port => below 63 c && below 48 port
  | .moduleAdmit c port => below 63 c && below 48 port
  | .lossList c _ _ addr _ _ => below 63 c && bits 64 addr
  | .recoatStart c _ _ _ => below 63 c
  | .updatePush c _ _ _ => optBelow 63 c
  | .updateStatus c _ => below 63 c
  | .updateActivate c _ => optBelow 63 c
  | .moduleConfirmTimeout => true
  | .restartHelloTimeout => true
  | .healthConfirm _ => true
  | .trialTimeout _ => true
  | .attestQuote c _ addr _ _ => below 63 c && bits 64 addr
  | .attestRecordGet c addr _ _ => below 63 c && bits 64 addr
  | .certGet c addr _ _ => below 63 c && bits 64 addr
  | .primerRom _ _ _ _ _ _ => true
  | .start ctx _ => below 4 ctx
  | .absorb ctx block => below 4 ctx && exactly 136 block
  | .tap ctx _ _ => below 4 ctx
  | .untap ctx _ => below 4 ctx
  | .final ctx _ => below 4 ctx
  | .squeeze ctx _ => below 4 ctx
  | .extend _ _ _ _ _ => true
  | .extendRequest _ _ _ _ _ => true
  | .save ctx _ => below 4 ctx
  | .restore ctx _ => below 4 ctx
  | .bootRecordSign => true
  | .bootRecordTimeout => true
  | .secAlarm _ _ => true
  | .pstateRequest _ _ => true
  | .pstateEntry _ => true
  | .pstateExit _ _ => true
  | .regulatorTimeout _ => true
  | .wake _ => true
  | .park => true
  | .ageingReplan _ _ _ => true
  | .slackLow _ _ _ => true
  | .pllLossOfLock => true
  | .pllRelock => true
  | .pfail => true
  | .pfailRelease => true
  | .dumpEnd => true
  | .resetN head => below 2 head
  | .powerOnReset head => below 2 head
  | .perstN => true
  | .thermtrip => true
  | .startPhase _ _ _ _ _ => true
  | .startHelloTimeout _ => true
  | .vaultRestore _ _ _ _ => true
  | .snagEvent => true
  | .evrFlush _ _ => true
  | .evrClear _ _ => true
  | .snagFlush => true
  | .snagFlushEnd => true
  | .evrPartitionErase => true
  | .ubiusLinkDown => true
  | .localAckTimeout _ _ => true
  | .checkpoint _ _ => true
  | .fatalFault _ _ => true
  | .activationConfirmTimeout => true
  | .breakExpectationExpiry => true

end Sys2Proof
end

