-- ==== Sys2Proof/Safety.lean ====
section
/-!
DEFINITION. What a safe run is, in the terms claims use: the block goes on, its byte memories keep their canonical form,
its queue is served first in, first out; and the parts of the state, in which claims say what a command leaves alone.
-/

namespace Sys2Proof.Machine

/-- The byte memories of the machine: the mirror of the peer's dust sheet (R311), the replication landing area (R286)
and the mirror a dump holds (R196). -/
def State.memories (s : State) : List Memory :=
  [s.ubl.mirror, s.rdm.landing] ++ (match s.vault.dump with | some x => [x.mirror] | none => [])

/-- Every byte memory is in canonical form. -/
def State.memOk (s : State) : Prop := ∀ m ∈ s.memories, m.wf = true

/-- Every waiting command fits its fields. -/
def State.queueOk (s : State) : Prop := ∀ c ∈ s.pending, c.wf = true

/-- The parts of the state: the fields of State, in its order. -/
inductive Part where
  | blk | cfg | counters | msix | top | evr | mbx | ubl | link | fe | dp | map | med | str | mlk | cip | pwr | scr | rdm | dig
  | upd | vault | draws | queue
  deriving DecidableEq, Repr

/-- Two states agree in a part. -/
def Part.same (p : Part) (s t : State) : Prop :=
  match p with
  | .blk => t.blk = s.blk
  | .cfg => t.cfg = s.cfg
  | .counters => t.counters = s.counters
  | .msix => t.msix = s.msix ∧ t.msixPending = s.msixPending ∧ t.irqs = s.irqs
  | .top => t.top = s.top
  | .evr => t.evr = s.evr
  | .mbx => t.mbx = s.mbx
  | .ubl => t.ubl = s.ubl
  | .link => t.link = s.link
  | .fe => t.fe = s.fe
  | .dp => t.dp = s.dp
  | .map => t.map = s.map
  | .med => t.med = s.med
  | .str => t.str = s.str
  | .mlk => t.mlk = s.mlk
  | .cip => t.cip = s.cip
  | .pwr => t.pwr = s.pwr
  | .scr => t.scr = s.scr
  | .rdm => t.rdm = s.rdm
  | .dig => t.dig = s.dig
  | .upd => t.upd = s.upd
  | .vault => t.vault = s.vault
  | .draws => t.draws = s.draws
  | .queue => t.pending = s.pending

/-- From `s` to `t` no part changes but those listed. -/
def Only (ps : List Part) (s t : State) : Prop := ∀ p, p ∉ ps → p.same s t

/-- A command completes: it answers a next state, and that state is as said. -/
def Done (c : Instr) (s : State) (post : State → Prop) : Prop := ∃ t, exec c s = .next t ∧ post t

/-- A mailbox request that its command runs: the channel holds it under the opcode, unanswered; its identifier is not recorded;
the domain it names, if it names one, is served here; and no object it holds is held already (R373, R375, R376). -/
def State.takesCmd (s : State) (c op : Nat) (r : List Byte) (d : Option SD) (objs : List (Nat × Nat)) : Prop :=
  s.asked c op = some r ∧ (ridOf r = 0 ∨ s.recorded (ridOf r) = none) ∧
  (∀ x, d = some x → s.owns x = true ∧ s.inGap x = false ∧ 6 ≤ s.top.phase) ∧ ∀ o ∈ objs, o ∉ s.mbx.running

/-- An event bit of a block has been set, its SEQ one further (R356). -/
def State.raisedBy (t s : State) (b : Blk) (bit : Nat) : Prop :=
  (t.blk.get b).seq = (s.blk.get b).seq + 1 ∧ ∃ e ∈ (t.blk.get b).events, e.bit = bit ∧ e.seq = (t.blk.get b).seq

end Sys2Proof.Machine
end

