-- ==== Sys2Proof/Certificates/Slice0/Obligations.lean ====
section
/-!
DEFINITION. The statements for the provers, one definition each, in the order of OBLIGATIONS.json. A clause about a command
says that the command completes and what the next state is (`Done`), with the parts of the state it may touch (`Only`).
-/

open Sys2Proof Sys2Proof.Machine

/-- Where the domain is powered and nobody holds claim 0, CAPTURE_START and TRACE_START claim it for their user (0x10,
0x11), clear the reason, empty the buffer for it and, for Screed, take the loop number; CAPTURE_STOP and TRACE_STOP of
the holder release it; CAPTURE_FULL and TRACE_FULL release it once 4,096 records are held, the former setting CAP_DONE
and its event. Nothing but the parts listed changes. SCREED_TICK with nothing late: the die temperatures are taken,
the loops that are stopped or due take their buffered words, the first 64 loops that run, are due and powered are
evaluated in number order (one without an input misses), the tokens fill, the tick number advances and the loops left
over are late. LOOP_DEADLINE_MISS: each loop that is late misses, and none is late. Evaluating a loop with no target
puts what the control law gives into OUT and counts a sample; a miss counts in LSTAT and in SCR_MISSED, sets its event
and leaves OUT. (R341, R304, R362, R331, R333, R339.) -/
def Obligations.ScreedAndTheCaptureBuffer : Prop :=
  (∀ (r : Requester) (loop : Nat) (s : State), s.powered .scr = true → s.claimHolder 0 = 0 → 0 < s.top.claims.length →
     Done (.captureStart r loop) s fun t => t = { (s.claim 0 0x10).2 with scr := { s.scr with
       capLoop := loop % 256, capReason := 0, capDone := false, cap := s.scr.cap.start 0x10 } } ∧ t.claimHolder 0 = 0x10 ∧ Only [.top, .scr] s t) ∧
  (∀ (r : Requester) (loop : Nat) (s : State), s.powered .scr = true → s.claimHolder 0 = 0x10 →
     Done (.captureStop r loop) s fun t => t = { s.release 0 0x10 with scr := { s.scr with capLoop := loop % 256 } } ∧
     t.claimHolder 0 = 0 ∧ Only [.top, .scr] s t) ∧
  (∀ (s : State), s.capturing = true → s.claimHolder 0 = 0x10 → s.scr.cap.owner = 0x10 → 4096 ≤ s.scr.cap.recs.length →
     Done .captureFull s fun t => t = ({ s.release 0 0x10 with scr := { s.scr with capDone := true } } : State).raise
     .scr 2 ∧ t.claimHolder 0 = 0 ∧ t.raisedBy s .scr 2 ∧ Only [.top, .scr, .blk, .msix] s t) ∧
  (∀ (r : Requester) (s : State), s.powered .rdm = true → s.claimHolder 0 = 0 → 0 < s.top.claims.length →
     Done (.traceStart r) s fun t => t =
     { (s.claim 0 0x11).2 with rdm := { s.rdm with traceReason := 0 }, scr := { s.scr with cap := s.scr.cap.start 0x11 } }
     ∧ t.claimHolder 0 = 0x11 ∧ Only [.top, .scr, .rdm] s t) ∧
  (∀ (r : Requester) (s : State), s.powered .rdm = true → s.claimHolder 0 = 0x11 →
     Done (.traceStop r) s fun t => t = s.release 0 0x11 ∧ t.claimHolder 0 = 0 ∧ Only [.top] s t) ∧
  (∀ (s : State), s.claimHolder 0 = 0x11 → s.scr.cap.owner = 0x11 → 4096 ≤ s.scr.cap.recs.length →
     Done .traceFull s fun t => t = s.release 0 0x11 ∧ t.claimHolder 0 = 0 ∧ Only [.top] s t) ∧
  (∀ (s s1 s2 s3 : State) (temps : List (Nat × Int)) (late : Bool) (ids due : List Nat), s.powered .scr = true → s.works .scr = true → s.scr.late = [] →
     s1 = { s with scr := { s.scr with late := [], temps := temps.foldl (fun t x => Table.put t x.1 x.2) [] } } → ids = s.scr.loops.map Prod.fst →
     s2 = ids.foldl (fun u n => if (u.loop n).running = true ∧ (!(u.loop n).dueAt s.scr.tick) = true then u else u.applyLoop n) s1 →
     due = ids.filter (fun n => (s2.loop n).running && (s2.loop n).dueAt s.scr.tick && s2.loopPowered (s2.loop n)) →
     s3 = ((due.map fun n => (n, s2.loopInput (s2.loop n))).take 64).foldl (fun u x => match x.2 with | some v => u.evalLoop late x.1 v | none => u.missLoop x.1) s2 →
     Done (.screedTick temps late) s fun t => t = { s3.fillTokens with scr := { s3.fillTokens.scr with tick := s.scr.tick + 1, late := due.drop 64 } }) ∧
  (∀ (s s1 : State), s1 = s.scr.late.foldl State.missLoop s →
     Done .loopDeadlineMiss s fun t => t = { s1 with scr := { s1.scr with late := [] } }) ∧
  (∀ (s : State) (late : Bool) (n : Nat) (y : Int), (s.loop n).words.length = 16 → (s.loop n).tgt = 0 →
     ((s.evalLoop late n y).loop n).w 14 = wordOf ((s.loop n).test.2.law y (s.loop n).test.1).out ∧
     (s.evalLoop late n y).counter .scrSamples = s.counter .scrSamples + 1) ∧
  (∀ (s : State) (n : Nat), (s.loop n).words.length = 16 →
     ((s.missLoop n).loop n).misses = min 255 ((s.loop n).misses + 1) ∧
     ((s.missLoop n).loop n).w 14 = (s.loop n).w 14 ∧ (s.missLoop n).counter .scrMissed = s.counter .scrMissed + 1 ∧
     (s.missLoop n).raisedBy s .scr 0)

/-- For every descriptor whose output and integrator limits are ordered and whose integrator starts within its limits, and
for every input and test value, the sample of R339 has its output between OUT_MIN and OUT_MAX and its integrator
between its limits. (R339.) -/
def Obligations.ControlLawStaysInLimits : Prop :=
  (∀ (l : Loop) (y x : Int), sWord (l.w 6) ≤ sWord (l.w 7) → sWord (l.w 8) ≤ sWord (l.w 9) →
     sWord (l.w 8) ≤ sWord (l.w 12) → sWord (l.w 12) ≤ sWord (l.w 9) → sWord (l.w 6) ≤ (l.law y x).out ∧
     (l.law y x).out ≤ sWord (l.w 7) ∧ sWord (l.w 8) ≤ (l.law y x).integ ∧ (l.law y x).integ ≤ sWord (l.w 9))

/-- ZEROIZE_DONE empties the slot and sets the page event; NONCE_SAFE lets packs draw nonces once the SLOT_EPOCH is safe;
on an open page PG_SQ_TAIL takes a tail below the ring size, PG_CQ_HEAD takes the head and posts what waited for room,
PG_STATUS_ACK clears the page events its SEQ covers and PG_ZEROIZE zeroizes each selected slot; an offload message at
the head of an owned page's ring, with room in the stream table, whose descriptor binds a stream, advances SQ_HEAD and
enters the stream, which runs to its end and ends if all its data is there. Zeroizing a slot that is not empty puts it
into STATE 3 without its key; a stream in CBC, CFB or CTR that runs to its end gives what the mode gives for the whole
message. (R241, R244, R249, R250, R356, R233.) -/
def Obligations.CipherPages : Prop :=
  (∀ (s : State) (slot : Nat), slot ∈ s.cip.zeroizing →
     Done (.zeroizeDone slot) s fun t => t = ((s.setSlot slot KSlot.empty).updCip fun c =>
     { c with zeroizing := c.zeroizing.filter (· ≠ slot) }).pageRaise (slot / 16) 2 ∧ t.kslot slot = KSlot.empty ∧
     slot ∉ t.cip.zeroizing ∧ Only [.cip, .msix] s t) ∧
  (∀ (s : State) (slot : Nat) (e : DWord), (s.kslot slot).safeWait = some e → s.slotEpochSafe e = true →
     Done (.nonceSafe slot) s fun t => t = s.setSlot slot { s.kslot slot with safeWait := none } ∧
     t.kslot slot = { s.kslot slot with safeWait := none } ∧ Only [.cip] s t) ∧
  (∀ (s : State) (p : Nat) (v : Word), s.pageOpen p = true → v.toNat < 4096 → v.toNat < (s.upage p).sqSize →
     Done (.pgSqTail p v) s fun t => t = s.setPage p { s.upage p with sqTail := v.toNat } ∧
     t.upage p = { s.upage p with sqTail := v.toNat } ∧ Only [.cip] s t) ∧
  (∀ (s : State) (p : Nat) (v : Word), s.pageOpen p = true →
     Done (.pgCqHead p v) s fun t => t = (s.setPage p { s.upage p with cqHead := bitsOf v.toNat 11 0 }).postHeld p) ∧
  (∀ (s : State) (p : Nat) (v : Word), s.pageOpen p = true → ((s.upage p).seq - BitVec.ofNat 8 v.toNat).toNat < 128 →
     Done (.pgStatusAck p v) s fun t => t = s.setPage p { s.upage p with
       events := (s.upage p).events.filter fun e => !(e.2.2 || decide ((BitVec.ofNat 8 v.toNat - e.2.1).toNat < 128)) } ∧ Only [.cip] s t) ∧
  (∀ (s : State) (p : Nat) (v : Word), s.pageOpen p = true →
     Done (.pgZeroize p v) s fun t => t = ((List.range 16).filter fun i => v.toNat.testBit i).foldl (fun u i =>
     u.zeroize (16 * p + i)) s ∧ Only [.cip] s t) ∧
  (∀ (s s2 : State) (p : Nat) (desc aad tag : List Byte) (src : Option (List Byte)) (whole dstOk : Bool) (x : Stream)
     (bound : List Stream), bound = s.cip.streams.filter (fun y => y.res.isNone) → bound.length < 1024 →
     (bound.filter fun y => decide (y.page = p)).length < 4 → (s.upage p).owner = 1 → (s.upage p).assigned = true →
     (s.upage p).sqSize ≠ 0 → (s.upage p).sqHead ≠ (s.upage p).sqTail → (s.upage p).heldCpl = [] →
     s.works .cip = true → s.powered .cip = true → (s.setPage p
     { s.upage p with sqHead := ((s.upage p).sqHead + 1) % (s.upage p).sqSize }).fetched p (s.upage p).sqHead (fit desc
     64) src aad tag dstOk = (.bound x, s2) →
     Done (.offloadMessage p desc src aad tag ⟨whole, dstOk⟩) s fun t => t = if whole = true then (s2.updCip fun c =>
     { c with streams := c.streams ++ [Stream.run x.todo.length x] }).endStreams else s2.updCip fun c =>
     { c with streams := c.streams ++ [x] }) ∧
  (∀ (s : State) (slot : Nat), (s.kslot slot).state ≠ 0 → ((s.zeroize slot).kslot slot).state = 3 ∧
     ((s.zeroize slot).kslot slot).key = [] ∧ slot ∈ (s.zeroize slot).cip.zeroizing ∧ Only [.cip] s (s.zeroize slot)) ∧
  (∀ (x : Stream), x.mode ≤ 2 → x.out = [] → (Stream.run x.todo.length x).out =
     (match x.mode with
     | 0 => if x.dec = true then cbcDecBlocks x.key x.chain (blocksOf x.todo) else cbcEncBlocks x.key x.chain (blocksOf x.todo)
     | 1 => if x.dec = true then cfbDecBlocks x.key x.chain (blocksOf x.todo) else cfbEncBlocks x.key x.chain (blocksOf x.todo)
     | _ => ctrBlocks x.key x.ctr (blocksOf x.todo)).flatten)

/-- With MAP enabled, powered and idle: INVALIDATE of a clean cache clears it and becomes busy; FLUSH turns write-through
on and becomes busy; DISABLE of a clean cache ends with EN 0; ENABLE of an invalidated cache ends with EN 1 and write-
back; WRITEBACK of an enabled cache ends write-through; each leaves its number in LAST_OP and no reason, and those
that end at once set OP_DONE. INVALIDATE_DONE and FLUSH_COMPLETE end the operation in progress with OP_DONE, the
latter with nothing dirty and an empty eviction buffer; an eviction acknowledgement takes the oldest entry of the
eviction buffer. Clearing leaves no tag, no VALID or DIRTY bit and no walk entry. (R148, R146, R144, R150.) -/
def Obligations.MapCacheOperations : Prop :=
  (∀ (r : Requester) (s : State), s.powered .map = true → (s.blk.get .map).enable = true → s.map.busy = 0 →
     s.map.dirtyCount = 0 →
     Done (.invalidate r) s fun t => t = (s.updMap fun m =>
     { { m with lastOp := 1, refused := false, reason := 0 }.clear with busy := 1 }) ∧ Only [.map] s t) ∧
  (∀ (r : Requester) (s : State), s.powered .map = true → (s.blk.get .map).enable = true → s.map.busy = 0 →
     Done (.mapFlush r) s fun t => t = (s.updMap fun m =>
     { m with wt := true, busy := 2, lastOp := 2, refused := false, reason := 0 }) ∧ Only [.map] s t) ∧
  (∀ (r : Requester) (s : State), s.powered .map = true → (s.blk.get .map).enable = true → s.map.busy = 0 →
     s.map.dirtyCount = 0 →
     Done (.mapDisable r) s fun t => t = (s.updMap fun m =>
     { m with en := false, invalidated := false, wt := false, lastOp := 3, refused := false, reason := 0 }).raise .map
     0 ∧ t.raisedBy s .map 0 ∧ Only [.map, .blk, .msix] s t) ∧
  (∀ (r : Requester) (s : State), s.powered .map = true → (s.blk.get .map).enable = true → s.map.busy = 0 →
     s.map.invalidated = true →
     Done (.mapEnable r) s fun t => t = (s.updMap fun m =>
     { m with en := true, wt := false, lastOp := 4, refused := false, reason := 0 }).raise .map 0 ∧
     t.raisedBy s .map 0 ∧ Only [.map, .blk, .msix] s t) ∧
  (∀ (r : Requester) (s : State), s.powered .map = true → (s.blk.get .map).enable = true → s.map.busy = 0 →
     s.map.en = true →
     Done (.writeback r) s fun t => t = (s.updMap fun m =>
     { m with wt := false, lastOp := 5, refused := false, reason := 0 }).raise .map 0 ∧ t.raisedBy s .map 0 ∧
     Only [.map, .blk, .msix] s t) ∧
  (∀ (s : State), s.map.busy = 1 →
     Done .invalidateDone s fun t => t = (s.updMap fun m => { m with busy := 0, invalidated := true }).raise .map 0 ∧
     t.raisedBy s .map 0 ∧ Only [.map, .blk, .msix] s t) ∧
  (∀ (s : State), s.map.busy = 2 →
     Done .flushComplete s fun t => t = (s.updMap fun m =>
     { m with busy := 0, evb := [], sets := Table.mapV (fun l => l.map fun x => { x with dirty := 0 }) m.sets }).raise
     .map 0 ∧ t.raisedBy s .map 0 ∧ Only [.map, .blk, .msix] s t) ∧
  (∀ (s : State),
     Done .evictionWritebackAck s fun t => t = (s.updMap fun m => { m with evb := m.evb.drop 1 }) ∧ Only [.map] s t) ∧
  (∀ (m : MapState), m.clear.walk = [] ∧ ∀ e ∈ m.clear.sets, ∀ x ∈ e.2, x.tag = none ∧ x.valid = 0 ∧ x.dirty = 0)

/-- SNAPSHOT_SEALED of a snapshot whose volume is quiet up to its point, with no replay under way, marks its root sealed
by a delta; PAGE_FREE of a page whose SHARE is 0 removes its record, its place and its mark, leaves the tiers and
drops what its entries name, with the root once its last page is gone; a second-coat examination for which credit is
left spends its cost, moves the cursor one granule on and queues the re-link of a pair that stands (read and compared
first in verify mode); RELINK takes effect in its turn once the leaf sector is there, and a granule that is unchanged
gets the canonical entry and is counted; HOT_INDEX_RELOAD enters the full index's entry with SRC 1;
FULL_INDEX_DELTA_APPLY applies the oldest waiting delta; CHECKPOINT of sealed logs, with no index delta waiting,
writes the pages they touched into metadata packs and moves on, and goes on with one under way. (R100, R104, R107,
R108, R155, R156, R161.) -/
def Obligations.MetadataUpkeep : Prop :=
  (∀ (s : State) (d : SD) (root : Nat) (r : RootRec) (v : Nat), s.up .map = true →
     Table.find (s.metaOf d).roots root = some r → r.parent = some v → r.kind = 1 → r.isSealed = false →
     s.replaying d = false → s.rootQuiet d v (some r.point) = true →
     Done (.snapshotSealed d root) s fun t => t = s.delta d (.root root (some { r with isSealed := true }))) ∧
  (∀ (s s1 : State) (d : SD) (mpid : Nat) (p : Page), Table.find (s.metaOf d).pages mpid = some p → p.share = 0 → s.up .map = true → s.owns d = true → s.logFull d = false →
     s1 = (((s.delta d (.page mpid none)).delta d (.pageAt mpid none)).delta d (.freeing mpid none)).leaveTiers d mpid →
     Done (.pageFree d mpid) s fun t => ∃ s2, s2 = p.ents.foldl (fun u x => if p.level = 0
         then (match (MapEnt.ofWord x.2).loc? with | some l => u.subRef d l | none => u)
         else (match dirChild x.2 with | some k => u.dropChild d (Table.find (s.metaOf d).freeing mpid) k | none => u)) s1 ∧
       t = match Table.find (s.metaOf d).freeing mpid with | some r => s2.dropRoot d r | none => s2) ∧
  (∀ (s s1 : State) (d : SD) (c : Cursor) (verify : Bool), s.up .dp = true → s.up .map = true → s.owns d = true → s.logFull d = false →
     s.coatAt d (s.metaOf d).coat = some c →
     verify = ((s.coatPair d c).isSome && decide (((Table.find s.dp.kdoms c.x).map (·.mode)) = some .verify)) → coatCost verify ≤ s.dp.coatLeft →
     s1 = (s.updDp fun p => { p with coatLeft := p.coatLeft - coatCost verify }).delta d (.cursor 2 { c with z := c.z + 1 }) →
     Done (.secondCoatExamine d) s fun t => t = match s.coatPair d c with
       | none => s1
       | some (x, rx, cp, rc) => if verify = true
         then (if (s1.coatVerify d x cp rx rc).1 = true then (s1.coatVerify d x cp rx rc).2.updDp fun p => { p with pend := p.pend ++ [.relink d c.y c.z x cp] } else (s1.coatVerify d x cp rx rc).2)
         else s1.updDp fun p => { p with pend := p.pend ++ [.relink d c.y c.z x cp] }) ∧
  (∀ (s : State) (i : Nat) (d : SD) (root gran x c : Nat), s.dp.pend[i]? = some (.relink d root gran x c) →
     s.up .map = true → s.logFull d = false → s.mapReady d root gran = true →
     s.pendFirst i (.relink d root gran x c) = false →
     Done (.relink i) s fun t => t = s.evbHold (s.relink d root gran x c)) ∧
  (∀ (s : State) (d : SD) (ddom : Nat) (fp : List Byte) (loc : Nat), (s.metaOf d).fullAt (fullKey ddom fp) = some loc →
     s.owns d = true → s.up .dp = true →
     Done (.hotIndexReload d ddom fp) s fun t => t = (s.updDp fun p => (p.insertHot ⟨fTag (fit fp 24), loc, ddom, true,
     d, true, s.epoch48, 0⟩ (fit fp 24)).1) ∧ Only [.dp] s t) ∧
  (∀ (s : State) (d : SD) (x : Delta) (q : List (SD × Delta)), s.dp.fullQ = (d, x) :: q →
     Done .fullIndexDeltaApply s fun t => t = ((s.updDp fun p => { p with fullQ := q }).setMeta d ((s.metaOf
     d).applyFull x)) ∧ Only [.dp, .map] s t) ∧
  (∀ (s : State) (d : SD) (n : Nat), s.owns d = true → s.up .map = true → s.logFull d = false →
     (s.dp.fullQ.any fun e => decide (e.1 = d)) = false → s.map.work.get d = none → 0 < n → s.map.logs.get d ≠ [] →
     Done (.checkpoint d n) s fun t => t = s.ckptGo d ⟨min n (s.map.logs.get d).length, s.ckptPages d (min n
     (s.map.logs.get d).length), []⟩) ∧
  (∀ (s : State) (d : SD) (n : Nat) (w : CkptWork), s.owns d = true → s.up .map = true → s.logFull d = false →
     (s.dp.fullQ.any fun e => decide (e.1 = d)) = false → s.map.work.get d = some w →
     Done (.checkpoint d n) s fun t => t = s.ckptGo d w) ∧
  (∀ (s : State) (d : SD) (root gran x c : Nat) (r : RefRec), (MapEnt.ofWord (entryOf (s.metaOf d) root gran)).loc? =
     some x → s.refOf d c = some r → r.hitOk = true → (s.relink d root gran x c).counter .dpCoatRelinked = s.counter
     .dpCoatRelinked + 1 ∧ Pend.relink d root gran x c ∉ (s.relink d root gran x c).dp.pend)

/-- On one of the four contexts: START clears the context (and, keyed, feeds the key); ABSORB absorbs one block and counts
it; TAP binds the context to its source with the declared length; UNTAP absorbs what passed, ends the tap and reports
the bytes seen, with the reason where they differ from the length declared; FINAL completes the tail block; SQUEEZE
returns bytes of a finished context only. The digest state and the result are all that changes. (R383, R385.) -/
def Obligations.DigestEngineOperations : Prop :=
  (∀ (s : State) (c : Nat), c < 4 →
     Done (.start c none) s fun t => t = (s.updCtx c fun _ => DCtx.clear false).digDone 0 [] ∧ Only [.dig] s t) ∧
  (∀ (s : State) (c : Nat) (b : List Byte), c < 4 →
     Done (.absorb c b) s fun t => t = (s.updCtx c fun x =>
     { x with st := keccakAbsorb x.st (fit b 136), count := x.count + 136, finished := false }).digDone 0 [] ∧
     Only [.dig] s t) ∧
  (∀ (s : State) (c src n : Nat), c < 4 → src < 2 →
     Done (.tap c src n) s fun t => t = (s.updCtx c fun x =>
     { x with tap := some ⟨src, n, 0⟩, finished := false }).digDone 0 [] ∧ Only [.dig] s t) ∧
  (∀ (s : State) (c : Nat) (x : DTap) (b : List Byte), (s.ctx c).tap = some x →
     Done (.untap c b) s fun t => t = (s.updCtx c fun y => { y.feed (b.take x.len) with tap := none }).digDone (if
     b.length < x.len then 0x0205 else if b.length > x.len then 0x0206 else 0) (leBytes 8 b.length) ∧ Only [.dig] s t) ∧
  (∀ (s : State) (c : Nat) (p : List Byte), c < 4 → 136 - (s.ctx c).tail.length ≤ p.length →
     Done (.final c p) s fun t => t = (s.updCtx c fun x =>
     { x.feed (p.take (136 - (s.ctx c).tail.length)) with finished := true }).digDone (if p.length > 136 - (s.ctx
     c).tail.length then 0x0206 else 0) [] ∧ Only [.dig] s t) ∧
  (∀ (s : State) (c n : Nat), c < 4 → n ≤ 136 → (s.ctx c).finished = true →
     Done (.squeeze c n) s fun t => t = (s.updCtx c fun x => { x with st := keccakF x.st }).digDone 0 ((keccakBytes
     (s.ctx c).st).take n) ∧ Only [.dig] s t) ∧
  (∀ (s : State) (c n : Nat), c < 4 →
     Done (.start c (some n)) s fun t => t = (s.updCtx c fun _ => (DCtx.clear true).feed (storeKey n)).digDone 0 [] ∧
     Only [.dig] s t)

/-- Where no alarm has come, EXTEND of a register with 72 bytes extends it by one absorbed block, and an allowed
EXTEND_REQUEST asks over the trust port, does the same with the padded digest (noting the core's own register 5) and
answers 0; the register takes the value of the block absorbed after its old one, its entry goes into the log while
there is room and the answer has no reason; SAVE of an unkeyed context exports its 344 bytes, a wrapped SAVE draws a
nonce, notes it and exports the wrapped bytes; RESTORE of 344 bytes loads them, unkeyed; SEC_ALARM zeroizes contexts,
measurement registers, counts and the wrap key, drops the exports, posts its event and its snag; the boot record is
signed once, when register 5 is extended and every module admitted or the time is over. Only the listed parts change.
(R384, R386, R387, R391, R393, R394.) -/
def Obligations.MeasurementAndAlarm : Prop :=
  (∀ (s : State) (i : Nat) (b : List Byte) (ev sub : Nat) (un : Bool), s.dig.alarmed = false → i < 24 → b.length = 72 →
     Done (.extend i b ev sub un) s fun t => t = s.extendReg i b ev sub un) ∧
  (∀ (s : State) (i : Nat) (d : List Byte) (ev sub : Nat) (un : Bool), s.dig.alarmed = false →
     s.mayExtend i ev = true →
     Done (.extendRequest i ev sub un d) s fun t => t = (((s.askTrust (LogEnt.bytes ⟨i, ev, sub, un, d⟩)).updDig fun g
     => { g with m5 := g.m5 || decide (i = 5) }).extendReg i (extendInput d) ev sub un).replyTrust [0, 0]) ∧
  (∀ (s : State) (c : Nat), c < 4 → (s.ctx c).keyed = false →
     Done (.save c false) s fun t => t = s.digDone 0 (s.ctx c).raw ∧ Only [.dig] s t) ∧
  (∀ (s : State) (c : Nat) (b : List Byte), c < 4 → b.length = 344 →
     Done (.restore c b) s fun t => t = (s.updCtx c fun _ => DCtx.ofRaw false b).digDone 0 [] ∧ Only [.dig] s t) ∧
  (∀ (s : State) (n : Nat) (be : Bool), (n % 16 ≠ 0 ∨ be = true) →
     Done (.secAlarm n be) s fun t => ∃ u : State, u = (s.updDig fun g => { g with
         ctxs := List.replicate 4 (DCtx.clear false), m := List.replicate 24 (zeros 64), counts := List.replicate 24 0
         wrapKey := zeros 32, exports := [], alarmed := true, busError := g.busError || be, inputs := g.inputs ||| (n % 16) }) ∧
       t = (u.raise .dig 0).snag 0x11 0x1006 none 0xFF (leBytes 1 u.alarmByte) ∧ Only [.dig, .blk, .msix, .evr, .counters, .draws] s t) ∧
  (∀ (s : State) (b : List Byte × State), b = s.signBody (s.recordBody false []) → s.upd.core0 = true →
     s.dig.m5 = true → 4 ≤ s.top.phase → (s.mlk.ports.any fun x => decide (x.2.state = 1)) = false →
     s.dig.recordSigned = false → s.dig.alarmed = false →
     Done .bootRecordSign s fun t => t = (b.2.updDig fun g => { g with record := b.1, recordSigned := true }).raise
     .dig 1 ∧ t.raisedBy s .dig 1 ∧ Only [.dig, .blk, .msix] s t) ∧
  (∀ (s : State) (b : List Byte × State), b = s.signBody (s.recordBody false []) → s.upd.core0 = true →
     s.dig.recordSigned = false → s.dig.alarmed = false →
     Done .bootRecordTimeout s fun t => t = (b.2.updDig fun g => { g with record := b.1, recordSigned := true }).raise
     .dig 1 ∧ t.raisedBy s .dig 1 ∧ Only [.dig, .blk, .msix] s t) ∧
  (∀ (s : State) (c : Nat), c < 4 → s.dig.exports.length < 16 →
     Done (.save c true) s fun t => t = (s.draw.2.updDig fun g =>
     { g with exports := g.exports ++ [leAt s.draw.1 0 8] }).digDone 0 (wrapCtx s.dig.wrapKey (leAt s.draw.1 0 8) c
     (s.ctx c)) ∧ Only [.dig, .draws] s t) ∧
  (∀ (s : State) (i : Nat) (b : List Byte) (ev sub : Nat) (un : Bool), s.dig.log.length < 1024 →
     (s.extendReg i b ev sub un).dig.m[i]? = s.dig.m[i]?.map (fun m => extendValue m b) ∧
     (s.extendReg i b ev sub un).dig.last.reason = 0 ∧ (s.extendReg i b ev sub un).dig.log = s.dig.log ++ [⟨i, ev, sub,
     un, b.take 64⟩] ∧ Only [.dig] s (s.extendReg i b ev sub un))

/-- A write of PWR_PSTATE_REQ starts a transition to the state named when none is in flight; an entry whose preparation
has ended enters its target, and one to P1 or P2 first becomes prepared when no row of the entry table refuses; an
exit restores the banks, resumes the blocks and ends in P0; a latched wake cancels what is pending and starts an exit;
PARK prepares the head and asks the peer for the break; a first missed regulator acknowledge is retried, a second
raises the event and the snag and refuses an entry that stands on it; a re-plan that is due takes the delays and ring
counts, plans each rail and sets the next one 30 days on (assumption 131 names the clocks); a slack below 10 ps raises
its rail by 5 mV at once, to its limit; a PLL that loses lock resets the chip with the clocks held and the tone on,
and a relock lets them go. The bit of the loss of lock in the fault status is the model's choice (assumption 97).
(R415, R416, R420, R422, R419, R426, R427, R413.) -/
def Obligations.PowerStateCommands : Prop :=
  (∀ (r : Requester) (v : Word) (s : State), s.powered .pwr = true → s.pwr.current = 0 → v.toNat < 4 → v ≠ 0 →
     s.pwr.inflight = false →
     Done (.pstateRequest r v) s fun t => t = s.startTransition (v.toNat % 4) ∧ t.pwr.inflight = true ∧
     t.pwr.target = v.toNat % 4 ∧ Only [.pwr] s t) ∧
  (∀ (s : State) (p : Bool), s.pwr.inflight = true → s.pwr.target ≠ 0 → s.pwr.current = 0 → s.pwr.pllHeld = false →
     s.pwr.pfail = 0 → s.pwr.prepared = true →
     Done (.pstateEntry p) s fun t => t = s.enter s.pwr.target) ∧
  (∀ (s s1 : State), s1 = s.prepareEntry s.pwr.target → s.pwr.inflight = true → s.pwr.target = 1 ∨ s.pwr.target = 2 →
     s.pwr.current = 0 → s.pwr.pllHeld = false → s.pwr.pfail = 0 → s.pwr.prepared = false →
     s1.entryRow s.pwr.target = none →
     Done (.pstateEntry true) s fun t => t = s1.updPwr fun p => { p with prepared := true }) ∧
  (∀ (s : State) (bad : List Nat) (ok : Bool), s.pwr.inflight = true → s.pwr.current ≠ 0 → s.pwr.pllHeld = false →
     (s.pwr.current = 3 → ok = true) → ((s.leave bad).resume s.pwr.current).pwr.target = 0 →
     Done (.pstateExit bad ok) s fun t => t = (((s.leave bad).resume s.pwr.current).endRequest 0 0).transitionEnded) ∧
  (∀ (s : State) (x : Nat), 4 ≤ x → x ≤ 8 → (x ≠ 5 ∨ s.pwr.wakeTime ≤ s.pwr.rtc) → wakesIn x s.pwr.current = true →
     s.pwr.current ≠ 0 → s.pwr.current ≠ 3 → s.pwr.inflight = false → s.pwr.pllHeld = false →
     Done (.wake x) s fun t => t = (s.wakeEvent x).cancelPending.startTransition 0 ∧ t.pwr.inflight = true ∧
     t.pwr.target = 0) ∧
  (∀ (s : State), s.pwr.inflight = true → s.pwr.target = 3 → s.pwr.current = 0 → s.pwr.pllHeld = false →
     s.pwr.prepared = false → s.pwr.parkWait = false →
     Done .park s fun t => t = (s.prepareEntry 3).park ∧ t.pwr.parkWait = true ∧ t.pwr.parked = true ∧
     t.ubl.expectBreak = true ∧ t.ubl.hbState = 3) ∧
  (∀ (s : State) (r : Nat), r < 4 → s.powered .pwr = true → r ∉ s.pwr.avsTry →
     Done (.regulatorTimeout r) s fun t => t = (s.updPwr fun p => { p with avsTry := p.avsTry ++ [r] }) ∧
     Only [.pwr] s t) ∧
  (∀ (s : State) (ds : List Int) (rs : List Nat) (reads : List (List Int)), s.pwr.current = 0 → s.pwr.inflight = false → s.pwr.pllHeld = false → s.upd.core0 = true → s.replanNow = true →
     Done (.ageingReplan ds rs reads) s fun t => t = (List.range 4).foldl (fun u r => u.replanRail reads r) (s.updPwr fun p => { p with
         delays := (ds.take 64).zipIdx.map fun x => (x.2, x.1)
         rings := (rs.take 32).zipIdx.map fun x => (x.2, x.1)
         replanDue := false, replanAt := p.rtc + BitVec.ofNat 64 (30 * 86400 * 1000000), replanP0 := p.p0Time + BitVec.ofNat 64 (30 * 86400 * 1000000) })) ∧
  (∀ (s : State) (n r : Nat) (x : Int), n < 64 → r < 4 → x < 10 → domainOn s.pwr.current 3 = true →
     s.pwr.pllHeld = false →
     Done (.slackLow n r x) s fun t => t = (s.updPwr fun p =>
     { p with delays := Table.put p.delays n x, avs := p.avs.set r (min (p.avs.getD r 0 + 5) (max (p.avs.getD r 0) (vmax r))), avsTry := p.avsTry.filter (· ≠ r), replanDue := true }).raise
     .pwr 7 ∧ t.raisedBy s .pwr 7 ∧ Only [.pwr, .blk, .msix] s t) ∧
  (∀ (s : State), s.pwr.pllHeld = false → s.pwr.current ≠ 3 →
     Done .pllLossOfLock s fun t => t = (((s.fullReset 0x10).updPwr fun p =>
     { p with pllHeld := true, faultStatus := p.faultStatus ||| 16 }).updUbl fun u => { u with tone := true }).sendRaw
     .tone ∧ t.pwr.pllHeld = true ∧ t.top.resetCause = 0x10 ∧ t.ubl.tone = true ∧ t.map.flash = s.map.flash ∧
     t.vault.dump = s.vault.dump) ∧
  (∀ (s : State), s.pwr.pllHeld = true →
     Done .pllRelock s fun t => t = ((s.updPwr fun p => { p with pllHeld := false }).updUbl fun u =>
     { u with tone := false }) ∧ Only [.pwr, .ubl] s t) ∧
  (∀ (s s1 : State) (r : Nat), r < 4 → s.powered .pwr = true → r ∈ s.pwr.avsTry →
     s1 = ((s.updPwr fun p => { p with avsTry := p.avsTry.filter (· ≠ r) }).raise .pwr 5).snag 1 0x1008 none 0xFF
     (leBytes 1 r) →
     Done (.regulatorTimeout r) s fun t => t = if s1.pwr.inflight = true ∧ s1.pwr.target ≠ 0 ∧
     s1.pwr.prepared = true then s1.refuseEntry rsnRegulator 0xF0 0 else s1)

/-- RESET_N and POWER_ON_RESET are full-chip resets with causes 0x08 and 0x04 that keep what lies on flash; PERST_N
empties the MSI-X table, its pending bits and TOP_INT_EN and takes back the head's register styles; THERMTRIP latches
its output and nothing else; a fatal fault turns the fault tone on and snags; PFAIL asks for a snag flush and, in
phase 6 of P0 or P1, makes the dump (the own sheet, the journal and the mirror as they stand), else idles the ports;
DUMP_END has the dump written and ends it, idles the ports and resets if PFAIL has been released meanwhile;
PFAIL_RELEASE after the dump resets with cause 0x80, and during it is noted. (R438, R440, R445, R459, R319.) -/
def Obligations.ResetsAndFaults : Prop :=
  (∀ (s : State) (h : Nat), s.pwr.pfail ≠ 1 →
     Done (.resetN h) s fun t => t = ((s.fullReset 0x08).updTop fun x => { x with head := h % 2 }).updPwr (fun p =>
     { p with pllHeld := s.pwr.pllHeld }) ∧ t.top.resetCause = 0x08 ∧ t.top.phase = 0 ∧ t.top.head = h % 2 ∧
     t.map.flash = s.map.flash ∧ t.vault.dump = s.vault.dump ∧ t.pwr.rtc = s.pwr.rtc ∧ t.blk = State.reset.blk ∧
     t.pending = s.pending) ∧
  (∀ (s : State) (h : Nat),
     Done (.powerOnReset h) s fun t => t = s.powerOn h ∧ t.top.resetCause = 0x04 ∧ t.top.phase = 0 ∧
     t.top.head = h % 2 ∧ t.map.flash = s.map.flash ∧ t.pwr.thermtrip = false ∧ t.pwr.rtcSet = false ∧
     t.pwr.pllHeld = false ∧ t.blk = State.reset.blk ∧ t.pending = s.pending) ∧
  (∀ (s s1 : State), s1 = Blk.all.foldl (fun u b => u.updBlk b fun k =>
     { k with style := k.style.set .head 0, indAddr := k.indAddr.set .head 0 }) s →
     Done .perstN s fun t => t = ({ s1 with msix := [], msixPending := [] } : State).updTop (fun x =>
     { x with intEn := 0 }) ∧ (∀ b, (t.blk.get b).seq = (s.blk.get b).seq ∧
     (t.blk.get b).events = (s.blk.get b).events ∧ (t.blk.get b).enable = (s.blk.get b).enable) ∧
     Only [.blk, .msix, .top] s t) ∧
  (∀ (s : State),
     Done .thermtrip s fun t => t = (s.updPwr fun p => { p with thermtrip := true }) ∧ Only [.pwr] s t) ∧
  (∀ (s : State) (c k : Nat), s.upd.core0 = true → s.pwr.pllHeld = false →
     Done (.fatalFault c k) s fun t => t = ((s.updUbl fun u => { u with tone := true }).snag 0x10 0x100D none 0xFF
     (leBytes 4 c ++ leBytes 6 k)).sendRaw .tone ∧ t.ubl.tone = true) ∧
  (∀ (s s1 : State), s.pwr.pfail = 0 → s.pwr.pllHeld = false → s.top.phase = 6 → s.pwr.current ≤ 1 →
     s1 = (s.updPwr fun p => { p with pfail := 1, pfailReleased := false }).abortEntry.askFlush 0 →
     Done .pfail s fun t => t = { s1 with vault := { s1.vault with dump := some s1.makeDump, dumping := true } }) ∧
  (∀ (s s1 : State) (x : Dump), s.vault.dumping = true → s.vault.dump = some x →
     s1 = ({ s.writeDump x with vault := { s.vault with dumping := false, dump := some { x with ended := true } } } :
     State).idlePorts →
     Done .dumpEnd s fun t => t = if s1.pwr.pfailReleased = true then s1.fullReset 0x80 else s1) ∧
  (∀ (s : State), s.pwr.pfail = 2 →
     Done .pfailRelease s fun t => t = s.fullReset 0x80 ∧ t.top.resetCause = 0x80 ∧ t.vault.dump = s.vault.dump) ∧
  (∀ (s : State), s.pwr.pfail = 0 → s.pwr.pllHeld = false → ¬ (s.top.phase = 6 ∧ s.pwr.current ≤ 1) →
     Done .pfail s fun t => t = ((s.updPwr fun p => { p with pfail := 1, pfailReleased := false }).abortEntry.askFlush
     0).idlePorts) ∧
  (∀ (s : State), s.pwr.pfail = 1 →
     Done .pfailRelease s fun t => t = (s.updPwr fun p => { p with pfailReleased := true }) ∧ Only [.pwr] s t) ∧
  (∀ (s : State), s.makeDump.ended = false ∧ s.makeDump.sheet = s.ubl.sheet ∧ s.makeDump.journal = s.str.journal ∧
     s.makeDump.mirror = s.ubl.mirror)

/-- A phase that ends starts the next: the initialization once the boot release is given, then the mailbox, the modules,
ownership once every module is settled and the heads agree on who they are, recovery once the own domains' batten
lines are out and their modules fenced, and, with the domains restored, phase 6: the Ethernet ports up, heartbeat
STATE 1, the dump given up; a phase that does not pass ends the start. 300 s of phase 6 without a word from the peer
declare it failed, with the flash copy as the base of what the peer owned. A restore takes the journal of the dump or
the mirror in its third step, goes on to the recovery of the modules once no row is open, and ends with the rest of
the state. (R441, R443, R446.) -/
def Obligations.StartUpCommands : Prop :=
  (∀ (s : State) (lv a b c : Nat), s.top.failed = false → s.pwr.pllHeld = false → s.pwr.pfail = 0 →
     s.upd.core0 = true → s.top.phase = 1 →
     Done (.startPhase true lv a b c) s fun t => t = s.beginMailbox) ∧
  (∀ (s : State) (lv a b c : Nat), s.top.failed = false → s.pwr.pllHeld = false → s.pwr.pfail = 0 →
     s.upd.core0 = true → s.top.phase = 5 → s.vault.restore = [] →
     Done (.startPhase true lv a b c) s fun t => t = s.beginServing) ∧
  (∀ (s s1 : State) (ck : Meta), s.top.phase = 6 → s.ubl.up = false → s.ubl.hbLink.seen = false →
     s.ubl.hbPair.seen = false → s.ubl.peerFailed = false →
     s1 = [SD.a, SD.b].foldl (fun u d => if u.owns d = true then u else u.updUbl fun x =>
     { x with shadow := x.shadow.set d ck }) s →
     Done (.startHelloTimeout ck) s fun t => t = (s1.updTop fun t => { t with peerDeclared := true }).declare 0) ∧
  (∀ (s : State) (d : SD) (m : Option MirrorDump) (ck : Option Meta) (l : List Nat), s.top.phase = 5 →
     Table.find s.vault.restore d.num = some 3 →
     Done (.vaultRestore d m ck l) s fun t => ∃ u : State, u = s.restoreJournal d m ∧
     t = { u with vault := { u.vault with restore := Table.put u.vault.restore d.num 4 } }) ∧
  (∀ (s : State) (lv a b c : Nat), s.top.failed = false → s.pwr.pllHeld = false → s.pwr.pfail = 0 →
     s.upd.core0 = true → s.top.phase = 0 → s.upd.bootRel = true →
     Done (.startPhase true lv a b c) s fun t => t = s.beginInit a b c) ∧
  (∀ (s : State) (lv a b c : Nat), s.top.failed = false → s.pwr.pllHeld = false → s.pwr.pfail = 0 →
     s.upd.core0 = true → s.top.phase = 2 →
     Done (.startPhase true lv a b c) s fun t => t = s.beginModules) ∧
  (∀ (s : State) (lv a b c : Nat), s.top.failed = false → s.pwr.pllHeld = false → s.pwr.pfail = 0 →
     s.upd.core0 = true → s.top.phase = 3 → (s.mlk.ports.any fun x => decide (x.2.state = 1 ∧ x.2.step ≠ 4)) = false →
     s.ubl.headClash = false →
     Done (.startPhase true lv a b c) s fun t => t = s.beginOwn lv) ∧
  (∀ (s : State) (lv a b c : Nat), s.top.failed = false → s.pwr.pllHeld = false → s.pwr.pfail = 0 →
     s.upd.core0 = true → s.top.phase = 4 → (s.mine.all fun d => s.ubl.battenOut.get d && s.fencedAll d) = true →
     Done (.startPhase true lv a b c) s fun t => t = s.beginRecover) ∧
  (∀ (s : State) (lv a b c : Nat), s.top.failed = false → s.pwr.pllHeld = false → s.pwr.pfail = 0 →
     s.upd.core0 = true → s.top.phase < 6 →
     Done (.startPhase false lv a b c) s fun t => t = s.failStart) ∧
  (∀ (s : State) (d : SD) (m : Option MirrorDump) (ck : Option Meta) (l : List Nat), s.top.phase = 5 →
     Table.find s.vault.restore d.num = some 4 → ((s.str.journal.get d).any fun r => s.rowOpen d r.stripe r.row) =
     false →
     Done (.vaultRestore d m ck l) s fun t => ∃ u : State, u = (s.recoverSteps d).halfReads d ∧
     t = { u with vault := { u.vault with restore := Table.put u.vault.restore d.num 5 } }) ∧
  (∀ (s : State) (d : SD) (m : Option MirrorDump) (ck : Option Meta) (l : List Nat), s.top.phase = 5 →
     Table.find s.vault.restore d.num = some 6 →
     Done (.vaultRestore d m ck l) s fun t => ∃ u : State, u = s.restoreRest d ∧
     t = { u with vault := { u.vault with restore := Table.del u.vault.restore d.num } }) ∧
  (∀ (s : State), s.beginServing.top.phase = 6 ∧ s.beginServing.pwr.ethUp = true ∧ s.beginServing.ubl.hbState = 1 ∧
     s.beginServing.vault.dump = none)

/-- For a request the command runs: NOP answers no data; VERSION_GET the five dwords; RTC_SET the previous clock and sets
it; QOS_GROUP_SET records the group target and, while serving, gives the group's loop its set point; ARRAY_COMMISSION
of a shape in range, with the peer serving over the link, records the configuration (the standard sizes where it names
0), tells the peer, draws the metadata key and waits for the splits. (R369, R373, R377, R336.) -/
def Obligations.MailboxGeneralCommands : Prop :=
  (∀ (c : Nat) (s : State) (r : List Byte), s.takesCmd c 0x0001 r none [] →
     Done (.nop c) s fun t => t = s.answerCmd c 0x0001 false none r 0 []) ∧
  (∀ (c : Nat) (s : State) (r : List Byte), s.takesCmd c 0x0002 r none [] →
     Done (.versionGet c) s fun t => t = s.answerCmd c 0x0002 false none r 0 (leBytes 4 s.ubl.version ++ leBytes 4 7 ++
     leBytes 4 0xB1 ++ leBytes 4 s.ubl.level ++ leBytes 4 1)) ∧
  (∀ (c : Nat) (s : State) (r : List Byte) (v : DWord), s.takesCmd c 0x0004 r none [] →
     Done (.rtcSet c v) s fun t => t = (s.updPwr fun p => { p with rtc := v, rtcSet := true, rtcSub := 0 }).answerCmd c
     0x0004 true none r 0 (leBytes 8 s.pwr.rtc.toNat)) ∧
  (∀ (c : Nat) (s : State) (r : List Byte) (g us : Nat), s.takesCmd c 0x0109 r none [] → g < 240 →
     Done (.qosGroupSet c g us) s fun t => t =
     (({ s with scr := { s.scr with qosTarget := Table.put s.scr.qosTarget g us } } : State).qosChanged g).answerCmd c
     0x0109 true none r 0 []) ∧
  (∀ (c : Nat) (s : State) (r nqn array : List Byte) (pq : Bool) (k v g h v' g' h' : Nat), s.takesCmd c 0x0003 r none
     [(7, 0), (7, 1)] → s.med.commissioned = false → s.ubl.up = true → s.ubl.peerServing = true → s.shapeOk k = true →
     v ≤ 0xFFFF → g ≤ 0xFFFF → v' = (if v = 0 then 64 else v) → g' = (if g = 0 then 2048 else g) →
     h' = (if h = 0 then 1500 else h) →
     Done (.arrayCommission c nqn array pq k v g h) s fun t => t = (((((s.commission pq k v' g' h' (fit array 8)
     nqn).send (.message 17 .a (leBytes 1 (b2n pq) ++ leBytes 1 k ++ leBytes 2 v' ++ leBytes 2 g' ++ leBytes 2 h' ++
     fit array 8 ++ nqn))).drawMetaKey.splitAll.sizeSheets).waitFor c .splits none [(7, 0), (7, 1)]).updMbx fun m =>
     { m with running := m.running ++ [(7, 0), (7, 1)] }))

/-- For a request the command runs and operands its rules allow: VOL_CREATE makes the volume at the root named or the
first free one and answers it; VOL_DELETE and SNAP_DELETE wait until the root is quiet; VOL_RESIZE grows size and
depth with the top pages this takes, and the hosts of its namespaces hear of it; NS_CREATE to NS_QOS_SET record the
namespace in FE and in the epoch state of its domain (a deletion may end the loss of its domain, a QoS group sets its
loop); SNAP_TAKE waits for the seals of the volumes it lists; CLONE_CREATE shares the snapshot's top page and makes a
root of kind 2; ROOT_LIST writes the records that fit and answers where to go on. (R139, R154, R156, R262, R377.) -/
def Obligations.MailboxVolumeCommands : Prop :=
  (∀ (c : Nat) (s : State) (r : List Byte) (n : Nat), s.takesCmd c 0x0101 r (some (SD.ofBit (leAt r 8 1))) ([(7, leAt r
     8 1), (2, leAt r 9 1)] ++ [(1, n)]) → leAt r 8 1 ≤ 1 → leAt r 10 2 = 0 → leAt r 24 8 = 0 → 0 < leAt r 12 8 →
     leAt r 12 8 ≤ 2 ^ 38 → (Table.find s.dp.kdoms (leAt r 9 1)).isSome = true → leAt r 20 4 = n → n ≤ 2097151 →
     s.rootUsed n = false →
     Done (.volCreate c) s fun t => t = (s.makeVolume (SD.ofBit (leAt r 8 1)) n (leAt r 9 1) (leAt r 12 8)).answerCmd c
     0x0101 true (some (SD.ofBit (leAt r 8 1))) r 0 (leBytes 4 n)) ∧
  (∀ (c : Nat) (s : State) (r : List Byte) (d : SD) (n : Nat) (x : RootRec), s.takesCmd c 0x0102 r (some d) [(1, n)] →
     s.rootDom n = some d → s.rootInfo d n = some x → x.kind ≠ 1 → x.deleting = false → s.rootNamed d n = false →
     s.attached d n = false →
     Done (.volDelete c n) s fun t => t = (s.waitFor c (.quiet n) (some d) [(1, n)]).updMbx fun m =>
     { m with running := m.running ++ [(1, n)] }) ∧
  (∀ (c : Nat) (s : State) (r : List Byte) (d : SD) (n size : Nat) (x : RootRec) (s2 : State) (g : Nat × State),
     s.takesCmd c 0x0103 r (some d) [(1, n)] → s.rootDom n = some d → Table.find (s.metaOf d).roots n = some x →
     x.kind ≠ 1 → x.deleting = false → x.size < size → size ≤ 2 ^ 38 →
     g = s.growTop d (max x.depth (depthOf size)) 4 x.depth x.top →
     s2 = g.2.delta d (.root n (some { x with size := size, depth := max x.depth (depthOf size), top := g.1 })) →
     Done (.volResize c n size) s fun t => t = (((s2.fe.ns.filter fun y => decide (y.2.sd = d ∧
     y.2.root = n)).foldl (fun u y => u.nsChanged y.1 y.2.attached) s2).answerCmd c 0x0103 true (some d) r 0 (leBytes 1
     (max x.depth (depthOf size))))) ∧
  (∀ (c : Nat) (s : State) (r : List Byte) (d : SD) (x : RootRec) (n : Nat), s.takesCmd c 0x0104 r (some d) [(1, leAt r
     8 4)] → s.rootDom (leAt r 8 4) = some d → Table.find (s.metaOf d).roots (leAt r 8 4) = some x →
     n = (if leAt r 12 4 = 0 then Table.free s.fe.ns 32768 1 else leAt r 12 4) → n ≤ 32768 → leAt r 16 1 ≤ 4 →
     leAt r 17 1 ≤ 1 → leAt r 20 4 = 0 → x.deleting = false → (x.kind = 1 → x.isSealed = true) →
     s.rootNamed d (leAt r 8 4) = false → leAt r 12 4 ≤ 32768 → (leAt r 12 4 ≠ 0 → s.ns? (leAt r 12 4) = none) →
     Done (.nsCreate c) s fun t => t = (s.putNs n d (some ⟨leAt r 8 4, d, x.kdom, leAt r 16 1, decide (leAt r 17 1 =
     1), leAt r 18 2, none, [], []⟩)).answerCmd c 0x0104 true (some d) r 0 (leBytes 4 n)) ∧
  (∀ (c : Nat) (s : State) (r : List Byte) (n : Nat) (x : Namespace), s.takesCmd c 0x0105 r (some x.sd) [(1, x.root)] →
     s.ns? n = some x → x.attached = [] →
     Done (.nsDelete c n) s fun t => t = ((s.putNs n x.sd none).lostOver x.sd).answerCmd c 0x0105 true (some x.sd) r 0
     []) ∧
  (∀ (c : Nat) (s : State) (r : List Byte) (n : Nat) (x : Namespace) (l : List Nat), s.takesCmd c 0x0106 r (some x.sd)
     [(1, x.root)] → s.ns? n = some x → cntlidsOk l = true → s.replTarget x.sd x.root = false →
     Done (.nsAttach c n l) s fun t => t = ((s.putNs n x.sd (some
     { x with attached := x.attached ++ l.eraseDups.filter (· ∉ x.attached) })).nsChanged n (l.eraseDups.filter (· ∉
     x.attached))).answerCmd c 0x0106 true (some x.sd) r 0 []) ∧
  (∀ (c : Nat) (s : State) (r : List Byte) (n : Nat) (x : Namespace) (l : List Nat), s.takesCmd c 0x0107 r (some x.sd)
     [(1, x.root)] → s.ns? n = some x → cntlidsOk l = true →
     Done (.nsDetach c n l) s fun t => t = ((s.putNs n x.sd (some
     { x with attached := x.attached.filter (· ∉ l.eraseDups.filter (· ∈ x.attached)) })).nsChanged n
     (l.eraseDups.filter (· ∈ x.attached))).answerCmd c 0x0107 true (some x.sd) r 0 []) ∧
  (∀ (c : Nat) (s : State) (r : List Byte) (n g : Nat) (x : Namespace), s.takesCmd c 0x0108 r (some x.sd) [(1, x.root)]
     → s.ns? n = some x → (g < 240 ∨ g = 0xFF) →
     Done (.nsQosSet c n g) s fun t => t = ((s.putNs n x.sd (some
     { x with qos := if g = 0xFF then none else some g })).qosChanged g).answerCmd c 0x0108 true (some x.sd) r 0 []) ∧
  (∀ (c : Nat) (s : State) (r : List Byte) (d : SD) (l : List Nat) (p : Nat) (ids : List Nat) (s1 : State), l = snapSrc r → s.takesCmd c 0x0201 r (some d) (l.map fun x => (1, x)) → l ≠ [] → l.length ≤ 64 → leAt r 9 3 = 0 →
     (∀ x ∈ l, s.rootDom x = some d) → (l.any fun x => match Table.find (s.metaOf d).roots x with | some k => decide (k.kind = 1) || k.deleting | none => true) = false → s.takeSnap d l = some (p, ids, s1) →
     Done (.snapTake c) s fun t => t = (s1.waitFor c (.sealed p ids) (some d) (l.map fun x => (1, x))).updMbx fun m => { m with running := m.running ++ l.map fun x => (1, x) }) ∧
  (∀ (c : Nat) (s : State) (r : List Byte) (d : SD) (n : Nat) (x : RootRec), s.takesCmd c 0x0202 r (some d) [(1, n)] →
     s.rootDom n = some d → s.rootInfo d n = some x → x.kind = 1 → x.deleting = false → x.isSealed = true →
     s.rootNamed d n = false → s.attached d n = false →
     Done (.snapDelete c n) s fun t => t = (s.waitFor c (.quiet n) (some d) [(1, n)]).updMbx fun m =>
     { m with running := m.running ++ [(1, n)] }) ∧
  (∀ (c : Nat) (s : State) (r : List Byte) (d : SD) (n k : Nat) (x : RootRec), s.takesCmd c 0x0203 r (some d) [(1, n)]
     → s.rootDom n = some d → Table.find (s.metaOf d).roots n = some x → s.freeRoot = some k → x.kind = 1 →
     x.deleting = false → x.isSealed = true →
     Done (.cloneCreate c n) s fun t => t = ((s.share d x.top (· + 1)).delta d (.root k (some
     { x with kind := 2, isSealed := false, parent := some n, point := 0, createEpoch := s.top.epoch }))).answerCmd c
     0x0203 true (some d) r 0 (leBytes 4 k)) ∧
  (∀ (c : Nat) (s : State) (r : List Byte) (d : SD) (start addr len : Nat) (l : List (Nat × RootRec)), s.takesCmd c
     0x0204 r (some d) [] → l = (s.metaOf d).roots.filter (fun x => decide (start ≤ x.1)) →
     Done (.rootList c d start addr len true) s fun t => t = (if (l.take (len / 64)).isEmpty = true then s else s.dma
     addr ((l.take (len / 64)).flatMap fun x => x.2.bytes x.1 d)).answerCmd c 0x0204 false (some d) r 0 (leBytes 4
     (((l.drop (len / 64)).head?.map Prod.fst).getD 0xFFFFFFFF))) ∧
  (∀ (c : Nat) (s : State) (r : List Byte) (n : Nat), s.takesCmd c 0x0101 r (some (SD.ofBit (leAt r 8 1))) ([(7, leAt r
     8 1), (2, leAt r 9 1)] ++ []) → leAt r 8 1 ≤ 1 → leAt r 10 2 = 0 → leAt r 24 8 = 0 → 0 < leAt r 12 8 →
     leAt r 12 8 ≤ 2 ^ 38 → (Table.find s.dp.kdoms (leAt r 9 1)).isSome = true → leAt r 20 4 = 0xFFFFFFFF →
     s.freeRoot = some n →
     Done (.volCreate c) s fun t => t = (s.makeVolume (SD.ofBit (leAt r 8 1)) n (leAt r 9 1) (leAt r 12 8)).answerCmd c
     0x0101 true (some (SD.ofBit (leAt r 8 1))) r 0 (leBytes 4 n))

/-- For a request the command runs and operands its rules allow: the key domains, slots and pages hold what the command
names, and reason 0 is answered, for KEY_ZEROIZE once the zeroize ends. (R236, R239, R241, R249, R91, R94.) -/
def Obligations.MailboxKeyCommands : Prop :=
  (∀ (c : Nat) (s : State) (r : List Byte) (k slot : Nat) (m : DMode) (s1 s4 : State), s.takesCmd c 0x0301 r none [(2,
     k)] → k ≤ 255 → Table.find s.dp.kdoms k = none → s.needAtRest = some (slot, s1) →
     s1.draw.2.draw.2.loadAtRest slot s1.draw.2.draw.1 true = some s4 →
     Done (.kdomCreate c k m) s fun t => t = ((s4.updDp fun p =>
     { p with kdoms := Table.put p.kdoms k ⟨m, none, s1.draw.1, slot, []⟩ }).sendKdom k).answerCmd c 0x0301 true none r
     0 []) ∧
  (∀ (c : Nat) (s : State) (r : List Byte) (k : Nat) (x : KDom), s.takesCmd c 0x0302 r none [(2, k)] →
     Table.find s.dp.kdoms k = some x → (∀ d : SD, ((if s.owns d = true then s.metaOf d else s.ubl.shadow.get
     d).roots.any fun y => decide (y.2.kdom = k)) = false) →
     Done (.kdomDelete c k) s fun t => t = ((s.removeKdom k).send (.message 18 .a (leBytes 1 k))).answerCmd c 0x0302
     true none r 0 []) ∧
  (∀ (c : Nat) (s : State) (r : List Byte) (k : Nat) (x : KDom) (m : DMode), s.takesCmd c 0x0303 r none [(2, k)] →
     Table.find s.dp.kdoms k = some x →
     Done (.kdomModeSet c k m) s fun t => t = ((s.updDp fun p =>
     { p with kdoms := Table.upd p.kdoms k fun k => { k with modeNext := some m } }).send (.message 19 .a (leBytes 1 k
     ++ leBytes 1 m.num))).answerCmd c 0x0303 true none r 0 []) ∧
  (∀ (c : Nat) (s : State) (r : List Byte) (k slot : Nat) (x : KDom) (s1 s3 : State), s.takesCmd c 0x0304 r none [(2,
     k)] → Table.find s.dp.kdoms k = some x → s.needAtRest = some (slot, s1) →
     s1.draw.2.loadAtRest slot s1.draw.1 true = some s3 →
     Done (.kdomRotate c k) s fun t => t = ((s3.updDp fun p =>
     { p with kdoms := Table.put p.kdoms k { x with slot := slot, oldSlots := x.oldSlots ++ [x.slot] } }).sendKdom
     k).answerCmd c 0x0304 true none r 0 (leBytes 2 slot)) ∧
  (∀ (c : Nat) (s : State) (r : List Byte) (n : Nat), n = keyBytes (leAt r 10 1) (decide (leAt r 11 1 = 1)) → s.takesCmd c 0x0310 r none [(3, leAt r 8 2)] → s.oldHeld (leAt r 8 2) = false →
     s.slotBars (leAt r 8 2) (leAt r 10 1) (leAt r 12 1) = none → leAt r 11 1 ≤ 1 → leAt r 14 2 = n + 28 → allZero (slice (fit r 108) (16 + n + 28) (92 - (n + 28))) = true →
     Done (.keyLoad c) s fun t => t = match gcmDec (leBytes 32 (Config.deviceKey (0x100 + leAt r 13 1)).toNat) (slice r 16 12) (wrapAad (leAt r 8 2) (leAt r 10 1) (leAt r 11 1)) (slice r 28 n) (slice r (28 + n) 16) with
       | some key => (s.loadPlain (leAt r 8 2) (leAt r 10 1) (decide (leAt r 11 1 = 1)) key).answerCmd c 0x0310 true none r 0 []
       | none => s.answerCmd c 0x0310 true none r rsnUnwrap []) ∧
  (∀ (c : Nat) (s : State) (r : List Byte) (slot usage : Nat) (klen np : Bool), s.takesCmd c 0x0311 r none [(3, slot)]
     → s.slotBars slot usage (b2n np) = none →
     Done (.keyGenerate c slot usage klen np) s fun t => t = ((s.drawKey (keyBytes usage klen)).2.loadPlain slot usage
     klen (s.drawKey (keyBytes usage klen)).1).answerCmd c 0x0311 true none r 0 []) ∧
  (∀ (c : Nat) (s : State) (r : List Byte) (slot : Nat), s.takesCmd c 0x0312 r none [(3, slot)] → slot ≤ 4095 →
     (s.upage (slot / 16)).owner = 1 →
     Done (.keyZeroize c slot) s fun t => t = ((s.zeroize slot).waitFor c (.slot slot) none [(3, slot)]).updMbx fun m
     => { m with running := m.running ++ [(3, slot)] }) ∧
  (∀ (c : Nat) (s : State) (r : List Byte) (p o : Nat), s.takesCmd c 0x0313 r none [(4, p)] → p ≤ 255 →
     o = 0 ∨ o = 1 ∨ o = 3 → (s.upage p).owner ≠ 2 → s.pageEmpty p = true →
     (s.cip.streams.any fun x => decide (x.page = p)) = false →
     Done (.pageOwnerSet c p o) s fun t => t = (s.setPage p { UPage.empty with owner := o }).answerCmd c 0x0313 true
     none r 0 []) ∧
  (∀ (c : Nat) (s : State) (r : List Byte) (p a n b m : Nat) (i : Bool), s.takesCmd c 0x0314 r none [(4, p)] →
     p ≤ 255 → (s.upage p).owner = 1 → ringOk n = true → ringOk m = true →
     Done (.pageAssign c p a n b m i) s fun t => t = (s.setPage p
     { s.upage p with assigned := true, sqBase := a, sqSize := n, cqBase := b, cqSize := m, sqTail := 0, sqHead := 0, cqHead := 0, cqTail := 0, phase := true, intEn := i, heldCpl := [] }).answerCmd
     c 0x0314 true none r 0 [])

/-- For a request the command runs and operands its rules allow: a source attachment is recorded under the next free
number with the queue pair's end, a target attachment opens its window as well; a detach closes the windows and the
queue pair and removes the record; windows are opened and revoked; module commands act on the port they name; lists
answer what fits of what they list and where to go on; RECOAT_START records the shape of the next boundary with its
generation and starts the recoat cursor. (R286, R288, R184, R199, R226, R210, R377.) -/
def Obligations.MailboxReplicationAndModuleCommands : Prop :=
  (∀ (c : Nat) (s : State) (r : List Byte) (d : SD) (l : List Nat) (i qpn base len id : Nat) (src : Bool) (a : Attach)
     (s1 : State), src = true → slice r 16 8 ≠ fit s.ubl.array 8 →
     s.takesCmd c 0x0401 r (some d) ([(7, leAt r 8 1), (3, leAt r 12 2)] ++ l.map fun x => (1, x)) → leAt r 8 1 ≤ 1 →
     d = SD.ofBit (leAt r 8 1) → leAt r 9 1 ≤ 1 → leAt r 10 1 ≤ 1 → leAt r 28 4 = 0 → l = replRoots r → l ≠ [] →
     l.length ≤ 64 → (l.any fun x => (Table.find (s.metaOf d).roots x).isNone) = false → l.any (s.attached d) = false →
     leAt r 12 2 ≤ 4095 → (s.upage (leAt r 12 2 / 16)).owner = 3 → (s.kslot (leAt r 12 2)).state ≠ 0 →
     (s.kslot (leAt r 12 2)).state ≠ 3 → (s.kslot (leAt r 12 2)).usage = 1 → s.replQp qpn = some i → id = s.freeAtt d →
     a =
     { source := src, sd := d, roots := l, sync := decide (leAt r 9 1 = 1), degrade := decide (leAt r 10 1 = 1), slot := leAt r 12 2, array := slice r 16 8, qp := i, set := 1, cuts := [], age := 0, mark := (s.fe.stamp.get d).toNat, interval := if leAt r 14 2 = 0 then 15625 else leAt r 14 2 * 1000, backlog := if leAt r 24 2 = 0 then 32 else leAt r 24 2, syncTo := if leAt r 26 2 = 0 then 2000 else leAt r 26 2, shipped := (s.fe.stamp.get d).toNat, durable := (s.fe.stamp.get d).toNat, acked := (0, 0), snaps := [], resync := false, msn := 0, applied := [], gather := [], word := 0, win := if src = true then (0, 0) else (base, len), detached := false }
     → s1 = ((s.updRdm fun x => { x with atts := Table.put x.atts id a }).delta d (.attach id (some a))).updQp i (fun q
     => { q with att := some id }) →
     Done (.replAttach c (some qpn) base len) s fun t => t = s1.answerCmd c 0x0401 true (some d) r 0 (leBytes 4 id)) ∧
  (∀ (c : Nat) (s : State) (r : List Byte) (n : Nat) (a : Attach) (s1 : State), s.takesCmd c 0x0402 r (some a.sd) [(6,
     n)] → Table.find s.rdm.atts n = some a → s1 = (((s.rdm.windows.filter fun x => decide (x.2.isOpen = true ∧
     x.2.qp = a.qp)).map Prod.fst).foldl State.closeWindow s).qpError a.qp none →
     Done (.replDetach c n) s fun t => t = ((s1.updRdm fun x =>
     { x with atts := Table.del x.atts n, qps := Table.del x.qps a.qp }).delta a.sd (.attach n none)).answerCmd c
     0x0402 true (some a.sd) r 0 []) ∧
  (∀ (c : Nat) (s : State) (r : List Byte) (n : Nat) (a : Attach), s.takesCmd c 0x0403 r (some a.sd) [] →
     Table.find s.rdm.atts n = some a →
     Done (.replStatus c n) s fun t => t = s.answerCmd c 0x0403 false (some a.sd) r 0 (leBytes 8 (b2n a.sync) ++
     leBytes 8 a.acked.2 ++ leBytes 8 a.set ++ leBytes 8 (s.replHeld a))) ∧
  (∀ (c : Nat) (s : State) (r : List Byte) (qpn i base len rights k : Nat) (s1 : State), s.takesCmd c 0x0410 r none []
     → s.replQp qpn = some i → s.windowOk base len rights = true → s.openWindow i base len rights = some (k, s1) →
     Done (.windowOpen c qpn base len rights) s fun t => t = s1.answerCmd c 0x0410 true none r 0 (leBytes 4 k)) ∧
  (∀ (c : Nat) (s : State) (r : List Byte) (k : Nat), s.takesCmd c 0x0411 r none [(5, bitsOf k 23 8)] → k < 2 ^ 24 → (Table.find s.rdm.windows (bitsOf k 23 8)).isSome = true →
     Done (.windowRevoke c k) s fun t => t = (match s.window? k with | some (w, _) => (s.closeWindow w).raise .rdm 2 | none => s).answerCmd c 0x0411 true none r 0 []) ∧
  (∀ (c : Nat) (s : State) (r : List Byte) (p : Nat), s.takesCmd c 0x0501 r none [] → (p < 48 ∨ p = 0xFF) →
     Done (.healthList c p) s fun t => t = s.answerCmd c 0x0501 false none r 0 ((s.med.health.filter fun x => decide (p
     = 0xFF ∨ x.1 = p)).flatMap fun x => leBytes 2 x.1 ++ leBytes 2 x.2)) ∧
  (∀ (c : Nat) (s : State) (r : List Byte), s.takesCmd c 0x0502 r none [] →
     Done (.moduleList c) s fun t => t = s.answerCmd c 0x0502 false none r 0 (((List.range 48).filter fun p => (s.port p).state ≠ 0).flatMap fun p => leBytes 4 (s.portReg p).toNat ++
       (match s.mod? p with
        | some m => fit m.serial 16 ++ fit m.fw 16
        | none => zeros 32))) ∧
  (∀ (c : Nat) (s : State) (r : List Byte) (p : Nat), s.takesCmd c 0x0503 r none [(8, p)] → p < 48 →
     (s.port p).state = 2 →
     Done (.moduleRemove c p) s fun t => t = (s.makeAbsent p).answerCmd c 0x0503 true none r 0 []) ∧
  (∀ (c : Nat) (s : State) (r : List Byte) (p : Nat), s.takesCmd c 0x0504 r none [(8, p)] → p < 48 →
     (s.port p).state ≠ 2 → (s.port p).state ≠ 3 →
     Done (.moduleAdmit c p) s fun t => t = ((if (s.port p).state = 1 then s else s.updPort p Port.admitting).waitFor c
     (.port p) none [(8, p)]).updMbx fun m => { m with running := m.running ++ [(8, p)] }) ∧
  (∀ (c : Nat) (s : State) (r : List Byte) (d : SD) (cur addr len : Nat) (l : List (Nat × LossEnt)), s.takesCmd c
     0x0505 r (some d) [] → l = (s.metaOf d).loss.filter (fun x => decide (cur ≤ x.1)) →
     Done (.lossList c d cur addr len true) s fun t => t = (if (l.take (len / 16)).isEmpty = true then s else s.dma
     addr ((l.take (len / 16)).flatMap fun x => lossBytes x.1 x.2)).answerCmd c 0x0505 false (some d) r 0 (leBytes 4
     (l.take (len / 16)).length ++ leBytes 8 (((l.drop (len / 16)).head?.map Prod.fst).getD (2 ^ 48 - 1)))) ∧
  (∀ (c : Nat) (s : State) (r : List Byte) (d : SD) (pq : Bool) (k g : Nat), s.takesCmd c 0x0506 r (some d) [(7,
     d.num)] → s.shapeOk k = true → s.recoating d = false → g = ((s.metaOf d).shape.gen + 1) % 256 →
     Done (.recoatStart c d pq k) s fun t => t = ((s.delta d (.shapeNext ⟨pq, k, g⟩)).delta d (.cursor 3 ⟨1, 0,
     0⟩)).answerCmd c 0x0506 true (some d) r 0 (leBytes 1 g)) ∧
  (∀ (c : Nat) (s : State) (r : List Byte) (d : SD) (l : List Nat) (i qpn base len id k : Nat) (src : Bool) (a : Attach) (s1 s2 : State), src = false → slice r 16 8 = fit s.ubl.array 8 → (l.any fun x => match s.rootNs d x with | some (_, y) => !y.attached.isEmpty | none => true) = false → s.takesCmd c 0x0401 r (some d) ([(7, leAt r 8 1), (3, leAt r 12 2)] ++ l.map fun x => (1, x)) → leAt r 8 1 ≤ 1 → d = SD.ofBit (leAt r 8 1) → leAt r 9 1 ≤ 1 → leAt r 10 1 ≤ 1 → leAt r 28 4 = 0 →
     l = replRoots r → l ≠ [] → l.length ≤ 64 → (l.any fun x => (Table.find (s.metaOf d).roots x).isNone) = false → l.any (s.attached d) = false → leAt r 12 2 ≤ 4095 → (s.upage (leAt r 12 2 / 16)).owner = 3 →
     (s.kslot (leAt r 12 2)).state ≠ 0 → (s.kslot (leAt r 12 2)).state ≠ 3 → (s.kslot (leAt r 12 2)).usage = 1 → s.replQp qpn = some i → id = s.freeAtt d →
     a = { source := src, sd := d, roots := l, sync := decide (leAt r 9 1 = 1), degrade := decide (leAt r 10 1 = 1), slot := leAt r 12 2, array := slice r 16 8, qp := i, set := 1, cuts := [], age := 0, mark := (s.fe.stamp.get d).toNat, interval := if leAt r 14 2 = 0 then 15625 else leAt r 14 2 * 1000, backlog := if leAt r 24 2 = 0 then 32 else leAt r 24 2, syncTo := if leAt r 26 2 = 0 then 2000 else leAt r 26 2, shipped := (s.fe.stamp.get d).toNat, durable := (s.fe.stamp.get d).toNat, acked := (0, 0), snaps := [], resync := false, msn := 0, applied := [], gather := [], word := 0, win := if src = true then (0, 0) else (base, len), detached := false } →
     s1 = ((s.updRdm fun x => { x with atts := Table.put x.atts id a }).delta d (.attach id (some a))).updQp i (fun q => { q with att := some id }) →
     s.windowOk base len 15 = true → s1.openWindow i base len 15 = some (k, s2) →
     Done (.replAttach c (some qpn) base len) s fun t => t = s2.answerCmd c 0x0401 true (some d) r 0 (leBytes 4 id))

/-- For a request the command runs and operands its rules allow: UPDATE_PUSH of an image whose header and length fit sends
it to head 1 with the staging slot taken, and the part without a channel moves the push on; UPDATE_STATUS lists both
heads' components and the modules; UPDATE_ACTIVATE of the peer begins with the head asked to yield, one of module
firmware with the first staged port, and the part without a channel settles the modules and goes on, or, on the head
that is to be updated and has seen the break, resets it; quotes, records and certificates are written where the
request says with their length as the answer. (R406, R409, R412, R397, R398, R399.) -/
def Obligations.MailboxUpdateAndTrustCommands : Prop :=
  (∀ (c : Nat) (s : State) (r img : List Byte) (s1 : State), s.takesCmd c 0x0701 r none [(9, 0)] → img.length = leAt r 24 4 → s.top.head = 0 → s.paired = true → 6 ≤ s.top.phase → s.upd.act = none → (s.comp (leAt r 8 1)).state ≠ 4 →
     leAt r 16 8 % 16 = 0 → allZero (slice r 9 7) = true → leAt r 28 4 = 0 → imgComp img = leAt r 8 1 → img.length = hdrLen + imgLength img →
     s1 = s.updUpd (fun u => { u with push := some ⟨imgComp img, c, imgVersion img, img⟩ }) →
     Done (.updatePush (some c) img true []) s fun t => t = match s.checkHeader img with
       | some e => s.answerCmd c 0x0701 true none r e (pushData 0 0 0)
       | none => ((if imgComp img = 0x10 then s1 else s1.updComp (imgComp img) fun k => { k with staged := [] }).send (.message 20 .a img)).updMbx fun m => { m with running := m.running ++ [(9, 0)] }) ∧
  (∀ (c : Nat) (s : State) (r peer : List Byte), s.takesCmd c 0x0702 r none [] →
     Done (.updateStatus c peer) s fun t => t = s.answerCmd c 0x0702 false none r 0 ((if s.top.head = 0 then
     s.compEntries ++ fit peer 48 else fit peer 48 ++ s.compEntries) ++ s.presentPorts.flatMap s.moduleEntry)) ∧
  (∀ (c : Nat) (s : State) (r : List Byte) (x : Int), s.takesCmd c 0x0703 r none [(9, 0)] →
     allZero (slice r 10 6) = true → leAt r 8 1 = 1 ∨ leAt r 8 1 = 2 ∨ leAt r 8 1 = 3 → leAt r 9 1 = 1 - s.top.head →
     s.activateBusy (leAt r 8 1) = false → s.paired = true → 6 ≤ s.top.phase →
     Done (.updateActivate (some c) x) s fun t => t = ((s.updUpd fun u =>
     { u with act := some ⟨leAt r 8 1, 1 - s.top.head, 1, ([SD.a, SD.b].filter fun d => !s.owns d).map SD.num, c⟩ }).actAsk).updMbx
     fun m => { m with running := m.running ++ [(9, 0)] }) ∧
  (∀ (c : Nat) (s : State) (r nonce : List Byte) (addr len : Nat) (x : State) (b : List Byte × State), s.takesCmd c
     0x0801 r none [] → s.dig.alarmed = false → nonce.length ≤ 64 → 3104 + 80 * s.dig.log.length ≤ len →
     x = (s.askTrust (fit nonce 64)).updDig (fun g => { g with qseq := g.qseq + 1 }) →
     b = x.signBody (x.recordBody true nonce) →
     Done (.attestQuote c nonce addr len true) s fun t => t = ((b.2.replyTrust b.1).dma addr b.1).answerCmd c 0x0801
     false none r 0 (leBytes 4 b.1.length)) ∧
  (∀ (c : Nat) (s : State) (r : List Byte) (addr len : Nat), s.takesCmd c 0x0802 r none [] → s.dig.alarmed = false →
     s.dig.recordSigned = true → s.dig.record.length ≤ len →
     Done (.attestRecordGet c addr len true) s fun t => t = (s.dma addr s.dig.record).answerCmd c 0x0802 false none r 0
     (leBytes 4 s.dig.record.length)) ∧
  (∀ (c : Nat) (s : State) (r : List Byte) (addr len : Nat), s.takesCmd c 0x0803 r none [] → 6416 ≤ len →
     Done (.certGet c addr len true) s fun t => t = (s.dma addr (certBytes 0 ++ certBytes 1)).answerCmd c 0x0803 false
     none r 0 (leBytes 4 6416)) ∧
  (∀ (s : State) (img : List Byte) (ok : Bool) (bad : List Nat),
     Done (.updatePush none img ok bad) s fun t => t = s.pushPeer bad) ∧
  (∀ (c : Nat) (s : State) (r : List Byte) (x : Int) (p : Nat) (ps : List Nat), s.takesCmd c 0x0703 r none [(9, 0)] →
     allZero (slice r 10 6) = true → leAt r 8 1 = 0x10 → s.activateBusy 0x10 = false → s.paired = true →
     6 ≤ s.top.phase → (if leAt r 9 1 = 0xFF then s.stagedPorts else if leAt r 9 1 ∈ s.stagedPorts then [leAt r 9 1]
     else []) = p :: ps →
     Done (.updateActivate (some c) x) s fun t => t = ((s.updUpd fun u =>
     { u with act := some ⟨0x10, p, 1, ps, c⟩ }).beginModule p).updMbx fun m =>
     { m with running := m.running ++ [(9, 0)] }) ∧
  (∀ (s s1 : State) (x : Int), ¬ (s.ubl.holdsPeer = true ∧ s.ubl.breakIn = true) → s1 = (s.upd.mods.map Prod.fst).foldl (fun u p => u.settleModule p x) s →
     Done (.updateActivate none x) s fun t => t = match s1.upd.act with | some a => if a.comp = 0x10 then s1.moduleGoesOn a else s1 | none => s1) ∧
  (∀ (s : State) (x : Int), s.ubl.holdsPeer = true → s.ubl.breakIn = true →
     Done (.updateActivate none x) s fun t => t = s.sendState4.fullReset causeSoft)

/-- A module not confirmed in 600 s is reverted with slot 1 committed; a restarted head that sends no HELLO ends the
activation and is declared failed, and one that sends no confirmation ends it and is held off; health confirmed, with
the peer heard and every module admitted, confirms the two images that run, and the third once a doorbell was rung,
each with its floor raised, and tells the peer when none is left in TRIAL; at the trial timeout a component enters
state 5 with a notification; the primer ROM drives the directory, extends M0 to M3 as it goes, brings up each image
that verifies or its fallback, and then releases core 0, and the head CPU with the boot flash locked. (R407, R408,
R410, R411, R389.) -/
def Obligations.UpdateSteps : Prop :=
  (∀ (s : State) (a : Act) (x : ModUpd), s.upd.act = some a → a.comp = 0x10 → a.step = 1 →
     Table.find s.upd.mods a.target = some x → x.state = 4 →
     Done .moduleConfirmTimeout s fun t => t = ((s.updUpd fun u =>
     { u with act := some { a with step := 2, rest := [] } }).revertModule a.target).tell 24 .a (leBytes 1 a.target)) ∧
  (∀ (s : State), s.actAt 2 = true →
     Done .restartHelloTimeout s fun t => t = (s.actEnd 0x0504).declare 0) ∧
  (∀ (s : State), s.actAt 3 = true →
     Done .activationConfirmTimeout s fun t => t = if (s.actEnd 0x0504).ubl.breakIn = true then s.actEnd 0x0504 else
     (s.actEnd 0x0504).holdPeer) ∧
  (∀ (s s1 s2 : State) (f : Bool), s.upd.core0 = true → (s.ubl.up = false ∨ f = true) → s.ubl.versionRefused = false →
     4 ≤ s.top.phase → (s.mlk.ports.all fun x => decide (x.2.state ≠ 1)) = true → s.dig.recordSigned = true →
     s1 = (s.confirm 1).confirm 2 → s2 = (if s1.upd.doorbell = true then s1.confirm 3 else s1) →
     Done (.healthConfirm f) s fun t => t = if ([1, 2, 3].any fun c => decide ((s2.comp c).state = 4)) = true then s2
     else s2.tell 11 .a []) ∧
  (∀ (s : State) (c : Nat), (s.comp c).state = 4 →
     Done (.trialTimeout c) s fun t => t = (s.updComp c fun k => { k with state := 5 }).notify 0x10 0x0502 true none
     0xFF (leBytes 1 c)) ∧
  (∀ (s s1 s2 s3 s4 s6 : State) (rom : List Byte) (cfg : Nat) (ok : Bool) (n : Nat) (bad bf : List Nat), s.top.phase =
     0 → s.upd.core0 = false → s.top.failed = false → s.pwr.pllHeld = false →
     s1 = ((s.updDig fun g => { g with ctxs := List.replicate 4 (DCtx.clear false), m := List.replicate 24 (zeros 64), counts := List.replicate 24 0, log := [] }).primerExtend
     0 rom).updDig (fun g => g.advance ok) → s1.driveComp n 1 = (s2, true) → s2.driveComp n 2 = (s3, true) →
     s3.bringUp bad bf 1 = some s4 → (s4.primerExtend 1 (s4.activePayload 1)).bringUp bad bf 2 = some s6 →
     Done (.primerRom rom cfg ok n bad bf) s fun t => t = s6.primerRuns n bad bf cfg) ∧
  (∀ (s s1 s3 s4 : State) (n : Nat) (bad bf : List Nat) (cfg : Nat) (p : List Byte), p = s.activePayload 2 →
     s1 = ((s.primerExtend 2 (p.take (p.length - cfg))).primerExtend 3 (p.drop (p.length - cfg))).runTerzan →
     (s1.updUpd fun u => { u with core0 := true }).driveComp n 3 = (s3, true) → s3.bringUp bad bf 3 = some s4 →
     s.primerRuns n bad bf cfg = (s4.primerExtend 4 (s4.activePayload 3)).updUpd fun u =>
     { u with locked := true, bootRel := true }) ∧
  (∀ (s : State) (c : Nat), (s.comp c).state = 4 → s.confirm c = s.updComp c fun k =>
     { k with state := 0, staged := [], floor := max k.floor (leAt k.active 12 4) })

/-- Where the block is powered: a STYLE of 0 to 2 is kept for the requester; an acknowledge at most 127 behind SEQ clears
the events it covers; IND_ADDR takes the value with bits [1:0] clear; a read of IND_DATA answers its target's dword
and moves the address by 4, with a violation and zero where it names none, and a write where none is named is a
violation; EPOCH_LO and BOOT_COUNT_LO answer the low half and latch the high half for the requester; VIOL_CLEAR
empties both violation registers. Only the parts listed change. (R33, R349, R351, R356, R357, R358, R359.) -/
def Obligations.RegisterAccesses : Prop :=
  (∀ (r : Requester) (b : Blk) (s : State) (w : Word), s.powered .top = true → s.powered b = true →
     s.regExists r b 0xC = true → b ≠ .mbx → w.toNat < 3 →
     Done (.atomicModeWrite r b w) s fun t => t = s.updBlk b (fun k => { k with style := k.style.set r w.toNat }) ∧
     Only [.blk] s t) ∧
  (∀ (r : Requester) (b : Blk) (s : State) (w : Word), s.powered .top = true → s.powered b = true →
     s.regExists r b 0x24 = true → ((s.blk.get b).seq - BitVec.ofNat 8 w.toNat).toNat < 128 →
     Done (.statusAck r b w) s fun t => t = s.updBlk b (fun k => k.ack (BitVec.ofNat 8 w.toNat)) ∧
     (t.blk.get b).events = (s.blk.get b).events.filter (fun e => !(e.aged || decide ((BitVec.ofNat 8 w.toNat -
     e.seq).toNat < 128))) ∧ Only [.blk] s t) ∧
  (∀ (r : Requester) (b : Blk) (s : State) (w : Word), s.powered .top = true → s.powered b = true →
     s.regExists r b 0x30 = true →
     Done (.indAddrWrite r b w) s fun t => t = s.updBlk b (fun k =>
     { k with indAddr := k.indAddr.set r (w.toNat / 4 * 4) }) ∧ Only [.blk] s t) ∧
  (∀ (r : Requester) (b : Blk) (s : State) (w : Word), s.powered .top = true → s.powered b = true →
     s.indRead b ((s.blk.get b).indAddr.get r) = some w →
     Done (.indDataRead r b) s fun t => t = ((s.answerRead r w).indReadEffect b ((s.blk.get b).indAddr.get
     r)).advanceInd r b) ∧
  (∀ (r : Requester) (b : Blk) (s : State), s.powered .top = true → s.powered b = true →
     s.indRead b ((s.blk.get b).indAddr.get r) = none →
     Done (.indDataRead r b) s fun t => t = ((s.answerRead r 0).violation (violSource r) false (b.num * 2 ^ 20 +
     0x34)).advanceInd r b ∧ t.top.readData.get r = 0 ∧ Only [.blk, .top] s t) ∧
  (∀ (r : Requester) (b : Blk) (s : State) (l : Bool) (w : Word) (s1 : State), s.powered .top = true →
     s.powered b = true → s.regExists r b 0x34 = true → s.indWrite l b ((s.blk.get b).indAddr.get r) w = some s1 →
     Done (.indDataWrite r b (l, w)) s fun t => t = s1.advanceInd r b) ∧
  (∀ (r : Requester) (s : State), s.powered .top = true →
     Done (.epochLoRead r) s fun t => t = (s.answerRead r (BitVec.ofNat 32 s.top.epoch.toNat)).updTop (fun x =>
     { x with epochHi := x.epochHi.set r (BitVec.ofNat 32 (s.top.epoch.toNat / 2 ^ 32)) }) ∧
     t.top.readData.get r = BitVec.ofNat 32 s.top.epoch.toNat ∧ Only [.top] s t) ∧
  (∀ (r : Requester) (s : State), s.powered .top = true →
     Done (.bootCountLoRead r) s fun t => t = (s.answerRead r (BitVec.ofNat 32 s.dig.bootCount.toNat)).updDig (fun g =>
     { g with bootHi := g.bootHi.set r (BitVec.ofNat 32 (s.dig.bootCount.toNat / 2 ^ 32)) }) ∧
     t.top.readData.get r = BitVec.ofNat 32 s.dig.bootCount.toNat ∧ Only [.top, .dig] s t) ∧
  (∀ (r : Requester) (s : State) (w : Word), s.powered .top = true → bitOf w.toNat 0 = true →
     Done (.violClear r w) s fun t => t = (s.updTop fun x => { x with violations := 0, violLast := 0 }) ∧
     Only [.top] s t) ∧
  (∀ (r : Requester) (b : Blk) (s : State) (l : Bool) (w : Word), s.powered .top = true → s.powered b = true →
     s.regExists r b 0x34 = true → s.indWrite l b ((s.blk.get b).indAddr.get r) w = none →
     Done (.indDataWrite r b (l, w)) s fun t => t = (s.violation (violSource r) true (b.num * 2 ^ 20 +
     0x34)).advanceInd r b ∧ Only [.blk, .top] s t)

/-- A plain write of 1 to ENABLE of a disabled, idle block starts its check; at the end of the check the block is enabled
where what it requires is and its claims are free, and the slots it needs are reserved (how many is the slot plan's
choice, assumption 96); a write of 0 makes an enabled block that nothing enabled requires drain, the map cache, clean,
given up at once, and the drain ends once the block holds no work, with its claims released; a free timer, or one's
own, is claimed, loaded and started, a stop releases it, and an expiry raises event n and reloads a periodic one; a
free pin group takes the function written and function 0 gives it back; the vault partition is written while the vault
is unclaimed. TOP_RESET with its key is a full reset; another register write of BAR0 or BAR2 reaches its register, and
one over the fabric to what only the security core reaches is a violation. (R360, R361, R362, R363, R461.) -/
def Obligations.EnableAndClaims : Prop :=
  (∀ (r : Requester) (b : Blk) (s : State), s.powered .top = true → s.powered b = true → s.regExists r b 4 = true →
     b.fixed = false → (s.blk.get b).style.get r = 0 → (s.blk.get b).checking = false →
     (s.blk.get b).draining = false → (s.blk.get b).enabled = false →
     Done (.blockEnable r b 0 1) s fun t => t = s.updBlk b (fun k => { k with checking := true }) ∧ Only [.blk] s t) ∧
  (∀ (b : Blk) (s s1 : State), (s.blk.get b).checking = true →
     (b.requires.any fun x => !((s.blk.get x).enabled && (s.blk.get x).enable)) = false → s.claimBlock b = (0, s1) →
     Done (.consistencyCheckDone b) s fun t => t = (s1.updBlk b fun k =>
     { k with checking := false, enable := true, enabled := true, refused := false, reason := 0, waits := b.datapath && s.top.running }).reserveSlots
     b) ∧
  (∀ (r : Requester) (b : Blk) (s s1 : State), s.powered .top = true → s.powered b = true → s.regExists r b 4 = true →
     b.fixed = false → (s.blk.get b).style.get r = 0 → (s.blk.get b).checking = false →
     (s.blk.get b).draining = false → (s.blk.get b).enabled = true → (∀ x : Blk, b ∈ x.requires →
     (s.blk.get x).enabled = false) → (b = .map → s.map.dirtyCount = 0) →
     s1 = s.updBlk b (fun k => { k with enable := false, draining := true, refused := false, reason := 0 }) →
     Done (.blockDisable r b 0 0) s fun t => t = if b = .map then (s1.updMap fun m =>
     { m with en := false, invalidated := false, wt := false }).mapDone 3 else s1) ∧
  (∀ (b : Blk) (s : State), (s.blk.get b).draining = true → s.holdsNone b = true →
     Done (.drainEnd b) s fun t => t = (s.updBlk b fun k =>
     { k with draining := false, enabled := false }).releaseBlock b) ∧
  (∀ (r : Requester) (n : Nat) (s : State) (w : Word), s.powered .top = true → n < 8 → w = 0x8000 ∨ w = 0xC000 →
     (s.blk.get .top).style.get r = 0 → s.claimHolder (1 + n) = 0 ∨ s.claimHolder (1 + n) = r.code →
     Done (.timerStart r 0 n w) s fun t => t = ((s.claim (1 + n) r.code).2.updTop fun x =>
     { x with timers := updAt x.timers n fun y => { y with en := true, periodic := bitOf w.toNat 14, count := y.load } })
     ∧ Only [.top] s t) ∧
  (∀ (r : Requester) (n : Nat) (s : State) (w : Word), s.powered .top = true → n < 8 → w = 0 ∨ w = 0x4000 →
     (s.blk.get .top).style.get r = 0 →
     Done (.timerStop r 0 n w) s fun t => t = ((s.release (1 + n) (s.claimHolder (1 + n))).updTop fun x =>
     { x with timers := updAt x.timers n fun y => { y with en := false, periodic := bitOf w.toNat 14 } }) ∧
     Only [.top] s t) ∧
  (∀ (n : Nat) (s : State) (x : Timer), s.powered .top = true → s.top.timers[n]? = some x → x.en = true → x.count ≠ 0 →
     Done (.timerExpiry n) s fun t => t = (s.updTop fun y =>
     { y with timers := updAt y.timers n fun z => { z with count := if z.periodic = true then z.load else 0 } }).raise
     .top n ∧ t.raisedBy s .top n ∧ Only [.top, .blk, .msix] s t) ∧
  (∀ (r : Requester) (g f : Nat) (s : State), s.powered .top = true → g < 4 → 0 < f → f ≤ 2 →
     (s.blk.get .top).style.get r = 0 → s.claimHolder (9 + g) = 0 ∨ s.claimHolder (9 + g) = 0x2F + f →
     Done (.pinmuxWrite r 0 g (BitVec.ofNat 32 f)) s fun t => t = ((s.claim (9 + g) (0x2F + f)).2.updTop fun x =>
     { x with pinmux := x.pinmux.set g f }) ∧ Only [.top] s t) ∧
  (∀ (r : Requester) (s : State) (v : Nat), s.powered .top = true → v < 16 → (s.blk.get .top).style.get r = 0 →
     s.claimHolder 13 = 0 →
     Done (.vaultPartWrite r 0 (BitVec.ofNat 32 v)) s fun t => t = (s.updTop fun x =>
     { x with vaultPart := BitVec.ofNat 16 v }) ∧ Only [.top] s t) ∧
  (∀ (r : Requester) (s : State), s.powered .top = true →
     Done (.topReset r 0x4B1D) s fun t => t = (s.sendState4).fullReset 0x20 ∧ t.top.resetCause = 0x20 ∧ t.top.phase = 0) ∧
  (∀ (r : Requester) (l : Bool) (a : Nat) (s : State) (w : Word), s.powered .top = true → a % 4 = 0 →
     Done (.registerWrite r .bar0 l a w) s fun t => t = s.regWrite r l a w) ∧
  (∀ (r : Requester) (g : Nat) (s : State), s.powered .top = true → g < 4 → (s.blk.get .top).style.get r = 0 →
     Done (.pinmuxWrite r 0 g 0) s fun t => t = ((s.release (9 + g) (s.claimHolder (9 + g))).updTop fun x =>
     { x with pinmux := x.pinmux.set g 0 }) ∧ Only [.top] s t) ∧
  (∀ (l : Bool) (a : Nat) (s : State) (w : Word), s.powered .top = true → a % 4 = 0 → a < 0x100000 →
     Done (.registerWrite .head .bar2 l a w) s fun t => t = s.bar2Write a w) ∧
  (∀ (r : Requester) (l : Bool) (a : Nat) (s : State) (w : Word), s.powered .top = true →
     Done (.registerWrite r .fabric l a w) s fun t => t = (if Config.secCore a = true then s.violation 3 true a else s)
     ∧ Only [.top] s t) ∧
  (∀ (r : Requester) (s : State) (w : Word), s.powered .top = true → (s.blk.get .top).style.get r = 0 →
     w.toNat < 0x8000 → s.regWrite r false 0x200 w = s.updTop fun x => { x with intEn := BitVec.ofNat 16 w.toNat }) ∧
  (∀ (s : State) (k who : Nat), k < s.top.claims.length → (s.claimHolder k = 0 →
     (s.claim k who).2.claimHolder k = who) ∧ (s.release k (s.claimHolder k)).claimHolder k = 0)

/-- EVR takes the oldest event of its input queue, or, during a flush, drops it and counts the drop: one that repeats the
last record folds into it, any other becomes the next record with the next RNUM, each counts in EVR_MARK, and the four
grave codes ask for a flush; CLEAR empties log and dropped counter; FLUSH with a module of the vault set freezes the
image, and with CLEAR holds the clearing back; SNAG_FLUSH issues the programs to the modules whose slots are erased,
or ends the flush where there is none; a flush whose four programs ended well on a module is counted and raises
FLUSH_DONE; the erase of the next segment, or of a full one-segment partition, is issued on each module of the vault
set that holds it, and its end is noted. (R429, R430, R432, R433, R434, R437.) -/
def Obligations.SnagLogCommands : Prop :=
  (∀ (s s1 : State) (x : Snag) (xs : List Snag), s.evr.inq = x :: xs → s.evr.flushing = false →
     s1 = (s.updEvr fun e => { e with inq := xs }).enterSnag x →
     Done .snagEvent s fun t => t = if x.code ∈ flushCodes then s1.askFlush 1 else s1) ∧
  (∀ (s : State) (x : Snag) (xs : List Snag), s.evr.inq = x :: xs → s.evr.flushing = true →
     Done .snagEvent s fun t => t = ((s.updEvr fun e => { e with inq := xs }).countSat .evrDropped).raise .evr 1) ∧
  (∀ (r : Requester) (s : State), s.evr.flushing = false →
     Done (.evrClear r 1) s fun t => t = ((s.updEvr fun e => { e with log := [], heldClear := false }).count
     .evrMark).setCounter .evrDropped 0 ∧ Only [.evr, .counters] s t) ∧
  (∀ (r : Requester) (s : State), s.evr.flushing = false → s.works .evr = true → s.flushPorts ≠ [] →
     Done (.evrFlush r 2) s fun t => t = (s.updEvr fun e =>
     { e with flushing := true, image := s.flushImage 2, issued := false }) ∧ Only [.evr] s t) ∧
  (∀ (s : State) (l : List Nat), s.evr.flushing = true → s.evr.issued = false →
     l = (if s.flushRoom = true then s.flushPorts.filter fun p => s.slotsErased p s.flushPlace else []) →
     Done .snagFlush s fun t => t = if l.isEmpty = true then s.endFlush false else l.foldl (fun u p => u.programImage
     u.evr.image s.flushPlace p) (s.updEvr fun e => { e with issued := true })) ∧
  (∀ (s : State), s.evr.flushing = true → s.evr.issued = true → s.vaultBusy .program = false →
     Done .snagFlushEnd s fun t => t = s.endFlush ((List.range 48).any fun p => decide (4 ≤ (s.mlk.vaultRes.filter fun
     r => decide (r.1 = p ∧ r.2 = .ok)).length))) ∧
  (∀ (s : State) (g : Nat), s.evr.flushing = false → s.vaultBusy .erase = false → s.evr.erasing = false →
     (s.evrSegs = 1 ∧ 1024 ≤ s.evr.used ∧ g = 0) ∨ (s.evrSegs ≠ 1 ∧ g = (s.evr.used / 1024 + 1) % s.evrSegs ∧ (s.presentPorts.any fun p => decide (p % 2 = s.top.head % 2 ∧ (s.mod? p).any (fun m => m.holds g) = true)) = true) →
     Done .evrPartitionErase s fun t => t = (s.presentPorts.filter fun p => decide (p % 2 = s.top.head % 2)).foldl (fun u p => match u.mod? p with
       | some m => if m.holds g = true then u.issue (MCmd.vaultErase p g) else u
       | none => u) (s.updEvr fun e => { e with erasing := true })) ∧
  (∀ (r : Requester) (s : State), s.evr.flushing = false → s.works .evr = true → s.flushPorts ≠ [] →
     Done (.evrFlush r 3) s fun t => t = (s.updEvr fun e =>
     { e with flushing := true, image := s.flushImage 2, issued := false, heldClear := true }) ∧ Only [.evr] s t) ∧
  (∀ (s : State), s.evr.flushing = false → s.vaultBusy .erase = false → s.evr.erasing = true →
     Done .evrPartitionErase s fun t => t = (s.updEvr fun e =>
     { e with erasing := false, used := if s.evrSegs = 1 then 0 else e.used }) ∧ Only [.evr] s t) ∧
  (∀ (s : State) (x : Snag), s.evr.log.length < 8191 → (∀ y, s.evr.log.getLast? = some y → x.repeats y = false) →
     s.enterSnag x = (s.updEvr fun e =>
     { e with log := e.log ++ [{ x with rnum := e.nextRnum }], nextRnum := e.nextRnum + 1 }).count .evrMark) ∧
  (∀ (s : State) (x y : Snag), s.evr.log.getLast? = some y → x.repeats y = true →
     s.enterSnag x = (s.updEvr fun e => { e with log := e.log.dropLast ++ [{ y with rep := min 0xFFFF (y.rep + 1), lastDelta := min 0xFFFF (x.epoch - y.epoch).toNat }] }).count
     .evrMark) ∧
  (∀ (s : State), s.evr.issued = true → s.evr.heldClear = false →
     s.endFlush true = (((s.updEvr fun e => { e with flushing := false, image := [], issued := false, flushNum := e.flushNum + 1, used := e.used + 1 }).updMlk
     fun m => { m with vaultRes := [] }).count .evrFlushes).raise .evr 2)

/-- A capsule on a queue pair whose port is up is received as a SEND of its packet number; data of a READ arrives at what
asked for it; the command to be taken next, at the front of an open queue, is refused where its checks fail, spans the
domains where it names every namespace, is forwarded to the domain's owner, fetches the data it needs before it is
stamped, or, with nothing in its way, leaves the queue, counts on it and takes its stamp; a forwarded one is admitted
by its owner; a Connect makes its queue and answers, or is refused; a Disconnect answers before its queue, or all
queues of its controller, end; a connection request takes a free context with the next generation, or is rejected
where the contexts are all taken. (R39, R42, R53, R252, R255, R259.) -/
def Obligations.CapsulesAndAcceptance : Prop :=
  (∀ (s : State) (ok : Bool) (psn : Nat) (c : Capsule) (q : Qp) (i : Nat), i = (match s.fe.queue c.q with | some x => x.qp | none => c.q.qid) → s.qp? i = some q → ok = true → s.works .rdm = true → s.powered .rdm = true → s.ethPort q.port = true →
     Done (.capsuleReceived ok psn c) s fun t => t = s.rxPkt ⟨q.gen * 65536 + i, psn, q.port, .send c⟩) ∧
  (∀ (s : State) (d : SD) (n : Nat) (b : List Byte) (x : Queue), (s.fetchQueue d n).bind s.fe.queue = some x →
     x.err = false → s.works .rdm = true → s.powered .rdm = true →
     Done (.rdmaReadResponse true true d n b) s fun t => t = s.dataArrived x.qp d n b) ∧
  (∀ (s : State) (q : QId) (w : Waiting) (n : Namespace) (s1 : State), s.fe.frontWait q = some w →
     w.cap.origin = none → s.feOpen = true → s.comesFirst w = false → s.fe.fenced q = false → q.qid ≠ 0 →
     q.cntlid ≠ 0xFFFF → s.admitStatus w.cap = none → w.cap.op ≠ 0x84 → w.cap.nsid ≠ 0xFFFFFFFF →
     s.attachedNs w.cap = some n → s.fe.gap.get n.sd = false → s.owns n.sd = true → s.dataReady w = true →
     s.holdOf w.cap n = .go → (s.takeWait w).acceptOwned w.cap n w.data = some s1 →
     Done (.accept q) s fun t => t = s1) ∧
  (∀ (s : State) (i : Nat) (c : Capsule) (x : Queue) (h : Option HostCtl), s.fe.front ⟨0xFFFF, i⟩ = some c → c.op = 0x7F → c.fctype = 1 → s.works .fe = true → s.powered .fe = true →
     (s.updFe fun f => f.dropFront ⟨0xFFFF, i⟩).connect i c = .inr (x, h) →
     Done (.connect i) s fun t => t = (((s.updFe fun f => f.dropFront ⟨0xFFFF, i⟩).updFe fun f => { f with queues := f.queues ++ [x], hosts := match h with | some v => Table.put f.hosts x.q.cntlid v | none => f.hosts }).updQp i fun q => { q with q := some x.q }).respond ⟨x.q, c.cid, stOk, x.q.cntlid, [], false⟩) ∧
  (∀ (s : State) (q : QId) (c : Capsule), s.fe.front q = some c → c.op = 0x7F → c.fctype = 8 → s.works .fe = true →
     s.powered .fe = true → q.qid ≠ 0 →
     Done (.disconnect q) s fun t => t = ((s.takeAdmin q).answer c stOk 0 []).endQueue q) ∧
  (∀ (s s2 : State) (k : QpKind) (p m : Nat) (l : List Nat) (i g : Nat), s.works .rdm = true → s.powered .rdm = true →
     (if k = .nvme then s.ctxCount true < 65024 else s.ctxCount false < 512) →
     i = Table.free s.rdm.qps s.rdm.qps.length 0 → g = nextGen (Table.getD s.rdm.gens i 0) →
     s2 = s.makeRoom.updRdm (fun r =>
     { r with qps := Table.put r.qps i { Qp.new g k p m (s.portRate p) (if k = .scrim then ((l.take 8).zipIdx.map fun x => Sys2Proof.Machine.Path.mk x.2 x.1 true (s.portRate x.1)) else []) with used := r.uses }, uses := r.uses + 1, gens := Table.put r.gens i g, portUp := Table.put r.portUp p true })
     →
     Done (.rdmaCmConnectRequest k p m l) s fun t => t = (if k = .nvme then s2 else s2.reattach i).tx (.cmAccept (g *
     65536 + i))) ∧
  (∀ (s : State) (q : QId) (w : Waiting) (st : Status), s.fe.frontWait q = some w → w.cap.origin = none →
     s.feOpen = true → s.comesFirst w = false → s.fe.fenced q = false → q.qid ≠ 0 → q.cntlid ≠ 0xFFFF →
     s.admitStatus w.cap = some st →
     Done (.accept q) s fun t => t = s.failFront w.cap st) ∧
  (∀ (s : State) (q : QId) (w : Waiting), s.fe.frontWait q = some w → w.cap.origin = none → s.feOpen = true →
     s.comesFirst w = false → s.fe.fenced q = false → q.qid ≠ 0 → q.cntlid ≠ 0xFFFF → s.admitStatus w.cap = none →
     w.cap.op ≠ 0x84 → w.cap.nsid = 0xFFFFFFFF → s.spanOpen (s.spans w.cap.q.cntlid) = true →
     Done (.accept q) s fun t => t = (s.takeWait w).acceptSpan w.cap (s.spans w.cap.q.cntlid)) ∧
  (∀ (s : State) (q : QId) (w : Waiting) (n : Namespace), s.fe.frontWait q = some w → w.cap.origin = none →
     s.feOpen = true → s.comesFirst w = false → s.fe.fenced q = false → q.qid ≠ 0 → q.cntlid ≠ 0xFFFF →
     s.admitStatus w.cap = none → w.cap.op ≠ 0x84 → w.cap.nsid ≠ 0xFFFFFFFF → s.attachedNs w.cap = some n →
     s.fe.gap.get n.sd = false → s.owns n.sd = false → s.ubl.up = true →
     Done (.accept q) s fun t => t = (s.takeWait w).forward w.cap n.sd) ∧
  (∀ (s : State) (q : QId) (w : Waiting) (n : Namespace), s.fe.frontWait q = some w → w.cap.origin = none →
     s.feOpen = true → s.comesFirst w = false → s.fe.fenced q = false → q.qid ≠ 0 → q.cntlid ≠ 0xFFFF →
     s.admitStatus w.cap = none → w.cap.op ≠ 0x84 → w.cap.nsid ≠ 0xFFFFFFFF → s.attachedNs w.cap = some n →
     s.fe.gap.get n.sd = false → s.owns n.sd = true → s.dataReady w = false →
     Done (.accept q) s fun t => t = s.fetchCap w) ∧
  (∀ (s : State) (q : QId) (w : Waiting), s.fe.frontWait q = some w → w.cap.origin.isSome = true → s.feOpen = true →
     s.comesFirst w = false →
     Done (.accept q) s fun t => t = s.admitFwd w) ∧
  (∀ (s : State) (i : Nat) (c : Capsule) (st : Status), s.fe.front ⟨0xFFFF, i⟩ = some c → c.op = 0x7F → c.fctype = 1 →
     s.works .fe = true → s.powered .fe = true → (s.updFe fun f => f.dropFront ⟨0xFFFF, i⟩).connect i c = .inl st →
     Done (.connect i) s fun t => t = (s.updFe fun f => f.dropFront ⟨0xFFFF, i⟩).respond ⟨⟨0xFFFF, i⟩, c.cid, st, 0,
     [], false⟩) ∧
  (∀ (s s2 : State) (q : QId) (c : Capsule), s.fe.front q = some c → c.op = 0x7F → c.fctype = 8 → s.works .fe = true →
     s.powered .fe = true → q.qid = 0 → s2 = ((s.takeAdmin q).answer c stOk 0 []).endController q.cntlid →
     Done (.disconnect q) s fun t => t = (s2.fe.queues.filter fun y => decide (y.q.cntlid = q.cntlid)).foldl (fun u x
     => u.endQueue x.q) s2) ∧
  (∀ (s : State) (k : QpKind) (p m : Nat) (l : List Nat), s.works .rdm = true → s.powered .rdm = true →
     (if k = .nvme then 65024 ≤ s.ctxCount true else 512 ≤ s.ctxCount false) →
     Done (.rdmaCmConnectRequest k p m l) s fun t => t = s.tx (.cmReject 0x06))

/-- For an accepted command whose status is open: a write whose data is in its capsule lands it, any other write fetches
its data; Read, Verify and Compare resolve their granules, a Compare outside its capsule fetching its data as well;
Flush completes where every write it covers is safe; Write Zeroes lands its units; Dataset Management without AD
completes with no effect, with AD it fetches its ranges, is refused where one leaves the namespace, and lands the
zeros of the units its ranges cover. (R41, R44, R51, R53, R66, R256, R257.) -/
def Obligations.IoCommands : Prop :=
  (∀ (s : State) (d : SD) (n : Nat) (c : Cmd), s.live d n 0x01 = some c → c.started = false → c.cap.inCapsule = true →
     Done (.write d n) s fun t => t = (s.updCmd d n fun x => { x with started := true }).feed d n c.cap.data) ∧
  (∀ (s : State) (d : SD) (n : Nat) (c : Cmd), s.live d n 0x01 = some c → c.started = false → c.cap.inCapsule = false →
     Done (.write d n) s fun t => t = s.fetchHost c) ∧
  (∀ (s : State) (d : SD) (n : Nat) (c : Cmd), s.live d n 0x02 = some c →
     Done (.read d n) s fun t => t = s.startRead s.hour d n) ∧
  (∀ (s : State) (d : SD) (n : Nat) (c : Cmd), s.live d n 0x0C = some c →
     Done (.verify d n) s fun t => t = s.startRead s.hour d n) ∧
  (∀ (s : State) (d : SD) (n : Nat) (c : Cmd), s.live d n 0x05 = some c → c.started = false → s.mustHold c = false →
     c.cap.inCapsule = true →
     Done (.compare d n) s fun t => t = s.startRead s.hour d n) ∧
  (∀ (s : State) (d : SD) (n : Nat) (c : Cmd), s.live d n 0x00 = some c → c.tags = [] →
     (∀ x ∈ s.fe.cmds, c.flushes x s = true → x.safe s.noMirror = true) →
     Done (.flush d n) s fun t => t = s.result d n stOk) ∧
  (∀ (s : State) (d : SD) (n : Nat) (c : Cmd), s.live d n 0x08 = some c → c.started = false →
     Done (.writeZeroes d n) s fun t => t = (s.updCmd d n fun x => { x with started := true }).landUnits d n) ∧
  (∀ (s : State) (d : SD) (n : Nat) (c : Cmd) (x : Namespace), s.live d n 0x09 = some c → s.ns? c.cap.nsid = some x →
     bitOf (c.cap.cdw 11) 2 = false →
     Done (.datasetManagement d n) s fun t => t = s.result d n stOk) ∧
  (∀ (s : State) (d : SD) (n : Nat) (c x : Cmd), s.live d n 0x05 = some c → c.started = false → s.mustHold c = false →
     c.cap.inCapsule = false → (s.startRead s.hour d n).cmd? d n = some x →
     Done (.compare d n) s fun t => t = (s.startRead s.hour d n).fetchHost x) ∧
  (∀ (s : State) (d : SD) (n : Nat) (c : Cmd) (x : Namespace) (nr : Nat) (l : List Byte), s.live d n 0x09 = some c →
     s.ns? c.cap.nsid = some x → bitOf (c.cap.cdw 11) 2 = true → nr = bitsOf (c.cap.cdw 10) 7 0 + 1 →
     l = (if c.cap.inCapsule = true then c.cap.data else c.host) → l.length < 16 * nr → c.started = false →
     Done (.datasetManagement d n) s fun t => t = s.fetchHost c) ∧
  (∀ (s s1 : State) (d : SD) (n : Nat) (c : Cmd) (x : Namespace) (nr : Nat) (l : List Byte), s.live d n 0x09 = some c →
     s.ns? c.cap.nsid = some x → bitOf (c.cap.cdw 11) 2 = true → nr = bitsOf (c.cap.cdw 10) 7 0 + 1 →
     l = (if c.cap.inCapsule = true then c.cap.data else c.host) → 16 * nr ≤ l.length →
     ((dsmRanges l nr).any fun y => decide (y.1 + y.2 > s.nsze x)) = false →
     (if c.units.isEmpty = true then s.makeUnits c x 0 (dsmUnits x.lbaf (dsmRanges l nr)) else some s) = some s1 →
     Done (.datasetManagement d n) s fun t => t = (s1.updCmd d n fun y => { y with started := true }).landUnits d n) ∧
  (∀ (s : State) (d : SD) (n : Nat) (c : Cmd) (x : Namespace) (nr : Nat) (l : List Byte), s.live d n 0x09 = some c →
     s.ns? c.cap.nsid = some x → bitOf (c.cap.cdw 11) 2 = true → nr = bitsOf (c.cap.cdw 10) 7 0 + 1 →
     l = (if c.cap.inCapsule = true then c.cap.data else c.host) → 16 * nr ≤ l.length →
     ((dsmRanges l nr).any fun y => decide (y.1 + y.2 > s.nsze x)) = true →
     Done (.datasetManagement d n) s fun t => t = (s.abandon d n).result d n stLbaRange)

/-- A fence whose list is there, and that nothing goes before, stands from then on, reaching its fence point at once where
its entries are met; one whose list is outside its capsule fetches it first, and a bad list is answered Invalid Field;
a waiting fence whose entries are met reaches its point; a fence that lists a queue that is gone, or has failed short
of its entry, is answered with Fence Source Lost. A registration, an acquire and a release, with no earlier
reservation command before them, give the namespace the reservation that the table says, answer its status and notify
whom it names; one in conflict fails and counts. A registration of a new host adds it with its key, an acquire by a
registrant of a free namespace makes it the holder with its type, and a release by the holder frees it and tells the
other registrants of a shared type; a report returns the structure. (R44, R47, R48, R49, R268, R269.) -/
def Obligations.FencesAndReservations : Prop :=
  (∀ (s s1 : State) (q : QId) (b : List Byte) (w : Waiting), s.fe.frontWait q = some w → w.cap.op = 0x84 →
     w.cap.origin = none → q.qid ≠ 0 → s.fe.fenced q = false → s.feOpen = true → s.admitStatus w.cap = none →
     s.dataReady w = true → s.comesFirst w = false → s.fenceFails w = false →
     s1 = (s.takeWait w).updFe (fun x => { x with fences := x.fences ++ [w.fence] }) →
     Done (.orderingFence q b) s fun t => t = if s1.fenceMet w.fence = true then s1.fencePoint w.fence else s1) ∧
  (∀ (s : State) (q : QId) (n : Nat) (f : Fence), s.fe.fences.find? (fun f => decide (f.cap.q = q ∧
     f.cap.cid = n)) = some f → s.fenceMet f = true →
     Done (.fencePointReached q n) s fun t => t = s.fencePoint f) ∧
  (∀ (s : State) (q : QId) (n : Nat) (f : Fence), s.fe.fences.find? (fun f => decide (f.cap.q = q ∧ f.cap.cid = n)) = some f →
     (f.ents.any fun y => match s.fe.queue ⟨q.cntlid, y.1⟩ with | none => true | some x => x.err && !entryMet x.acc y.2) = true →
     Done (.fenceSourceLost q n) s fun t => t = (((s.updFe fun x => { x with fences := x.fences.filter (· ≠ f) }).answer f.cap ⟨7, 0xC1⟩ 0 []).raise .fe 6)) ∧
  (∀ (s s1 : State) (d : SD) (n : Nat) (c : Cmd) (e : ResvEff), s.live d n 0x0D = some c →
     s.resvEarlier d n c.cap.nsid = false → e = (s.resvOf d c.cap.nsid).act c.cap c.resvData → e.st ≠ stResvConflict →
     s1 = (if e.changed = true then s.setResv d c.cap.nsid e.next else s) →
     Done (.reservationRegister d n) s fun t => t = e.notes.foldl (fun u x => u.resvNotify d x.1 x.2 c.cap.nsid)
     (s1.result d n e.st)) ∧
  (∀ (s : State) (d : SD) (n : Nat) (c : Cmd), s.live d n 0x0E = some c →
     Done (.reservationReport d n) s fun t => t = (s.updCmd d n fun x =>
     { x with out := (s.resvAt d c.cap.nsid n).report.take (4 * (c.cap.cdw 10 + 1)) }).result d n stOk) ∧
  (∀ (s s1 : State) (d : SD) (n : Nat) (c : Cmd) (e : ResvEff), s.live d n 0x11 = some c →
     s.resvEarlier d n c.cap.nsid = false → e = (s.resvOf d c.cap.nsid).act c.cap c.resvData → e.st ≠ stResvConflict →
     s1 = (if e.changed = true then s.setResv d c.cap.nsid e.next else s) →
     Done (.reservationAcquire d n) s fun t => t = e.notes.foldl (fun u x => u.resvNotify d x.1 x.2 c.cap.nsid)
     (s1.result d n e.st)) ∧
  (∀ (s s1 : State) (d : SD) (n : Nat) (c : Cmd) (e : ResvEff), s.live d n 0x15 = some c →
     s.resvEarlier d n c.cap.nsid = false → e = (s.resvOf d c.cap.nsid).act c.cap c.resvData → e.st ≠ stResvConflict →
     s1 = (if e.changed = true then s.setResv d c.cap.nsid e.next else s) →
     Done (.reservationRelease d n) s fun t => t = e.notes.foldl (fun u x => u.resvNotify d x.1 x.2 c.cap.nsid)
     (s1.result d n e.st)) ∧
  (∀ (s : State) (q : QId) (b : List Byte) (w : Waiting), s.fe.frontWait q = some w → w.cap.op = 0x84 →
     w.cap.origin = none → q.qid ≠ 0 → s.fe.fenced q = false → s.feOpen = true → s.admitStatus w.cap = none →
     s.dataReady w = false → w.asked = false →
     Done (.orderingFence q b) s fun t => t = s.fetchCap w) ∧
  (∀ (s : State) (q : QId) (b : List Byte) (w : Waiting), s.fe.frontWait q = some w → w.cap.op = 0x84 →
     w.cap.origin = none → q.qid ≠ 0 → s.fe.fenced q = false → s.feOpen = true → s.admitStatus w.cap = none →
     s.dataReady w = true → s.comesFirst w = false → s.fenceFails w = true →
     Done (.orderingFence q b) s fun t => t = s.failFront w.cap stBadField) ∧
  (∀ (s : State) (d : SD) (n : Nat) (c : Cmd) (e : ResvEff), s.live d n 0x0D = some c →
     s.resvEarlier d n c.cap.nsid = false → e = (s.resvOf d c.cap.nsid).act c.cap c.resvData → e.st = stResvConflict →
     e.changed = false → e.notes = [] →
     Done (.reservationRegister d n) s fun t => t = s.resvFail c) ∧
  (∀ (s : State) (d : SD) (n : Nat) (c : Cmd) (e : ResvEff), s.live d n 0x11 = some c →
     s.resvEarlier d n c.cap.nsid = false → e = (s.resvOf d c.cap.nsid).act c.cap c.resvData → e.st = stResvConflict →
     e.changed = false → e.notes = [] →
     Done (.reservationAcquire d n) s fun t => t = s.resvFail c) ∧
  (∀ (s : State) (d : SD) (n : Nat) (c : Cmd) (e : ResvEff), s.live d n 0x15 = some c →
     s.resvEarlier d n c.cap.nsid = false → e = (s.resvOf d c.cap.nsid).act c.cap c.resvData → e.st = stResvConflict →
     e.changed = false → e.notes = [] →
     Done (.reservationRelease d n) s fun t => t = s.resvFail c) ∧
  (∀ (r : Resv) (c : Capsule) (d : List Byte), bitsOf (c.cdw 10) 2 0 = 0 → bitsOf (c.cdw 10) 31 30 = 0 →
     r.keyOf c.hostId = none → r.regs.length < 1024 → r.register c d =
     ⟨{ r with regs := r.regs ++ [⟨c.hostId, leAt d 8 8⟩], gen := (r.gen + 1) % 2 ^ 32 }, true, stOk, []⟩) ∧
  (∀ (r : Resv) (c : Capsule) (d : List Byte), bitsOf (c.cdw 10) 2 0 = 0 → bitOf (c.cdw 10) 3 = false →
     r.keyOf c.hostId = some (leAt d 0 8) → r.stands = false → 0 < bitsOf (c.cdw 10) 15 8 →
     bitsOf (c.cdw 10) 15 8 ≤ 6 → r.acquire c d = ⟨{ r with holder := some c.hostId, rtype := bitsOf (c.cdw 10) 15 8 },
     true, stOk, []⟩) ∧
  (∀ (r : Resv) (c : Capsule) (d : List Byte), bitsOf (c.cdw 10) 2 0 = 0 → bitOf (c.cdw 10) 3 = false →
     r.keyOf c.hostId = some (leAt d 0 8) → r.stands = true → r.holds c.hostId = true →
     r.rtype = bitsOf (c.cdw 10) 15 8 → r.release c d = ⟨{ r with holder := none, rtype := 0 }, true, stOk, if
     sharedType r.rtype = true then [(r.others c.hostId, 2)] else []⟩)

/-- For the front command of an admin queue: Abort of a command that is caught answers 0 in dword 0 and counts, of one
that is not answers 1, of one forwarded asks its owner, and beyond four aborts is refused; Get Log Page and Identify
return their structures with their status; Set Features keeps the value, answers the queue counts, sets the Keep Alive
timer or the persistence of a reservation (at its owner); Get Features and Property Get return it; Property Set of CC
stores it and, clearing EN, ends the I/O queues; a kept event answers an Asynchronous Event Request, which waits
otherwise; Keep Alive answers success; an event for a host controller is delivered to it, and a Keep Alive timeout
ends it. (R252, R256, R258, R270, R271, R56.) -/
def Obligations.AdminCommands : Prop :=
  (∀ (s : State) (q : QId) (c : Capsule) (h : HostCtl) (s1 : State) (p : Capsule →
     Bool), s.adminFront q 0x08 = some (c, h) → h.aborts < 4 → bitsOf (c.cdw 10) 15 0 ≠ 0 →
     p = (fun x => decide (x.q = ⟨q.cntlid, bitsOf (c.cdw 10) 15 0⟩ ∧ x.cid = bitsOf (c.cdw 10) 31 16 ∧
     x.origin = none)) → (s.fe.fwd.find? fun f => p f.cap) = none → s.catchCmd p = some s1 →
     Done (.abort q) s fun t => t = ((s1.adminDone c stOk 0 []).count .feAbortCaught)) ∧
  (∀ (s s1 : State) (q : QId) (c : Capsule) (h : HostCtl) (st : Status) (b : List Byte), s.adminFront q 0x02 = some (c,
     h) → (s.sanitizing = false ∨ bitsOf (c.cdw 10) 7 0 ∈ sanitizePages) →
     s.logPage q.cntlid h (bitsOf (c.cdw 10) 7 0) c.nsid = some (st, b) →
     s1 = s.adminDone c st 0 (if st = stOk then slice b (c.cdw 12 + 2 ^ 32 * c.cdw 13) (4 * (bitsOf (c.cdw 10) 31 16 +
     65536 * bitsOf (c.cdw 11) 15 0 + 1)) else []) →
     Done (.getLogPage q) s fun t => t = if bitOf (c.cdw 10) 15 = true then s1 else s1.updHost q.cntlid fun y =>
     y.pageRead (bitsOf (c.cdw 10) 7 0)) ∧
  (∀ (s : State) (q : QId) (c : Capsule) (h : HostCtl) (st : Status) (b : List Byte), s.adminFront q 0x06 = some (c, h)
     → s.identify q.cntlid h (bitsOf (c.cdw 10) 7 0) c.nsid (bitsOf (c.cdw 11) 31 24) = some (st, b) →
     Done (.identify q) s fun t => t = s.adminDone c st 0 b) ∧
  (∀ (s : State) (q : QId) (c : Capsule) (h : HostCtl), s.adminFront q 0x09 = some (c, h) →
     bitsOf (c.cdw 10) 7 0 = 0x0B ∨ bitsOf (c.cdw 10) 7 0 = 0x82 →
     Done (.setFeatures q) s fun t => t = (s.adminDone c stOk 0 []).updHost q.cntlid fun y =>
     { y with feats := Table.put y.feats (bitsOf (c.cdw 10) 7 0) (c.cdw 11) }) ∧
  (∀ (s : State) (q : QId) (c : Capsule) (h : HostCtl) (v : Nat) (b : List Byte), s.adminFront q 0x0A = some (c, h) →
     (bitsOf (c.cdw 10) 7 0 = 0x83 → (s.attachedNs c).map (fun x => s.owns x.sd) ≠ some false) →
     s.feature c h (bitsOf (c.cdw 10) 7 0) = some (v, b) →
     Done (.getFeatures q) s fun t => t = s.adminDone c stOk v b) ∧
  (∀ (s : State) (q : QId) (c : Capsule) (h : HostCtl), s.adminFront q 0x0C = some (c, h) → h.kept = [] →
     h.aers.length < 8 →
     Done (.asynchronousEventRequest q) s fun t => t = (s.takeAdmin q).updHost q.cntlid fun h =>
     { h with aers := h.aers ++ [c.cid] }) ∧
  (∀ (s : State) (n : Nat) (e : AEvent),
     Done (.asynchronousEvent n e) s fun t => t = s.asyncTo n e ∧ Only [.fe] s t) ∧
  (∀ (s : State) (q : QId) (c : Capsule) (h : HostCtl), s.adminFront q 0x18 = some (c, h) →
     Done (.keepAlive q) s fun t => t = s.adminDone c stOk 0 []) ∧
  (∀ (s : State) (n : Nat) (h : HostCtl), Table.find s.fe.hosts n = some h → h.kato ≠ 0 →
     Done (.keepAliveTimeout n) s fun t => t = s.endController n) ∧
  (∀ (s : State) (q : QId) (c : Capsule) (h : HostCtl), s.adminFront q 0x7F = some (c, h) → c.fctype = 0 →
     leAt c.sqe 44 4 = 0x14 → ¬ (bitOf h.cc 0 = true ∧ bitOf (leAt c.sqe 48 4) 0 = false) →
     Done (.propertySet q) s fun t => t = (s.updHost q.cntlid fun h => { h with cc := leAt c.sqe 48 4 }).adminDone c
     stOk 0 []) ∧
  (∀ (s : State) (q : QId) (c : Capsule) (h : HostCtl) (v : Nat), s.adminFront q 0x7F = some (c, h) → c.fctype = 4 →
     h.property (leAt c.sqe 44 4) = some v →
     Done (.propertyGet q) s fun t => t = s.adminDone c stOk v []) ∧
  (∀ (s : State) (q : QId) (c : Capsule) (h : HostCtl) (p : Capsule → Bool), s.adminFront q 0x08 = some (c, h) →
     h.aborts < 4 → p = (fun x => decide (x.q = ⟨q.cntlid, bitsOf (c.cdw 10) 15 0⟩ ∧ x.cid = bitsOf (c.cdw 10) 31 16 ∧
     x.origin = none)) → (bitsOf (c.cdw 10) 15 0 = 0 ∨ ((s.fe.fwd.find? fun f => p f.cap) = none ∧
     s.catchCmd p = none)) →
     Done (.abort q) s fun t => t = s.adminDone c stOk 1 []) ∧
  (∀ (s : State) (q : QId) (c : Capsule) (h : HostCtl) (f : Fwd) (p : Capsule →
     Bool), s.adminFront q 0x08 = some (c, h) → h.aborts < 4 → bitsOf (c.cdw 10) 15 0 ≠ 0 →
     p = (fun x => decide (x.q = ⟨q.cntlid, bitsOf (c.cdw 10) 15 0⟩ ∧ x.cid = bitsOf (c.cdw 10) 31 16 ∧
     x.origin = none)) → (s.fe.fwd.find? fun f => p f.cap) = some f →
     Done (.abort q) s fun t => t = ((((s.takeAdmin q).updHost q.cntlid fun y =>
     { y with aborts := y.aborts + 1 }).updFe fun x =>
     { x with fwd := x.fwd.map fun y => if y.tag = f.tag then { y with abort := some (c.q, c.cid) } else y }).send
     (.fwdAbort f.tag))) ∧
  (∀ (s : State) (q : QId) (c : Capsule) (h : HostCtl), s.adminFront q 0x08 = some (c, h) → 4 ≤ h.aborts →
     Done (.abort q) s fun t => t = s.adminDone c stAbortLimit 0 []) ∧
  (∀ (s : State) (q : QId) (c : Capsule) (h : HostCtl), s.adminFront q 0x09 = some (c, h) → bitsOf (c.cdw 10) 7 0 = 7 →
     Done (.setFeatures q) s fun t => t = s.adminDone c stOk 0x007F007F []) ∧
  (∀ (s : State) (q : QId) (c : Capsule) (h : HostCtl), s.adminFront q 0x09 = some (c, h) →
     bitsOf (c.cdw 10) 7 0 = 0x0F → 1000 ≤ c.cdw 11 → c.cdw 11 ≤ 300000 →
     Done (.setFeatures q) s fun t => t = (s.adminDone c stOk 0 []).updHost q.cntlid fun y =>
     { y with kato := (c.cdw 11 + 99) / 100 }) ∧
  (∀ (s : State) (q : QId) (c : Capsule) (h : HostCtl) (x : Namespace), s.adminFront q 0x09 = some (c, h) →
     bitsOf (c.cdw 10) 7 0 = 0x83 → s.attachedNs c = some x →
     Done (.setFeatures q) s fun t => t = if s.owns x.sd = true then (s.setResv x.sd c.nsid
     { s.resvOf x.sd c.nsid with ptpl := bitOf (c.cdw 11) 0 }).adminDone c stOk 0 [] else (s.takeAdmin q).forward c
     x.sd) ∧
  (∀ (s : State) (q : QId) (c : Capsule) (h : HostCtl) (x : Namespace), s.adminFront q 0x0A = some (c, h) →
     bitsOf (c.cdw 10) 7 0 = 0x83 → s.attachedNs c = some x → s.owns x.sd = false →
     Done (.getFeatures q) s fun t => t = (s.takeAdmin q).forward c x.sd) ∧
  (∀ (s : State) (q : QId) (c : Capsule) (h : HostCtl) (e : AEvent) (l : List AEvent), s.adminFront q 0x0C = some (c,
     h) → h.kept = e :: l →
     Done (.asynchronousEventRequest q) s fun t => t = (s.updHost q.cntlid fun y => { y with kept := l }).adminDone c
     stOk (e.etype + e.info * 2 ^ 8 + e.page * 2 ^ 16) []) ∧
  (∀ (s s1 : State) (q : QId) (c : Capsule) (h : HostCtl) (l : List Queue), s.adminFront q 0x7F = some (c, h) →
     c.fctype = 0 → leAt c.sqe 44 4 = 0x14 → bitOf h.cc 0 = true → bitOf (leAt c.sqe 48 4) 0 = false →
     s1 = (s.updHost q.cntlid fun h => { h with cc := leAt c.sqe 48 4 }).adminDone c stOk 0 [] →
     l = s1.fe.queues.filter (fun x => decide (x.q.cntlid = q.cntlid ∧ x.q.qid ≠ 0)) →
     Done (.propertySet q) s fun t => t = l.foldl (fun u x => u.updFe fun f => f.dropQueue x.q) (l.foldl (fun u x =>
     u.qpError x.qp none) s1)) ∧
  (∀ (s : State) (q : QId) (c : Capsule) (h : HostCtl), s.adminFront q 0x7F = some (c, h) → c.fctype = 4 →
     h.property (leAt c.sqe 44 4) = none →
     Done (.propertyGet q) s fun t => t = s.adminDone c stBadField 0 [])

/-- A Format NVM of namespaces of the head whose format fits, and whose keys no other root uses where it erases them,
opens the record at phase 1 and answers nothing yet; a Sanitize with action 2 or 4 completes at once and opens its
own, and one beside an open record is refused; a phase ends once every accepted command in scope has completed, or its
erases are done: the follower tells the leader, and the leader, with the peer done, moves the record on with its
cursor 0, tells the peer and starts the next phase's work, or closes the record. (R272, R273, R274, R275.) -/
def Obligations.FormatAndSanitize : Prop :=
  (∀ (s : State) (q : QId) (c : Capsule) (h : HostCtl) (l : List (Nat × Namespace)) (v : Nat), s.adminFront q 0x80 =
     some (c, h) → v = c.cdw 10 → s.fe.progress = none → l = (if c.nsid = 0xFFFFFFFF then s.nsOf q.cntlid else (s.nsOf
     q.cntlid).filter fun y => decide (y.1 = c.nsid)) → l.isEmpty = false →
     formatOk (bitsOf v 3 0) (bitsOf v 7 5) (bitsOf v 8 8) (bitsOf v 4 4) = true → bitsOf v 13 12 = 0 →
     bitsOf v 11 9 ≤ 2 → (l.any fun y => s.readOnly y.2) = false → ¬ (bitsOf v 11 9 = 2 ∧
     ([SD.a, SD.b].any fun d => (s.seenMeta d).roots.any fun y => decide (y.2.kdom ∈ l.map (fun z => z.2.kdom) ∧
     (d, y.1) ∉ l.map fun z => (z.2.sd, z.2.root))) = true) →
     Done (.formatNvm q) s fun t => t = (s.takeAdmin q).openRecord ⟨1, bitsOf v 11 9, 1, bitsOf v 3 0, c.nsid,
     q.cntlid, 0, s.top.epoch, 0, c.cid⟩) ∧
  (∀ (s : State) (q : QId) (c : Capsule) (h : HostCtl), s.adminFront q 0x84 = some (c, h) → s.fe.progress = none →
     bitsOf (c.cdw 10) 2 0 = 2 ∨ bitsOf (c.cdw 10) 2 0 = 4 →
     Done (.sanitize q) s fun t => t = ((s.adminDone c stOk 0 []).updFe fun f =>
     { f with sanitize := (2, 0) }).openRecord ⟨2, bitsOf (c.cdw 10) 2 0, 1, 0, 0xFFFFFFFF, q.cntlid, 0, s.top.epoch,
     0, c.cid⟩) ∧
  (∀ (s s0 s1 : State) (p p1 : Progress) (bad : List Nat), s.fe.progress = some p → s.phaseQuiet p bad = true →
     s0 = (if p.phase = 4 then s.markBad bad else s) → s0.fe.recordPeer = false →
     s0.noMirror = true ∨ s0.fe.peerDone = true → p1 =
     { p with phase := p.nextPhase, cursor := 0, prog := (Config.progress s0.draws).toNat } →
     s1 = ({ s0 with draws := s0.draws + 1 } : State).updFe (fun f => { f with peerDone := false }) →
     Done (.formatPhaseDone bad) s fun t => t = if p.nextPhase = 5 then (s1.closeRecord p1).tellPeer p1 else
     ((s1.setProgress (some p1)).tellPeer p1).phaseWork p1 false) ∧
  (∀ (s s0 : State) (p : Progress) (bad : List Nat), s.fe.progress = some p → s.phaseQuiet p bad = true →
     s0 = (if p.phase = 4 then s.markBad bad else s) → s0.fe.recordPeer = true →
     Done (.formatPhaseDone bad) s fun t => t = s0.tellDone p) ∧
  (∀ (s : State) (q : QId) (c : Capsule) (h : HostCtl), s.adminFront q 0x84 = some (c, h) →
     s.fe.progress.isSome = true →
     Done (.sanitize q) s fun t => t = s.adminDone c stSequence 0 [])

/-- A partial granule is merged, once every earlier piece has its data, from its base and the pieces over it; a granule
with its bytes is fingerprinted under its key domain's key and looked up where the mode is not off and it is not all
zero, with room among 512 lookups; the hot index answers hit or miss; a free lane with room to hold gives the Avaraun
stream of its bytes or counts NO_GAIN, and what was held back lands; a target that reads equal verifies, any other
counts a mismatch, leaves the hot index and, where it could be read, is snagged; a granule of a complete unit, decided
in its turn, is unmapped, zero, a hit, or appended to a pack as a miss; a delta that nothing holds is recorded in its
turn; a shared page is copied before an entry below it is written. A base that is unmapped, with nothing over it,
merges to zeros. That a hit refused later stays counted as discarded is the model's choice (assumption 100). (R67,
R68, R69, R91, R92, R95, R98, R102, R106, R116.) -/
def Obligations.WriteSideOfTheDatapath : Prop :=
  (∀ (s s1 : State) (i : Nat) (g : Gran) (n : Namespace) (x : InFl) (b : List Byte) (bad : List Nat), s.gran? i = some
     g → s.ns? g.nsid = some n → s.flightOf g = some x → g.bytes = none → s.up .dp = true →
     ((s.flights g.sd g.nsid g.gran g.stamp g.unitIdx).any fun y => !y.complete) = false →
     s.merged g n x = (b, bad, s1) →
     Done (.merge i) s fun t => t = (s1.updGran i fun y =>
     { y with bytes := some b, lane := s1.dp.entered, bad := bad.foldl (fun v k => v + 2 ^ k) 0 }).updDp fun p =>
     { p with entered := p.entered + 1 }) ∧
  (∀ (s : State) (i : Nat) (g : Gran) (b : List Byte) (k : KDom), s.gran? i = some g → g.bytes = some b →
     Table.find s.dp.kdoms g.kdom = some k → g.fp = none → g.unmap = none → s.up .dp = true →
     (s.dp.grans.filter fun x => decide (x.2.look = .issued)).length < 512 →
     Done (.fingerprint i) s fun t => t = s.updGran i (fun g =>
     { g with fp := some ((kmac256 k.fpKey b 32 (ascii "VXFP")).take 24), check := crc64 b, look := if k.mode = .off ∨ g.bad ≠ 0 ∨ allZero b = true then .none else .issued })
     ∧ Only [.dp] s t) ∧
  (∀ (s : State) (i : Nat) (g : Gran) (f : List Byte) (l : Nat), s.gran? i = some g → g.fp = some f →
     g.look = .issued → s.dp.lookup g.kdom g.sd f = some l →
     Done (.lookupResult i) s fun t => t = s.updGran i (fun g => { g with look := .hit l }) ∧ Only [.dp] s t) ∧
  (∀ (s : State) (i : Nat) (g : Gran) (f : List Byte), s.gran? i = some g → g.fp = some f → g.look = .issued →
     s.dp.lookup g.kdom g.sd f = none →
     Done (.lookupResult i) s fun t => t = s.updGran i (fun g => { g with look := .miss }) ∧ Only [.dp] s t) ∧
  (∀ (s : State) (i : Nat) (g : Gran) (b : List Byte), s.gran? i = some g → g.bytes = some b → g.result = none → g.unmap = none → s.laneBusy g = false → s.holdRoom = true → s.up .dp = true →
     Done (.laneResult i) s fun t => t = (match avaEncode b (crc64 b) with
       | some x => s.updGran i fun g => { g with result := some (.stream x) }
       | none => (s.updGran i fun g => { g with result := some .noGain }).count .dpNoGain).landHeld) ∧
  (∀ (s s0 : State) (i : Nat) (g : Gran) (l : Nat) (b f : List Byte), s.gran? i = some g → g.look = .hit l →
     g.bytes = some b → g.fp = some f → g.verify = none → s.modeOf g.kdom = .verify →
     s.readLoc g.sd l = (.bytes b, s0) →
     Done (.verifyCompare i) s fun t => t = s0.updGran i (fun g => { g with verify := some true })) ∧
  (∀ (s : State) (i : Nat) (g : Gran) (b f : List Byte) (l : Lane), s.gran? i = some g → g.dec = .none →
     Pend.gran i ∉ s.dp.pend → s.unitComplete g = true → s.decideFirst g = false → s.dp.pend.length < 4096 →
     s.up .dp = true → g.unmap = none → g.bytes = some b → g.fp = some f → g.result = some l → s.lookReady g = true →
     g.bad = 0 → allZero b = true →
     Done (.packerDecision i) s fun t => t = ((((s.updGran i fun g => { g with dec := .zero }).count
     .dpSpecDiscarded).count .dpDedupZero).toPend i)) ∧
  (∀ (s : State) (i id : Nat) (g : Gran), s.dp.pend[i]? = some (.gran id) → s.gran? id = some g → s.up .map = true →
     s.logFull g.sd = false → s.turn g = true → (∀ x, s.flightOf g = some x → s.readHolds g x = false) →
     s.pendFirst i (.gran id) = false → (∀ r ∈ deltaRoots (s.metaOf g.sd) g.root g.stamp, s.mapReady g.sd r g.gran =
     true ∧ s.mustCopy g.sd r g.gran = none) →
     Done (.deltaRecorded i) s fun t => t = s.evbHold (s.recordGran id g)) ∧
  (∀ (s s1 s2 : State) (d : SD) (root gran : Nat) (up : Option Nat) (mpid level : Nat), s.mustCopy d root gran = some (up, mpid, level) → s.up .map = true → s.pendingWrite d root gran = true → s.logFull d = false →
     (s.map.en = false ∨ s.map.busy = 1 ∨ ((List.range 16).all fun i => s.map.sectorValid d mpid i) = true) → s1 = s.copyPage d root gran →
     s2 = (List.range 16).foldl (fun u i => u.dirtySector d (s.metaOf d).nextMpid i (some (root, gran / 512))) s1 →
     Done (.pageCopy d root gran) s fun t => t = s.evbHold (match (rootPath (s1.metaOf d) ((Table.find (s1.metaOf d).roots root).getD ⟨0, false, false, 0, 0, 0, none, 0, 0, 0⟩) gran).find? (fun p => decide (p.2 = level + 1)) with
       | some (p, l) => s2.dirtySector d p (sectorOf (dirIdx l (gran / 512))) (some (root, gran / 512))
       | none => s2)) ∧
  (∀ (s s0 s1 : State) (r : Stored) (i : Nat) (g : Gran) (l : Nat) (b f : List Byte), s.gran? i = some g → g.look = .hit l → g.bytes = some b → g.fp = some f → g.verify = none → s.modeOf g.kdom = .verify → s.readLoc g.sd l = (r, s0) → r ≠ .bytes b →
     s1 = ((s0.updGran i fun g => { g with verify := some false }).count .dpVerifyMismatch).updDp (·.dropHot g.kdom g.sd f l) →
     Done (.verifyCompare i) s fun t => t = match r with | .bytes _ => s1.snag 6 0x1002 (some g.sd) 0xFF (leBytes 1 g.kdom ++ leBytes 6 l) | _ => s1) ∧
  (∀ (s : State) (i : Nat) (g : Gran), s.gran? i = some g → g.dec = .none → Pend.gran i ∉ s.dp.pend →
     s.unitComplete g = true → s.decideFirst g = false → s.dp.pend.length < 4096 → s.up .dp = true →
     g.unmap.isSome = true →
     Done (.packerDecision i) s fun t => t = s.toPend i) ∧
  (∀ (s : State) (i : Nat) (g : Gran) (b f : List Byte) (l : Lane) (loc : Nat), s.gran? i = some g → g.dec = .none →
     Pend.gran i ∉ s.dp.pend → s.unitComplete g = true → s.decideFirst g = false → s.dp.pend.length < 4096 →
     s.up .dp = true → g.unmap = none → g.bytes = some b → g.fp = some f → g.result = some l → s.lookReady g = true →
     (g.bad ≠ 0 ∨ allZero b = false) → g.look = .hit loc → (s.modeOf g.kdom = .on ∨ (s.modeOf g.kdom = .verify ∧
     g.verify = some true)) →
     Done (.packerDecision i) s fun t => t = ((((s.updGran i fun g => { g with dec := .hit loc }).updDp (·.hitHot
     g.kdom g.sd f)).count .dpSpecDiscarded).toPend i)) ∧
  (∀ (s s1 : State) (i : Nat) (g : Gran) (b f : List Byte) (l : Lane), s.gran? i = some g → g.dec = .none →
     Pend.gran i ∉ s.dp.pend → s.unitComplete g = true → s.decideFirst g = false → s.dp.pend.length < 4096 →
     s.up .dp = true → g.unmap = none → g.bytes = some b → g.fp = some f → g.result = some l → s.lookReady g = true →
     (g.bad ≠ 0 ∨ allZero b = false) → (∀ loc, g.look = .hit loc →
     s.modeOf g.kdom = .off ∨ (s.modeOf g.kdom = .verify ∧ g.verify ≠ some true)) → s.appendGran i g f b l = some s1 →
     Done (.packerDecision i) s fun t => t = s1.toPend i) ∧
  (∀ (s : State) (g : Gran) (n : Namespace) (x : InFl), x.nblk = 0 →
     s.overlay g.sd n g.nsid g.gran g.stamp g.unitIdx = [] →
     (∀ y ∈ s.flights g.sd g.nsid g.gran g.stamp g.unitIdx, s.landedOk (lbaData n.lbaf) y = true) →
     MapEnt.ofWord (entryOf (s.metaOf g.sd) g.root g.gran) = .unmapped → s.merged g n x = (zeros 4096, [], s))

/-- A pack that is full closes, as does one open for four commit epochs and the first that Terzan closes; the pack
presented first, with room in its row, the journal and the program staging, is sealed under its key domain's slot with
the nonce drawn and protected, or its place is filled where the slot has been zeroized; an entry whose data is no
longer needed leaves the dust sheet with a release frame; a decided command that nothing holds, and that replication
covers, is answered, with its data to the head it came from, marked posted and dropped once over. (R39, R71, R72,
R246, R191, R193, R312.) -/
def Obligations.PacksAndTheDustSheet : Prop :=
  (∀ (s : State) (d : SD) (k : Nat) (c te : Bool) (p : Pack) (ps : List Pack), s.dp.packs.filter (fun p => decide (p.sd
     = d ∧ p.kdom = k ∧ p.copy = c)) = p :: ps → (∀ x ∈ p :: ps, x.body.length < 65536) → te = true →
     Done (.packClose d k c te) s fun t => t = s.closePack p) ∧
  (∀ (s : State) (d : SD) (k : Nat) (c : Bool) (p : Pack), s.dp.packs.find? (fun p => decide (p.sd = d ∧ p.kdom = k ∧
     p.copy = c ∧ 4 ≤ (s.top.epoch - p.opened).toNat)) = some p →
     Done (.packAgeClose d k c) s fun t => t = s.closePack p) ∧
  (∀ (s s1 : State) (p : Pack) (x : Stripe) (kd : KDom) (nonce img : List Byte), s.nextClosed = some p →
     s.stripe? p.sd p.stripe = some x → Table.find s.dp.kdoms p.kdom = some kd → s.up .cip = true → s.up .str = true →
     s.up .mlk = true → s.rowRoom p.sd p.stripe p.row = true →
     s.journalRoom p.sd (packJournal p kd.slot [] [] s.top.epoch) = true →
     ((s.programsOf p x).any fun q => decide (q ∉ x.missing) && !s.stagingRoom p.sd (x.members.getD q 0)) = false →
     (s.kslot kd.slot).state ≠ 0 → (s.kslot kd.slot).state ≠ 3 →
     (s.updDp fun d => { d with closed := d.closed.filter fun q => !q.same p }).packNonce kd.slot = .drawn nonce s1 →
     img = sealPack (s.kslot kd.slot).key nonce kd.slot (if p.isMeta = true then 2 else 1) p.sd p.num p.body (rctBytes
     p.rct) →
     Done .packEncrypt s fun t => t = (s1.protect p x img (packJournal p kd.slot nonce img s.top.epoch)).count
     .cipMsgDone) ∧
  (∀ (s : State) (h : Nat) (e : Entry), Table.find s.ubl.sheet.entries h = some e → s.entryFree e = true →
     Done (.dustSheetRelease h) s fun t => t = (s.updUbl fun u => { u with sheet := { u.sheet with
           entries := Table.del u.sheet.entries h
           slots := Table.keep (fun k _ => decide (k < e.data ∨ k ≥ e.data + e.nslots)) u.sheet.slots } }).mirror e.sd true 0 (leBytes 8 (h / 4096)) none) ∧
  (∀ (s s1 : State) (d : SD) (n us : Nat) (c : Cmd) (st : Status), (s.cmd? d n).map s.fenceStatus = some c → c.status = some st → c.posted = false → c.tags = [] → s.up .fe = true → (st = stOk → s.replCovers c = true) →
     (s.fe.cmds.any fun x => decide (x.stamp < c.stamp) && !x.posted && overlap x c) = false →
     s1 = (match c.cap.origin with | some tag => if c.out.isEmpty = true then s else s.send (.fwdData tag 0 c.out) | none => s) →
     Done (.completionPosted d n us) s fun t => t = (((s1.answer c.cap st c.dw0 c.out).updCmd d n fun x => { x with status := some st, posted := true }).addLatency c.cap.nsid us).dropCmd d n) ∧
  (∀ (s : State) (d : SD) (k : Nat) (c te : Bool) (p : Pack), (s.dp.packs.filter (fun p => decide (p.sd = d ∧
     p.kdom = k ∧ p.copy = c))).find? (fun p => decide (65536 ≤ p.body.length)) = some p →
     Done (.packClose d k c te) s fun t => t = s.closePack p) ∧
  (∀ (s : State) (p : Pack) (x : Stripe) (kd : KDom), s.nextClosed = some p → s.stripe? p.sd p.stripe = some x →
     Table.find s.dp.kdoms p.kdom = some kd → s.up .cip = true → s.up .str = true → s.up .mlk = true →
     s.rowRoom p.sd p.stripe p.row = true → s.journalRoom p.sd (packJournal p kd.slot [] [] s.top.epoch) = true →
     ((s.programsOf p x).any fun q => decide (q ∉ x.missing) && !s.stagingRoom p.sd (x.members.getD q 0)) = false →
     (s.kslot kd.slot).state = 0 ∨ (s.kslot kd.slot).state = 3 →
     Done .packEncrypt s fun t => t = (s.updDp fun d =>
     { d with closed := d.closed.filter fun q => !q.same p }).dropPack p x)

/-- A sector that is wanted is filled from the tiers or flash and installed, and the reads that waited for it resolve; a
confirmed pack is released, once it may be decrypted, and its pin ends, one dropped leaves once it has arrived; an
image whose tag verifies opens and counts, with the ladder step that read it, one whose slot is empty fails, one whose
tag fails goes back to the ladder or fails after it; a granule of an opened pack is decoded and given to its reads, or
counted as a format or check failure; a failed fetch retries with the next step, and from step 7 counts a failed
ladder; one beyond the ladder is rebuilt from its row, or what is lost is recorded and it fails. (R70, R77, R78, R81,
R182, R247.) -/
def Obligations.ReadSideOfTheDatapath : Prop :=
  (∀ (s s1 : State) (d : SD) (m k root gran : Nat), s.wanted d m = some (root, gran) → k < 16 → s.up .map = true →
     s.map.sectorValid d m k = false → s1 = (s.fillPage d m).installSector d m k (some (root, gran / 512)) →
     Done (.sectorInstall d m k) s fun t => t = s.evbHold ((s1.dp.rgrans.filter fun r => decide (r.sd = d) &&
     r.entry.isNone && (if (!s.map.en || decide (s.map.busy = 1)) = true then s1.fetchGives r m k else s1.mapHit d
     r.root r.gran)).foldl (fun u r => u.resolveGran s.hour r) s1)) ∧
  (∀ (s : State) (i : Nat) (f : Fetch) (b : List Byte), Table.find s.dp.fetches i = some f → f.image = some b →
     f.st = none → f.spec = false → f.released = false → f.dropped = false → s.decrypting < 16 → s.up .mlk = true →
     Done (.packRelease i) s fun t => t = ((s.updFetch i fun f => { f with released := true }).unpin f.port
     f.pseg).nextRead f.port) ∧
  (∀ (s : State) (i : Nat) (f : Fetch) (b : List Byte), Table.find s.dp.fetches i = some f → f.image = some b → f.released = true → f.plain = none → s.up .cip = true →
     Done (.packOpen i) s fun t => t = match s.openImage f.sd f.pack b with
       | .plain x y => if f.step ≤ 7 then ((s.updFetch i fun f => { f with plain := some (x, y) }).count .cipMsgDone).ladderDone f.sd f.port (f.pack / 4096) f.step else (s.updFetch i fun f => { f with plain := some (x, y) }).count .cipMsgDone
       | .slotEmpty => (s.raise .cip 2).failFetch i
       | .tagFail => if 8 ≤ f.step then ((s.count .cipTagFail).raise .cip 0).failFetch i
         else ((((s.count .cipTagFail).raise .cip 0).updFetch i fun f => { f with image := none, released := false, st := some .uncorrectable }).pin f.port f.pseg)) ∧
  (∀ (s : State) (i n g : Nat) (f : Fetch) (b rct : List Byte) (x : RGran) (w : DWord) (raw : Bool) (loc : Nat) (ch : Option (Bool × Nat)) (m : List Byte), Table.find s.dp.fetches i = some f → f.plain = some (b, rct) → s.dp.rgrans.find? (fun r => decide (r.sd = f.sd ∧ r.stamp = n ∧ r.gran = g)) = some x →
     x.entry = some w → MapEnt.ofWord w = .stored raw loc ch → loc / 4096 = f.pack → (n, g) ∈ f.users → s.up .dp = true →
     (match ch with
       | none => some []
       | some k => (s.dp.fetches.findSome? fun y => if y.2.sd = f.sd ∧ y.2.pack = s.succPack f.sd loc k ∧ (n, g) ∈ y.2.users then y.2.plain else none).map Prod.fst) = some m →
     Done (.decode i n g) s fun t => t = match decodeGranule raw (loc % 4096) b rct m with
       | .good out => (s.gotGran f.sd n g out false).leaveAll f.sd (n, g)
       | .format => ((s.granuleBad f.sd loc true).gotGran f.sd n g (zeros 4096) true).leaveAll f.sd (n, g)
       | .check => ((s.granuleBad f.sd loc false).gotGran f.sd n g (zeros 4096) true).leaveAll f.sd (n, g)) ∧
  (∀ (s : State) (i : Nat) (f : Fetch), Table.find s.dp.fetches i = some f → f.spec = false → f.dropped = false →
     f.st.isSome = true → f.step = 7 → s.up .mlk = true →
     Done (.readRetry i) s fun t => t = (s.updFetch i fun f => { f with step := 8 }).ladderFailed f.port) ∧
  (∀ (s : State) (i : Nat) (f : Fetch), Table.find s.dp.fetches i = some f → f.spec = false → f.dropped = false →
     f.st.isSome = true → f.step < 7 → s.up .mlk = true →
     Done (.readRetry i) s fun t => t = (s.updFetch i fun _ =>
     { f with step := f.step + 1, st := none, image := none }).issueRead i s.hour
     { f with step := f.step + 1, st := none, image := none }) ∧
  (∀ (s s1 s2 : State) (i : Nat) (bad : List Nat) (f : Fetch) (n pos : Nat) (x : Stripe) (b : List Byte) (gone : List
     Nat), Table.find s.dp.fetches i = some f → f.spec = false → f.st.isSome = true → f.step = 8 → s.up .str = true →
     s.mayIssue (.sd f.sd) = true → stripeOf (s.metaOf f.sd) (f.pack / 4096) = some (n, pos, x) →
     s1 = (if pos ∈ x.missing then s.count .strDegradedReads else s) →
     s1.rebuildRow f.sd n x (f.pack % 4096) pos bad = (some b, gone, s2) →
     Done (.degradedRead i bad) s fun t => t = if f.released = true then s2.updFetch i (fun f =>
     { f with image := some b, st := none, released := true }) else ((s2.updFetch i fun f =>
     { f with image := some b, st := none, released := true }).unpin f.port f.pseg).nextRead f.port) ∧
  (∀ (s : State) (i : Nat) (f : Fetch), Table.find s.dp.fetches i = some f → f.dropped = true →
     (f.image.isSome = true ∨ f.st.isSome = true) → s.up .mlk = true →
     Done (.packRelease i) s fun t => t = (s.freeFetch i).count .dpRaDropped) ∧
  (∀ (s s1 s2 : State) (i : Nat) (bad : List Nat) (f : Fetch) (n pos : Nat) (x : Stripe) (gone : List Nat), Table.find
     s.dp.fetches i = some f → f.spec = false → f.st.isSome = true → f.step = 8 → s.up .str = true →
     s.mayIssue (.sd f.sd) = true → stripeOf (s.metaOf f.sd) (f.pack / 4096) = some (n, pos, x) →
     s1 = (if pos ∈ x.missing then s.count .strDegradedReads else s) →
     s1.rebuildRow f.sd n x (f.pack % 4096) pos bad = (none, gone, s2) →
     Done (.degradedRead i bad) s fun t => t = (s2.loseGone f.sd n x (f.pack % 4096) gone).failFetch i)

/-- A command a module holds, of this head, of the other, or one that timed out and still executes, that its checks pass:
a read answers the image with the highest corrected count, an uncorrectable status, or an erased one, and of a slot in
no defined state what the free value says; a program stores its image under its domain or leaves its slot torn; an
erase empties the segment or leaves its slots torn; a fold copies every programmed slot to the target, or those below
the first that fails; Owner Fence records the epoch and the head and ends the older commands of the domain, or answers
again the epoch it holds; the descriptor, the temperatures and the split answer as said. A command that fails a check
answers its status and changes nothing. A completion is taken from the outstanding list, acted on, and the next
waiting command submitted; a timeout ends its command with an internal status, and the module may still execute it.
(R218, R219, R220, R228, R222, R223.) -/
def Obligations.ModuleCommands : Prop :=
  (∀ (s : State) (p : Nat) (src : MSrc) (m : Module) (h : Nat) (c : MCmd) (bits : Nat) (unc : Bool) (b : List Byte) (x
     : Dom), s.mod? p = some m → s.modCmd p src .read = some (h, c) → moduleCheck m h c = .ok →
     Table.find m.tags c.pseg = some x → Table.find m.slots (slotKey c.pseg c.pidx) = some (.image b) →
     Done (.mediaRawRead p src bits unc) s fun t => t = ({ s with draws := s.draws + 1 }.updMod p fun _ => m).modAnswer
     src (if unc = true then ⟨.uncorrectable, 0, []⟩ else ⟨.ok, min bits 0xFFFF, b⟩)) ∧
  (∀ (s : State) (p : Nat) (src : MSrc) (m : Module) (h : Nat) (c : MCmd) (tp : Int), s.mod? p = some m →
     s.modCmd p src .program = some (h, c) → moduleCheck m h c = .ok →
     Done (.mediaRawProgram p src .ok tp) s fun t => t = (s.updMod p fun _ => m.store c.pseg c.pidx (.image c.image)
     c.dom).modAnswer src ⟨.ok, tempByte tp, []⟩) ∧
  (∀ (s : State) (p : Nat) (src : MSrc) (m : Module) (h : Nat) (c : MCmd) (tp : Int), s.mod? p = some m →
     s.modCmd p src .erase = some (h, c) → moduleCheck m h c = .ok →
     Done (.mediaErase p src true tp) s fun t => t = (s.updMod p fun _ => m.erase c.pseg).modAnswer src ⟨.ok, tempByte
     tp, []⟩) ∧
  (∀ (s : State) (p : Nat) (src : MSrc) (m : Module) (h : Nat) (c : MCmd) (lo hi : Int), s.mod? p = some m →
     s.modCmd p src .fold = some (h, c) → moduleCheck m h c = .ok →
     Done (.mediaFold p src lo hi none) s fun t => t = (s.updMod p fun _ => (m.slotsOf c.pseg).foldl (fun m x =>
     m.store c.tpseg x.1 x.2 c.dom) m).modAnswer src ⟨.ok, 0, foldReport lo hi (m.slotsOf c.pseg).length none⟩) ∧
  (∀ (s : State) (p : Nat) (src : MSrc) (m : Module) (h : Nat) (c : MCmd) (d : SD), s.mod? p = some m → s.modCmd p src .fence = some (h, c) → moduleCheck m h c = .ok → c.dom = .sd d → ¬(c.oepoch = m.oepoch.get d ∧ m.oport.get d = some h) →
     Done (.ownerFence p src []) s fun t => t = ((s.updMod p fun _ => { m with oepoch := m.oepoch.set d c.oepoch, oport := m.oport.set d (some h) }).modAnswer src ⟨.ok, (m.oepoch.get d).toNat, []⟩).updMlk fun x => { x with
       out := x.out.map fun o => if o.cmd.port = p ∧ o.cmd.dom = .sd d ∧ o.res.isNone = true ∧ o.queue.isSome = true ∧ o.cmd.op ≠ .fence ∧ o.cmd.oepoch < c.oepoch then { o with res := some fencedRes } else o
       late := x.late.filter fun l => decide (¬(l.port = p ∧ l.dom = .sd d ∧ l.op ≠ .fence ∧ l.oepoch < c.oepoch)) }) ∧
  (∀ (s : State) (p : Nat) (src : MSrc) (m : Module) (h : Nat) (c : MCmd), s.mod? p = some m →
     s.modCmd p src .descr = some (h, c) → moduleCheck m h c = .ok →
     Done (.mediaDescriptorRead p src true) s fun t => t = (s.updMod p fun _ => m).modAnswer src ⟨.ok, 0, m.desc⟩) ∧
  (∀ (s : State) (p : Nat) (src : MSrc) (m : Module) (h : Nat) (c : MCmd) (a b x : Int), s.mod? p = some m →
     s.modCmd p src .temp = some (h, c) → moduleCheck m h c = .ok →
     Done (.mediaTemperature p src a b x) s fun t => t = (s.updMod p fun _ => { m with temps := ⟨a, b, x⟩ }).modAnswer
     src ⟨.ok, tempByte a + 2 ^ 8 * tempByte b + 2 ^ 16 * tempByte x, []⟩) ∧
  (∀ (s : State) (p : Nat) (src : MSrc) (m : Module) (h : Nat) (c : MCmd), s.mod? p = some m →
     s.modCmd p src .admin = some (h, c) → moduleCheck m h c = .ok → m.split = none →
     4 * (c.pseg + c.tpseg) ≤ m.units →
     Done (.layerSplit p src) s fun t => t = (s.updMod p fun _ => { m with split := some (c.pseg, c.tpseg) }).modAnswer
     src ⟨.ok, 0, []⟩) ∧
  (∀ (s : State) (i : Nat) (o : Out) (r : MRes), s.mlk.out[i]? = some o → o.res = some r →
     Done (.mediaCommandCompletion i) s fun t => t = ((s.updMlk fun m => { m with out := m.out.eraseIdx i }).complete o
     r).submitNext o.cmd.port) ∧
  (∀ (s : State) (i : Nat) (o : Out), s.mlk.out[i]? = some o → o.loc = false → o.queue.isSome = true →
     Done (.commandTimeout i) s fun t => t = ((s.updMlk fun m =>
     { m with out := m.out.eraseIdx i, late := m.late ++ (if o.res.isNone = true then [o.cmd] else []) }).complete o
     ⟨.internal, 0, []⟩).submitNext o.cmd.port) ∧
  (∀ (s : State) (p : Nat) (src : MSrc) (m : Module) (h : Nat) (c : MCmd) (bits : Nat) (unc : Bool) (x : Dom), s.mod? p
     = some m → s.modCmd p src .read = some (h, c) → moduleCheck m h c = .ok → Table.find m.tags c.pseg = some x →
     Table.find m.slots (slotKey c.pseg c.pidx) = some .torn →
     Done (.mediaRawRead p src bits unc) s fun t => t = ({ s with draws := s.draws + 1 }.updMod p fun _ => m).modAnswer
     src (tornRead bits s.draws)) ∧
  (∀ (s : State) (p : Nat) (src : MSrc) (m : Module) (h : Nat) (c : MCmd) (bits : Nat) (unc : Bool), s.mod? p = some m
     → s.modCmd p src .read = some (h, c) → moduleCheck m h c = .ok →
     (Table.find m.tags c.pseg = none ∨ Table.find m.slots (slotKey c.pseg c.pidx) = none) →
     Done (.mediaRawRead p src bits unc) s fun t => t = ({ s with draws := s.draws + 1 }.updMod p fun _ => m).modAnswer
     src ⟨.erased, 0, []⟩) ∧
  (∀ (s : State) (p : Nat) (src : MSrc) (m : Module) (h : Nat) (c : MCmd) (tp : Int), s.mod? p = some m →
     s.modCmd p src .program = some (h, c) → moduleCheck m h c = .ok →
     Done (.mediaRawProgram p src .programFailed tp) s fun t => t = (s.updMod p fun _ => m.store c.pseg c.pidx .torn
     c.dom).modAnswer src ⟨.programFailed, tempByte tp, []⟩) ∧
  (∀ (s : State) (p : Nat) (src : MSrc) (m : Module) (h : Nat) (c : MCmd) (tp : Int), s.mod? p = some m →
     s.modCmd p src .erase = some (h, c) → moduleCheck m h c = .ok →
     Done (.mediaErase p src false tp) s fun t => t = (s.updMod p fun _ => (m.slotsOf c.pseg).foldl (fun m x => m.store
     c.pseg x.1 .torn c.dom) m).modAnswer src ⟨.eraseFailed, tempByte tp, []⟩) ∧
  (∀ (s : State) (p : Nat) (src : MSrc) (m : Module) (h : Nat) (c : MCmd) (lo hi : Int) (k : Nat) (l : List (Nat ×
     SlotSt)), s.mod? p = some m → s.modCmd p src .fold = some (h, c) → moduleCheck m h c = .ok →
     ((m.slotsOf c.pseg).any fun x => decide (x.1 = k)) = true →
     l = (m.slotsOf c.pseg).filter (fun x => decide (x.1 < k)) →
     Done (.mediaFold p src lo hi (some k)) s fun t => t = (s.updMod p fun _ => l.foldl (fun m x => m.store c.tpseg x.1
     x.2 c.dom) m).modAnswer src ⟨.foldFailed, 0, foldReport lo hi l.length (some k)⟩) ∧
  (∀ (s : State) (p : Nat) (src : MSrc) (m : Module) (h : Nat) (c : MCmd) (d : SD) (l : List (Nat × Nat)), s.mod? p =
     some m → s.modCmd p src .fence = some (h, c) → moduleCheck m h c = .ok → c.dom = .sd d →
     c.oepoch = m.oepoch.get d → m.oport.get d = some h →
     Done (.ownerFence p src l) s fun t => t = s.modAnswer src ⟨.ok, (m.oepoch.get d).toNat, []⟩) ∧
  (∀ (s : State) (p : Nat) (src : MSrc) (m : Module) (h : Nat) (c : MCmd), s.mod? p = some m →
     s.modCmd p src .admin = some (h, c) → moduleCheck m h c = .ok → m.split = none →
     m.units < 4 * (c.pseg + c.tpseg) →
     Done (.layerSplit p src) s fun t => t = (s.updMod p fun _ => m).modAnswer src ⟨.invalidField, 0, []⟩) ∧
  (∀ (s : State) (p : Nat) (src : MSrc) (m : Module) (h : Nat) (c : MCmd) (x : Nat × Nat), s.mod? p = some m →
     s.modCmd p src .admin = some (h, c) → moduleCheck m h c = .ok → m.split = some x →
     Done (.layerSplit p src) s fun t => t = (s.updMod p fun _ => m).modAnswer src ⟨if x = (c.pseg, c.tpseg) then .ok
     else .sequence, 0, []⟩) ∧
  (∀ (s : State) (p : Nat) (src : MSrc) (op : MOp) (f : Module → Nat → MCmd →
     Module × MRes) (m : Module) (h : Nat) (c : MCmd), s.mod? p = some m → s.modCmd p src op = some (h, c) →
     moduleCheck m h c ≠ .ok → s.modRun p src op f = s.modAnswer src ⟨moduleCheck m h c, 0, []⟩)

/-- A powered port that reaches link-up, with the module it had or a new one, takes its rate and width, reads its
descriptor next and raises DEGRADED below 64 GT/s or two lanes; one that does not in 1 s is refused with cause 8.
Admission reads the descriptor; then checks the split of a module it knows, or splits a new one at a commissioned
array; then fences it for every domain this head owns; then measures it, erases what is marked, loads its card and
reads its temperatures. A module fails on a fatal status, on three timeouts within a second, on presence loss, which
also takes its power, and on a link that does not return; one that retrains counts it; one that does not return from
its absence or its update is failed with cause 4. (R213, R224, R226, R199, R201.) -/
def Obligations.ModuleAdmission : Prop :=
  (∀ (s s1 : State) (p r w : Nat) (m : Module), p < 48 → (s.port p).state = 1 → (s.port p).power = true →
     (s.port p).step ≤ 1 → s.up .mlk = true → s.mod? p = some m →
     s1 = ((s.updPort p fun x => { x with rate := r, width := w, step := 2, descrFails := 0 }).updMed fun m =>
     { m with temps := Table.del m.temps p }) →
     Done (.linkUp p r w none) s fun t => t = if r < 6 ∨ w < 2 then s1.raise .mlk 4 else s1) ∧
  (∀ (s : State) (p : Nat) (m : Module), (s.port p).state = 1 → s.up .mlk = true → s.mod? p = some m →
     (s.port p).step = 2 →
     Done (.admission p) s fun t => t = (s.admitStep p 3).issue (MCmd.mk0 p .descr .vault .descr)) ∧
  (∀ (s : State) (p : Nat), (s.port p).state = 1 → (s.port p).step ≤ 1 →
     Done (.admissionTimeout p) s fun t => t = s.refuse p 8 ∧
     t.port p = { s.port p with state := 5, cause := 8, step := 0 } ∧ t.raisedBy s .mlk 1) ∧
  (∀ (s : State) (p : Nat), (s.port p).state = 3 →
     Done (.absentTimeout p) s fun t => t = s.failModule p 4) ∧
  (∀ (s : State) (p : Nat), (s.port p).state ≠ 3 →
     Done (.presenceDrop p) s fun t => t = ((s.failModule p 5).updPort p fun x => { x with power := false }).updMlk fun
     m => { m with mods := Table.del m.mods p }) ∧
  (∀ (s : State) (p c : Nat), (s.port p).state = 1 ∨ (s.port p).state = 2 → c = 2 ∨ c = 3 →
     Done (.moduleFailed p c) s fun t => t = s.failModule p c) ∧
  (∀ (s : State) (p : Nat), (s.port p).state = 1 ∨ (s.port p).state = 2 → (s.port p).rate ≠ 0 →
     Done (.mediaLinkDown p none) s fun t => t = s.failModule p 3) ∧
  (∀ (s s1 : State) (p r w : Nat), (s.port p).state = 1 ∨ (s.port p).state = 2 → (s.port p).rate ≠ 0 →
     s1 = (s.updPort p fun x => { x with rate := r, width := w }).count .mlkRetrains →
     Done (.mediaLinkDown p (some (r, w))) s fun t => t = if r < 6 ∨ w < 2 then s1.raise .mlk 4 else s1) ∧
  (∀ (s s1 : State) (p r w : Nat) (m : Module), p < 48 → (s.port p).state = 1 → (s.port p).power = true →
     (s.port p).step ≤ 1 → s.up .mlk = true → s1 = (((s.updMlk fun x =>
     { x with mods := Table.put x.mods p m }).updPort p fun x =>
     { x with rate := r, width := w, step := 2, descrFails := 0 }).updMed fun m =>
     { m with temps := Table.del m.temps p }) →
     Done (.linkUp p r w (some m)) s fun t => t = if r < 6 ∨ w < 2 then s1.raise .mlk 4 else s1) ∧
  (∀ (s : State) (p : Nat) (m : Module) (x : Serial), (s.port p).state = 1 → s.up .mlk = true → s.mod? p = some m →
     (s.port p).step = 4 → s.med.serials.find? (fun y => decide (y.serial = m.serial)) = some x →
     Done (.admission p) s fun t => t = if m.split = some (x.vsegs, x.ssegs) then s.admitStep p 5 else s.refuse p 5) ∧
  (∀ (s : State) (p : Nat) (m : Module), (s.port p).state = 1 → s.up .mlk = true → s.mod? p = some m →
     (s.port p).step = 4 → s.med.serials.find? (fun y => decide (y.serial = m.serial)) = none →
     s.med.commissioned = true → s.owns .a = true →
     Done (.admission p) s fun t => t = (s.admitStep p 40).issue
     { MCmd.mk0 p .admin .vault .admin with pseg := s.med.vsegs, tpseg := s.med.ssegs }) ∧
  (∀ (s : State) (p : Nat) (m : Module), (s.port p).state = 1 → s.up .mlk = true → s.mod? p = some m →
     (s.port p).step = 5 →
     Done (.admission p) s fun t => t = if s.owned.isEmpty = true then s.admitStep p 6 else s.owned.foldl (fun s d =>
     s.fence d p) (s.admitStep p 50)) ∧
  (∀ (s s0 s1 : State) (p : Nat) (m : Module), (s.port p).state = 1 → s.up .mlk = true → s.mod? p = some m →
     (s.port p).step = 6 → s0 = s.extendModule p m.desc (slice m.desc 1184 16) ((s.med.serials.find? (fun y => decide
     (y.serial = m.serial))).bind (·.image)) → s1 = (if s0.markedErase p = true then s0.eraseMarked p else s0) →
     Done (.admission p) s fun t => t = ((s1.loadCard p).admitStep p 7).issue (MCmd.mk0 p .temp .vault .temp)) ∧
  (∀ (s : State) (p : Nat) (x : ModUpd), ((s.port p).state = 1 ∨ (s.port p).state = 5) →
     Table.find s.upd.mods p = some x → (x.state = 4 ∨ x.state = 5) →
     Done (.absentTimeout p) s fun t => t = s.failModule p 4) ∧
  (∀ (s : State) (p : Nat), (s.port p).state = 3 →
     Done (.presenceDrop p) s fun t => t = (s.updPort p fun x => { x with power := false }).updMlk fun m =>
     { m with mods := Table.del m.mods p }) ∧
  (∀ (s : State) (p : Nat), (s.port p).state = 2 → 3 ≤ ((s.port p).timeouts.filter fun t => decide (s.pwr.rtc.toNat - t
     ≤ 1000000)).length →
     Done (.moduleFailed p 1) s fun t => t = s.failModule p 1)

/-- A due substitution runs once no program of the segment is outstanding, and fails where its module has; the oldest
closed skim stripe falls back to garbage collection when it holds less than FOLD_MIN per cent of live bytes or a
member has no finish segment to fold into, and folds its members otherwise; a fold that has its report remaps its
segment; garbage collection takes its victim, queued or scored, copies its granules within its credit, or past it when
urgent, goes back to its start for those appended meanwhile, relocates the references of each copy and frees the
stripe; a segment pending erase whose turn it is starts erasing once a checkpoint covers it and no read pins it, and
is counted as deferred otherwise; a module whose erase counts differ by more than a twentieth of the endurance
refreshes the closed stripe of its least erased segment, once an hour; refresh, temperature polls and health events,
which each host's log takes, act as stated; a module that returns is taken up. (R163, R164, R167, R171, R172, R173,
R174, R178, R179, R181, R184, R201.) -/
def Obligations.MediaManagement : Prop :=
  (∀ (s : State) (i : Nat) (ok : Bool) (temp : Int) (x : Sub), s.med.subs[i]? = some x →
     (s.mlk.out.any fun o => decide (o.cmd.port = x.port ∧ o.cmd.pseg = x.pseg ∧ o.cmd.op = .program)) = false →
     s.up .med = true → s.subGone x = false → (s.port x.port).state ≠ 1 → (s.port x.port).state ≠ 3 →
     (s.port x.port).state ≠ 4 →
     Done (.substitution i ok temp) s fun t => t = s.substitute x ok temp) ∧
  (∀ (s : State) (i : Nat) (ok : Bool) (temp : Int) (x : Sub), s.med.subs[i]? = some x →
     (s.mlk.out.any fun o => decide (o.cmd.port = x.port ∧ o.cmd.pseg = x.pseg ∧ o.cmd.op = .program)) = false →
     s.up .med = true → s.subGone x = false → (s.port x.port).state = 4 →
     Done (.substitution i ok temp) s fun t => t = s.subFails x) ∧
  (∀ (s : State) (d : SD) (n : Nat) (x : Stripe) (todo : List (Nat × Nat)), s.owns d = true → s.up .med = true →
     s.up .mlk = true → s.trowelNext d = some (n, x) →todo = x.members.zipIdx.filter (fun m => !s.inFinish d m.1) →
     (s.metaOf d).liveBytes x * 100 / x.capacity < s.foldMin ∨ (todo.all fun m => (s.segOf d m.1).any fun e => decide
     (s.freeCount e.port true > 0)) = false →
     Done (.trowelPass d) s fun t => t = s.foldFallback d n) ∧
  (∀ (s : State) (d : SD) (n : Nat) (x : Stripe) (todo : List (Nat × Nat)), s.owns d = true → s.up .med = true →
     s.up .mlk = true → s.trowelNext d = some (n, x) →todo = x.members.zipIdx.filter (fun m => !s.inFinish d m.1) →
     s.foldMin ≤ (s.metaOf d).liveBytes x * 100 / x.capacity →
     (todo.all fun m => (s.segOf d m.1).any fun e => decide (s.freeCount e.port true > 0)) = true →
     Done (.trowelPass d) s fun t => t = todo.foldl (fun s m => (s.foldMember d n m.2 m.1 0).getD s) s) ∧
  (∀ (s : State) (i : Nat) (f : Folding) (rep : List Byte) (x : Stripe) (e : SegEnt), s.med.folds[i]? = some f →
     f.report = some rep → s.stripe? f.sd f.stripe = some x → s.segOf f.sd (x.members.getD f.pos 0) = some e →
     Done (.foldComplete i) s fun t => t = (((((((s.noteHour).setPSeg f.sd f.port f.dst fun r =>
     { r with hour := s.noteHour.hour, tmin := sbyte (rep.getD 0 0), tmax := sbyte (rep.getD 1 0) }).delta f.sd (.seg
     (x.members.getD f.pos 0) (some { e with port := f.port, pseg := f.dst }))).setPSeg f.sd f.port f.src fun r =>
     { r with st := .pendingErase }).updMed fun m => { m with folds := m.folds.eraseIdx i }).count
     .medFoldsDone).finishStripe f.sd f.stripe)) ∧
  (∀ (s : State) (d : SD) (n : Nat), (s.metaOf d).gc.x = 0 → s.owns d = true → s.up .med = true → s.logFull d = false →
     s.queued d = some n →
     Done (.gcVictim d) s fun t => t = ((s.victim d n 4).updVictim d n fun v => { v with stage := 1 }).delta d (.cursor
     1 ⟨n + 1, 0, 0⟩)) ∧
  (∀ (s : State) (d : SD) (n : Nat), (s.metaOf d).gc.x = 0 → s.owns d = true → s.up .med = true → s.logFull d = false →
     s.queued d = none → s.bestScored d = some n →
     Done (.gcVictim d) s fun t => t = ((s.noteHour.victim d n 4).updVictim d n fun v => { v with stage := 1 }).delta d
     (.cursor 1 ⟨n + 1, 0, 0⟩)) ∧
  (∀ (s : State) (d : SD) (x : Stripe), (s.metaOf d).gc.x ≠ 0 → s.owns d = true → s.up .med = true → s.up .cip = true →
     s.logFull d = false → s.stripe? d ((s.metaOf d).gc.x - 1) = some x →
     s.nextCopy d x ((s.metaOf d).gc.y * 4096 + (s.metaOf d).gc.z) = none → s.nextCopy d x 0 = none →
     Done (.gcCopy d) s fun t => t = (s.updVictim d ((s.metaOf d).gc.x - 1) fun v => { v with stage := 2 }).delta d
     (.cursor 1 ⟨0, 0, 0⟩)) ∧
  (∀ (s s1 s2 : State) (d : SD) (x : Stripe) (p l : Nat) (r : RefRec), (s.metaOf d).gc.x ≠ 0 → s.owns d = true →
     s.up .med = true → s.up .cip = true → s.logFull d = false →
     s.stripe? d ((s.metaOf d).gc.x - 1) = some x →s.nextCopy d x ((s.metaOf d).gc.y * 4096 + (s.metaOf d).gc.z) = some
     (p, l, r) → (s.needsPack d r.ddom r.size = false ∨ s.med.gcSpent < s.cfg.medCredit.value.toNat) →
     s.copyGran d ((s.metaOf d).gc.x - 1) l r = some s1 → s2 = (((s1.updMed fun m =>
     { m with gcSpent := m.gcSpent + (s1.copyPacks d - s.copyPacks d) }).count .medGcPacks (s1.copyPacks d -
     s.copyPacks d)).delta d (.cursor 1 ⟨(s.metaOf d).gc.x, (p + 1) / 4096, (p + 1) % 4096⟩)) →
     Done (.gcCopy d) s fun t => t = s2) ∧
  (∀ (s s1 s3 : State) (i : Nat) (c : Copied) (rx : RefRec), s.med.copied[i]? = some c →
     ((s.refOf c.sd c.dst).all fun r => decide (r.st ≠ .live)) = false →s.refOf c.sd c.src = some rx →
     s.copyClosed c.sd c.dst = true → s.up .map = true → s.logFull c.sd = false →
     s1 = (if s.fullNow c.sd (fullKey rx.ddom rx.fp) = some c.src then (s.updDp (·.moveHot rx.ddom c.sd rx.fp c.src
     c.dst)).delta c.sd (.full (fullKey rx.ddom rx.fp) (some c.dst)) else s.updDp (·.moveHot rx.ddom c.sd rx.fp c.src
     c.dst)) → s3 = (Table.getD (s1.metaOf c.sd).backlog (Loc.ofNum c.src).seg []).foldl (fun s b => if b.loc = c.src
     then s.evbHold (s.relocateOne c.sd c.src c.dst b) else s) s1 →
     ((s3.refOf c.sd c.src).any fun r => decide (r.count = 0) || r.sat) = true →
     Done (.relocation i) s fun t => t = (s3.relocateEnd c.sd c.src c.dst).updMed fun m =>
     { m with copied := m.copied.eraseIdx i }) ∧
  (∀ (s : State) (d : SD) (n : Nat) (x : Stripe), s.stripe? d n = some x → x.st ≠ .freed → s.owns d = true →
     s.up .med = true → s.freeable d n x = true →
     Done (.stripeFreed d n) s fun t => t = ((s.freeStripe d n x).count .medGcStripes).formAll) ∧
  (∀ (s : State) (p g : Nat) (r : PSegRec), s.psegOf p g = some r → (r.st = .pendingErase ∨ (r.st = .erasing ∧
     (s.mlk.out.any fun o => decide (o.cmd.op = .erase ∧ o.cmd.port = p ∧ o.cmd.pseg = g)) = false)) →
     s.owns r.sd = true → s.present p = true → s.up .med = true → s.up .mlk = true → s.eraseTurn (psegKey p g) = true →
     (s.mlk.out.any fun o => o.res.isNone && decide (o.cmd.port = p ∧ o.cmd.pseg = g ∧ o.cmd.op ≠ .descr ∧
     o.cmd.op ≠ .temp ∧ o.cmd.op ≠ .admin ∧ o.cmd.op ≠ .fence)) = false → r.changed ≤ s.map.ckpt.get r.sd →
     Table.getD s.med.pins (psegKey p g) 0 = 0 →
     Done (.eraseIssue p g) s fun t => t = ((((s.updMed fun m =>
     { m with deferred := m.deferred.filter (· ≠ psegKey p g) }).eraseCursor p g).setPSeg r.sd p g fun r =>
     { r with st := .erasing }).issue
     { MCmd.mk0 p .erase (.sd r.sd) .erase with oepoch := s.ubl.oepoch.get r.sd, pseg := g, finish := r.finish })) ∧
  (∀ (s : State) (p g : Nat) (r : PSegRec), s.psegOf p g = some r → (r.st = .pendingErase ∨ (r.st = .erasing ∧
     (s.mlk.out.any fun o => decide (o.cmd.op = .erase ∧ o.cmd.port = p ∧ o.cmd.pseg = g)) = false)) →
     s.owns r.sd = true → s.present p = true → s.up .med = true → s.up .mlk = true → s.eraseTurn (psegKey p g) = true →
     (s.mlk.out.any fun o => o.res.isNone && decide (o.cmd.port = p ∧ o.cmd.pseg = g ∧ o.cmd.op ≠ .descr ∧
     o.cmd.op ≠ .temp ∧ o.cmd.op ≠ .admin ∧ o.cmd.op ≠ .fence)) = false →
     (s.map.ckpt.get r.sd < r.changed ∨ Table.getD s.med.pins (psegKey p g) 0 ≠ 0) → psegKey p g ∉ s.med.deferred →
     Done (.eraseIssue p g) s fun t => t = (s.updMed fun m => { m with deferred := m.deferred ++ [psegKey p g] }).count
     .medEraseDeferred ∧ t.psegOf p g = some r ∧ t.mlk = s.mlk ∧
     t.counter .medEraseDeferred = s.counter .medEraseDeferred + 1 ∧ Only [.med, .counters] s t) ∧
  (∀ (s : State) (d : SD) (fi me : Bool), s.owns d = true → s.up .med = true →
     Done (.stripeFormation d fi me) s fun t => t = (s.promote d fi me).formStripe d fi me) ∧
  (∀ (s : State) (p : Nat) (fi : Bool) (m : Module) (l : List (Nat × PSegRec)) (k : Nat × PSegRec) (hi lo n pos : Nat)
     (x : Stripe), s.mod? p = some m → l = s.segsOn p fi → hi = l.foldl (fun n x => max n x.2.erases) 0 →
     lo = l.foldl (fun n x => min n x.2.erases) hi → k ∈ l → k.2.st = .allocated → (∀ x ∈ l, x.2.st = .allocated →
     x = k ∨ k.2.erases < x.2.erases) → stripeOf (s.metaOf k.2.sd) k.2.seg = some (n, pos, x) → s.owns k.2.sd = true →
     s.present p = true → s.up .med = true → (hi - lo) * 20 ≤ m.endurance fi →
     Done (.wearLevelling p fi) s fun t => t = s) ∧
  (∀ (s : State) (p : Nat) (fi : Bool) (m : Module) (l : List (Nat × PSegRec)) (k : Nat × PSegRec) (hi lo n pos : Nat)
     (x : Stripe), s.mod? p = some m → l = s.segsOn p fi → hi = l.foldl (fun n x => max n x.2.erases) 0 →
     lo = l.foldl (fun n x => min n x.2.erases) hi → k ∈ l → k.2.st = .allocated → (∀ x ∈ l, x.2.st = .allocated →
     x = k ∨ k.2.erases < x.2.erases) → stripeOf (s.metaOf k.2.sd) k.2.seg = some (n, pos, x) → s.owns k.2.sd = true →
     s.present p = true → s.up .med = true → m.endurance fi < (hi - lo) * 20 → x.st = .closed →
     (∀ a, Table.find s.med.wearAt p = some a → a + 3600000000 ≤ s.pwr.rtc.toNat) →
     Done (.wearLevelling p fi) s fun t => t = (s.victim k.2.sd n 3).updMed fun m =>
     { m with wearAt := Table.put m.wearAt p s.pwr.rtc.toNat }) ∧
  (∀ (s : State) (p g : Nat) (r : PSegRec) (m : Module), s.psegOf p g = some r → s.mod? p = some m →
     r.st = .allocated → s.owns r.sd = true → s.up .med = true →
     m.readLimit r.finish ≤ Table.getD s.med.reads (psegKey p g) 0 ∨ (∃ card, s.cardOf p = some card ∧
     r.empty = false ∧ boundsAt card 4 (segAge s.hour r) = 3) →
     Done (.refreshQueued p g) s fun t => t = s.noteHour.refresh r.sd r.seg) ∧
  (∀ (s : State) (p : Nat), s.present p = true → s.up .med = true → s.up .mlk = true →
     (s.mlk.out.any fun o => decide (o.cmd.port = p ∧ o.cmd.op = .temp)) = false →
     Done (.temperaturePoll p) s fun t => t = s.issue (MCmd.mk0 p .temp .vault .temp)) ∧
  (∀ (s : State) (p code : Nat), (p, code) ∉ s.med.health → s.healthOk p code true = true →
     Done (.healthEvent p code true) s fun t => t = (((((s.updMed fun m =>
     { m with health := m.health ++ [(p, code)] }).notify 0x10 (0x0100 + code) true none p).updFe fun f =>
     { f with hosts := Table.mapV (fun h => { h with healthLog := (h.healthLog ++ [healthEntry code p true s.epoch48]).drop ((h.healthLog ++ [healthEntry code p true s.epoch48]).length - 64) }) f.hosts }).asyncAll
     ⟨7, code, 0xC0⟩).raise .med 1)) ∧
  (∀ (s : State) (p code : Nat), (p, code) ∈ s.med.health → s.healthOk p code false = true →
     Done (.healthEvent p code false) s fun t => t = (((s.updMed fun m =>
     { m with health := m.health.filter (· ≠ (p, code)) }).notify 0x10 (0x0100 + code) false none p).updFe fun f =>
     { f with hosts := Table.mapV (fun h => { h with healthLog := (h.healthLog ++ [healthEntry code p false s.epoch48]).drop ((h.healthLog ++ [healthEntry code p false s.epoch48]).length - 64) }) f.hosts })) ∧
  (∀ (s : State) (p : Nat) (temp : Int) (m : Module), (s.port p).state = 3 → s.mod? p = some m → s.up .med = true →
     Done (.moduleReturn p temp) s fun t => t = (s.updPort p fun x => { x with state := 2 }).returned p temp) ∧
  (∀ (s : State) (d : SD) (x : Stripe), (s.metaOf d).gc.x ≠ 0 → s.owns d = true → s.up .med = true → s.up .cip = true →
     s.logFull d = false → s.stripe? d ((s.metaOf d).gc.x - 1) = some x →
     s.nextCopy d x ((s.metaOf d).gc.y * 4096 + (s.metaOf d).gc.z) = none → (s.nextCopy d x 0).isSome = true →
     Done (.gcCopy d) s fun t => t = s.delta d (.cursor 1 ⟨(s.metaOf d).gc.x, 0, 0⟩)) ∧
  (∀ (s s1 s2 : State) (d : SD) (x : Stripe) (p l : Nat) (r : RefRec), (s.metaOf d).gc.x ≠ 0 → s.owns d = true →
     s.up .med = true → s.up .cip = true → s.logFull d = false →
     s.stripe? d ((s.metaOf d).gc.x - 1) = some x →s.nextCopy d x ((s.metaOf d).gc.y * 4096 + (s.metaOf d).gc.z) = some
     (p, l, r) → s.needsPack d r.ddom r.size = true → s.cfg.medCredit.value.toNat ≤ s.med.gcSpent → s.urgent d = true →
     s.copyGran d ((s.metaOf d).gc.x - 1) l r = some s1 → s2 = (((s1.updMed fun m =>
     { m with gcSpent := m.gcSpent + (s1.copyPacks d - s.copyPacks d) }).count .medGcPacks (s1.copyPacks d -
     s.copyPacks d)).delta d (.cursor 1 ⟨(s.metaOf d).gc.x, (p + 1) / 4096, (p + 1) % 4096⟩)) →
     Done (.gcCopy d) s fun t => t = s2.raise .med 4) ∧
  (∀ (s : State) (d : SD), (s.metaOf d).gc.x ≠ 0 → s.owns d = true → s.up .med = true → s.up .cip = true →
     s.logFull d = false → s.stripe? d ((s.metaOf d).gc.x - 1) = none →
     Done (.gcCopy d) s fun t => t = s.delta d (.cursor 1 ⟨0, 0, 0⟩)) ∧
  (∀ (s s1 s3 : State) (i : Nat) (c : Copied) (rx : RefRec), s.med.copied[i]? = some c →
     ((s.refOf c.sd c.dst).all fun r => decide (r.st ≠ .live)) = false →s.refOf c.sd c.src = some rx →
     s.copyClosed c.sd c.dst = true → s.up .map = true → s.logFull c.sd = false →
     s1 = (if s.fullNow c.sd (fullKey rx.ddom rx.fp) = some c.src then (s.updDp (·.moveHot rx.ddom c.sd rx.fp c.src
     c.dst)).delta c.sd (.full (fullKey rx.ddom rx.fp) (some c.dst)) else s.updDp (·.moveHot rx.ddom c.sd rx.fp c.src
     c.dst)) → s3 = (Table.getD (s1.metaOf c.sd).backlog (Loc.ofNum c.src).seg []).foldl (fun s b => if b.loc = c.src
     then s.evbHold (s.relocateOne c.sd c.src c.dst b) else s) s1 →
     ((s3.refOf c.sd c.src).any fun r => decide (r.count = 0) || r.sat) = false →
     Done (.relocation i) s fun t => t = s3) ∧
  (∀ (s : State) (i : Nat) (c : Copied), s.med.copied[i]? = some c →
     ((s.refOf c.sd c.dst).all fun r => decide (r.st ≠ .live)) = false → s.refOf c.sd c.src = none →
     Done (.relocation i) s fun t => t = (s.relocateEnd c.sd c.src c.dst).updMed fun m =>
     { m with copied := m.copied.eraseIdx i }) ∧
  (∀ (s : State) (i : Nat) (c : Copied), s.med.copied[i]? = some c →
     ((s.refOf c.sd c.dst).all fun r => decide (r.st ≠ .live)) = true →
     Done (.relocation i) s fun t => t = (s.updMed fun m => { m with copied := m.copied.eraseIdx i }).updVictim c.sd
     c.stripe fun v => { v with stage := 0 })

/-- Rebuild goes on where its cursor stands, or at row 0 of a new target, with the missing member of the stripe that its
class puts first: it programs the reconstructed image of one slot and, past the last row, remaps the member; a row
that cannot be reconstructed is lost, a target that cannot be programmed is retired and begun again, an owner status
stops it, and with its credit spent and no stripe of class 1 or 2 it does nothing; recoat takes the oldest finish
stripe of an older GEN, copies its granules within its credit, and ends when the new shape is in force and no stripe
of an older GEN is left; a row open in the journal, the first in stripe and row order, is replayed with its parity
where every record matches, and judged lost or not where one does not. (R194, R195, R200, R203, R204, R205, R210,
R211.) -/
def Obligations.RebuildAndRecoat : Prop :=
  (∀ (s s1 : State) (d : SD) (bad : List Nat) (ok : Bool) (temp : Int) (cur : Option (Nat × Stripe × Nat × Nat)) (n :
     Nat) (x : Stripe) (pos at0 row : Nat) (tgt : Nat × Nat), s.owns d = true → s.up .str = true → s.up .med = true →
     s.logFull d = false → (s.rebuildUrgent d = true ∨ s.med.rebuildSpent < bitsOf s.cfg.strRebuild.value.toNat 11 0) →
     s.mayIssue (.sd d) = true → (if (s.metaOf d).rebuild.x = 0 then none else (s.stripe? d ((s.metaOf d).rebuild.x -
     1)).bind fun y => if s.rebuildable d ((s.metaOf d).rebuild.x - 1) y = true ∧
     (s.metaOf d).rebuild.y ∈ y.missing then some ((s.metaOf d).rebuild.x - 1, y, (s.metaOf d).rebuild.y, (s.metaOf
     d).rebuild.z) else none) = cur → (cur <|> (s.rebuildNext d).bind fun z => z.2.missing.head?.map fun pos => (z.1,
     z.2, pos, 0)) = some (n, x, pos, at0) → row = (if (s.rebuildTarget d (x.members.getD pos 0)).isSome = true then
     at0 else 0) → (s.rebuildTarget d (x.members.getD pos 0) <|> s.otherSeg d x (x.finish || s.partFolded d n x)) =
     some tgt → s1 = s.allocSeg d (x.members.getD pos 0) tgt.1 tgt.2 → x.rows ≤ row →
     Done (.rebuildSlot d bad ok temp) s fun t => t = s1.rebuilt d n pos (x.members.getD pos 0) tgt) ∧
  (∀ (s s1 s2 s3 : State) (d : SD) (bad : List Nat) (ok : Bool) (temp : Int) (cur : Option (Nat × Stripe × Nat × Nat))
     (n : Nat) (x : Stripe) (pos at0 row : Nat) (tgt : Nat × Nat) (c : MCmd) (img : List Byte) (gone : List Nat),
     s.owns d = true → s.up .str = true → s.up .med = true → s.logFull d = false →
     (s.rebuildUrgent d = true ∨ s.med.rebuildSpent < bitsOf s.cfg.strRebuild.value.toNat 11 0) →
     s.mayIssue (.sd d) = true → (if (s.metaOf d).rebuild.x = 0 then none else (s.stripe? d ((s.metaOf d).rebuild.x -
     1)).bind fun y => if s.rebuildable d ((s.metaOf d).rebuild.x - 1) y = true ∧
     (s.metaOf d).rebuild.y ∈ y.missing then some ((s.metaOf d).rebuild.x - 1, y, (s.metaOf d).rebuild.y, (s.metaOf
     d).rebuild.z) else none) = cur → (cur <|> (s.rebuildNext d).bind fun z => z.2.missing.head?.map fun pos => (z.1,
     z.2, pos, 0)) = some (n, x, pos, at0) → row = (if (s.rebuildTarget d (x.members.getD pos 0)).isSome = true then
     at0 else 0) → (s.rebuildTarget d (x.members.getD pos 0) <|> s.otherSeg d x (x.finish || s.partFolded d n x)) =
     some tgt → s1 = s.allocSeg d (x.members.getD pos 0) tgt.1 tgt.2 →s1.targetCheck d tgt.1 tgt.2 (x.finish ||
     s.partFolded d n x) row = (c, .ok) → row < x.rows → ok = true →
     s1.rebuildRow d n x row pos bad = (some img, gone, s2) →
     s3 = (((s2.writeSlot d tgt.1 tgt.2 row img temp).count .strPacksRebuilt).updMed fun m =>
     { m with rebuildSpent := m.rebuildSpent + 1 }) →
     Done (.rebuildSlot d bad ok temp) s fun t => t = if x.rows ≤ row + 1 then s3.rebuilt d n pos (x.members.getD pos
     0) tgt else s3.delta d (.cursor 0 ⟨n + 1, pos, row + 1⟩)) ∧
  (∀ (s : State) (d : SD) (bad : List Nat) (ok : Bool) (temp : Int), s.rebuildUrgent d = false →
     bitsOf s.cfg.strRebuild.value.toNat 11 0 ≤ s.med.rebuildSpent →
     Done (.rebuildSlot d bad ok temp) s fun t => t = s) ∧
  (∀ (s : State) (d : SD) (n : Nat), (s.metaOf d).recoat.x = 1 → s.owns d = true → s.up .med = true →
     s.up .cip = true → s.logFull d = false → s.urgent d = false → s.rebuildUrgent d = false →
     bitsOf s.cfg.strRecoat.value.toNat 11 0 ≠ 0 → s.recoatNext d = some n →
     Done (.recoatCopy d) s fun t => t = s.recoatTake d n) ∧
  (∀ (s : State) (d : SD), s.recoating d = true → s.owns d = true → (s.metaOf d).shapeNext = none →
     (∀ x ∈ (s.metaOf d).stripes, x.2.st = .freed ∨ x.2.gen = (s.metaOf d).shape.gen) →
     Done (.recoatComplete d) s fun t => t = ((s.delta d (.cursor 3 ⟨0, 0, 0⟩)).raise .str 5).notify 0x10 0x0204 true
     (some d) 0xFF (leBytes 1 (s.metaOf d).shape.gen)) ∧
  (∀ (s s0 : State) (d : SD) (n row : Nat) (temp : Int) (x : Stripe) (imgs : List Regen), s.stripe? d n = some x →
     s.rowOpen d n row = true → (∀ r ∈ s.str.journal.get d, s.rowOpen d r.stripe r.row = true →
     n < r.stripe ∨ (n = r.stripe ∧ row ≤ r.row)) → s.owns d = true → s.up .str = true → s.up .med = true →
     s.rowImages d n x row = (imgs, s0) → .mismatch ∉ imgs →
     Done (.journalReplay d n row temp) s fun t => t = ((((s0.replayData d n x row imgs [] temp).replayParity d x row
     imgs temp).journal d (rowClose n row s.top.epoch)).count .strRowsReplayed)) ∧
  (∀ (s s1 s2 : State) (d : SD) (bad : List Nat) (ok : Bool) (temp : Int) (cur : Option (Nat × Stripe × Nat × Nat)) (n
     : Nat) (x : Stripe) (pos at0 row : Nat) (tgt : Nat × Nat) (c : MCmd) (gone : List Nat), s.owns d = true →
     s.up .str = true → s.up .med = true → s.logFull d = false →
     (s.rebuildUrgent d = true ∨ s.med.rebuildSpent < bitsOf s.cfg.strRebuild.value.toNat 11 0) →
     s.mayIssue (.sd d) = true → (if (s.metaOf d).rebuild.x = 0 then none else (s.stripe? d ((s.metaOf d).rebuild.x -
     1)).bind fun y => if s.rebuildable d ((s.metaOf d).rebuild.x - 1) y = true ∧
     (s.metaOf d).rebuild.y ∈ y.missing then some ((s.metaOf d).rebuild.x - 1, y, (s.metaOf d).rebuild.y, (s.metaOf
     d).rebuild.z) else none) = cur → (cur <|> (s.rebuildNext d).bind fun z => z.2.missing.head?.map fun pos => (z.1,
     z.2, pos, 0)) = some (n, x, pos, at0) → row = (if (s.rebuildTarget d (x.members.getD pos 0)).isSome = true then
     at0 else 0) → (s.rebuildTarget d (x.members.getD pos 0) <|> s.otherSeg d x (x.finish || s.partFolded d n x)) =
     some tgt → s1 = s.allocSeg d (x.members.getD pos 0) tgt.1 tgt.2 →s1.targetCheck d tgt.1 tgt.2 (x.finish ||
     s.partFolded d n x) row = (c, .ok) → row < x.rows → ok = true →
     s1.rebuildRow d n x row pos bad = (none, gone, s2) →
     Done (.rebuildSlot d bad ok temp) s fun t => t = s2.loseGone d n x row gone) ∧
  (∀ (s s1 : State) (d : SD) (bad : List Nat) (ok : Bool) (temp : Int) (cur : Option (Nat × Stripe × Nat × Nat)) (n :
     Nat) (x : Stripe) (pos at0 row : Nat) (tgt : Nat × Nat) (c : MCmd) (st : MSt), s.owns d = true →
     s.up .str = true → s.up .med = true → s.logFull d = false →
     (s.rebuildUrgent d = true ∨ s.med.rebuildSpent < bitsOf s.cfg.strRebuild.value.toNat 11 0) →
     s.mayIssue (.sd d) = true → (if (s.metaOf d).rebuild.x = 0 then none else (s.stripe? d ((s.metaOf d).rebuild.x -
     1)).bind fun y => if s.rebuildable d ((s.metaOf d).rebuild.x - 1) y = true ∧
     (s.metaOf d).rebuild.y ∈ y.missing then some ((s.metaOf d).rebuild.x - 1, y, (s.metaOf d).rebuild.y, (s.metaOf
     d).rebuild.z) else none) = cur → (cur <|> (s.rebuildNext d).bind fun z => z.2.missing.head?.map fun pos => (z.1,
     z.2, pos, 0)) = some (n, x, pos, at0) → row = (if (s.rebuildTarget d (x.members.getD pos 0)).isSome = true then
     at0 else 0) → (s.rebuildTarget d (x.members.getD pos 0) <|> s.otherSeg d x (x.finish || s.partFolded d n x)) =
     some tgt → s1 = s.allocSeg d (x.members.getD pos 0) tgt.1 tgt.2 →s1.targetCheck d tgt.1 tgt.2 (x.finish ||
     s.partFolded d n x) row = (c, st) → row < x.rows → st.cls ≠ .owner → (ok = false ∨ st ≠ .ok) →
     Done (.rebuildSlot d bad ok temp) s fun t => t = (s1.retire d tgt.1 tgt.2).delta d (.cursor 0 ⟨n + 1, pos, 0⟩)) ∧
  (∀ (s s1 : State) (d : SD) (bad : List Nat) (ok : Bool) (temp : Int) (cur : Option (Nat × Stripe × Nat × Nat)) (n :
     Nat) (x : Stripe) (pos at0 row : Nat) (tgt : Nat × Nat) (c : MCmd) (st : MSt), s.owns d = true →
     s.up .str = true → s.up .med = true → s.logFull d = false →
     (s.rebuildUrgent d = true ∨ s.med.rebuildSpent < bitsOf s.cfg.strRebuild.value.toNat 11 0) →
     s.mayIssue (.sd d) = true → (if (s.metaOf d).rebuild.x = 0 then none else (s.stripe? d ((s.metaOf d).rebuild.x -
     1)).bind fun y => if s.rebuildable d ((s.metaOf d).rebuild.x - 1) y = true ∧
     (s.metaOf d).rebuild.y ∈ y.missing then some ((s.metaOf d).rebuild.x - 1, y, (s.metaOf d).rebuild.y, (s.metaOf
     d).rebuild.z) else none) = cur → (cur <|> (s.rebuildNext d).bind fun z => z.2.missing.head?.map fun pos => (z.1,
     z.2, pos, 0)) = some (n, x, pos, at0) → row = (if (s.rebuildTarget d (x.members.getD pos 0)).isSome = true then
     at0 else 0) → (s.rebuildTarget d (x.members.getD pos 0) <|> s.otherSeg d x (x.finish || s.partFolded d n x)) =
     some tgt → s1 = s.allocSeg d (x.members.getD pos 0) tgt.1 tgt.2 →s1.targetCheck d tgt.1 tgt.2 (x.finish ||
     s.partFolded d n x) row = (c, st) → row < x.rows → st.cls = .owner →
     Done (.rebuildSlot d bad ok temp) s fun t => t = s1.ownerReject ⟨c, none, false, none⟩ st) ∧
  (∀ (s : State) (d : SD) (x : Stripe), 2 ≤ (s.metaOf d).recoat.x → s.owns d = true → s.up .med = true →
     s.up .cip = true → s.logFull d = false → s.urgent d = false → s.rebuildUrgent d = false →
     bitsOf s.cfg.strRecoat.value.toNat 11 0 ≠ 0 → s.stripe? d ((s.metaOf d).recoat.x - 2) = some x →
     s.nextCopy d x ((s.metaOf d).recoat.y * 4096 + (s.metaOf d).recoat.z) = none →
     Done (.recoatCopy d) s fun t => t = (s.updVictim d ((s.metaOf d).recoat.x - 2) fun v =>
     { v with stage := 2 }).delta d (.cursor 3 ⟨1, 0, 0⟩)) ∧
  (∀ (s s1 : State) (d : SD) (x : Stripe) (p l : Nat) (r : RefRec), 2 ≤ (s.metaOf d).recoat.x → s.owns d = true →
     s.up .med = true → s.up .cip = true → s.logFull d = false → s.urgent d = false → s.rebuildUrgent d = false →
     bitsOf s.cfg.strRecoat.value.toNat 11 0 ≠ 0 → s.stripe? d ((s.metaOf d).recoat.x - 2) = some x →
     s.nextCopy d x ((s.metaOf d).recoat.y * 4096 + (s.metaOf d).recoat.z) = some (p, l, r) →
     (s.needsPack d r.ddom r.size = false ∨ s.med.recoatSpent < bitsOf s.cfg.strRecoat.value.toNat 11 0) →
     s.copyGran d ((s.metaOf d).recoat.x - 2) l r = some s1 →
     Done (.recoatCopy d) s fun t => t = (((s1.updMed fun m =>
     { m with recoatSpent := m.recoatSpent + (s1.copyPacks d - s.copyPacks d) }).count .strRecoatPacks (s1.copyPacks d
     - s.copyPacks d)).delta d (.cursor 3 ⟨(s.metaOf d).recoat.x, (p + 1) / 4096, (p + 1) % 4096⟩))) ∧
  (∀ (s s0 s2 : State) (d : SD) (n row : Nat) (temp : Int) (x : Stripe) (imgs : List Regen) (bad : List Nat), s.stripe?
     d n = some x → s.rowOpen d n row = true → (∀ r ∈ s.str.journal.get d, s.rowOpen d r.stripe r.row = true →
     n < r.stripe ∨ (n = r.stripe ∧ row ≤ r.row)) → s.owns d = true → s.up .str = true → s.up .med = true →
     s.rowImages d n x row = (imgs, s0) → bad = (imgs.zipIdx).filterMap (fun y => if y.1 = .mismatch then some y.2 else
     none) → bad ≠ [] → s2 = s0.replayData d n x row imgs bad temp →
     Done (.journalReplay d n row temp) s fun t => t = (((if (s2.replayGone d x row bad).length > x.p then s2.loseRow d
     n x row (s2.replayGone d x row bad) 1 else s2).journal d (rowClose n row s.top.epoch)).count .strRowsReplayed))

/-- While the epoch timer runs, outside P3 and with the clocks up, a boundary turns the epoch, applies what was written
for it, does the array's work of a boundary, and goes on with a handover; the next epoch's number is one more, the
credits spent are clear and the deduplication modes written apply. With the timer stopped it does nothing. The peer's
digest of the oldest sealed epoch, where it matches, copies that epoch; where it does not, it counts, is reported and
the log is sent again, with a retrain at the third, and the link is lost after two of those. (R32, R34, R35, R36, R37,
R315.) -/
def Obligations.CommitEpoch : Prop :=
  (∀ (s : State), s.top.running = true → s.pwr.current ≠ 3 → s.pwr.pllHeld = false →
     Done .epochBoundary s fun t => t = s.turnEpoch.boundaryConfig.boundaryArray.handoverBoundary.ageAttach) ∧
  (∀ (s : State), s.top.running = false →
     Done .epochBoundary s fun t => t = s) ∧
  (∀ (s : State) (d : SD) (w : EpochWait) (ws : List EpochWait), s.ubl.waits.get d = w :: ws → s.owns d = true →
     w.sent = true →
     Done (.epochAck d w.log.epoch w.digest) s fun t => t = (s.heard 0 1).epochCopied d) ∧
  (∀ (s s1 : State) (d : SD) (g : List Byte) (w : EpochWait) (ws : List EpochWait), s.ubl.waits.get d = w :: ws →
     s.owns d = true → w.sent = true → w.digest ≠ g → w.mismatches < 2 →
     s1 = ((((s.heard 0 1).count .ublMirrorMismatch).raise .ubl 0).snag 13 0x1005 (some d) 0xFF (leBytes 1
     (w.mismatches + 1))) →
     Done (.epochAck d w.log.epoch g) s fun t => t = (s1.updUbl fun u =>
     { u with waits := u.waits.set d ({ w with mismatches := w.mismatches + 1 } :: ws) }).send (.epochLog d w.log
     w.mseqLast)) ∧
  (∀ (s : State), s.turnEpoch.top.epoch = s.top.epoch + 1 ∧ s.boundaryConfig.med.gcSpent = 0 ∧
     s.boundaryConfig.med.recoatSpent = 0 ∧ s.boundaryConfig.med.rebuildSpent = 0 ∧
     s.boundaryConfig.dp.kdoms = Table.mapV (fun x => { x with mode := x.modeNext.getD x.mode, modeNext := none })
     s.dp.kdoms) ∧
  (∀ (s s1 : State) (d : SD) (g : List Byte) (w : EpochWait) (ws : List EpochWait), s.ubl.waits.get d = w :: ws →
     s.owns d = true → w.sent = true → w.digest ≠ g → 2 ≤ w.mismatches → w.retrains < 2 →
     s1 = ((((s.heard 0 1).count .ublMirrorMismatch).raise .ubl 0).snag 13 0x1005 (some d) 0xFF (leBytes 1
     (w.mismatches + 1))) →
     Done (.epochAck d w.log.epoch g) s fun t => t = ((s1.updUbl fun u =>
     { u with waits := u.waits.set d ({ w with mismatches := 0, retrains := w.retrains + 1 } :: ws) }).updUbl fun u =>
     { u with retrainDue := true }).send (.epochLog d w.log w.mseqLast)) ∧
  (∀ (s s1 : State) (d : SD) (g : List Byte) (w : EpochWait) (ws : List EpochWait), s.ubl.waits.get d = w :: ws →
     s.owns d = true → w.sent = true → w.digest ≠ g → 2 ≤ w.mismatches → 2 ≤ w.retrains →
     s1 = ((((s.heard 0 1).count .ublMirrorMismatch).raise .ubl 0).snag 13 0x1005 (some d) 0xFF (leBytes 1
     (w.mismatches + 1))) →
     Done (.epochAck d w.log.epoch g) s fun t => t = (s1.updUbl fun u =>
     { u with waits := u.waits.set d ({ w with mismatches := 0 } :: ws) }).loseLink)

/-- A mirror frame in MSEQ order whose CHECK passes is written and acknowledged, one whose CHECK fails is answered with a
NAK, one already taken with the acknowledgement of the last; a release frame takes its entries out; an acknowledgement
retires the frames and units it covers; a log in one part or several is gathered; shadow tables start the domain's
copy again; a flit error asks for its FSEQ and a NAK replays the flits from it, a mirror NAK the frames; training sets
the lanes and starts the flit layer again, and a link that went down holds writes; HELLO brings the link up, refuses
another array or level, and notes a clash; forwarded commands, data, completions and aborts, caught or not, reach
their command. Every frame that arrives is noted by the flit layer. (R40, R42, R270, R307, R309, R311, R312, R313,
R316, R317, R324.) -/
def Obligations.MirrorAndForwarding : Prop :=
  (∀ (s : State) (f : MFrame), f.release = false → s.owns f.sd = false →
     s.ubl.up = true →f.mseq = (s.ubl.rx.get f.sd).mseq + 1 →
     Done (.mirrorFrame f f.check) s fun t => t = (((s.heard 1 (flitsOf (64 + f.data.length))).mirrorWrite
     f).frameTaken f f.check).tryAck f.sd) ∧
  (∀ (s : State) (f : MFrame) (k : DWord), f.release = false → s.owns f.sd = false → s.ubl.up = true → f.check ≠ k →
     Done (.mirrorFrame f k) s fun t => t = ((s.heard 1 (flitsOf (64 + f.data.length))).send (.mirrorNak f.sd
     f.mseq)).tryAck f.sd) ∧
  (∀ (s : State) (f : MFrame), f.release = true → s.owns f.sd = false →
     s.ubl.up = true →f.mseq = (s.ubl.rx.get f.sd).mseq + 1 →
     Done (.releaseFrame f f.check) s fun t => t = (((s.heard 1 (flitsOf (64 + f.data.length))).updUbl fun u =>
     { u with rx := u.rx.upd f.sd fun x => { x with hdrs := x.hdrs.filter (fun h => decide (h ∉ (List.range (f.data.length / 8)).map fun i => leAt f.data (8 * i) 8 * 4096)) } }).frameTaken
     f f.check).tryAck f.sd) ∧
  (∀ (s : State) (d : SD) (q : Word), s.ubl.up = true →
     Done (.mirrorAck d q) s fun t => t = (((s.heard 0 1).updUbl fun u => { u with tx := u.tx.upd d fun x => { x with unacked := x.unacked.filter fun f => !decide ((q - f.mseq).toNat < 2 ^ 31) } }).updFe fun f => { f with cmds := f.cmds.map fun c =>
       if c.sd = d then { c with units := c.units.map fun x => match x.mseq with
         | some m => if decide ((q - m).toNat < 2 ^ 31) = true then { x with acked := true } else x
         | none => x } else c }).settleAll d) ∧
  (∀ (s : State) (d : SD) (e : DWord) (o : Word) (p : List Delta) (last : Option (Nat × Word)), s.owns d = false →
     s.ubl.up = true → (s.ubl.erx.get d).log = none →
     Done (.epochFrame d (.log e o p last)) s fun t => t = (((s.heard 2 (logFlits (DLog.bytes ⟨e, o,
     p⟩).length)).updUbl fun u => { u with erx := u.erx.set d ⟨some ⟨e, o, p⟩, last⟩ }).tryAck d).foldShadow d) ∧
  (∀ (s : State) (d : SD) (m : Meta) (e : DWord), s.owns d = false → s.ubl.up = true →
     Done (.epochFrame d (.shadow m e)) s fun t => t = (s.heard 2 (max 1 (Config.shadowFlits m))).updUbl fun u =>
     { u with shadow := u.shadow.set d m, shadowEpoch := u.shadowEpoch.set d e, shadowLogs := u.shadowLogs.set d [], rx := u.rx.set d ⟨0, [], [], []⟩ }) ∧
  (∀ (s : State) (q : Half), s.ubl.up = true →
     Done (.flitError q) s fun t => t = ({ s with link := { s.link with fseqRx := q - 1 } }).send (.flitNak q)) ∧
  (∀ (s : State) (q : Half) (l : List Flit), s.ubl.up = true → l = replayFlits (s.heard 0 1).link.replay q → l ≠ [] →
     Done (.nak (.flit q)) s fun t => t =
     ({ (s.heard 0 1) with link := { (s.heard 0 1).link with replay := l, again := l.length } }).count .ublFlitRetry
     l.length) ∧
  (∀ (s : State) (d : SD) (q : Word), s.ubl.up = true →
     Done (.nak (.mirror d q)) s fun t => t = (((s.heard 0 1).ubl.tx.get d).unacked.filter fun f => decide ((f.mseq -
     q).toNat < 2 ^ 31)).foldl (fun s f => s.send (.mirror f)) (s.heard 0 1)) ∧
  (∀ (s s1 s2 s3 : State) (g lanes : Nat), (s.ubl.retrainDue = true ∨ (s.link.replay.any fun f => decide (16 ≤
     f.replays)) = true) → s.powered .ubl = true → lanes = (if 3 ≤ g then 2 else if g = 2 then 1 else 0) →
     s1 = (s.retrained.updUbl fun u =>
     { u with lanes := lanes, retrainDue := false, up := u.up && decide (lanes ≠ 0) }) →
     s2 = (s1.count .ublRetrains).raise .ubl 3 → s3 = (if lanes = 1 then s2.raise .ubl 2 else s2) →
     Done (.linkRetrain g) s fun t => t = if lanes ≠ 0 ∧ s3.ubl.up = false then s3.sendRaw (.hello s3.top.head
     s3.ubl.level s3.ubl.version s3.ubl.array) else if s3.ubl.up = true then s3.resendPeer else s3) ∧
  (∀ (s s1 s2 s3 : State) (g lanes : Nat), s.ubl.retrainDue = false →
     (s.link.replay.any fun f => decide (16 ≤ f.replays)) = false → s.ubl.lanes = 0 → s.powered .ubl = true →
     lanes = (if 3 ≤ g then 2 else if g = 2 then 1 else 0) →
     s1 = (s.retrained.updUbl fun u => { u with lanes := lanes, retrainDue := false, up := u.up && decide (lanes ≠ 0) })
     → s2 = s1 → s3 = (if lanes = 1 then s2.raise .ubl 2 else s2) →
     Done (.linkRetrain g) s fun t => t = if lanes ≠ 0 ∧ s3.ubl.up = false then s3.sendRaw (.hello s3.top.head
     s3.ubl.level s3.ubl.version s3.ubl.array) else if s3.ubl.up = true then s3.resendPeer else s3) ∧
  (∀ (s s1 : State), s.ubl.up = true → s1 = (s.updUbl fun u => { u with up := false, lanes := 0 }) →
     Done .ubiusLinkDown s fun t => t = if s1.ubl.unmirrored = true ∨ s1.owned.isEmpty = true then s1 else
     (s1.owned.foldl State.holdWrites s1).raise .ubl 1) ∧
  (∀ (s : State), s.ubl.up = false → s.ubl.lost = false →
     Done .linkLost s fun t => t = s.loseLink) ∧
  (∀ (s : State) (h l v : Nat) (a c : List Byte), s.ubl.lanes ≠ 0 → h % 2 = s.top.head →
     Done (.hello h l v a c) s fun t => t = s.refuseHello.updUbl (fun u => { u with headClash := true }) ∧
     t.ubl.up = false ∧ t.raisedBy s .ubl 14) ∧
  (∀ (s : State) (h l v : Nat) (a c : List Byte), s.ubl.lanes ≠ 0 → h % 2 ≠ s.top.head → ((a ≠ [] ∧ s.ubl.array ≠ [] ∧
     a ≠ s.ubl.array) ∨ l < s.ubl.levelMin ∨ s.ubl.level < l) →
     Done (.hello h l v a c) s fun t => t = s.refuseHello.actHello false) ∧
  (∀ (s s1 s3 : State) (h l v : Nat) (a c : List Byte), s.ubl.lanes ≠ 0 → h % 2 ≠ s.top.head →
     (a = [] ∨ s.ubl.array = [] ∨ a = s.ubl.array) → s.ubl.levelMin ≤ l → l ≤ s.ubl.level → s.ubl.up = false →
     s1 = (s.retrained.updUbl fun u =>
     { u with up := true, lost := false, versionRefused := false, peerLevel := l, peerVersion := v, peerServing := true, array := if u.array.isEmpty = true then a else u.array })
     → s3 = (((s1.sendRaw (.hello s1.top.head s1.ubl.level s1.ubl.version s1.ubl.array)).extendHello h l v a
     c).resendPeer) →
     Done (.hello h l v a c) s fun t => t = (s3.owned.foldl State.freeHold s3).actHello true) ∧
  (∀ (s : State) (g : Nat) (c : Capsule), s.ubl.up = true →
     Done (.forwardCmd g c) s fun t => t = (s.heard 3 (flitsOf (96 + c.data.length))).updFe fun f =>
     { f with waiting := f.waiting ++ [⟨{ c with origin := some g }, s.top.epoch, [], false⟩] }) ∧
  (∀ (s : State) (g : Nat) (b : List Byte) (c : Cmd), s.fe.cmds.find? (fun c => decide (c.cap.origin = some g)) = some
     c →
     Done (.forwardData g c.host.length b) s fun t => t = (s.heard 3 (flitsOf (32 + b.length))).feed c.sd c.stamp b) ∧
  (∀ (s : State) (g off : Nat) (b : List Byte), s.fe.cmds.find? (fun c => decide (c.cap.origin = some g)) = none →
     Done (.forwardData g off b) s fun t => t = (s.heard 3 (flitsOf (32 + b.length))).updFe fun f => { f with
       waiting := f.waiting.map fun w => if w.cap.origin = some g ∧ off = w.data.length then { w with data := w.data ++ b } else w
       fwd := f.fwd.map fun x => if x.tag = g ∧ off = x.data.length then { x with data := x.data ++ b } else x }) ∧
  (∀ (s : State) (g : Nat) (st : Status) (dw : Nat) (f : Fwd), s.fe.fwd.find? (fun f => decide (f.tag = g)) = some f →
     (∀ c ∈ s.fe.cmds, g ∉ c.tags) →
     Done (.forwardCpl g st dw) s fun t => t = ((s.heard 3 1).updFe fun x =>
     { x with fwd := x.fwd.filter fun y => decide (y.tag ≠ g) }).answer f.cap st dw (if f.cap.op = 0x02 ∨ f.cap.op =
     0x0E then f.data else [])) ∧
  (∀ (s : State) (g : Nat), (s.heard 3 1).catchCmd (fun c => decide (c.origin = some g)) = none →
     Done (.forwardAbort g) s fun t => t = (s.heard 3 1).send (.fwdAbortRsp g false)) ∧
  (∀ (s s2 : State) (g : Nat) (f : Fwd) (q : QId) (cid : Nat) (caught : Bool), s.fe.fwd.find? (fun f => decide (f.tag =
     g)) = some f → f.abort = some (q, cid) → s2 = (((s.heard 3 1).updFe fun x =>
     { x with fwd := x.fwd.map fun y => if y.tag = g then { y with abort := none } else y }).updHost q.cntlid fun h =>
     { h with aborts := h.aborts - 1 }) →
     Done (.forwardAbortRsp g caught) s fun t => t = ((if caught = true then s2.count .feAbortCaught else s2).respond
     ⟨q, cid, stOk, if caught = true then 0 else 1, [], false⟩)) ∧
  (∀ (s : State) (f : MFrame), f.release = false → s.owns f.sd = false → s.ubl.up = true →
     f.mseq ≠ (s.ubl.rx.get f.sd).mseq + 1 → ((s.ubl.rx.get f.sd).mseq - f.mseq).toNat < 2 ^ 31 →
     Done (.mirrorFrame f f.check) s fun t => t = ((s.heard 1 (flitsOf (64 + f.data.length))).send (.mirrorAck f.sd
     (s.ubl.rx.get f.sd).mseq)).tryAck f.sd) ∧
  (∀ (s : State) (d : SD) (e : DWord) (o : Word) (p : List Delta) (last : Option (Nat × Word)) (l : DLog), s.owns d =
     false → s.ubl.up = true → (s.ubl.erx.get d).log = some l → l.epoch = e → l.oepoch = o →
     (s.ubl.erx.get d).fin = none →
     Done (.epochFrame d (.log e o p last)) s fun t => t = (((s.heard 2 (logFlits (DLog.bytes ⟨e, o,
     p⟩).length)).updUbl fun u => { u with erx := u.erx.set d ⟨some ⟨e, o, l.deltas ++ p⟩, last⟩ }).tryAck
     d).foldShadow d) ∧
  (∀ (s s1 : State) (h l v : Nat) (a c : List Byte), s.ubl.lanes ≠ 0 → h % 2 ≠ s.top.head →
     (a = [] ∨ s.ubl.array = [] ∨ a = s.ubl.array) → s.ubl.levelMin ≤ l → l ≤ s.ubl.level → s.ubl.up = true →
     s1 = ((s.heard 0 1).updUbl fun u =>
     { u with up := true, lost := false, versionRefused := false, peerLevel := l, peerVersion := v, peerServing := true, array := if u.array.isEmpty = true then a else u.array })
     →
     Done (.hello h l v a c) s fun t => t = (s1.owned.foldl State.freeHold s1).actHello true) ∧
  (∀ (s : State) (g : Nat) (st : Status) (dw : Nat) (f : Fwd) (c : Cmd), s.fe.fwd.find? (fun f => decide (f.tag = g)) = some f → c ∈ s.fe.cmds → g ∈ c.tags →
     Done (.forwardCpl g st dw) s fun t => t = ((s.heard 3 1).updFe fun x => { x with fwd := x.fwd.filter fun y => decide (y.tag ≠ g) }).updFe fun x => { x with cmds := x.cmds.map fun c =>
       if g ∈ c.tags then { c with tags := c.tags.filter (fun z => decide (z ≠ g)), status := if st = stOk then c.status else some st } else c }) ∧
  (∀ (s s1 : State) (g : Nat), (s.heard 3 1).catchCmd (fun c => decide (c.origin = some g)) = some s1 →
     Done (.forwardAbort g) s fun t => t = s1.send (.fwdAbortRsp g true))

/-- A valid heartbeat with a newer HSEQ, on either path, is recorded with the state and owner epochs it carries, and one
that reports a fault declares the peer; one that is not valid is ignored, and one of the same head index is a clash; a
period without frames counts a miss on each path and, when both have three, declares the peer failed; a fault report
or tone declares at once; head 1 acts 50 us later unless it is broken; an asserted break ends media commands, releases
the battens and, unless it was expected, gives up the domains; each step of a takeover acts as stated, the batten's
line and its re-check are read, and the fill and the release of the peer act as stated. (R318, R319, R320, R321, R322,
R323, R325, R327.) -/
def Obligations.HeartbeatsAndDeclaration : Prop :=
  (∀ (s s0 s1 : State) (path : HbPath) (b : List Byte) (h : HbSt) (q : Half), b.length = 24 → leAt b 0 1 = 0x48 → crcOk b 16 = true → s.powered .ubl = true → (path = .link → s.ubl.up = true) → leAt b 1 1 % 2 ≠ s.top.head % 2 → h = (match path with | .link => s.ubl.hbLink | .pair => s.ubl.hbPair) → q = BitVec.ofNat 16 (leAt b 2 2) →
     (q - h.hseqRx).toNat ≠ 0 → (q - h.hseqRx).toNat < 2 ^ 15 → s0 = (if path = .link then s.heard 0 1 else s) →
     s1 = (s0.updUbl fun u => { u with hbLink := if path = .link then { h with hseqRx := q, seen := true } else u.hbLink, hbPair := if path = .pair then { h with hseqRx := q, seen := true } else u.hbPair, peerState := bitsOf (leAt b 1 1) 3 1, peerOepoch := ⟨BitVec.ofNat 32 (leAt b 4 4), BitVec.ofNat 32 (leAt b 8 4)⟩, oepoch := ⟨if u.oepoch.a < BitVec.ofNat 32 (leAt b 4 4) then BitVec.ofNat 32 (leAt b 4 4) else u.oepoch.a, if u.oepoch.b < BitVec.ofNat 32 (leAt b 8 4) then BitVec.ofNat 32 (leAt b 8 4) else u.oepoch.b⟩ }) →
     Done (.heartbeat path b) s fun t => t = if bitsOf (leAt b 1 1) 3 1 = 4 then s1.faultReported else s1) ∧
  (∀ (s : State) (path : HbPath) (b : List Byte), (b.length ≠ 24 ∨ leAt b 0 1 ≠ 0x48 ∨ crcOk b 16 = false) →
     Done (.heartbeat path b) s fun t => t = s) ∧
  (∀ (s : State) (path : HbPath) (b : List Byte), b.length = 24 → leAt b 0 1 = 0x48 → crcOk b 16 = true →
     s.powered .ubl = true → (path = .link → s.ubl.up = true) → leAt b 1 1 % 2 = s.top.head % 2 →
     Done (.heartbeat path b) s fun t => t = (s.updUbl fun u => { u with headClash := true }).raise .ubl 14) ∧
  (∀ (s s1 : State), s.powered .ubl = true → (s.ubl.hbLink.tick.misses < 3 ∨ s.ubl.hbPair.tick.misses < 3) →
     s1 = ((s.updUbl fun u =>
     { u with hbLink := s.ubl.hbLink.tick, hbPair := s.ubl.hbPair.tick, pairOk := s.ubl.hbPair.seen }).count
     .ublHbMisses (b2n (!s.ubl.hbLink.seen) + b2n (!s.ubl.hbPair.seen))).beat →
     Done .heartbeatPeriod s fun t => t = s1) ∧
  (∀ (s s1 : State), s.powered .ubl = true → 3 ≤ s.ubl.hbLink.tick.misses → 3 ≤ s.ubl.hbPair.tick.misses →
     s1 = ((s.updUbl fun u =>
     { u with hbLink := s.ubl.hbLink.tick, hbPair := s.ubl.hbPair.tick, pairOk := s.ubl.hbPair.seen }).count
     .ublHbMisses (b2n (!s.ubl.hbLink.seen) + b2n (!s.ubl.hbPair.seen))).beat →
     Done .heartbeatPeriod s fun t => t = s1.declare 0) ∧
  (∀ (s : State), s.powered .ubl = true →
     Done .faultTone s fun t => t = (s.updUbl fun u => { u with faultReport := true }).declare 1) ∧
  (∀ (s : State), s.ubl.delay = true → s.ubl.breakIn = false →
     Done .declarationDelay s fun t => t = (s.updUbl fun u =>
     { u with delay := false, rehearsing := false }).actDeclared s.ubl.rehearsing) ∧
  (∀ (s : State), s.ubl.delay = true → s.ubl.breakIn = true →
     Done .declarationDelay s fun t => t.ubl = { s.ubl with delay := false, rehearsing := false } ∧ Only [.ubl] s t) ∧
  (∀ (s : State) (d : SD) (x : Takeover) (level : Bool) (gap : Nat), s.ubl.takeover.find? (fun y => decide (y.sd = d))
     = some x → x.step = 1 → s.ubl.breakIn = false →
     Done (.takeover d level gap) s fun t => t = (s.updUbl fun u => { u with breakOut := true }).setTake
     { x with step := 2 }) ∧
  (∀ (s : State) (d : SD) (x : Takeover) (level : Bool) (gap : Nat), s.ubl.takeover.find? (fun y => decide (y.sd = d))
     = some x → x.step = 2 → s.ubl.breakIn = false →
     Done (.takeover d level gap) s fun t => t = if level = true then s.seeBatten d true else ((((s.seeBatten d
     false).seize d).fenceAll d).setTake { x with step := 3 })) ∧
  (∀ (s : State) (d : SD) (x : Takeover) (level : Bool) (gap : Nat), s.ubl.takeover.find? (fun y => decide (y.sd = d))
     = some x → x.step = 3 → s.ubl.breakIn = false →
     Done (.takeover d level gap) s fun t => t = if s.fencedAll d = true then s.setTake { x with step := 4 } else s) ∧
  (∀ (s : State) (d : SD) (x : Takeover) (level : Bool) (gap : Nat), s.ubl.takeover.find? (fun y => decide (y.sd = d))
     = some x → x.step = 5 → s.ubl.breakIn = false →
     Done (.takeover d level gap) s fun t => t = if ((s.str.journal.get d).any fun r => s.rowOpen d r.stripe r.row) =
     true then s else (s.recoverSteps d).setTake { x with step := 6 }) ∧
  (∀ (s : State) (d : SD) (x : Takeover) (level : Bool) (gap : Nat), s.ubl.takeover.find? (fun y => decide (y.sd = d))
     = some x → x.step = 7 → s.ubl.breakIn = false →
     Done (.takeover d level gap) s fun t => t = s.finishTakeover x gap) ∧
  (∀ (s : State) (d : SD), (s.ubl.takeover.any fun x => decide (x.sd = d ∧ x.step = 2)) = true →
     Done (.battenStuck d) s fun t => t = (s.seeBatten d true).raise .ubl 7 ∧ t.raisedBy s .ubl 7 ∧
     t.ubl.battenIn.get d = true) ∧
  (∀ (s : State) (d : SD), s.top.head = 1 → s.ubl.battenOut.get d = true →
     Done (.battenRecheck d true) s fun t => t = ((s.seeBatten d true).updUbl fun u =>
     { u with battenOut := u.battenOut.set d false }).updUbl fun u =>
     { u with takeover := u.takeover.map fun y => if y.sd = d ∧ y.step = 3 then { y with step := 2 } else y }) ∧
  (∀ (s : State) (d : SD) (level : Bool), (level = false ∨ s.top.head ≠ 1 ∨ s.ubl.battenOut.get d = false) →
     Done (.battenRecheck d level) s fun t => t = s.seeBatten d level) ∧
  (∀ (s s1 s2 : State), s.ubl.breakIn = false → s1 = ((s.updMlk fun m =>
     { m with out := m.out.map fun o => if o.res.isNone = true then { o with res := some fencedRes, loc := true } else o, late := m.late ++ submitted m.out }).count
     .mlkFenced (s.mlk.out.filter fun o => o.res.isNone).length) →
     s2 = (s1.updUbl fun u => { u with breakIn := true, breakOut := false, battenOut := ⟨false, false⟩ }).raise .ubl 6
     → (s2.ubl.expectBreak = true ∨ s2.upd.core0 = false ∨ s2.powered .ubl = false) →
     Done .breakAsserted s fun t => t = s2) ∧
  (∀ (s : State),
     Done .breakDeasserted s fun t => t.ubl = { s.ubl with breakIn := false } ∧ Only [.ubl] s t) ∧
  (∀ (s : State),
     Done .breakExpectationExpiry s fun t => t = s.updUbl fun u =>
     { u with expectBreak := u.expectBreak && (u.holdsPeer || s.pwr.parked) }) ∧
  (∀ (s s1 s2 s3 : State), s.ubl.up = true → s.ubl.unmirrored = true → s.ubl.filling = 0 → s.owned ≠ [] →
     s.ubl.breakOut = false → s1 = s.owned.foldl (fun s d => s.send (.shadow d (s.metaOf d) (s.ubl.copied.get d))) s →
     s2 = (s1.updUbl fun u => { u with filling := 1, tx := ⟨⟨0, [], []⟩, ⟨0, [], []⟩⟩ }) →
     s3 = s2.owned.foldl (fun s d => (s.refill d).askAcks d) s2 →
     Done .fill s fun t => t = s3.updUbl fun u => { u with filling := 2 }) ∧
  (∀ (s : State) (c : Nat) (r : List Byte), s.takesCmd c 0x0602 r none [] → s.ubl.up = true →
     Done (.breakRelease c) s fun t => t = ((s.updUbl fun u =>
     { u with breakOut := false, peerFailed := false }).updPwr fun p => { p with peerParked := false }).answerCmd c
     0x0602 true none r 0 []) ∧
  (∀ (s s1 : State) (d : SD) (x : Takeover) (level : Bool) (gap : Nat), s.ubl.takeover.find? (fun y => decide (y.sd =
     d)) = some x → x.step = 4 → s.ubl.breakIn = false → (s.ubl.expectUnits.get d = none ∨ x.rehearsal = false ∨ ∃ k
     hi, s.ubl.expectUnits.get d = some (k, hi) ∧ (s.unitsAbove d (s.copiedMeta d)).length = k ∧
     ((s.unitsAbove d (s.copiedMeta d)).getLast?.map (·.stamp)).getD 0 = hi) →
     s1 = s.installDomain d (s.copiedMeta d) →
     Done (.takeover d level gap) s fun t => t = (s1.updStr fun y =>
     { y with journal := y.journal.set d (s.mirrorJournal d (s.copiedMeta d)), jpos := y.jpos.set d (ringEnd (s.mirrorJournal d (s.copiedMeta d))) }).setTake
     { x with step := 5 }) ∧
  (∀ (s : State) (d : SD) (x : Takeover) (level : Bool) (gap k hi : Nat), s.ubl.takeover.find? (fun y => decide (y.sd =
     d)) = some x → x.step = 4 → s.ubl.breakIn = false → x.rehearsal = true → s.ubl.expectUnits.get d = some (k, hi) →
     ((s.unitsAbove d (s.copiedMeta d)).length ≠ k ∨ ((s.unitsAbove d (s.copiedMeta d)).getLast?.map (·.stamp)).getD 0
     ≠ hi) →
     Done (.takeover d level gap) s fun t => t = s.failRehearsal d) ∧
  (∀ (s s1 : State) (d : SD) (x : Takeover) (level : Bool) (gap : Nat) (ok : Bool), s.ubl.takeover.find? (fun y =>
     decide (y.sd = d)) = some x → x.step = 6 → s.ubl.breakIn = false →
     s.reenterAll (s.metaOf d).todoGran (fun s e i => s.mirrorSlot e i) (s.unitsAbove d (s.metaOf d)) = (s1, ok) →
     Done (.takeover d level gap) s fun t => t = if ok = true then s1.setTake { x with step := 7 } else s1) ∧
  (∀ (s s1 s2 s3 : State), s.ubl.breakIn = false → s1 = ((s.updMlk fun m =>
     { m with out := m.out.map fun o => if o.res.isNone = true then { o with res := some fencedRes, loc := true } else o, late := m.late ++ submitted m.out }).count
     .mlkFenced (s.mlk.out.filter fun o => o.res.isNone).length) →
     s2 = (s1.updUbl fun u => { u with breakIn := true, breakOut := false, battenOut := ⟨false, false⟩ }).raise .ubl 6
     → s2.ubl.expectBreak = false → s2.upd.core0 = true → s2.powered .ubl = true →
     s3 = s2.owned.foldl State.leaveDomain (s2.snag 13 0x100C).portsDown →
     Done .breakAsserted s fun t => t = (s3.sayState 3).requestState 2)

/-- A handover begins at the owner and tells the peer; each time it is taken up the giver or the taker does its next step:
the giver hands over once its sealed epochs are copied, the taker seizes the line and fences; a drain of more than 100
ms is aborted; a rehearsal that is due starts at the head whose turn it is, or is put off an hour; messages of the
peer take effect only while the link is up, and those of kinds 1 to 5, 7 to 13, 17, 18, 20 to 24 and 26 do what is
said of each. (R328, R329, R411, R422.) -/
def Obligations.HandoverAndRehearsal : Prop :=
  (∀ (s : State) (c : Nat) (r : List Byte) (d : SD) (level : Bool), s.ubl.handover = none →
     s.takesCmd c 0x0601 r (some (SD.ofBit (leAt r 8 1))) [(7, leAt r 8 1)] → leAt r 8 1 ≤ 1 → s.paired = true →
     s.ubl.takeover = [] →
     Done (.domainHandover (some c) d level) s fun t => t = ((s.beginHandover (SD.ofBit (leAt r 8 1)) 0 (some
     c)).updMbx fun m => { m with running := m.running ++ [(7, leAt r 8 1)] })) ∧
  (∀ (s : State) (h : Handover) (c : Option Nat) (level : Bool), s.ubl.handover = some h → h.giver = true →
     Done (.domainHandover c h.sd level) s fun t => t = s.giveStep h) ∧
  (∀ (s : State) (h : Handover) (c : Option Nat) (level : Bool), s.ubl.handover = some h → h.giver = false →
     Done (.domainHandover c h.sd level) s fun t => t = s.takeStep h level) ∧
  (∀ (s : State) (h : Handover), s.ubl.handover = some h → h.giver = true → h.step ≤ 1 →
     Done .handoverAbortTimeout s fun t => t = (s.abortHandover h).sayState 1) ∧
  (∀ (s : State), s.top.head = 0 → s.cfg.ublRehearse.value ≠ 0 → s.ubl.nextRehearse ≤ s.pwr.rtc.toNat →
     s.paired = true → s.rehearsalBusy = true →
     Done .rehearsal s fun t => t.ubl = { s.ubl with nextRehearse := s.pwr.rtc.toNat + 3600000000 } ∧
     t.counter .ublRehearsalPostponed = s.counter .ublRehearsalPostponed + 1 ∧ Only [.ubl, .counters] s t) ∧
  (∀ (s s1 : State), s.top.head = 0 → s.cfg.ublRehearse.value ≠ 0 → s.ubl.nextRehearse ≤ s.pwr.rtc.toNat →
     s.paired = true → s.rehearsalBusy = false → s1 = (s.updUbl fun u =>
     { u with nextRehearse := s.pwr.rtc.toNat + s.cfg.ublRehearse.value.toNat * 3600000000, rehearseG := 1 - u.rehearseG })
     →
     Done .rehearsal s fun t => t = if s.ubl.rehearseG = 0 then s1.giveRehearsal else s1.tell 13 .a []) ∧
  (∀ (s : State) (k : Nat) (d : SD) (b : List Byte), s.ubl.up = false →
     Done (.messageFrame k d b) s fun t => t = s) ∧
  (∀ (s s1 : State) (d : SD) (b : List Byte), s.ubl.up = true →
     s1 = (s.heard 4 (flitsOf (32 + b.length))).wakeEvent 3 →
     Done (.messageFrame 4 d b) s fun t => t = s1.updUbl fun u => { u with handover := some ⟨d, false, 0, 0, none⟩ }) ∧
  (∀ (s s1 : State) (d : SD) (b : List Byte) (h : Handover), s.ubl.up = true →
     s1 = (s.heard 4 (flitsOf (32 + b.length))).wakeEvent 3 → s1.ubl.handover = some h → h.sd = d → h.giver = false →
     Done (.messageFrame 5 d b) s fun t => t = s1.updUbl fun u =>
     { u with handover := some { h with step := 2 }, lastStamp := u.lastStamp.set d (leAt b 0 8) }) ∧
  (∀ (s : State) (h : Handover), h.step = 3 → s.ubl.waits.get h.sd = [] →
     s.giveStep h = (((s.tell 5 h.sd (leBytes 8 (s.fe.stamp.get h.sd).toNat)).leaveDomain h.sd).updUbl fun u =>
     { u with handover := some { h with step := 4 } })) ∧
  (∀ (s : State) (h : Handover), h.step = 2 → s.ubl.breakIn = false →
     s.takeStep h false = ((((s.seeBatten h.sd false).seize h.sd).fenceAll h.sd).updUbl fun u =>
     { u with handover := some { h with step := 3 } })) ∧
  (∀ (s s1 : State) (d : SD) (b : List Byte), s.ubl.up = true →
     s1 = (s.heard 4 (flitsOf (32 + b.length))).wakeEvent 3 →
     Done (.messageFrame 1 d b) s fun t => t = ((List.range ((b.length - 5) / 16)).map fun i => leAt b (5 + 16 * i)
     16).foldl (fun s h => s.resvEvent h (leAt b 0 4) (leAt b 4 1)) s1) ∧
  (∀ (s s1 : State) (d : SD) (b : List Byte), s.ubl.up = true →
     s1 = (s.heard 4 (flitsOf (32 + b.length))).wakeEvent 3 →
     Done (.messageFrame 2 d b) s fun t => t = s1.peerPhase ⟨leAt b 0 1, leAt b 1 1, leAt b 2 1, leAt b 3 1, leAt b 4
     4, leAt b 8 2, leAt b 10 2, BitVec.ofNat 64 (leAt b 16 8), leAt b 24 8, 0⟩) ∧
  (∀ (s s1 : State) (d : SD) (b : List Byte), s.ubl.up = true →
     s1 = (s.heard 4 (flitsOf (32 + b.length))).wakeEvent 3 →
     Done (.messageFrame 3 d b) s fun t => t = s1.updMed fun m =>
     { m with serials := m.serials ++ [⟨slice b 0 16, leAt b 16 2, leAt b 18 2, false, none⟩] }) ∧
  (∀ (s s1 : State) (d : SD) (b : List Byte), s.ubl.up = true →
     s1 = (s.heard 4 (flitsOf (32 + b.length))).wakeEvent 3 →
     Done (.messageFrame 7 d b) s fun t => t = if s1.owns d = true ∧
     s1.ubl.handover.isNone = true then s1.beginHandover d 3 none else if s1.owned.isEmpty = true then s1.restartNotice
     else s1) ∧
  (∀ (s s1 : State) (d : SD) (b : List Byte), s.ubl.up = true →
     s1 = (s.heard 4 (flitsOf (32 + b.length))).wakeEvent 3 →
     Done (.messageFrame 8 d b) s fun t => t = (s1.updUbl fun u =>
     { u with expectUnits := u.expectUnits.set d (some (leAt b 0 4, leAt b 4 8)), handover := none }).startGap d) ∧
  (∀ (s s1 : State) (d : SD) (b : List Byte), s.ubl.up = true →
     s1 = (s.heard 4 (flitsOf (32 + b.length))).wakeEvent 3 →
     Done (.messageFrame 9 d b) s fun t => t = (if s1.actAt 1 = true then s1.actStep 2 else s1).holdPeer) ∧
  (∀ (s s1 : State) (d : SD) (b : List Byte), s.ubl.up = true →
     s1 = (s.heard 4 (flitsOf (32 + b.length))).wakeEvent 3 →
     Done (.messageFrame 10 d b) s fun t => t = (s1.updPwr fun p => { p with peerParked := true }).holdPeer) ∧
  (∀ (s s1 : State) (d : SD) (b : List Byte), s.ubl.up = true →
     s1 = (s.heard 4 (flitsOf (32 + b.length))).wakeEvent 3 →
     Done (.messageFrame 11 d b) s fun t => t = if s1.actAt 3 = true then (s1.actStep 4).actGive else s1) ∧
  (∀ (s s1 : State) (d : SD) (b : List Byte), s.ubl.up = true →
     s1 = (s.heard 4 (flitsOf (32 + b.length))).wakeEvent 3 →
     Done (.messageFrame 12 d b) s fun t => t = s1.takeKdom b) ∧
  (∀ (s s1 : State) (d : SD) (b : List Byte), s.ubl.up = true →
     s1 = (s.heard 4 (flitsOf (32 + b.length))).wakeEvent 3 →
     Done (.messageFrame 13 d b) s fun t => t = s1.giveRehearsal) ∧
  (∀ (s s1 : State) (d : SD) (b : List Byte), s.ubl.up = true →
     s1 = (s.heard 4 (flitsOf (32 + b.length))).wakeEvent 3 →
     Done (.messageFrame 18 d b) s fun t => t = s1.removeKdom (leAt b 0 1)) ∧
  (∀ (s s1 : State) (d : SD) (b : List Byte), s.ubl.up = true →
     s1 = (s.heard 4 (flitsOf (32 + b.length))).wakeEvent 3 →
     Done (.messageFrame 20 d b) s fun t => t = s1.pushArrived b) ∧
  (∀ (s s1 : State) (d : SD) (b : List Byte), s.ubl.up = true →
     s1 = (s.heard 4 (flitsOf (32 + b.length))).wakeEvent 3 →
     Done (.messageFrame 21 d b) s fun t => t = s1.pushReply b) ∧
  (∀ (s s1 : State) (d : SD) (b : List Byte), s.ubl.up = true →
     s1 = (s.heard 4 (flitsOf (32 + b.length))).wakeEvent 3 →
     Done (.messageFrame 17 d b) s fun t => t = s1.commission (decide (leAt b 0 1 = 1)) (leAt b 1 1) (leAt b 2 2) (leAt
     b 4 2) (leAt b 6 2) (slice b 8 8) (b.drop 16)) ∧
  (∀ (s s1 : State) (d : SD) (b : List Byte), s.ubl.up = true →
     s1 = (s.heard 4 (flitsOf (32 + b.length))).wakeEvent 3 →
     Done (.messageFrame 22 d b) s fun t => t = s1.stagedModule (leAt b 0 1) (leAt b 1 4) (slice b 5 16) (slice b 21
     64)) ∧
  (∀ (s s1 : State) (d : SD) (b : List Byte), s.ubl.up = true →
     s1 = (s.heard 4 (flitsOf (32 + b.length))).wakeEvent 3 →
     Done (.messageFrame 23 d b) s fun t => t = s1.activateModule (leAt b 0 1)) ∧
  (∀ (s s1 : State) (d : SD) (b : List Byte), s.ubl.up = true →
     s1 = (s.heard 4 (flitsOf (32 + b.length))).wakeEvent 3 →
     Done (.messageFrame 24 d b) s fun t => t = s1.revertModule (leAt b 0 1)) ∧
  (∀ (s s1 : State) (d : SD) (b : List Byte), s.ubl.up = true →
     s1 = (s.heard 4 (flitsOf (32 + b.length))).wakeEvent 3 →
     Done (.messageFrame 26 d b) s fun t => t = if (s1.fe.progress.map (·.phase)) = some (leAt b 0 1) then s1.updFe
     (fun f => { f with peerDone := true }) else s1)

/-- A doorbell with the expected number on an idle channel takes the request, with the answer MBX itself gives to an
unknown opcode or a length out of range, and makes the channel BUSY; any other is a violation that sets BAD_DOORBELL
and changes no channel; a response that is made is posted in its bank, with its vector where enabled, and makes the
channel DONE; MB_RSP_ACK with the posted number makes it IDLE, again does nothing, and any other is a violation; a
notification takes a place of the ring or counts as lost; MB_NTF_CONS moves only up to PROD, and a value beyond it is
a violation. (R368, R369, R370, R371, R378, R379.) -/
def Obligations.MailboxChannels : Prop :=
  (∀ (s s1 : State) (r : Requester) (c : Nat) (w : Word), c < 63 → s.powered .top = true → s.powered .mbx = true → s.regExists r .mbx (0x40000 + 0x1000 * c + 8) = true → s.takes .mbx = true → (s.chan c).state = 0 → w.toNat % 256 = (s.chan c).expected →
     s1 = s.updChan c (fun x => { (x.setBank (w.toNat % 256) []) with
       taken := BitVec.ofNat 8 (w.toNat % 256), state := 1, op := (s.chan c).opcode.toNat, cur := fit (s.chan c).req (s.chan c).len, ready := (if (s.chan c).opcode.toNat ∉ mailOps then some rsnUnsupported else if (s.chan c).len < 8 ∨ (s.chan c).len > 1792 then some rsnRange else none).map fun rsn =>
         bankBytes rsn (s.chan c).opcode.toNat (ridOf (fit (s.chan c).req (s.chan c).len)) [] }) →
     Done (.mbDoorbell r c w) s fun t => t = if r = .head then { (s1.wakeEvent 2) with upd := { (s1.wakeEvent 2).upd with doorbell := true } } else s1.wakeEvent 2) ∧
  (∀ (s : State) (r : Requester) (c : Nat) (w : Word), c ≤ 63 → s.powered .top = true → s.powered .mbx = true →
     s.regExists r .mbx (0x40000 + 0x1000 * c + 8) = true →
     (c = 63 ∨ s.takes .mbx = false ∨ (s.chan c).state ≠ 0 ∨ w.toNat % 256 ≠ (s.chan c).expected) →
     Done (.mbDoorbell r c w) s fun t => t = (s.violation (violSource r) true (chanAddr c 0x008)).raise .mbx 2 ∧
     t.mbx = s.mbx ∧ t.raisedBy s .mbx 2 ∧ Only [.top, .blk, .msix] s t) ∧
  (∀ (s s0 s1 : State) (c : Nat) (b : List Byte), s0 = s.endWait c → c < 63 → (s0.chan c).ready = some b →
     (s0.chan c).state = 1 → s0.works .mbx = true → s1 = (s0.updChan c fun x =>
     { (x.setBank x.taken.toNat b) with rseq := x.taken, state := 2, ready := none }) →
     Done (.responsePosted c) s fun t => t = if (s0.chan c).intEn = true then s1.signal (16 + c) else s1) ∧
  (∀ (s : State) (r : Requester) (c : Nat) (w : Word), c < 63 → s.powered .top = true → s.powered .mbx = true →
     s.regExists r .mbx (0x40000 + 0x1000 * c + 0x24) = true → (s.chan c).state = 2 →
     w.toNat % 256 = (s.chan c).rseq.toNat →
     Done (.mbRspAck r c w) s fun t => t = s.updChan c fun x => { x with state := 0 }) ∧
  (∀ (s : State) (code : Nat) (raised : Bool) (sd : Option SD) (port : Nat) (arg : List Byte), s.works .mbx = true →
     Done (.notification code raised sd port arg) s fun t => t = s.notify 0x10 code raised sd port arg ∧
     ((s.mbx.prod + 128 - s.mbx.cons) % 128 < 64 → t.mbx.prod = (s.mbx.prod + 1) % 128 ∧
     Table.find t.mbx.ntf (s.mbx.prod % 64) = some (ntfBytes code raised sd port s.epoch48 arg) ∧
     t.mbx.lost = s.mbx.lost) ∧ Only [.mbx, .blk, .msix, .evr, .counters, .draws] s t) ∧
  (∀ (s : State) (code : Nat) (raised : Bool) (sd : Option SD) (port : Nat) (arg : List Byte), s.works .mbx = true →
     64 ≤ (s.mbx.prod + 128 - s.mbx.cons) % 128 → s.mbx.lost ≠ BitVec.allOnes 32 →
     Done (.notification code raised sd port arg) s fun t => t.mbx = { s.mbx with lost := s.mbx.lost + 1 } ∧
     Only [.mbx, .blk, .msix, .evr, .counters, .draws] s t) ∧
  (∀ (s : State) (r : Requester) (w : Word), s.powered .top = true → s.powered .mbx = true →
     s.regExists r .mbx 0x7F024 = true → (s.mbx.prod + 128 - w.toNat % 128) % 128 ≤ (s.mbx.prod + 128 - s.mbx.cons) %
     128 →
     Done (.mbNtfCons r w) s fun t => t = (if bitsOf w.toNat 15 7 = 0 then s else s.violation (violSource r) true
     0x0027F024).updMbx fun m => { m with cons := w.toNat % 128 }) ∧
  (∀ (s : State) (r : Requester) (w : Word), s.powered .top = true → s.powered .mbx = true →
     s.regExists r .mbx 0x7F024 = true → (s.mbx.prod + 128 - s.mbx.cons) % 128 < (s.mbx.prod + 128 - w.toNat % 128) %
     128 →
     Done (.mbNtfCons r w) s fun t => t = s.violation (violSource r) true 0x0027F024 ∧ t.mbx = s.mbx ∧ Only [.top] s t) ∧
  (∀ (s : State) (r : Requester) (c : Nat) (w : Word), c < 63 → s.powered .top = true → s.powered .mbx = true →
     s.regExists r .mbx (0x40000 + 0x1000 * c + 0x24) = true → (s.chan c).state = 0 →
     w.toNat % 256 = (s.chan c).rseq.toNat →
     Done (.mbRspAck r c w) s fun t => t = s) ∧
  (∀ (s : State) (r : Requester) (c : Nat) (w : Word), c < 63 → s.powered .top = true → s.powered .mbx = true →
     s.regExists r .mbx (0x40000 + 0x1000 * c + 0x24) = true →
     ((s.chan c).state = 1 ∨ (s.chan c).state = 3 ∨ w.toNat % 256 ≠ (s.chan c).rseq.toNat) →
     Done (.mbRspAck r c w) s fun t => t = s.violation (violSource r) true (chanAddr c 0x024)) ∧
  (∀ (x : Chan) (b : List Byte), (x.taken.toNat % 2 = 0 → (x.setBank x.taken.toNat b).bank0 = b ∧
     (x.setBank x.taken.toNat b).bank1 = x.bank1) ∧ (x.taken.toNat % 2 = 1 → (x.setBank x.taken.toNat b).bank1 = b ∧
     (x.setBank x.taken.toNat b).bank0 = x.bank0))

/-- A packet of a live queue pair whose context is on chip is carried out, one of an older generation or of a queue pair
in error is dropped and counted, and one that misses its context is parked, or dropped where no place is left; an
installed context makes room and resumes with what was parked, in PSN order; a queue pair error flushes its work
requests and receives and breaks its queue; an invalidate closes its window; a waiting FLUSH, persistent or not, or
ATOMIC WRITE is answered; a CNP cuts a rate and an interval without one raises it, of the path on a scrim queue pair;
a timeout, of an acknowledgement or of a not-ready receiver, retransmits the oldest request until its limit; a port
that goes down takes its queue pairs and paths. (R279, R280, R282, R284, R287, R288, R289, R291, R292.) -/
def Obligations.RdmaPackets : Prop :=
  (∀ (s : State) (p : Pkt), s.rdmOn = false →
     Done (.rdmaPacket true p) s fun t => t = s) ∧
  (∀ (s : State) (p : Pkt),
     Done (.rdmaPacket false p) s fun t => t = s) ∧
  (∀ (s s0 : State) (p : Pkt) (q : Qp), s.rdmOn = true → s.ethPort p.port = true → s0 = s.wakeP1.trace p.header →
     s0.qp? (qpnIdx p.qpn) = some q → q.gen ≠ qpnGen p.qpn →
     Done (.rdmaPacket true p) s fun t => t = s0.count .rdmStaleQpn) ∧
  (∀ (s s0 : State) (p : Pkt) (q : Qp), s.rdmOn = true → s.ethPort p.port = true → s0 = s.wakeP1.trace p.header →
     s0.qp? (qpnIdx p.qpn) = some q → q.gen = qpnGen p.qpn → q.err = false → q.onChip = true → q.fetching = false →
     q.parked = [] →
     Done (.rdmaPacket true p) s fun t => t = s0.handlePkt (qpnIdx p.qpn) q p) ∧
  (∀ (s s1 : State) (i : Nat) (q : Qp), s.qp? i = some q → q.fetching = true → s1 = s.makeRoom.updQp i (fun q => { q with onChip := true, fetching := false, parked := [] }) →
     Done (.contextInstalled i) s fun t => t = (q.parked.foldl (fun l p => parkInsert q.epsn p l) []).foldl (fun s p => match s.qp? i with
       | some x => s.handlePkt i x p
       | none => s) s1) ∧
  (∀ (s s2 : State) (i : Nat) (cause : Option WcSt) (q : Qp) (ws : List Wc), s.qp? i = some q → q.err = false → ws = (q.wrs.zipIdx.map fun w => Wc.mk false w.1.psn (if w.2 = 0 then cause.getD .flushed else .flushed)) →
     s2 = ((((s.updQp i fun q => { q with err := true, comps := q.comps ++ ws ++ List.replicate q.recvs (Wc.mk true 0 .flushed), wrs := [], recvs := 0, parked := [], fetching := false, tmsgs := [], twait := [] }).count .rdmErrDropped q.parked.length).count .rdmQpErrors).raise .rdm 1) →
     Done (.qpError i cause) s fun t => t = match q.q with
       | none => s2
       | some x => (s2.queueError x).breakQueue x) ∧
  (∀ (s : State) (i : Nat) (q : Qp) (psn : Nat) (persist : Bool) (m : Word) (rest : List RWait), s.qp? i = some q →
     q.err = false → q.rwaits = ⟨psn, persist, m, none⟩ :: rest → (persist = true → s.mirrored (s.qpSd i) m = true) →
     Done (.rdmaFlush i) s fun t => t = (s.updQp i fun q => { q with rwaits := rest }).tx (.flushResp i psn)) ∧
  (∀ (s : State) (i : Nat) (q : Qp) (psn : Nat) (m : Word) (rest : List RWait), s.qp? i = some q →
     q.rwaits = ⟨psn, true, m, none⟩ :: rest → s.mirrored (s.qpSd i) m = false →
     Done (.rdmaFlush i) s fun t => t = s) ∧
  (∀ (s : State) (i : Nat) (q : Qp) (psn : Nat) (b : Bool) (m : Word) (o : Nat) (x : List Byte) (rest : List RWait),
     s.qp? i = some q → q.err = false → q.rwaits = ⟨psn, b, m, some (o, x)⟩ :: rest →
     Done (.rdmaAtomicWrite i) s fun t => t = ((s.updQp i fun q => { q with rwaits := rest }).place i o x).tx
     (.atomicResp i psn)) ∧
  (∀ (s : State) (n psn port k : Nat), s.rdmOn = true → s.ethPort port = true →
     Done (.sendWithInvalidate true n psn port k) s fun t => t = s.rxPkt ⟨n, psn, port, .sendInv k⟩) ∧
  (∀ (s : State) (i path : Nat) (q : Qp), s.qp? i = some q →
     Done (.cnp i path) s fun t => t = (s.count .rdmCnpReceived).updQp i (fun q => q.mapRate path (cutRate
     s.cfg.rdmCc.value)) ∧ t.qp? i = some (q.mapRate path (cutRate s.cfg.rdmCc.value)) ∧
     t.counter .rdmCnpReceived = s.counter .rdmCnpReceived + 1 ∧ Only [.rdm, .counters] s t) ∧
  (∀ (s : State) (i path : Nat) (q : Qp), s.qp? i = some q →
     Done (.rateRaise i path) s fun t => t = s.updQp i (fun q => q.mapRate path (raiseRate s.cfg.rdmCc.value
     (s.portRate (q.portOf path)))) ∧ t.qp? i = some (q.mapRate path (raiseRate s.cfg.rdmCc.value (s.portRate (q.portOf
     path)))) ∧ Only [.rdm] s t) ∧
  (∀ (s : State) (i : Nat) (q : Qp) (w : Wr), s.qp? i = some q → q.err = false →
     q.wrs.find? (fun w => decide (w.op ≠ .scrim)) = some w → q.retries < q.retryMax →
     Done (.localAckTimeout i false) s fun t => t = (s.updQp i fun q' => { q' with retries := q.retries + 1 }).tx
     (.retransmit i w.psn)) ∧
  (∀ (s : State) (i : Nat) (q : Qp) (w : Wr), s.qp? i = some q → q.err = false →
     q.wrs.find? (fun w => decide (w.op ≠ .scrim)) = some w → q.retryMax ≤ q.retries →
     Done (.localAckTimeout i false) s fun t => t = s.qpError i (some .retryExceeded)) ∧
  (∀ (s s1 : State) (port : Nat), s1 = s.updRdm (fun r => { r with portUp := Table.put r.portUp port false }) →
     Done (.portLinkDown port) s fun t => t = s1.rdm.qps.foldl (fun s x => if x.2.kind = .scrim then (x.2.paths.filter
     fun y => decide (y.port = port)).foldl (fun s y => s.dropPath x.1 y.idx) s else if x.2.port = port then s.qpError
     x.1 none else s) s1) ∧
  (∀ (s s0 : State) (p : Pkt) (q : Qp), s.rdmOn = true → s.ethPort p.port = true → s0 = s.wakeP1.trace p.header →
     s0.qp? (qpnIdx p.qpn) = some q → q.gen = qpnGen p.qpn → q.err = true →
     Done (.rdmaPacket true p) s fun t => t = s0.count .rdmErrDropped) ∧
  (∀ (s s0 s1 : State) (p : Pkt) (q : Qp), s.rdmOn = true → s.ethPort p.port = true → s0 = s.wakeP1.trace p.header →
     s0.qp? (qpnIdx p.qpn) = some q → q.gen = qpnGen p.qpn → q.err = false → ¬(q.onChip = true ∧ q.fetching = false ∧
     q.parked = []) → s1 = (if q.onChip = true then s0 else s0.count .rdmCtxMiss) → s0.parkedIn (p.port / 8) < 240 →
     q.parked.length < 32 → (q.onChip = true ∨ q.fetching = true ∨ s0.fetchesIn (p.port / 8) < 64) →
     Done (.rdmaPacket true p) s fun t => t = (s1.count .rdmParked).updQp (qpnIdx p.qpn) fun q =>
     { q with parked := q.parked ++ [p], fetching := q.fetching || !q.onChip }) ∧
  (∀ (s s0 s1 : State) (p : Pkt) (q : Qp), s.rdmOn = true → s.ethPort p.port = true → s0 = s.wakeP1.trace p.header →
     s0.qp? (qpnIdx p.qpn) = some q → q.gen = qpnGen p.qpn → q.err = false → ¬(q.onChip = true ∧ q.fetching = false ∧
     q.parked = []) → s1 = (if q.onChip = true then s0 else s0.count .rdmCtxMiss) →
     (240 ≤ s0.parkedIn (p.port / 8) ∨ 32 ≤ q.parked.length ∨ (q.onChip = false ∧ q.fetching = false ∧
     64 ≤ s0.fetchesIn (p.port / 8))) →
     Done (.rdmaPacket true p) s fun t => t = (s1.count .rdmParkDropped).raise .rdm 0) ∧
  (∀ (s : State) (i : Nat) (q : Qp) (w : Wr), s.qp? i = some q → q.err = false →
     q.wrs.find? (fun w => decide (w.op ≠ .scrim)) = some w → q.rnrs < q.rnrMax →
     Done (.localAckTimeout i true) s fun t => t = (s.updQp i fun q' => { q' with rnrs := q.rnrs + 1 }).tx (.retransmit
     i w.psn)) ∧
  (∀ (s : State) (i : Nat) (q : Qp) (w : Wr), s.qp? i = some q → q.err = false →
     q.wrs.find? (fun w => decide (w.op ≠ .scrim)) = some w → q.rnrMax ≤ q.rnrs →
     Done (.localAckTimeout i true) s fun t => t = s.qpError i (some .rnrExceeded))

/-- A scrim packet goes to its queue pair; a message whose packets have all been placed completes in any order, is
acknowledged, and BASE advances past the complete ones; an acknowledgement retires its message and lets what waited go
out; a NAK resends only what the bitmap shows missing; a timeout resends the last packet with RETRY and the seventh is
an error; a path that goes down has its packets resent on the others, and with none left the queue pair is in error.
(R293, R294, R295, R296.) -/
def Obligations.ScrimMode : Prop :=
  (∀ (s : State) (n psn port : Nat) (x : Sxh) (b : List Byte), s.rdmOn = true → s.ethPort port = true →
     Done (.scrimPacket true n psn port x b) s fun t => t = s.rxPkt ⟨n, psn, port, .scrim x b⟩) ∧
  (∀ (s : State) (i msn : Nat) (q : Qp) (m : RMsg), s.qp? i = some q → q.err = false → Table.find q.rmsgs msn = some m → m.complete = false → m.bitmap = 2 ^ (m.npktM1 + 1) - 1 →
     Done (.scrimComplete i msn) s fun t => t = ((s.updQp i fun q' => { q' with
       rmsgs := Table.keep (fun k _ => decide ((k + 2 ^ 32 - advanceBase (Table.put q.rmsgs msn { m with complete := true }) 64 q.base) % 2 ^ 32 < 64)) (Table.put q.rmsgs msn { m with complete := true })
       base := advanceBase (Table.put q.rmsgs msn { m with complete := true }) 64 q.base, comps := q.comps ++ [Wc.mk true 0 .ok] }).tx (.scrimAck i msn))) ∧
  (∀ (s : State) (i msn : Nat) (q : Qp), s.qp? i = some q → q.err = false →
     (q.tmsgs.any fun m => decide (m.msn = msn)) = true →
     Done (.scrimAck i msn) s fun t => t = ((s.updQp i fun q =>
     { q with tmsgs := q.tmsgs.filter (fun m => decide (m.msn ≠ msn)), wrs := q.wrs.filter (fun w => decide (w ≠ ⟨msn, .scrim⟩)), comps := q.comps ++ [Wc.mk false msn .ok] }).pumpAll
     i)) ∧
  (∀ (s : State) (i msn bitmap : Nat) (q : Qp) (m : TMsg), s.qp? i = some q → q.err = false →
     q.tmsgs.find? (fun m => m.msn = msn) = some m →
     Done (.scrimNak i msn bitmap) s fun t => t = s.resend i q m ((List.range (m.npktM1 + 1)).filter fun p =>
     !bitmap.testBit p)) ∧
  (∀ (s : State) (i msn : Nat) (q : Qp) (m : TMsg), s.qp? i = some q →
     q.tmsgs.find? (fun m => decide (m.msn = msn)) = some m → m.timeouts < 6 →
     Done (.scrimTimeout i msn) s fun t => t = (s.updQp i fun q =>
     { q with tmsgs := q.tmsgs.map fun x => if x.msn = msn then { x with timeouts := x.timeouts + 1 } else x }).resend
     i q m [m.npktM1]) ∧
  (∀ (s : State) (i msn : Nat) (q : Qp) (m : TMsg), s.qp? i = some q → q.tmsgs.find? (fun m => m.msn = msn) = some m →
     6 ≤ m.timeouts →
     Done (.scrimTimeout i msn) s fun t => t = s.qpError i (some .retryExceeded)) ∧
  (∀ (s s1 : State) (i p : Nat) (q q1 : Qp), s.qp? i = some q → q.kind = .scrim → q.err = false →
     (q.paths.any fun x => decide (x.idx = p) && x.up) = true →
     q1 = { q with paths := q.paths.map fun x => if x.idx = p then { x with up := false } else x } →
     s1 = (s.updQp i fun _ => q1).raise .rdm 3 → (q1.paths.any fun x => x.up) = true →
     Done (.pathDown i p) s fun t => t = q.tmsgs.foldl (fun s m => s.resend i q1 m ((List.range (m.npktM1 + 1)).filter
     fun k => decide (m.paths.getD k 0 = p))) s1) ∧
  (∀ (s s1 : State) (i p : Nat) (q q1 : Qp), s.qp? i = some q → q.kind = .scrim → q.err = false →
     (q.paths.any fun x => decide (x.idx = p) && x.up) = true →
     q1 = { q with paths := q.paths.map fun x => if x.idx = p then { x with up := false } else x } →
     s1 = (s.updQp i fun _ => q1).raise .rdm 3 → (q1.paths.any fun x => x.up) = false →
     Done (.pathDown i p) s fun t => t = s1.qpError i (some .retryExceeded))

/-- At the first stamp of an epoch a source whose interval has passed ends its set with a snapshot of the group; the
oldest set cut and sealed goes out with its records, or those of a resync, a FLUSH and its number, and a synchronous
source with no set due sends its latest entries with a FLUSH; a held write past the timeout makes a degrading
attachment asynchronous; a backlog at its limit starts a resync; on the target the records of an authentic message are
taken, an unauthentic one detaches the attachment, an empty key slot is reported, and a changed control word takes a
snapshot and keeps the last two. (R298, R299, R300, R301, R302, R303.) -/
def Obligations.Replication : Prop :=
  (∀ (s : State) (id : Nat) (a : Attach) (p : Nat) (ids : List Nat) (s1 : State), Table.find s.rdm.atts id = some a →
     a.source = true → a.detached = false → s.owns a.sd = true → s.top.running = true →
     (s.fe.stamp.get a.sd).toNat = a.mark → (if a.sync = true then 15625 else a.interval) ≤ a.age →
     s.takeSnap a.sd a.roots = some (p, ids, s1) →
     Done (.consistencySetCut id) s fun t => t = s1.updAtt id fun a =>
     { a with set := a.set + 1, cuts := a.cuts ++ [(a.set, p)], snaps := a.snaps ++ [(a.set, ids)], age := 0 }) ∧
  (∀ (s : State) (id : Nat) (a : Attach), Table.find s.rdm.atts id = some a → a.sync = false → a.age < a.interval →
     Done (.consistencySetCut id) s fun t => t = s) ∧
  (∀ (s : State) (id : Nat) (a : Attach) (m cut : Nat) (q : Qp) (s0 s1 s2 : State) (rs : List Rec), Table.find
     s.rdm.atts id = some a → a.source = true → a.detached = false → s.owns a.sd = true →s.qp? a.qp = some q →
     q.err = false → a.cuts.find? (fun c => decide (c.2 > a.shipped)) = some (m, cut) → s.setSealed a cut = true →
     (if a.resync = true then s.resyncRecs a m cut else (s.entryRecs m ((s.replEntries a).filter fun x => decide
     (x.1.stamp < cut)), s)) = (rs, s0) → s0.sendMsgs id (packRecs [] (rs ++ [⟨4, true, 0, 0, cut, 0, m, []⟩])) = some
     s1 → s2 = s1.sendFlush id cut →
     Done (.consistencySetShip id) s fun t => t = ((s2.postWr a.qp (.atomicWrite id m)).sendCtl a.qp (.word a.qp
     (s2.npsn a.qp) m)).updAtt id fun a => { a with shipped := cut, resync := false }) ∧
  (∀ (s s1 : State) (id : Nat) (a : Attach) (w : Window) (v p : Nat) (ids : List Nat), Table.find s.rdm.atts id = some
     a → a.source = false → a.detached = false → s.owns a.sd = true → s.attWindow a = some w →
     v = leNat (s.rdm.landing.readN w.base 8) → v ≠ a.word → s.takeSnap a.sd a.roots = some (p, ids, s1) →
     Done (.controlWordChange id) s fun t => t = (((a.snaps ++ [(v, ids)]).take ((a.snaps ++ [(v, ids)]).length -
     2)).foldl (fun s x => x.2.foldl (fun s r => s.deleteRoot a.sd r) s) s1).updAtt id fun a' =>
     { a' with word := v, snaps := (a.snaps ++ [(v, ids)]).drop ((a.snaps ++ [(v, ids)]).length - 2) }) ∧
  (∀ (s : State) (id msn : Nat) (src wire : List Byte) (a : Attach), Table.find s.rdm.atts id = some a →
     a.source = false → a.detached = false → s.owns a.sd = true →
     ((s.kslot a.slot).state = 0 ∨ (s.kslot a.slot).state = 3) →
     Done (.replicationMessage id msn src wire) s fun t => t = s.raise .cip 2) ∧
  (∀ (s : State) (id msn : Nat) (src wire : List Byte) (pt : Option (List Byte)) (a : Attach), Table.find s.rdm.atts id
     = some a → a.source = false → a.detached = false → s.owns a.sd = true →(s.kslot a.slot).state ≠ 0 →
     (s.kslot a.slot).state ≠ 3 → pt = (if wire.length < 32 ∨ (s.kslot a.slot).usage ≠ 1 then none else gcmDec (s.kslot
     a.slot).key (slice wire (wire.length - 32) 12) (replAad id msn src) (wire.take (wire.length - 32)) (slice wire
     (wire.length - 32 + 16) 16)) → pt = none →
     Done (.replicationMessage id msn src wire) s fun t => t = ((((s.count .cipTagFail).raise .cip 0).raise .rdm
     6).updAtt id (fun a => { a with detached := true })).notify 12 0x0402 true (some a.sd) 0xFF (leBytes 4 id)) ∧
  (∀ (s : State) (id : Nat) (a : Attach), Table.find s.rdm.atts id = some a → a.source = true → a.detached = false →
     a.sync = true → a.degrade = true → (s.fe.cmds.any fun c => decide (c.status = some stOk) && !c.posted && decide
     (c.sd = a.sd) && decide (a.durable < c.stamp) && !s.replCovers c) = true →
     Done (.replSyncTimeout id) s fun t => t = ((s.updAtt id fun a => { a with sync := false }).raise .rdm 4).notify 12
     0x0401 true (some a.sd) 0xFF (leBytes 4 id)) ∧
  (∀ (s : State) (id : Nat) (a : Attach), Table.find s.rdm.atts id = some a →
     s.replHeld a < s.ubl.sheet.size * 4096 * a.backlog / 256 →
     Done (.resync id) s fun t => t = s) ∧
  (∀ (s : State) (id : Nat) (a : Attach) (p : Nat) (ids : List Nat) (s1 : State), Table.find s.rdm.atts id = some a →
     a.source = true → a.detached = false → a.sync = false → a.resync = false → s.owns a.sd = true →
     s.ubl.sheet.size * 4096 * a.backlog / 256 ≤ s.replHeld a → s.takeSnap a.sd a.roots = some (p, ids, s1) →
     Done (.resync id) s fun t => t = ((s1.updAtt id fun a =>
     { a with set := a.set + 1, cuts := a.cuts.filter (fun c => decide (c.2 ≤ a.shipped)) ++ [(a.set, p)], snaps := a.snaps ++ [(a.set, ids)], age := 0, resync := true, durable := max a.durable p }).raise
     .rdm 5).notify 12 0x0403 true (some a.sd) 0xFF (leBytes 4 id)) ∧
  (∀ (s s1 : State) (id : Nat) (a : Attach) (q : Qp) (e : Entry) (x : Namespace) (y : Nat), Table.find s.rdm.atts id =
     some a → a.source = true → a.detached = false → s.owns a.sd = true →s.qp? a.qp = some q → q.err = false →
     a.cuts.find? (fun c => decide (c.2 > a.shipped)) = none → a.sync = true →
     ((s.replEntries a).filter fun x => decide (x.1.stamp < s.replLimit a)).getLast? = some (e, x, y) →
     s.sendMsgs id (packRecs [] (s.entryRecs a.set ((s.replEntries a).filter fun x => decide (x.1.stamp < s.replLimit
     a)))) = some s1 →
     Done (.consistencySetShip id) s fun t => t = (s1.sendFlush id e.stamp).updAtt id fun a =>
     { a with shipped := e.stamp }) ∧
  (∀ (s s1 : State) (id msn : Nat) (src wire : List Byte) (pt : Option (List Byte)) (b : List Byte) (a a1 : Attach) (rs
     : List Rec), Table.find s.rdm.atts id = some a → a.source = false → a.detached = false →
     s.owns a.sd = true →(s.kslot a.slot).state ≠ 0 → (s.kslot a.slot).state ≠ 3 →
     pt = (if wire.length < 32 ∨ (s.kslot a.slot).usage ≠ 1 then none else gcmDec (s.kslot a.slot).key (slice wire
     (wire.length - 32) 12) (replAad id msn src) (wire.take (wire.length - 32)) (slice wire (wire.length - 32 + 16)
     16)) → pt = some b → recsOf (fun i => ((a.roots[i]?).bind (s.rootNs a.sd)).map fun x => lbaData x.2.lbaf)
     (b.length / 32 + 2) b = some rs → (s.count .cipMsgDone).takeRecs a rs = some (a1, s1) →
     Done (.replicationMessage id msn src wire) s fun t => t = s1.updAtt id fun _ => a1)

/-- For every command c and every state whose queue begins with c, the step is exec of c on that state with c taken off
its queue. How commands come to wait is the model's choice (assumption 12). (R21.) -/
def Obligations.StepRunsTheFrontCommand : Prop :=
  (∀ (c : Instr) (s : State) (rest : List Instr), s.pending = c :: rest → step s = exec c { s with pending := rest })

/-- On an empty queue the step is a next state in which one scr-cycle has passed (the model's choice, assumption 1): a
timer that counts is one lower, or fires and reloads if periodic; the RTC counts microseconds; CIP has 64 drawn values
and its shared pool runs 60 blocks for the streams bound to it; the Ubius link carries its flits, and host beats that
its credit held go on. With the link down and no stream bound, nothing but PWR, CIP, TOP, the link, the events and
their interrupts is touched. (R245, R461, R233, R308, R27, R421.) -/
def Obligations.EmptyQueueLetsACyclePass : Prop :=
  (∀ (s : State), s.pending = [] → ∃ t, step s = .next t ∧ t = s.tick ∧ t.pending = []) ∧
  (∀ (s : State), s.pending = [] → s.ubl.up = false → s.cip.streams = [] → ∃ t, step s = .next t ∧ t.cip.ready = 64 ∧
     t.cip.streams = [] ∧ Only [.pwr, .cip, .top, .link, .blk, .msix] s t) ∧
  (∀ (s : State) (k : Nat) (x : Timer), s.top.timers[k]? = some x → x.en = true → 1 < x.count →
     s.timerTick k = s.updTop (fun y => { y with timers := updAt y.timers k fun z => { z with count := z.count - 1 } })) ∧
  (∀ (s : State) (k : Nat) (x : Timer), s.top.timers[k]? = some x → x.en = true → x.count = 1 →
     s.timerTick k = (s.updTop fun y =>
     { y with timers := updAt y.timers k fun z => { z with count := if z.periodic = true then z.load else 0 } }).raise
     .top k) ∧
  (∀ (s : State), s.powered .ubl = true → s.ubl.up = true →
     s.linkTick = if ({ s with link := s.link.cycle s.ubl.lanes true } : State).mirrorFull = true then
     { s with link := s.link.cycle s.ubl.lanes true } else ({ s with link := s.link.cycle s.ubl.lanes true } :
     State).landHeld) ∧
  (∀ (s : State), s.cip.streams ≠ [] → s.poolTick = ((s.updCip (poolBlocks 60 [])).endStreams).updCip fun c => { c with slots := c.slots.map fun x =>
     (x.1, if x.2.state = 2 ∧ ((s.updCip (poolBlocks 60 [])).endStreams).oldHeld x.1 = false then { x.2 with state := 1, oldKey := [] } else x.2) }) ∧
  (∀ (p : PwrState), (p.rtcSub + 1 < 100 → p.rtcTick = { p with rtcSub := p.rtcSub + 1 }) ∧ (100 ≤ p.rtcSub + 1 →
     p.rtcTick.rtc = p.rtc + 1 ∧ p.rtcTick.rtcSub = 0))

/-- Right after reset every counter reads 0, no event bit is set and every SEQ is 0, no block but TOP and PWR is enabled,
TOP_RESET_CAUSE is that of a power-on reset, the commit epoch is 0 with its timer stopped, no violation is recorded,
the mailbox channels are idle, no domain is owned and no command waits. (R88, R111, R330, R305, R343, R356, R361,
R438.) -/
def Obligations.ResetLeavesCountersAndEventsClear : Prop :=
  ((∀ c, State.reset.counter c = 0) ∧ (∀ b, (State.reset.blk.get b).events = [] ∧ (State.reset.blk.get b).seq = 0) ∧
     (∀ b, (State.reset.blk.get b).enabled = decide (b = .top ∨ b = .pwr)) ∧ State.reset.top.resetCause = 4 ∧
     State.reset.top.epoch = 0 ∧ State.reset.top.running = false ∧ State.reset.top.violations = 0 ∧
     (∀ c, (State.reset.chan c).state = 0 ∧ (State.reset.chan c).rseq = 0) ∧ State.reset.owned = [] ∧
     State.reset.dig.log = [] ∧ State.reset.fe.cmds = [] ∧ State.reset.pending = [])

/-- The mirror, the landing area and the mirror of a dump are in canonical form at reset, and so is the empty queue: the
two invariants below hold there. (R286, R311.) -/
def Obligations.ResetIsCanonical : Prop :=
  (State.reset.memOk ∧ State.reset.queueOk)

/-- For every state whose byte memories (the mirror of the peer's dust sheet, the replication landing area, the mirror a
dump holds) have rising addresses and list no zero byte, whatever command runs, the next state's have them too: equal
memories stay equal data over all 286 commands and over the idle step. (R196, R286, R311, R312.) -/
def Obligations.EveryStepKeepsTheMemoriesCanonical : Prop :=
  (∀ (s t : State), s.memOk → step s = .next t → t.memOk)

/-- For each of the 286 commands the next state has the queue of the state it ran on; so a step on a queue c :: rest
leaves rest, and the idle step leaves the empty queue. First in, first out is the model's interface (assumption 12).
(R21.) -/
def Obligations.TheQueueIsServedFirstInFirstOut : Prop :=
  (∀ (c : Instr) (s t : State), exec c s = .next t → t.pending = s.pending) ∧
  (∀ (c : Instr) (rest : List Instr) (s t : State), s.pending = c :: rest → step s = .next t → t.pending = rest)

/-- For each of the 286 commands of the table and every state there is a next state; the block neither stops nor turns a
command away without a state to go on from. Refusals of the spec (a mailbox reason, a violation, a NAK) are effects on
the state. (R21, R24.) -/
def Obligations.EveryCommandCompletes : Prop :=
  (∀ (c : Instr) (s : State), ∃ t, exec c s = .next t)

/-- If every waiting command fits its fields, every command waiting after a step does. (R21.) -/
def Obligations.TheQueueStaysWellFormed : Prop :=
  (∀ (s t : State), s.queueOk → step s = .next t → t.queueOk)

/-- For every loaded key slot with a 32-byte key, every 12-byte nonce, body of 65,536 bytes and raw check table of 256
bytes: the image that sealing makes for a domain and pack is opened there to exactly that body and table. It says that
AES-GCM decryption undoes encryption, and that the image's fields lie where reading takes them. (R78, R246, R247.) -/
def Obligations.ASealedPackOpens : Prop :=
  (∀ (s : State) (d : SD) (pack slot kind : Nat) (nonce body rct : List Byte), slot < 4096 →
     ((s.kslot slot).state = 1 ∨ (s.kslot slot).state = 2) → (s.kslot slot).key.length = 32 → nonce.length = 12 →
     body.length = 65536 → rct.length = 256 → s.openImage d pack (sealPack (s.kslot slot).key nonce slot kind d pack
     body rct) = .plain body rct)

/-- For every row of k data images of image length and every lost index: from the other images and P, and also from the
other images and Q alone, reconstruction answers the lost image (k up to 22 with Q). (R189, R200.) -/
def Obligations.OneLostSlotIsRecovered : Prop :=
  (∀ (imgs : List (List Byte)) (x : Nat) (q : Option (List Byte)) (d : List Byte), (∀ i ∈ imgs, i.length = imageLen) →
     imgs[x]? = some d → rebuildData imgs.length ((imgs.zipIdx.map fun y => (y.2, y.1)).filter fun y => y.1 ≠ x) (some
     (parityP imgs)) q x = some d) ∧
  (∀ (imgs : List (List Byte)) (x : Nat) (d : List Byte), imgs.length ≤ 22 → (∀ i ∈ imgs, i.length = imageLen) →
     imgs[x]? = some d → rebuildData imgs.length ((imgs.zipIdx.map fun y => (y.2, y.1)).filter fun y => y.1 ≠ x) none
     (some (parityQ imgs)) x = some d)

/-- For every row of up to 22 data images of image length and any two distinct lost indices: from the other images, P and
Q, reconstruction answers the lost image asked for. It rests on the field GF(256) of R189: the exclusive or of g^x and
g^y has an inverse. (R189, R200.) -/
def Obligations.TwoLostSlotsAreRecovered : Prop :=
  (∀ (imgs : List (List Byte)) (x y : Nat) (d : List Byte), imgs.length ≤ 22 → (∀ i ∈ imgs, i.length = imageLen) →
     x ≠ y → y < imgs.length → imgs[x]? = some d → rebuildData imgs.length ((imgs.zipIdx.map fun z => (z.2,
     z.1)).filter fun z => z.1 ≠ x ∧ z.1 ≠ y) (some (parityP imgs)) (some (parityQ imgs)) x = some d)

/-- For a byte x and its prediction p, with r their difference modulo 256 read as a signed value: the symbol is 2r for r
at least 0 and -2r-1 below, so it lies from 0 to 255. (R116.) -/
def Obligations.ResidueSymbols : Prop :=
  (∀ (x p : Byte), (0 ≤ (x - p).toInt → (zigzag (x - p) : Int) = 2 * (x - p).toInt) ∧ ((x - p).toInt < 0 →
     (zigzag (x - p) : Int) = -2 * (x - p).toInt - 1) ∧ zigzag (x - p) ≤ 255 ∧ -128 ≤ (x - p).toInt ∧
     (x - p).toInt ≤ 127)

/-- For a raw granule at 16-byte unit off of a pack's body, with 4,096 bytes held there: the read gives those bytes when
the table's entry for the granule is their CRC-64, and fails the check when the entry differs or is missing. (R125.) -/
def Obligations.RawGranulesAreChecked : Prop :=
  (∀ (off : Nat) (body rct more : List Byte), 4096 ≤ (body.drop (16 * off) ++ more).length →
     decodeGranule true off body rct more = if rctFind rct (16 * off) = some (crc64 ((body.drop (16 * off) ++
     more).take 4096)) then .good ((body.drop (16 * off) ++ more).take 4096) else .check)

/-- An extend with fewer than 1,024 entries in the log appends its entry; one with 1,024 leaves the log as it is and sets
LOG_FULL; in both cases the register takes its new value and its count rises. A full-chip reset empties the log.
(R400.) -/
def Obligations.TheMeasurementLogKeepsTheFirstExtends : Prop :=
  (∀ (s : State) (i : Nat) (input : List Byte) (ev subj : Nat) (u : Bool), s.dig.log.length < 1024 →
     (s.extendReg i input ev subj u).dig.log = s.dig.log ++ [⟨i, ev, subj, u, input.take 64⟩] ∧
     (s.extendReg i input ev subj u).dig.logFull = s.dig.logFull) ∧
  (∀ (s : State) (i : Nat) (input : List Byte) (ev subj : Nat) (u : Bool), 1024 ≤ s.dig.log.length →
     (s.extendReg i input ev subj u).dig.log = s.dig.log ∧ (s.extendReg i input ev subj u).dig.logFull = true) ∧
  (∀ (s : State) (i : Nat) (input : List Byte) (ev subj : Nat) (u : Bool) (m : List Byte) (n : BitVec 32), s.dig.m[i]?
     = some m → s.dig.counts[i]? = some n → n ≠ BitVec.allOnes 32 →
     (s.extendReg i input ev subj u).dig.m[i]? = some (extendValue m input) ∧
     (s.extendReg i input ev subj u).dig.counts[i]? = some (n + 1)) ∧
  (∀ (s : State) (cause : Nat), (s.fullReset cause).dig.log = [] ∧ (s.fullReset cause).dig.logFull = false)

/-- The window check answers none exactly when the rkey names no open window, or the window is another queue pair's, or
lacks the right, or does not hold every byte; a write, read, FLUSH or ATOMIC WRITE so refused is answered with a
Remote Access Error NAK, its queue pair enters the error state and no byte of the landing area changes. (R286, R287,
R288.) -/
def Obligations.WindowsRefuseWhatTheyDoNotAllow : Prop :=
  (∀ (s : State) (qp k right off len : Nat), s.windowCheck qp k right off len = none ↔ ∀ i w, s.window? k = some (i, w)
     → w.qp ≠ qp ∨ bitOf w.rights right = false ∨ w.len < off + len) ∧
  (∀ (s : State) (i psn k off : Nat) (data : List Byte), s.windowCheck i k 0 off data.length = none →
     s.request i psn (.write k off data) = (s.tx (.accessNak i psn)).qpError i none ∧
     (s.request i psn (.write k off data)).rdm.landing = s.rdm.landing) ∧
  (∀ (s : State) (i psn k off len : Nat), s.windowCheck i k 1 off len = none →
     s.request i psn (.readReq k off len) = (s.tx (.accessNak i psn)).qpError i none) ∧
  (∀ (s : State) (i psn k off len : Nat) (p : Bool), s.windowCheck i k 3 off len = none →
     s.request i psn (.flush p k off len) = (s.tx (.accessNak i psn)).qpError i none) ∧
  (∀ (s : State) (i psn k off : Nat) (data : List Byte), s.windowCheck i k 2 off 8 = none →
     s.request i psn (.atomicWrite k off data) = (s.tx (.accessNak i psn)).qpError i none ∧
     (s.request i psn (.atomicWrite k off data)).rdm.landing = s.rdm.landing)

/-- NS_DELETE, as every command that changes state: a recorded identifier with the same opcode and parameters answers the
recorded response and does not act again, with others it is refused with ALREADY_EXISTS; a namespace of a domain that
the peer owns is refused with DOMAIN_NOT_OWNED and its owner's head; one whose root another running command holds is
refused with OP_IN_PROGRESS; during a gap of its domain nothing happens yet. (R373, R375, R376.) -/
def Obligations.MailboxRepetitionOwnershipAndConcurrency : Prop :=
  (∀ (s : State) (c n : Nat) (r : List Byte) (x : RidRec), s.asked c 0x0105 = some r → ridOf r ≠ 0 →
     s.recorded (ridOf r) = some x → x.op = 0x0105 → x.params = paramDigest r →
     exec (.nsDelete c n) s = .next (s.updChan c fun y => { y with ready := some x.resp })) ∧
  (∀ (s : State) (c n : Nat) (r : List Byte) (x : RidRec), s.asked c 0x0105 = some r → ridOf r ≠ 0 →
     s.recorded (ridOf r) = some x → (x.op ≠ 0x0105 ∨ x.params ≠ paramDigest r) →
     exec (.nsDelete c n) s = .next (s.reply c rsnExists [])) ∧
  (∀ (s : State) (c n : Nat) (r : List Byte) (x : Namespace), s.asked c 0x0105 = some r → ridOf r = 0 →
     s.ns? n = some x → s.inGap x.sd = false → 6 ≤ s.top.phase → s.owns x.sd = false →
     exec (.nsDelete c n) s = .next (s.reply c rsnNotOwned (leBytes 1 (1 - s.top.head)))) ∧
  (∀ (s : State) (c n : Nat) (r : List Byte) (x : Namespace), s.asked c 0x0105 = some r → ridOf r = 0 →
     s.ns? n = some x → s.inGap x.sd = false → 6 ≤ s.top.phase → s.owns x.sd = true → (1, x.root) ∈ s.mbx.running →
     exec (.nsDelete c n) s = .next (s.reply c rsnBusy [])) ∧
  (∀ (s : State) (c n : Nat) (r : List Byte) (x : Namespace), s.asked c 0x0105 = some r → ridOf r = 0 →
     s.ns? n = some x → s.inGap x.sd = true → exec (.nsDelete c n) s = .next s)

/-- Raising an event sets its bit with the new SEQ, one further, and keeps every other bit; an acknowledgement clears
exactly the events that are aged or whose latest SEQ is at or before it, so an event raised after the SEQ acknowledged
stays; a write that is not accepted changes no event. (R356.) -/
def Obligations.EventsStayUntilAcknowledged : Prop :=
  (∀ (k : BlkSt) (bit : Nat), (k.raise bit).seq = k.seq + 1 ∧ (∃ e ∈ (k.raise bit).events, e.bit = bit ∧
     e.seq = k.seq + 1 ∧ e.aged = false) ∧ ∀ e ∈ k.events, e.bit ≠ bit → ∃ f ∈ (k.raise bit).events, f.bit = e.bit ∧
     f.seq = e.seq) ∧
  (∀ (k : BlkSt) (a : Byte) (e : Event), e ∈ (k.ack a).events ↔ e ∈ k.events ∧ e.aged = false ∧ 128 ≤ (a - e.seq).toNat) ∧
  (∀ (k : BlkSt) (bit : Nat), ∃ e ∈ ((k.raise bit).ack k.seq).events, e.bit = bit ∧ e.seq = k.seq + 1)

/-- Whatever the hot index holds, a lookup that answers a locator answers that of a valid entry of the same dedup domain
and the same storage domain whose tag is the fingerprint's. (R89, R90, R97, R98.) -/
def Obligations.HitsStayInTheirDomains : Prop :=
  (∀ (p : DpState) (ddom : Nat) (d : SD) (fp : List Byte) (l : Nat), p.lookup ddom d fp = some l →
     ∃ e ∈ Table.getD p.hot (bucketOf fp p.nb) [], e.loc = l ∧ e.valid = true ∧ e.ddom = ddom ∧ e.sd = d ∧
     e.tag = fTag fp)

/-- For every canonical byte memory, as the mirror and the landing area are: after a run of bytes is written at an offset,
a byte inside the run reads as written and every other byte reads as before. (R286, R291, R311.) -/
def Obligations.LandingReadsBack : Prop :=
  (∀ (m : Memory) (off : Nat) (b : List Byte) (a : Nat), m.wf = true → (m.writeAll off b).read a = if off ≤ a ∧
     a < off + b.length then b.getD (a - off) 0 else m.read a) ∧
  (∀ (m : Memory) (off : Nat) (b : List Byte), m.wf = true → (m.writeAll off b).readN off b.length = b ∧
     (m.writeAll off b).wf = true)

/-- The model's counts add up to the cycles of the worked tables: a write is accepted at 22, its first beat leaves at 24,
its data-complete point is 61, its lookup 72, its lane result 319, its response E1+16; a read is at MAP at 28, its
guess at 33, its speculative read at 61, its response J1+874, and a wrong guess reissues at E1+40. (R85, R87.) -/
def Obligations.PathsOfOneGranule : Prop :=
  (Timing.accepted = 22 ∧ Timing.writeFirstBeat = 24 ∧ Timing.writeDelivered = 30 ∧ Timing.writeMirrorFirst = 40 ∧
     Timing.writeDataComplete = 61 ∧ Timing.writeFingerprint = 64 ∧ Timing.writeLookup = 72 ∧
     Timing.writeTrailer = 72 ∧ Timing.writeLaneResult = 319 ∧ (∀ e, Timing.writeProtectedResponse e = e + 16) ∧
     Timing.readAtMap = 28 ∧ Timing.readSectorFetch = 31 ∧ Timing.readGuess = 33 ∧ Timing.readSectorAtHbm = 39 ∧
     Timing.readSpeculative = 61 ∧ (∀ e, Timing.readReissued e = e + 40) ∧ (∀ j, Timing.readTag j = j + 537 ∧
     Timing.readFirstOutput j = j + 569 ∧ Timing.readLastOutput j = j + 824 ∧ Timing.readResponse j = j + 874))

/-- A CNP takes the rate to (16 - CUT)/16 of it, rounded down to a bit/s (the model's rounding, assumption 30), and never
below 1 Gb/s; an interval without one adds 2^STEP times 100 Mb/s up to the port rate; on a scrim queue pair only the
path named changes, and every other queue pair keeps its rate. (R279.) -/
def Obligations.RatesStayWithinTheirBounds : Prop :=
  (∀ (s : State) (i path : Nat) (q : Qp), s.qp? i = some q → ∃ t, exec (.cnp i path) s = .next t ∧
     t.qp? i = some (q.mapRate path fun r => max 1000000000 (r * (16 - bitsOf s.cfg.rdmCc.value.toNat 15 12) / 16)) ∧
     ∀ j, j ≠ i → t.qp? j = s.qp? j) ∧
  (∀ (s : State) (i path : Nat) (q : Qp), s.qp? i = some q → ∃ t, exec (.rateRaise i path) s = .next t ∧
     t.qp? i = some (q.mapRate path fun r => min (s.portRate (q.portOf path)) (r + 2 ^ bitsOf s.cfg.rdmCc.value.toNat 3
     0 * 100000000)) ∧ ∀ j, j ≠ i → t.qp? j = s.qp? j)
end

