-- ==== Sys2Proof/Laws/Tables.lean ====
section
/-!
SUPPORT. Read after write, for sparse tables, byte memories and the per-block, per-requester and per-domain records.
-/

namespace Sys2Proof.Machine

/-- A written key reads as written. -/
@[simp] theorem Table.find_put {α : Type} (t : Table α) (n : Nat) (v : α) : Table.find (Table.put t n v) n = some v := by
  induction t with
  | nil => simp [Table.put, Table.find]
  | cons p t ih =>
    obtain ⟨k, w⟩ := p
    unfold Table.put
    split
    · simp [Table.find]
    · split
      · simp [Table.find]
      · simp_all [Table.find]

/-- Writing one key leaves the others. -/
theorem Table.find_put_other {α : Type} (t : Table α) (n m : Nat) (v : α) (h : m ≠ n) :
    Table.find (Table.put t n v) m = Table.find t m := by
  induction t with
  | nil => grind [Table.put, Table.find]
  | cons p t ih =>
    obtain ⟨k, w⟩ := p
    grind [Table.put, Table.find]

/-- A written key reads as written, with a default. -/
@[simp] theorem Table.getD_put {α : Type} (t : Table α) (n : Nat) (v d : α) : Table.getD (Table.put t n v) n d = v := by
  simp [Table.getD]

/-- Writing one key leaves the others, with a default. -/
theorem Table.getD_put_other {α : Type} (t : Table α) (n m : Nat) (v d : α) (h : m ≠ n) :
    Table.getD (Table.put t n v) m d = Table.getD t m d := by
  simp [Table.getD, Table.find_put_other _ _ _ _ h]

/-- Removing one key leaves the others. -/
theorem Table.find_del_other {α : Type} (t : Table α) (n m : Nat) (h : m ≠ n) (w : t.wf = true) :
    Table.find (Table.del t n) m = Table.find t m := by
  induction t with
  | nil => rfl
  | cons p t ih =>
    obtain ⟨k, x⟩ := p
    cases t with
    | nil => grind [Table.del, Table.find, Table.wf]
    | cons q t => obtain ⟨j, y⟩ := q; grind [Table.del, Table.find, Table.wf]

/-- A written byte reads as written, and no other changes. -/
theorem Memory.read_write (m : Memory) (n a : Nat) (v : Byte) (h : m.wf = true) :
    Memory.read (Memory.write m n v) a = if a = n then v else Memory.read m a := by
  induction m with
  | nil => grind [Memory.write, Memory.read]
  | cons p t ih =>
    obtain ⟨k, x⟩ := p
    cases t with
    | nil => grind [Memory.write, Memory.read, Memory.wf]
    | cons q t => obtain ⟨j, y⟩ := q; grind [Memory.write, Memory.read, Memory.wf]

/-- A block's value reads as written. -/
@[simp] theorem PerBlk.get_set {α : Type} (t : PerBlk α) (b c : Blk) (v : α) :
    (t.set b v).get c = if c = b then v else t.get c := by
  cases b <;> cases c <;> rfl

/-- A requester's value reads as written. -/
@[simp] theorem PerReq.get_set {α : Type} (t : PerReq α) (r q : Requester) (v : α) :
    (t.set r v).get q = if q = r then v else t.get q := by
  cases r <;> cases q <;> rfl

/-- A domain's value reads as written. -/
@[simp] theorem PerSD.get_set {α : Type} (t : PerSD α) (d e : SD) (v : α) :
    (t.set d v).get e = if e = d then v else t.get e := by
  cases d <;> cases e <;> rfl

end Sys2Proof.Machine
end

