-- ==== Sys2Proof/Laws/State.lean ====
section
/-!
SUPPORT. Field by field, what the small updates of the state leave alone, so that no proof unfolds a record update; and
what raising an event does.
-/

set_option linter.all false

namespace Sys2Proof.Machine

/-! State.updBlk changes blk. -/

@[simp] theorem State.updBlk_cfg (s : State) (b : Blk) (f : BlkSt → BlkSt) : (State.updBlk s b f).cfg = s.cfg := rfl
@[simp] theorem State.updBlk_counters (s : State) (b : Blk) (f : BlkSt → BlkSt) : (State.updBlk s b f).counters = s.counters := rfl
@[simp] theorem State.updBlk_msix (s : State) (b : Blk) (f : BlkSt → BlkSt) : (State.updBlk s b f).msix = s.msix := rfl
@[simp] theorem State.updBlk_msixPending (s : State) (b : Blk) (f : BlkSt → BlkSt) : (State.updBlk s b f).msixPending = s.msixPending := rfl
@[simp] theorem State.updBlk_irqs (s : State) (b : Blk) (f : BlkSt → BlkSt) : (State.updBlk s b f).irqs = s.irqs := rfl
@[simp] theorem State.updBlk_top (s : State) (b : Blk) (f : BlkSt → BlkSt) : (State.updBlk s b f).top = s.top := rfl
@[simp] theorem State.updBlk_evr (s : State) (b : Blk) (f : BlkSt → BlkSt) : (State.updBlk s b f).evr = s.evr := rfl
@[simp] theorem State.updBlk_mbx (s : State) (b : Blk) (f : BlkSt → BlkSt) : (State.updBlk s b f).mbx = s.mbx := rfl
@[simp] theorem State.updBlk_ubl (s : State) (b : Blk) (f : BlkSt → BlkSt) : (State.updBlk s b f).ubl = s.ubl := rfl
@[simp] theorem State.updBlk_link (s : State) (b : Blk) (f : BlkSt → BlkSt) : (State.updBlk s b f).link = s.link := rfl
@[simp] theorem State.updBlk_fe (s : State) (b : Blk) (f : BlkSt → BlkSt) : (State.updBlk s b f).fe = s.fe := rfl
@[simp] theorem State.updBlk_dp (s : State) (b : Blk) (f : BlkSt → BlkSt) : (State.updBlk s b f).dp = s.dp := rfl
@[simp] theorem State.updBlk_map (s : State) (b : Blk) (f : BlkSt → BlkSt) : (State.updBlk s b f).map = s.map := rfl
@[simp] theorem State.updBlk_med (s : State) (b : Blk) (f : BlkSt → BlkSt) : (State.updBlk s b f).med = s.med := rfl
@[simp] theorem State.updBlk_str (s : State) (b : Blk) (f : BlkSt → BlkSt) : (State.updBlk s b f).str = s.str := rfl
@[simp] theorem State.updBlk_mlk (s : State) (b : Blk) (f : BlkSt → BlkSt) : (State.updBlk s b f).mlk = s.mlk := rfl
@[simp] theorem State.updBlk_cip (s : State) (b : Blk) (f : BlkSt → BlkSt) : (State.updBlk s b f).cip = s.cip := rfl
@[simp] theorem State.updBlk_pwr (s : State) (b : Blk) (f : BlkSt → BlkSt) : (State.updBlk s b f).pwr = s.pwr := rfl
@[simp] theorem State.updBlk_scr (s : State) (b : Blk) (f : BlkSt → BlkSt) : (State.updBlk s b f).scr = s.scr := rfl
@[simp] theorem State.updBlk_rdm (s : State) (b : Blk) (f : BlkSt → BlkSt) : (State.updBlk s b f).rdm = s.rdm := rfl
@[simp] theorem State.updBlk_dig (s : State) (b : Blk) (f : BlkSt → BlkSt) : (State.updBlk s b f).dig = s.dig := rfl
@[simp] theorem State.updBlk_upd (s : State) (b : Blk) (f : BlkSt → BlkSt) : (State.updBlk s b f).upd = s.upd := rfl
@[simp] theorem State.updBlk_vault (s : State) (b : Blk) (f : BlkSt → BlkSt) : (State.updBlk s b f).vault = s.vault := rfl
@[simp] theorem State.updBlk_draws (s : State) (b : Blk) (f : BlkSt → BlkSt) : (State.updBlk s b f).draws = s.draws := rfl
@[simp] theorem State.updBlk_pending (s : State) (b : Blk) (f : BlkSt → BlkSt) : (State.updBlk s b f).pending = s.pending := rfl

/-! State.setCounter changes counters. -/

@[simp] theorem State.setCounter_blk (s : State) (c : Ctr) (v : Word) : (State.setCounter s c v).blk = s.blk := rfl
@[simp] theorem State.setCounter_cfg (s : State) (c : Ctr) (v : Word) : (State.setCounter s c v).cfg = s.cfg := rfl
@[simp] theorem State.setCounter_msix (s : State) (c : Ctr) (v : Word) : (State.setCounter s c v).msix = s.msix := rfl
@[simp] theorem State.setCounter_msixPending (s : State) (c : Ctr) (v : Word) : (State.setCounter s c v).msixPending = s.msixPending := rfl
@[simp] theorem State.setCounter_irqs (s : State) (c : Ctr) (v : Word) : (State.setCounter s c v).irqs = s.irqs := rfl
@[simp] theorem State.setCounter_top (s : State) (c : Ctr) (v : Word) : (State.setCounter s c v).top = s.top := rfl
@[simp] theorem State.setCounter_evr (s : State) (c : Ctr) (v : Word) : (State.setCounter s c v).evr = s.evr := rfl
@[simp] theorem State.setCounter_mbx (s : State) (c : Ctr) (v : Word) : (State.setCounter s c v).mbx = s.mbx := rfl
@[simp] theorem State.setCounter_ubl (s : State) (c : Ctr) (v : Word) : (State.setCounter s c v).ubl = s.ubl := rfl
@[simp] theorem State.setCounter_link (s : State) (c : Ctr) (v : Word) : (State.setCounter s c v).link = s.link := rfl
@[simp] theorem State.setCounter_fe (s : State) (c : Ctr) (v : Word) : (State.setCounter s c v).fe = s.fe := rfl
@[simp] theorem State.setCounter_dp (s : State) (c : Ctr) (v : Word) : (State.setCounter s c v).dp = s.dp := rfl
@[simp] theorem State.setCounter_map (s : State) (c : Ctr) (v : Word) : (State.setCounter s c v).map = s.map := rfl
@[simp] theorem State.setCounter_med (s : State) (c : Ctr) (v : Word) : (State.setCounter s c v).med = s.med := rfl
@[simp] theorem State.setCounter_str (s : State) (c : Ctr) (v : Word) : (State.setCounter s c v).str = s.str := rfl
@[simp] theorem State.setCounter_mlk (s : State) (c : Ctr) (v : Word) : (State.setCounter s c v).mlk = s.mlk := rfl
@[simp] theorem State.setCounter_cip (s : State) (c : Ctr) (v : Word) : (State.setCounter s c v).cip = s.cip := rfl
@[simp] theorem State.setCounter_pwr (s : State) (c : Ctr) (v : Word) : (State.setCounter s c v).pwr = s.pwr := rfl
@[simp] theorem State.setCounter_scr (s : State) (c : Ctr) (v : Word) : (State.setCounter s c v).scr = s.scr := rfl
@[simp] theorem State.setCounter_rdm (s : State) (c : Ctr) (v : Word) : (State.setCounter s c v).rdm = s.rdm := rfl
@[simp] theorem State.setCounter_dig (s : State) (c : Ctr) (v : Word) : (State.setCounter s c v).dig = s.dig := rfl
@[simp] theorem State.setCounter_upd (s : State) (c : Ctr) (v : Word) : (State.setCounter s c v).upd = s.upd := rfl
@[simp] theorem State.setCounter_vault (s : State) (c : Ctr) (v : Word) : (State.setCounter s c v).vault = s.vault := rfl
@[simp] theorem State.setCounter_draws (s : State) (c : Ctr) (v : Word) : (State.setCounter s c v).draws = s.draws := rfl
@[simp] theorem State.setCounter_pending (s : State) (c : Ctr) (v : Word) : (State.setCounter s c v).pending = s.pending := rfl

/-! State.count changes counters. -/

@[simp] theorem State.count_blk (s : State) (c : Ctr) (n : Nat) : (State.count s c n).blk = s.blk := rfl
@[simp] theorem State.count_cfg (s : State) (c : Ctr) (n : Nat) : (State.count s c n).cfg = s.cfg := rfl
@[simp] theorem State.count_msix (s : State) (c : Ctr) (n : Nat) : (State.count s c n).msix = s.msix := rfl
@[simp] theorem State.count_msixPending (s : State) (c : Ctr) (n : Nat) : (State.count s c n).msixPending = s.msixPending := rfl
@[simp] theorem State.count_irqs (s : State) (c : Ctr) (n : Nat) : (State.count s c n).irqs = s.irqs := rfl
@[simp] theorem State.count_top (s : State) (c : Ctr) (n : Nat) : (State.count s c n).top = s.top := rfl
@[simp] theorem State.count_evr (s : State) (c : Ctr) (n : Nat) : (State.count s c n).evr = s.evr := rfl
@[simp] theorem State.count_mbx (s : State) (c : Ctr) (n : Nat) : (State.count s c n).mbx = s.mbx := rfl
@[simp] theorem State.count_ubl (s : State) (c : Ctr) (n : Nat) : (State.count s c n).ubl = s.ubl := rfl
@[simp] theorem State.count_link (s : State) (c : Ctr) (n : Nat) : (State.count s c n).link = s.link := rfl
@[simp] theorem State.count_fe (s : State) (c : Ctr) (n : Nat) : (State.count s c n).fe = s.fe := rfl
@[simp] theorem State.count_dp (s : State) (c : Ctr) (n : Nat) : (State.count s c n).dp = s.dp := rfl
@[simp] theorem State.count_map (s : State) (c : Ctr) (n : Nat) : (State.count s c n).map = s.map := rfl
@[simp] theorem State.count_med (s : State) (c : Ctr) (n : Nat) : (State.count s c n).med = s.med := rfl
@[simp] theorem State.count_str (s : State) (c : Ctr) (n : Nat) : (State.count s c n).str = s.str := rfl
@[simp] theorem State.count_mlk (s : State) (c : Ctr) (n : Nat) : (State.count s c n).mlk = s.mlk := rfl
@[simp] theorem State.count_cip (s : State) (c : Ctr) (n : Nat) : (State.count s c n).cip = s.cip := rfl
@[simp] theorem State.count_pwr (s : State) (c : Ctr) (n : Nat) : (State.count s c n).pwr = s.pwr := rfl
@[simp] theorem State.count_scr (s : State) (c : Ctr) (n : Nat) : (State.count s c n).scr = s.scr := rfl
@[simp] theorem State.count_rdm (s : State) (c : Ctr) (n : Nat) : (State.count s c n).rdm = s.rdm := rfl
@[simp] theorem State.count_dig (s : State) (c : Ctr) (n : Nat) : (State.count s c n).dig = s.dig := rfl
@[simp] theorem State.count_upd (s : State) (c : Ctr) (n : Nat) : (State.count s c n).upd = s.upd := rfl
@[simp] theorem State.count_vault (s : State) (c : Ctr) (n : Nat) : (State.count s c n).vault = s.vault := rfl
@[simp] theorem State.count_draws (s : State) (c : Ctr) (n : Nat) : (State.count s c n).draws = s.draws := rfl
@[simp] theorem State.count_pending (s : State) (c : Ctr) (n : Nat) : (State.count s c n).pending = s.pending := rfl

/-! State.countSat changes counters. -/

@[simp] theorem State.countSat_blk (s : State) (c : Ctr) : (State.countSat s c).blk = s.blk := by unfold State.countSat; split <;> rfl
@[simp] theorem State.countSat_cfg (s : State) (c : Ctr) : (State.countSat s c).cfg = s.cfg := by unfold State.countSat; split <;> rfl
@[simp] theorem State.countSat_msix (s : State) (c : Ctr) : (State.countSat s c).msix = s.msix := by unfold State.countSat; split <;> rfl
@[simp] theorem State.countSat_msixPending (s : State) (c : Ctr) : (State.countSat s c).msixPending = s.msixPending := by unfold State.countSat; split <;> rfl
@[simp] theorem State.countSat_irqs (s : State) (c : Ctr) : (State.countSat s c).irqs = s.irqs := by unfold State.countSat; split <;> rfl
@[simp] theorem State.countSat_top (s : State) (c : Ctr) : (State.countSat s c).top = s.top := by unfold State.countSat; split <;> rfl
@[simp] theorem State.countSat_evr (s : State) (c : Ctr) : (State.countSat s c).evr = s.evr := by unfold State.countSat; split <;> rfl
@[simp] theorem State.countSat_mbx (s : State) (c : Ctr) : (State.countSat s c).mbx = s.mbx := by unfold State.countSat; split <;> rfl
@[simp] theorem State.countSat_ubl (s : State) (c : Ctr) : (State.countSat s c).ubl = s.ubl := by unfold State.countSat; split <;> rfl
@[simp] theorem State.countSat_link (s : State) (c : Ctr) : (State.countSat s c).link = s.link := by unfold State.countSat; split <;> rfl
@[simp] theorem State.countSat_fe (s : State) (c : Ctr) : (State.countSat s c).fe = s.fe := by unfold State.countSat; split <;> rfl
@[simp] theorem State.countSat_dp (s : State) (c : Ctr) : (State.countSat s c).dp = s.dp := by unfold State.countSat; split <;> rfl
@[simp] theorem State.countSat_map (s : State) (c : Ctr) : (State.countSat s c).map = s.map := by unfold State.countSat; split <;> rfl
@[simp] theorem State.countSat_med (s : State) (c : Ctr) : (State.countSat s c).med = s.med := by unfold State.countSat; split <;> rfl
@[simp] theorem State.countSat_str (s : State) (c : Ctr) : (State.countSat s c).str = s.str := by unfold State.countSat; split <;> rfl
@[simp] theorem State.countSat_mlk (s : State) (c : Ctr) : (State.countSat s c).mlk = s.mlk := by unfold State.countSat; split <;> rfl
@[simp] theorem State.countSat_cip (s : State) (c : Ctr) : (State.countSat s c).cip = s.cip := by unfold State.countSat; split <;> rfl
@[simp] theorem State.countSat_pwr (s : State) (c : Ctr) : (State.countSat s c).pwr = s.pwr := by unfold State.countSat; split <;> rfl
@[simp] theorem State.countSat_scr (s : State) (c : Ctr) : (State.countSat s c).scr = s.scr := by unfold State.countSat; split <;> rfl
@[simp] theorem State.countSat_rdm (s : State) (c : Ctr) : (State.countSat s c).rdm = s.rdm := by unfold State.countSat; split <;> rfl
@[simp] theorem State.countSat_dig (s : State) (c : Ctr) : (State.countSat s c).dig = s.dig := by unfold State.countSat; split <;> rfl
@[simp] theorem State.countSat_upd (s : State) (c : Ctr) : (State.countSat s c).upd = s.upd := by unfold State.countSat; split <;> rfl
@[simp] theorem State.countSat_vault (s : State) (c : Ctr) : (State.countSat s c).vault = s.vault := by unfold State.countSat; split <;> rfl
@[simp] theorem State.countSat_draws (s : State) (c : Ctr) : (State.countSat s c).draws = s.draws := by unfold State.countSat; split <;> rfl
@[simp] theorem State.countSat_pending (s : State) (c : Ctr) : (State.countSat s c).pending = s.pending := by unfold State.countSat; split <;> rfl

/-! State.signal changes msixPending, irqs. -/

@[simp] theorem State.signal_blk (s : State) (v : Nat) : (State.signal s v).blk = s.blk := by unfold State.signal; split <;> rfl
@[simp] theorem State.signal_cfg (s : State) (v : Nat) : (State.signal s v).cfg = s.cfg := by unfold State.signal; split <;> rfl
@[simp] theorem State.signal_counters (s : State) (v : Nat) : (State.signal s v).counters = s.counters := by unfold State.signal; split <;> rfl
@[simp] theorem State.signal_msix (s : State) (v : Nat) : (State.signal s v).msix = s.msix := by unfold State.signal; split <;> rfl
@[simp] theorem State.signal_top (s : State) (v : Nat) : (State.signal s v).top = s.top := by unfold State.signal; split <;> rfl
@[simp] theorem State.signal_evr (s : State) (v : Nat) : (State.signal s v).evr = s.evr := by unfold State.signal; split <;> rfl
@[simp] theorem State.signal_mbx (s : State) (v : Nat) : (State.signal s v).mbx = s.mbx := by unfold State.signal; split <;> rfl
@[simp] theorem State.signal_ubl (s : State) (v : Nat) : (State.signal s v).ubl = s.ubl := by unfold State.signal; split <;> rfl
@[simp] theorem State.signal_link (s : State) (v : Nat) : (State.signal s v).link = s.link := by unfold State.signal; split <;> rfl
@[simp] theorem State.signal_fe (s : State) (v : Nat) : (State.signal s v).fe = s.fe := by unfold State.signal; split <;> rfl
@[simp] theorem State.signal_dp (s : State) (v : Nat) : (State.signal s v).dp = s.dp := by unfold State.signal; split <;> rfl
@[simp] theorem State.signal_map (s : State) (v : Nat) : (State.signal s v).map = s.map := by unfold State.signal; split <;> rfl
@[simp] theorem State.signal_med (s : State) (v : Nat) : (State.signal s v).med = s.med := by unfold State.signal; split <;> rfl
@[simp] theorem State.signal_str (s : State) (v : Nat) : (State.signal s v).str = s.str := by unfold State.signal; split <;> rfl
@[simp] theorem State.signal_mlk (s : State) (v : Nat) : (State.signal s v).mlk = s.mlk := by unfold State.signal; split <;> rfl
@[simp] theorem State.signal_cip (s : State) (v : Nat) : (State.signal s v).cip = s.cip := by unfold State.signal; split <;> rfl
@[simp] theorem State.signal_pwr (s : State) (v : Nat) : (State.signal s v).pwr = s.pwr := by unfold State.signal; split <;> rfl
@[simp] theorem State.signal_scr (s : State) (v : Nat) : (State.signal s v).scr = s.scr := by unfold State.signal; split <;> rfl
@[simp] theorem State.signal_rdm (s : State) (v : Nat) : (State.signal s v).rdm = s.rdm := by unfold State.signal; split <;> rfl
@[simp] theorem State.signal_dig (s : State) (v : Nat) : (State.signal s v).dig = s.dig := by unfold State.signal; split <;> rfl
@[simp] theorem State.signal_upd (s : State) (v : Nat) : (State.signal s v).upd = s.upd := by unfold State.signal; split <;> rfl
@[simp] theorem State.signal_vault (s : State) (v : Nat) : (State.signal s v).vault = s.vault := by unfold State.signal; split <;> rfl
@[simp] theorem State.signal_draws (s : State) (v : Nat) : (State.signal s v).draws = s.draws := by unfold State.signal; split <;> rfl
@[simp] theorem State.signal_pending (s : State) (v : Nat) : (State.signal s v).pending = s.pending := by unfold State.signal; split <;> rfl

/-! State.raise changes blk, msixPending, irqs. -/

@[simp] theorem State.raise_cfg (s : State) (b : Blk) (bit : Nat) : (State.raise s b bit).cfg = s.cfg := by unfold State.raise; split <;> simp
@[simp] theorem State.raise_counters (s : State) (b : Blk) (bit : Nat) : (State.raise s b bit).counters = s.counters := by unfold State.raise; split <;> simp
@[simp] theorem State.raise_msix (s : State) (b : Blk) (bit : Nat) : (State.raise s b bit).msix = s.msix := by unfold State.raise; split <;> simp
@[simp] theorem State.raise_top (s : State) (b : Blk) (bit : Nat) : (State.raise s b bit).top = s.top := by unfold State.raise; split <;> simp
@[simp] theorem State.raise_evr (s : State) (b : Blk) (bit : Nat) : (State.raise s b bit).evr = s.evr := by unfold State.raise; split <;> simp
@[simp] theorem State.raise_mbx (s : State) (b : Blk) (bit : Nat) : (State.raise s b bit).mbx = s.mbx := by unfold State.raise; split <;> simp
@[simp] theorem State.raise_ubl (s : State) (b : Blk) (bit : Nat) : (State.raise s b bit).ubl = s.ubl := by unfold State.raise; split <;> simp
@[simp] theorem State.raise_link (s : State) (b : Blk) (bit : Nat) : (State.raise s b bit).link = s.link := by unfold State.raise; split <;> simp
@[simp] theorem State.raise_fe (s : State) (b : Blk) (bit : Nat) : (State.raise s b bit).fe = s.fe := by unfold State.raise; split <;> simp
@[simp] theorem State.raise_dp (s : State) (b : Blk) (bit : Nat) : (State.raise s b bit).dp = s.dp := by unfold State.raise; split <;> simp
@[simp] theorem State.raise_map (s : State) (b : Blk) (bit : Nat) : (State.raise s b bit).map = s.map := by unfold State.raise; split <;> simp
@[simp] theorem State.raise_med (s : State) (b : Blk) (bit : Nat) : (State.raise s b bit).med = s.med := by unfold State.raise; split <;> simp
@[simp] theorem State.raise_str (s : State) (b : Blk) (bit : Nat) : (State.raise s b bit).str = s.str := by unfold State.raise; split <;> simp
@[simp] theorem State.raise_mlk (s : State) (b : Blk) (bit : Nat) : (State.raise s b bit).mlk = s.mlk := by unfold State.raise; split <;> simp
@[simp] theorem State.raise_cip (s : State) (b : Blk) (bit : Nat) : (State.raise s b bit).cip = s.cip := by unfold State.raise; split <;> simp
@[simp] theorem State.raise_pwr (s : State) (b : Blk) (bit : Nat) : (State.raise s b bit).pwr = s.pwr := by unfold State.raise; split <;> simp
@[simp] theorem State.raise_scr (s : State) (b : Blk) (bit : Nat) : (State.raise s b bit).scr = s.scr := by unfold State.raise; split <;> simp
@[simp] theorem State.raise_rdm (s : State) (b : Blk) (bit : Nat) : (State.raise s b bit).rdm = s.rdm := by unfold State.raise; split <;> simp
@[simp] theorem State.raise_dig (s : State) (b : Blk) (bit : Nat) : (State.raise s b bit).dig = s.dig := by unfold State.raise; split <;> simp
@[simp] theorem State.raise_upd (s : State) (b : Blk) (bit : Nat) : (State.raise s b bit).upd = s.upd := by unfold State.raise; split <;> simp
@[simp] theorem State.raise_vault (s : State) (b : Blk) (bit : Nat) : (State.raise s b bit).vault = s.vault := by unfold State.raise; split <;> simp
@[simp] theorem State.raise_draws (s : State) (b : Blk) (bit : Nat) : (State.raise s b bit).draws = s.draws := by unfold State.raise; split <;> simp
@[simp] theorem State.raise_pending (s : State) (b : Blk) (bit : Nat) : (State.raise s b bit).pending = s.pending := by unfold State.raise; split <;> simp

/-! State.violation changes top. -/

@[simp] theorem State.violation_blk (s : State) (source : Nat) (write : Bool) (offset : Nat) : (State.violation s source write offset).blk = s.blk := rfl
@[simp] theorem State.violation_cfg (s : State) (source : Nat) (write : Bool) (offset : Nat) : (State.violation s source write offset).cfg = s.cfg := rfl
@[simp] theorem State.violation_counters (s : State) (source : Nat) (write : Bool) (offset : Nat) : (State.violation s source write offset).counters = s.counters := rfl
@[simp] theorem State.violation_msix (s : State) (source : Nat) (write : Bool) (offset : Nat) : (State.violation s source write offset).msix = s.msix := rfl
@[simp] theorem State.violation_msixPending (s : State) (source : Nat) (write : Bool) (offset : Nat) : (State.violation s source write offset).msixPending = s.msixPending := rfl
@[simp] theorem State.violation_irqs (s : State) (source : Nat) (write : Bool) (offset : Nat) : (State.violation s source write offset).irqs = s.irqs := rfl
@[simp] theorem State.violation_evr (s : State) (source : Nat) (write : Bool) (offset : Nat) : (State.violation s source write offset).evr = s.evr := rfl
@[simp] theorem State.violation_mbx (s : State) (source : Nat) (write : Bool) (offset : Nat) : (State.violation s source write offset).mbx = s.mbx := rfl
@[simp] theorem State.violation_ubl (s : State) (source : Nat) (write : Bool) (offset : Nat) : (State.violation s source write offset).ubl = s.ubl := rfl
@[simp] theorem State.violation_link (s : State) (source : Nat) (write : Bool) (offset : Nat) : (State.violation s source write offset).link = s.link := rfl
@[simp] theorem State.violation_fe (s : State) (source : Nat) (write : Bool) (offset : Nat) : (State.violation s source write offset).fe = s.fe := rfl
@[simp] theorem State.violation_dp (s : State) (source : Nat) (write : Bool) (offset : Nat) : (State.violation s source write offset).dp = s.dp := rfl
@[simp] theorem State.violation_map (s : State) (source : Nat) (write : Bool) (offset : Nat) : (State.violation s source write offset).map = s.map := rfl
@[simp] theorem State.violation_med (s : State) (source : Nat) (write : Bool) (offset : Nat) : (State.violation s source write offset).med = s.med := rfl
@[simp] theorem State.violation_str (s : State) (source : Nat) (write : Bool) (offset : Nat) : (State.violation s source write offset).str = s.str := rfl
@[simp] theorem State.violation_mlk (s : State) (source : Nat) (write : Bool) (offset : Nat) : (State.violation s source write offset).mlk = s.mlk := rfl
@[simp] theorem State.violation_cip (s : State) (source : Nat) (write : Bool) (offset : Nat) : (State.violation s source write offset).cip = s.cip := rfl
@[simp] theorem State.violation_pwr (s : State) (source : Nat) (write : Bool) (offset : Nat) : (State.violation s source write offset).pwr = s.pwr := rfl
@[simp] theorem State.violation_scr (s : State) (source : Nat) (write : Bool) (offset : Nat) : (State.violation s source write offset).scr = s.scr := rfl
@[simp] theorem State.violation_rdm (s : State) (source : Nat) (write : Bool) (offset : Nat) : (State.violation s source write offset).rdm = s.rdm := rfl
@[simp] theorem State.violation_dig (s : State) (source : Nat) (write : Bool) (offset : Nat) : (State.violation s source write offset).dig = s.dig := rfl
@[simp] theorem State.violation_upd (s : State) (source : Nat) (write : Bool) (offset : Nat) : (State.violation s source write offset).upd = s.upd := rfl
@[simp] theorem State.violation_vault (s : State) (source : Nat) (write : Bool) (offset : Nat) : (State.violation s source write offset).vault = s.vault := rfl
@[simp] theorem State.violation_draws (s : State) (source : Nat) (write : Bool) (offset : Nat) : (State.violation s source write offset).draws = s.draws := rfl
@[simp] theorem State.violation_pending (s : State) (source : Nat) (write : Bool) (offset : Nat) : (State.violation s source write offset).pending = s.pending := rfl

/-! State.snag changes blk, msixPending, irqs, counters, evr, draws. -/

@[simp] theorem State.snag_cfg (s : State) (source : Nat) (code : Nat) (sd : Option SD) (port : Nat) (arg : List Byte) : (State.snag s source code sd port arg).cfg = s.cfg := by unfold State.snag; split <;> simp
@[simp] theorem State.snag_msix (s : State) (source : Nat) (code : Nat) (sd : Option SD) (port : Nat) (arg : List Byte) : (State.snag s source code sd port arg).msix = s.msix := by unfold State.snag; split <;> simp
@[simp] theorem State.snag_top (s : State) (source : Nat) (code : Nat) (sd : Option SD) (port : Nat) (arg : List Byte) : (State.snag s source code sd port arg).top = s.top := by unfold State.snag; split <;> simp
@[simp] theorem State.snag_mbx (s : State) (source : Nat) (code : Nat) (sd : Option SD) (port : Nat) (arg : List Byte) : (State.snag s source code sd port arg).mbx = s.mbx := by unfold State.snag; split <;> simp
@[simp] theorem State.snag_ubl (s : State) (source : Nat) (code : Nat) (sd : Option SD) (port : Nat) (arg : List Byte) : (State.snag s source code sd port arg).ubl = s.ubl := by unfold State.snag; split <;> simp
@[simp] theorem State.snag_link (s : State) (source : Nat) (code : Nat) (sd : Option SD) (port : Nat) (arg : List Byte) : (State.snag s source code sd port arg).link = s.link := by unfold State.snag; split <;> simp
@[simp] theorem State.snag_fe (s : State) (source : Nat) (code : Nat) (sd : Option SD) (port : Nat) (arg : List Byte) : (State.snag s source code sd port arg).fe = s.fe := by unfold State.snag; split <;> simp
@[simp] theorem State.snag_dp (s : State) (source : Nat) (code : Nat) (sd : Option SD) (port : Nat) (arg : List Byte) : (State.snag s source code sd port arg).dp = s.dp := by unfold State.snag; split <;> simp
@[simp] theorem State.snag_map (s : State) (source : Nat) (code : Nat) (sd : Option SD) (port : Nat) (arg : List Byte) : (State.snag s source code sd port arg).map = s.map := by unfold State.snag; split <;> simp
@[simp] theorem State.snag_med (s : State) (source : Nat) (code : Nat) (sd : Option SD) (port : Nat) (arg : List Byte) : (State.snag s source code sd port arg).med = s.med := by unfold State.snag; split <;> simp
@[simp] theorem State.snag_str (s : State) (source : Nat) (code : Nat) (sd : Option SD) (port : Nat) (arg : List Byte) : (State.snag s source code sd port arg).str = s.str := by unfold State.snag; split <;> simp
@[simp] theorem State.snag_mlk (s : State) (source : Nat) (code : Nat) (sd : Option SD) (port : Nat) (arg : List Byte) : (State.snag s source code sd port arg).mlk = s.mlk := by unfold State.snag; split <;> simp
@[simp] theorem State.snag_cip (s : State) (source : Nat) (code : Nat) (sd : Option SD) (port : Nat) (arg : List Byte) : (State.snag s source code sd port arg).cip = s.cip := by unfold State.snag; split <;> simp
@[simp] theorem State.snag_pwr (s : State) (source : Nat) (code : Nat) (sd : Option SD) (port : Nat) (arg : List Byte) : (State.snag s source code sd port arg).pwr = s.pwr := by unfold State.snag; split <;> simp
@[simp] theorem State.snag_scr (s : State) (source : Nat) (code : Nat) (sd : Option SD) (port : Nat) (arg : List Byte) : (State.snag s source code sd port arg).scr = s.scr := by unfold State.snag; split <;> simp
@[simp] theorem State.snag_rdm (s : State) (source : Nat) (code : Nat) (sd : Option SD) (port : Nat) (arg : List Byte) : (State.snag s source code sd port arg).rdm = s.rdm := by unfold State.snag; split <;> simp
@[simp] theorem State.snag_dig (s : State) (source : Nat) (code : Nat) (sd : Option SD) (port : Nat) (arg : List Byte) : (State.snag s source code sd port arg).dig = s.dig := by unfold State.snag; split <;> simp
@[simp] theorem State.snag_upd (s : State) (source : Nat) (code : Nat) (sd : Option SD) (port : Nat) (arg : List Byte) : (State.snag s source code sd port arg).upd = s.upd := by unfold State.snag; split <;> simp
@[simp] theorem State.snag_vault (s : State) (source : Nat) (code : Nat) (sd : Option SD) (port : Nat) (arg : List Byte) : (State.snag s source code sd port arg).vault = s.vault := by unfold State.snag; split <;> simp
@[simp] theorem State.snag_pending (s : State) (source : Nat) (code : Nat) (sd : Option SD) (port : Nat) (arg : List Byte) : (State.snag s source code sd port arg).pending = s.pending := by unfold State.snag; split <;> simp

/-! State.notify changes blk, msixPending, irqs, counters, evr, draws, mbx. -/

@[simp] theorem State.notify_cfg (s : State) (source : Nat) (code : Nat) (raised : Bool) (sd : Option SD) (port : Nat) (arg : List Byte) : (State.notify s source code raised sd port arg).cfg = s.cfg := by unfold State.notify; repeat' (first | split | simp)
@[simp] theorem State.notify_msix (s : State) (source : Nat) (code : Nat) (raised : Bool) (sd : Option SD) (port : Nat) (arg : List Byte) : (State.notify s source code raised sd port arg).msix = s.msix := by unfold State.notify; repeat' (first | split | simp)
@[simp] theorem State.notify_top (s : State) (source : Nat) (code : Nat) (raised : Bool) (sd : Option SD) (port : Nat) (arg : List Byte) : (State.notify s source code raised sd port arg).top = s.top := by unfold State.notify; repeat' (first | split | simp)
@[simp] theorem State.notify_ubl (s : State) (source : Nat) (code : Nat) (raised : Bool) (sd : Option SD) (port : Nat) (arg : List Byte) : (State.notify s source code raised sd port arg).ubl = s.ubl := by unfold State.notify; repeat' (first | split | simp)
@[simp] theorem State.notify_link (s : State) (source : Nat) (code : Nat) (raised : Bool) (sd : Option SD) (port : Nat) (arg : List Byte) : (State.notify s source code raised sd port arg).link = s.link := by unfold State.notify; repeat' (first | split | simp)
@[simp] theorem State.notify_fe (s : State) (source : Nat) (code : Nat) (raised : Bool) (sd : Option SD) (port : Nat) (arg : List Byte) : (State.notify s source code raised sd port arg).fe = s.fe := by unfold State.notify; repeat' (first | split | simp)
@[simp] theorem State.notify_dp (s : State) (source : Nat) (code : Nat) (raised : Bool) (sd : Option SD) (port : Nat) (arg : List Byte) : (State.notify s source code raised sd port arg).dp = s.dp := by unfold State.notify; repeat' (first | split | simp)
@[simp] theorem State.notify_map (s : State) (source : Nat) (code : Nat) (raised : Bool) (sd : Option SD) (port : Nat) (arg : List Byte) : (State.notify s source code raised sd port arg).map = s.map := by unfold State.notify; repeat' (first | split | simp)
@[simp] theorem State.notify_med (s : State) (source : Nat) (code : Nat) (raised : Bool) (sd : Option SD) (port : Nat) (arg : List Byte) : (State.notify s source code raised sd port arg).med = s.med := by unfold State.notify; repeat' (first | split | simp)
@[simp] theorem State.notify_str (s : State) (source : Nat) (code : Nat) (raised : Bool) (sd : Option SD) (port : Nat) (arg : List Byte) : (State.notify s source code raised sd port arg).str = s.str := by unfold State.notify; repeat' (first | split | simp)
@[simp] theorem State.notify_mlk (s : State) (source : Nat) (code : Nat) (raised : Bool) (sd : Option SD) (port : Nat) (arg : List Byte) : (State.notify s source code raised sd port arg).mlk = s.mlk := by unfold State.notify; repeat' (first | split | simp)
@[simp] theorem State.notify_cip (s : State) (source : Nat) (code : Nat) (raised : Bool) (sd : Option SD) (port : Nat) (arg : List Byte) : (State.notify s source code raised sd port arg).cip = s.cip := by unfold State.notify; repeat' (first | split | simp)
@[simp] theorem State.notify_pwr (s : State) (source : Nat) (code : Nat) (raised : Bool) (sd : Option SD) (port : Nat) (arg : List Byte) : (State.notify s source code raised sd port arg).pwr = s.pwr := by unfold State.notify; repeat' (first | split | simp)
@[simp] theorem State.notify_scr (s : State) (source : Nat) (code : Nat) (raised : Bool) (sd : Option SD) (port : Nat) (arg : List Byte) : (State.notify s source code raised sd port arg).scr = s.scr := by unfold State.notify; repeat' (first | split | simp)
@[simp] theorem State.notify_rdm (s : State) (source : Nat) (code : Nat) (raised : Bool) (sd : Option SD) (port : Nat) (arg : List Byte) : (State.notify s source code raised sd port arg).rdm = s.rdm := by unfold State.notify; repeat' (first | split | simp)
@[simp] theorem State.notify_dig (s : State) (source : Nat) (code : Nat) (raised : Bool) (sd : Option SD) (port : Nat) (arg : List Byte) : (State.notify s source code raised sd port arg).dig = s.dig := by unfold State.notify; repeat' (first | split | simp)
@[simp] theorem State.notify_upd (s : State) (source : Nat) (code : Nat) (raised : Bool) (sd : Option SD) (port : Nat) (arg : List Byte) : (State.notify s source code raised sd port arg).upd = s.upd := by unfold State.notify; repeat' (first | split | simp)
@[simp] theorem State.notify_vault (s : State) (source : Nat) (code : Nat) (raised : Bool) (sd : Option SD) (port : Nat) (arg : List Byte) : (State.notify s source code raised sd port arg).vault = s.vault := by unfold State.notify; repeat' (first | split | simp)
@[simp] theorem State.notify_pending (s : State) (source : Nat) (code : Nat) (raised : Bool) (sd : Option SD) (port : Nat) (arg : List Byte) : (State.notify s source code raised sd port arg).pending = s.pending := by unfold State.notify; repeat' (first | split | simp)

/-! State.setMeta changes map. -/

@[simp] theorem State.setMeta_blk (s : State) (d : SD) (m : Meta) : (State.setMeta s d m).blk = s.blk := rfl
@[simp] theorem State.setMeta_cfg (s : State) (d : SD) (m : Meta) : (State.setMeta s d m).cfg = s.cfg := rfl
@[simp] theorem State.setMeta_counters (s : State) (d : SD) (m : Meta) : (State.setMeta s d m).counters = s.counters := rfl
@[simp] theorem State.setMeta_msix (s : State) (d : SD) (m : Meta) : (State.setMeta s d m).msix = s.msix := rfl
@[simp] theorem State.setMeta_msixPending (s : State) (d : SD) (m : Meta) : (State.setMeta s d m).msixPending = s.msixPending := rfl
@[simp] theorem State.setMeta_irqs (s : State) (d : SD) (m : Meta) : (State.setMeta s d m).irqs = s.irqs := rfl
@[simp] theorem State.setMeta_top (s : State) (d : SD) (m : Meta) : (State.setMeta s d m).top = s.top := rfl
@[simp] theorem State.setMeta_evr (s : State) (d : SD) (m : Meta) : (State.setMeta s d m).evr = s.evr := rfl
@[simp] theorem State.setMeta_mbx (s : State) (d : SD) (m : Meta) : (State.setMeta s d m).mbx = s.mbx := rfl
@[simp] theorem State.setMeta_ubl (s : State) (d : SD) (m : Meta) : (State.setMeta s d m).ubl = s.ubl := rfl
@[simp] theorem State.setMeta_link (s : State) (d : SD) (m : Meta) : (State.setMeta s d m).link = s.link := rfl
@[simp] theorem State.setMeta_fe (s : State) (d : SD) (m : Meta) : (State.setMeta s d m).fe = s.fe := rfl
@[simp] theorem State.setMeta_dp (s : State) (d : SD) (m : Meta) : (State.setMeta s d m).dp = s.dp := rfl
@[simp] theorem State.setMeta_med (s : State) (d : SD) (m : Meta) : (State.setMeta s d m).med = s.med := rfl
@[simp] theorem State.setMeta_str (s : State) (d : SD) (m : Meta) : (State.setMeta s d m).str = s.str := rfl
@[simp] theorem State.setMeta_mlk (s : State) (d : SD) (m : Meta) : (State.setMeta s d m).mlk = s.mlk := rfl
@[simp] theorem State.setMeta_cip (s : State) (d : SD) (m : Meta) : (State.setMeta s d m).cip = s.cip := rfl
@[simp] theorem State.setMeta_pwr (s : State) (d : SD) (m : Meta) : (State.setMeta s d m).pwr = s.pwr := rfl
@[simp] theorem State.setMeta_scr (s : State) (d : SD) (m : Meta) : (State.setMeta s d m).scr = s.scr := rfl
@[simp] theorem State.setMeta_rdm (s : State) (d : SD) (m : Meta) : (State.setMeta s d m).rdm = s.rdm := rfl
@[simp] theorem State.setMeta_dig (s : State) (d : SD) (m : Meta) : (State.setMeta s d m).dig = s.dig := rfl
@[simp] theorem State.setMeta_upd (s : State) (d : SD) (m : Meta) : (State.setMeta s d m).upd = s.upd := rfl
@[simp] theorem State.setMeta_vault (s : State) (d : SD) (m : Meta) : (State.setMeta s d m).vault = s.vault := rfl
@[simp] theorem State.setMeta_draws (s : State) (d : SD) (m : Meta) : (State.setMeta s d m).draws = s.draws := rfl
@[simp] theorem State.setMeta_pending (s : State) (d : SD) (m : Meta) : (State.setMeta s d m).pending = s.pending := rfl

/-! State.delta changes map, med, dp. -/

@[simp] theorem State.delta_blk (s : State) (d : SD) (x : Delta) : (State.delta s d x).blk = s.blk := rfl
@[simp] theorem State.delta_cfg (s : State) (d : SD) (x : Delta) : (State.delta s d x).cfg = s.cfg := rfl
@[simp] theorem State.delta_counters (s : State) (d : SD) (x : Delta) : (State.delta s d x).counters = s.counters := rfl
@[simp] theorem State.delta_msix (s : State) (d : SD) (x : Delta) : (State.delta s d x).msix = s.msix := rfl
@[simp] theorem State.delta_msixPending (s : State) (d : SD) (x : Delta) : (State.delta s d x).msixPending = s.msixPending := rfl
@[simp] theorem State.delta_irqs (s : State) (d : SD) (x : Delta) : (State.delta s d x).irqs = s.irqs := rfl
@[simp] theorem State.delta_top (s : State) (d : SD) (x : Delta) : (State.delta s d x).top = s.top := rfl
@[simp] theorem State.delta_evr (s : State) (d : SD) (x : Delta) : (State.delta s d x).evr = s.evr := rfl
@[simp] theorem State.delta_mbx (s : State) (d : SD) (x : Delta) : (State.delta s d x).mbx = s.mbx := rfl
@[simp] theorem State.delta_ubl (s : State) (d : SD) (x : Delta) : (State.delta s d x).ubl = s.ubl := rfl
@[simp] theorem State.delta_link (s : State) (d : SD) (x : Delta) : (State.delta s d x).link = s.link := rfl
@[simp] theorem State.delta_fe (s : State) (d : SD) (x : Delta) : (State.delta s d x).fe = s.fe := rfl
@[simp] theorem State.delta_str (s : State) (d : SD) (x : Delta) : (State.delta s d x).str = s.str := rfl
@[simp] theorem State.delta_mlk (s : State) (d : SD) (x : Delta) : (State.delta s d x).mlk = s.mlk := rfl
@[simp] theorem State.delta_cip (s : State) (d : SD) (x : Delta) : (State.delta s d x).cip = s.cip := rfl
@[simp] theorem State.delta_pwr (s : State) (d : SD) (x : Delta) : (State.delta s d x).pwr = s.pwr := rfl
@[simp] theorem State.delta_scr (s : State) (d : SD) (x : Delta) : (State.delta s d x).scr = s.scr := rfl
@[simp] theorem State.delta_rdm (s : State) (d : SD) (x : Delta) : (State.delta s d x).rdm = s.rdm := rfl
@[simp] theorem State.delta_dig (s : State) (d : SD) (x : Delta) : (State.delta s d x).dig = s.dig := rfl
@[simp] theorem State.delta_upd (s : State) (d : SD) (x : Delta) : (State.delta s d x).upd = s.upd := rfl
@[simp] theorem State.delta_vault (s : State) (d : SD) (x : Delta) : (State.delta s d x).vault = s.vault := rfl
@[simp] theorem State.delta_draws (s : State) (d : SD) (x : Delta) : (State.delta s d x).draws = s.draws := rfl
@[simp] theorem State.delta_pending (s : State) (d : SD) (x : Delta) : (State.delta s d x).pending = s.pending := rfl

/-! State.sendRaw changes ubl, link. -/

@[simp] theorem State.sendRaw_blk (s : State) (f : TxFrame) : (State.sendRaw s f).blk = s.blk := rfl
@[simp] theorem State.sendRaw_cfg (s : State) (f : TxFrame) : (State.sendRaw s f).cfg = s.cfg := rfl
@[simp] theorem State.sendRaw_counters (s : State) (f : TxFrame) : (State.sendRaw s f).counters = s.counters := rfl
@[simp] theorem State.sendRaw_msix (s : State) (f : TxFrame) : (State.sendRaw s f).msix = s.msix := rfl
@[simp] theorem State.sendRaw_msixPending (s : State) (f : TxFrame) : (State.sendRaw s f).msixPending = s.msixPending := rfl
@[simp] theorem State.sendRaw_irqs (s : State) (f : TxFrame) : (State.sendRaw s f).irqs = s.irqs := rfl
@[simp] theorem State.sendRaw_top (s : State) (f : TxFrame) : (State.sendRaw s f).top = s.top := rfl
@[simp] theorem State.sendRaw_evr (s : State) (f : TxFrame) : (State.sendRaw s f).evr = s.evr := rfl
@[simp] theorem State.sendRaw_mbx (s : State) (f : TxFrame) : (State.sendRaw s f).mbx = s.mbx := rfl
@[simp] theorem State.sendRaw_fe (s : State) (f : TxFrame) : (State.sendRaw s f).fe = s.fe := rfl
@[simp] theorem State.sendRaw_dp (s : State) (f : TxFrame) : (State.sendRaw s f).dp = s.dp := rfl
@[simp] theorem State.sendRaw_map (s : State) (f : TxFrame) : (State.sendRaw s f).map = s.map := rfl
@[simp] theorem State.sendRaw_med (s : State) (f : TxFrame) : (State.sendRaw s f).med = s.med := rfl
@[simp] theorem State.sendRaw_str (s : State) (f : TxFrame) : (State.sendRaw s f).str = s.str := rfl
@[simp] theorem State.sendRaw_mlk (s : State) (f : TxFrame) : (State.sendRaw s f).mlk = s.mlk := rfl
@[simp] theorem State.sendRaw_cip (s : State) (f : TxFrame) : (State.sendRaw s f).cip = s.cip := rfl
@[simp] theorem State.sendRaw_pwr (s : State) (f : TxFrame) : (State.sendRaw s f).pwr = s.pwr := rfl
@[simp] theorem State.sendRaw_scr (s : State) (f : TxFrame) : (State.sendRaw s f).scr = s.scr := rfl
@[simp] theorem State.sendRaw_rdm (s : State) (f : TxFrame) : (State.sendRaw s f).rdm = s.rdm := rfl
@[simp] theorem State.sendRaw_dig (s : State) (f : TxFrame) : (State.sendRaw s f).dig = s.dig := rfl
@[simp] theorem State.sendRaw_upd (s : State) (f : TxFrame) : (State.sendRaw s f).upd = s.upd := rfl
@[simp] theorem State.sendRaw_vault (s : State) (f : TxFrame) : (State.sendRaw s f).vault = s.vault := rfl
@[simp] theorem State.sendRaw_draws (s : State) (f : TxFrame) : (State.sendRaw s f).draws = s.draws := rfl
@[simp] theorem State.sendRaw_pending (s : State) (f : TxFrame) : (State.sendRaw s f).pending = s.pending := rfl

/-! State.send changes ubl, link. -/

@[simp] theorem State.send_blk (s : State) (f : TxFrame) : (State.send s f).blk = s.blk := by unfold State.send; split <;> simp
@[simp] theorem State.send_cfg (s : State) (f : TxFrame) : (State.send s f).cfg = s.cfg := by unfold State.send; split <;> simp
@[simp] theorem State.send_counters (s : State) (f : TxFrame) : (State.send s f).counters = s.counters := by unfold State.send; split <;> simp
@[simp] theorem State.send_msix (s : State) (f : TxFrame) : (State.send s f).msix = s.msix := by unfold State.send; split <;> simp
@[simp] theorem State.send_msixPending (s : State) (f : TxFrame) : (State.send s f).msixPending = s.msixPending := by unfold State.send; split <;> simp
@[simp] theorem State.send_irqs (s : State) (f : TxFrame) : (State.send s f).irqs = s.irqs := by unfold State.send; split <;> simp
@[simp] theorem State.send_top (s : State) (f : TxFrame) : (State.send s f).top = s.top := by unfold State.send; split <;> simp
@[simp] theorem State.send_evr (s : State) (f : TxFrame) : (State.send s f).evr = s.evr := by unfold State.send; split <;> simp
@[simp] theorem State.send_mbx (s : State) (f : TxFrame) : (State.send s f).mbx = s.mbx := by unfold State.send; split <;> simp
@[simp] theorem State.send_fe (s : State) (f : TxFrame) : (State.send s f).fe = s.fe := by unfold State.send; split <;> simp
@[simp] theorem State.send_dp (s : State) (f : TxFrame) : (State.send s f).dp = s.dp := by unfold State.send; split <;> simp
@[simp] theorem State.send_map (s : State) (f : TxFrame) : (State.send s f).map = s.map := by unfold State.send; split <;> simp
@[simp] theorem State.send_med (s : State) (f : TxFrame) : (State.send s f).med = s.med := by unfold State.send; split <;> simp
@[simp] theorem State.send_str (s : State) (f : TxFrame) : (State.send s f).str = s.str := by unfold State.send; split <;> simp
@[simp] theorem State.send_mlk (s : State) (f : TxFrame) : (State.send s f).mlk = s.mlk := by unfold State.send; split <;> simp
@[simp] theorem State.send_cip (s : State) (f : TxFrame) : (State.send s f).cip = s.cip := by unfold State.send; split <;> simp
@[simp] theorem State.send_pwr (s : State) (f : TxFrame) : (State.send s f).pwr = s.pwr := by unfold State.send; split <;> simp
@[simp] theorem State.send_scr (s : State) (f : TxFrame) : (State.send s f).scr = s.scr := by unfold State.send; split <;> simp
@[simp] theorem State.send_rdm (s : State) (f : TxFrame) : (State.send s f).rdm = s.rdm := by unfold State.send; split <;> simp
@[simp] theorem State.send_dig (s : State) (f : TxFrame) : (State.send s f).dig = s.dig := by unfold State.send; split <;> simp
@[simp] theorem State.send_upd (s : State) (f : TxFrame) : (State.send s f).upd = s.upd := by unfold State.send; split <;> simp
@[simp] theorem State.send_vault (s : State) (f : TxFrame) : (State.send s f).vault = s.vault := by unfold State.send; split <;> simp
@[simp] theorem State.send_draws (s : State) (f : TxFrame) : (State.send s f).draws = s.draws := by unfold State.send; split <;> simp
@[simp] theorem State.send_pending (s : State) (f : TxFrame) : (State.send s f).pending = s.pending := by unfold State.send; split <;> simp

/-! State.wakeEvent changes pwr. -/

@[simp] theorem State.wakeEvent_blk (s : State) (src : Nat) : (State.wakeEvent s src).blk = s.blk := by unfold State.wakeEvent; dsimp only; split <;> (try split) <;> rfl
@[simp] theorem State.wakeEvent_cfg (s : State) (src : Nat) : (State.wakeEvent s src).cfg = s.cfg := by unfold State.wakeEvent; dsimp only; split <;> (try split) <;> rfl
@[simp] theorem State.wakeEvent_counters (s : State) (src : Nat) : (State.wakeEvent s src).counters = s.counters := by unfold State.wakeEvent; dsimp only; split <;> (try split) <;> rfl
@[simp] theorem State.wakeEvent_msix (s : State) (src : Nat) : (State.wakeEvent s src).msix = s.msix := by unfold State.wakeEvent; dsimp only; split <;> (try split) <;> rfl
@[simp] theorem State.wakeEvent_msixPending (s : State) (src : Nat) : (State.wakeEvent s src).msixPending = s.msixPending := by unfold State.wakeEvent; dsimp only; split <;> (try split) <;> rfl
@[simp] theorem State.wakeEvent_irqs (s : State) (src : Nat) : (State.wakeEvent s src).irqs = s.irqs := by unfold State.wakeEvent; dsimp only; split <;> (try split) <;> rfl
@[simp] theorem State.wakeEvent_top (s : State) (src : Nat) : (State.wakeEvent s src).top = s.top := by unfold State.wakeEvent; dsimp only; split <;> (try split) <;> rfl
@[simp] theorem State.wakeEvent_evr (s : State) (src : Nat) : (State.wakeEvent s src).evr = s.evr := by unfold State.wakeEvent; dsimp only; split <;> (try split) <;> rfl
@[simp] theorem State.wakeEvent_mbx (s : State) (src : Nat) : (State.wakeEvent s src).mbx = s.mbx := by unfold State.wakeEvent; dsimp only; split <;> (try split) <;> rfl
@[simp] theorem State.wakeEvent_ubl (s : State) (src : Nat) : (State.wakeEvent s src).ubl = s.ubl := by unfold State.wakeEvent; dsimp only; split <;> (try split) <;> rfl
@[simp] theorem State.wakeEvent_link (s : State) (src : Nat) : (State.wakeEvent s src).link = s.link := by unfold State.wakeEvent; dsimp only; split <;> (try split) <;> rfl
@[simp] theorem State.wakeEvent_fe (s : State) (src : Nat) : (State.wakeEvent s src).fe = s.fe := by unfold State.wakeEvent; dsimp only; split <;> (try split) <;> rfl
@[simp] theorem State.wakeEvent_dp (s : State) (src : Nat) : (State.wakeEvent s src).dp = s.dp := by unfold State.wakeEvent; dsimp only; split <;> (try split) <;> rfl
@[simp] theorem State.wakeEvent_map (s : State) (src : Nat) : (State.wakeEvent s src).map = s.map := by unfold State.wakeEvent; dsimp only; split <;> (try split) <;> rfl
@[simp] theorem State.wakeEvent_med (s : State) (src : Nat) : (State.wakeEvent s src).med = s.med := by unfold State.wakeEvent; dsimp only; split <;> (try split) <;> rfl
@[simp] theorem State.wakeEvent_str (s : State) (src : Nat) : (State.wakeEvent s src).str = s.str := by unfold State.wakeEvent; dsimp only; split <;> (try split) <;> rfl
@[simp] theorem State.wakeEvent_mlk (s : State) (src : Nat) : (State.wakeEvent s src).mlk = s.mlk := by unfold State.wakeEvent; dsimp only; split <;> (try split) <;> rfl
@[simp] theorem State.wakeEvent_cip (s : State) (src : Nat) : (State.wakeEvent s src).cip = s.cip := by unfold State.wakeEvent; dsimp only; split <;> (try split) <;> rfl
@[simp] theorem State.wakeEvent_scr (s : State) (src : Nat) : (State.wakeEvent s src).scr = s.scr := by unfold State.wakeEvent; dsimp only; split <;> (try split) <;> rfl
@[simp] theorem State.wakeEvent_rdm (s : State) (src : Nat) : (State.wakeEvent s src).rdm = s.rdm := by unfold State.wakeEvent; dsimp only; split <;> (try split) <;> rfl
@[simp] theorem State.wakeEvent_dig (s : State) (src : Nat) : (State.wakeEvent s src).dig = s.dig := by unfold State.wakeEvent; dsimp only; split <;> (try split) <;> rfl
@[simp] theorem State.wakeEvent_upd (s : State) (src : Nat) : (State.wakeEvent s src).upd = s.upd := by unfold State.wakeEvent; dsimp only; split <;> (try split) <;> rfl
@[simp] theorem State.wakeEvent_vault (s : State) (src : Nat) : (State.wakeEvent s src).vault = s.vault := by unfold State.wakeEvent; dsimp only; split <;> (try split) <;> rfl
@[simp] theorem State.wakeEvent_draws (s : State) (src : Nat) : (State.wakeEvent s src).draws = s.draws := by unfold State.wakeEvent; dsimp only; split <;> (try split) <;> rfl
@[simp] theorem State.wakeEvent_pending (s : State) (src : Nat) : (State.wakeEvent s src).pending = s.pending := by unfold State.wakeEvent; dsimp only; split <;> (try split) <;> rfl

/-! State.pend changes blk. -/

@[simp] theorem State.pend_cfg (s : State) (b : Blk) (late : Bool) : (State.pend s b late).cfg = s.cfg := rfl
@[simp] theorem State.pend_counters (s : State) (b : Blk) (late : Bool) : (State.pend s b late).counters = s.counters := rfl
@[simp] theorem State.pend_msix (s : State) (b : Blk) (late : Bool) : (State.pend s b late).msix = s.msix := rfl
@[simp] theorem State.pend_msixPending (s : State) (b : Blk) (late : Bool) : (State.pend s b late).msixPending = s.msixPending := rfl
@[simp] theorem State.pend_irqs (s : State) (b : Blk) (late : Bool) : (State.pend s b late).irqs = s.irqs := rfl
@[simp] theorem State.pend_top (s : State) (b : Blk) (late : Bool) : (State.pend s b late).top = s.top := rfl
@[simp] theorem State.pend_evr (s : State) (b : Blk) (late : Bool) : (State.pend s b late).evr = s.evr := rfl
@[simp] theorem State.pend_mbx (s : State) (b : Blk) (late : Bool) : (State.pend s b late).mbx = s.mbx := rfl
@[simp] theorem State.pend_ubl (s : State) (b : Blk) (late : Bool) : (State.pend s b late).ubl = s.ubl := rfl
@[simp] theorem State.pend_link (s : State) (b : Blk) (late : Bool) : (State.pend s b late).link = s.link := rfl
@[simp] theorem State.pend_fe (s : State) (b : Blk) (late : Bool) : (State.pend s b late).fe = s.fe := rfl
@[simp] theorem State.pend_dp (s : State) (b : Blk) (late : Bool) : (State.pend s b late).dp = s.dp := rfl
@[simp] theorem State.pend_map (s : State) (b : Blk) (late : Bool) : (State.pend s b late).map = s.map := rfl
@[simp] theorem State.pend_med (s : State) (b : Blk) (late : Bool) : (State.pend s b late).med = s.med := rfl
@[simp] theorem State.pend_str (s : State) (b : Blk) (late : Bool) : (State.pend s b late).str = s.str := rfl
@[simp] theorem State.pend_mlk (s : State) (b : Blk) (late : Bool) : (State.pend s b late).mlk = s.mlk := rfl
@[simp] theorem State.pend_cip (s : State) (b : Blk) (late : Bool) : (State.pend s b late).cip = s.cip := rfl
@[simp] theorem State.pend_pwr (s : State) (b : Blk) (late : Bool) : (State.pend s b late).pwr = s.pwr := rfl
@[simp] theorem State.pend_scr (s : State) (b : Blk) (late : Bool) : (State.pend s b late).scr = s.scr := rfl
@[simp] theorem State.pend_rdm (s : State) (b : Blk) (late : Bool) : (State.pend s b late).rdm = s.rdm := rfl
@[simp] theorem State.pend_dig (s : State) (b : Blk) (late : Bool) : (State.pend s b late).dig = s.dig := rfl
@[simp] theorem State.pend_upd (s : State) (b : Blk) (late : Bool) : (State.pend s b late).upd = s.upd := rfl
@[simp] theorem State.pend_vault (s : State) (b : Blk) (late : Bool) : (State.pend s b late).vault = s.vault := rfl
@[simp] theorem State.pend_draws (s : State) (b : Blk) (late : Bool) : (State.pend s b late).draws = s.draws := rfl
@[simp] theorem State.pend_pending (s : State) (b : Blk) (late : Bool) : (State.pend s b late).pending = s.pending := rfl

/-! State.release changes top. -/

@[simp] theorem State.release_blk (s : State) (r : Nat) (who : Nat) : (State.release s r who).blk = s.blk := by unfold State.release; split <;> rfl
@[simp] theorem State.release_cfg (s : State) (r : Nat) (who : Nat) : (State.release s r who).cfg = s.cfg := by unfold State.release; split <;> rfl
@[simp] theorem State.release_counters (s : State) (r : Nat) (who : Nat) : (State.release s r who).counters = s.counters := by unfold State.release; split <;> rfl
@[simp] theorem State.release_msix (s : State) (r : Nat) (who : Nat) : (State.release s r who).msix = s.msix := by unfold State.release; split <;> rfl
@[simp] theorem State.release_msixPending (s : State) (r : Nat) (who : Nat) : (State.release s r who).msixPending = s.msixPending := by unfold State.release; split <;> rfl
@[simp] theorem State.release_irqs (s : State) (r : Nat) (who : Nat) : (State.release s r who).irqs = s.irqs := by unfold State.release; split <;> rfl
@[simp] theorem State.release_evr (s : State) (r : Nat) (who : Nat) : (State.release s r who).evr = s.evr := by unfold State.release; split <;> rfl
@[simp] theorem State.release_mbx (s : State) (r : Nat) (who : Nat) : (State.release s r who).mbx = s.mbx := by unfold State.release; split <;> rfl
@[simp] theorem State.release_ubl (s : State) (r : Nat) (who : Nat) : (State.release s r who).ubl = s.ubl := by unfold State.release; split <;> rfl
@[simp] theorem State.release_link (s : State) (r : Nat) (who : Nat) : (State.release s r who).link = s.link := by unfold State.release; split <;> rfl
@[simp] theorem State.release_fe (s : State) (r : Nat) (who : Nat) : (State.release s r who).fe = s.fe := by unfold State.release; split <;> rfl
@[simp] theorem State.release_dp (s : State) (r : Nat) (who : Nat) : (State.release s r who).dp = s.dp := by unfold State.release; split <;> rfl
@[simp] theorem State.release_map (s : State) (r : Nat) (who : Nat) : (State.release s r who).map = s.map := by unfold State.release; split <;> rfl
@[simp] theorem State.release_med (s : State) (r : Nat) (who : Nat) : (State.release s r who).med = s.med := by unfold State.release; split <;> rfl
@[simp] theorem State.release_str (s : State) (r : Nat) (who : Nat) : (State.release s r who).str = s.str := by unfold State.release; split <;> rfl
@[simp] theorem State.release_mlk (s : State) (r : Nat) (who : Nat) : (State.release s r who).mlk = s.mlk := by unfold State.release; split <;> rfl
@[simp] theorem State.release_cip (s : State) (r : Nat) (who : Nat) : (State.release s r who).cip = s.cip := by unfold State.release; split <;> rfl
@[simp] theorem State.release_pwr (s : State) (r : Nat) (who : Nat) : (State.release s r who).pwr = s.pwr := by unfold State.release; split <;> rfl
@[simp] theorem State.release_scr (s : State) (r : Nat) (who : Nat) : (State.release s r who).scr = s.scr := by unfold State.release; split <;> rfl
@[simp] theorem State.release_rdm (s : State) (r : Nat) (who : Nat) : (State.release s r who).rdm = s.rdm := by unfold State.release; split <;> rfl
@[simp] theorem State.release_dig (s : State) (r : Nat) (who : Nat) : (State.release s r who).dig = s.dig := by unfold State.release; split <;> rfl
@[simp] theorem State.release_upd (s : State) (r : Nat) (who : Nat) : (State.release s r who).upd = s.upd := by unfold State.release; split <;> rfl
@[simp] theorem State.release_vault (s : State) (r : Nat) (who : Nat) : (State.release s r who).vault = s.vault := by unfold State.release; split <;> rfl
@[simp] theorem State.release_draws (s : State) (r : Nat) (who : Nat) : (State.release s r who).draws = s.draws := by unfold State.release; split <;> rfl
@[simp] theorem State.release_pending (s : State) (r : Nat) (who : Nat) : (State.release s r who).pending = s.pending := by unfold State.release; split <;> rfl

/-! State.updUbl changes ubl. -/

@[simp] theorem State.updUbl_blk (s : State) (f : UblState → UblState) : (State.updUbl s f).blk = s.blk := rfl
@[simp] theorem State.updUbl_cfg (s : State) (f : UblState → UblState) : (State.updUbl s f).cfg = s.cfg := rfl
@[simp] theorem State.updUbl_counters (s : State) (f : UblState → UblState) : (State.updUbl s f).counters = s.counters := rfl
@[simp] theorem State.updUbl_msix (s : State) (f : UblState → UblState) : (State.updUbl s f).msix = s.msix := rfl
@[simp] theorem State.updUbl_msixPending (s : State) (f : UblState → UblState) : (State.updUbl s f).msixPending = s.msixPending := rfl
@[simp] theorem State.updUbl_irqs (s : State) (f : UblState → UblState) : (State.updUbl s f).irqs = s.irqs := rfl
@[simp] theorem State.updUbl_top (s : State) (f : UblState → UblState) : (State.updUbl s f).top = s.top := rfl
@[simp] theorem State.updUbl_evr (s : State) (f : UblState → UblState) : (State.updUbl s f).evr = s.evr := rfl
@[simp] theorem State.updUbl_mbx (s : State) (f : UblState → UblState) : (State.updUbl s f).mbx = s.mbx := rfl
@[simp] theorem State.updUbl_link (s : State) (f : UblState → UblState) : (State.updUbl s f).link = s.link := rfl
@[simp] theorem State.updUbl_fe (s : State) (f : UblState → UblState) : (State.updUbl s f).fe = s.fe := rfl
@[simp] theorem State.updUbl_dp (s : State) (f : UblState → UblState) : (State.updUbl s f).dp = s.dp := rfl
@[simp] theorem State.updUbl_map (s : State) (f : UblState → UblState) : (State.updUbl s f).map = s.map := rfl
@[simp] theorem State.updUbl_med (s : State) (f : UblState → UblState) : (State.updUbl s f).med = s.med := rfl
@[simp] theorem State.updUbl_str (s : State) (f : UblState → UblState) : (State.updUbl s f).str = s.str := rfl
@[simp] theorem State.updUbl_mlk (s : State) (f : UblState → UblState) : (State.updUbl s f).mlk = s.mlk := rfl
@[simp] theorem State.updUbl_cip (s : State) (f : UblState → UblState) : (State.updUbl s f).cip = s.cip := rfl
@[simp] theorem State.updUbl_pwr (s : State) (f : UblState → UblState) : (State.updUbl s f).pwr = s.pwr := rfl
@[simp] theorem State.updUbl_scr (s : State) (f : UblState → UblState) : (State.updUbl s f).scr = s.scr := rfl
@[simp] theorem State.updUbl_rdm (s : State) (f : UblState → UblState) : (State.updUbl s f).rdm = s.rdm := rfl
@[simp] theorem State.updUbl_dig (s : State) (f : UblState → UblState) : (State.updUbl s f).dig = s.dig := rfl
@[simp] theorem State.updUbl_upd (s : State) (f : UblState → UblState) : (State.updUbl s f).upd = s.upd := rfl
@[simp] theorem State.updUbl_vault (s : State) (f : UblState → UblState) : (State.updUbl s f).vault = s.vault := rfl
@[simp] theorem State.updUbl_draws (s : State) (f : UblState → UblState) : (State.updUbl s f).draws = s.draws := rfl
@[simp] theorem State.updUbl_pending (s : State) (f : UblState → UblState) : (State.updUbl s f).pending = s.pending := rfl

/-! State.updFe changes fe. -/

@[simp] theorem State.updFe_blk (s : State) (f : FeState → FeState) : (State.updFe s f).blk = s.blk := rfl
@[simp] theorem State.updFe_cfg (s : State) (f : FeState → FeState) : (State.updFe s f).cfg = s.cfg := rfl
@[simp] theorem State.updFe_counters (s : State) (f : FeState → FeState) : (State.updFe s f).counters = s.counters := rfl
@[simp] theorem State.updFe_msix (s : State) (f : FeState → FeState) : (State.updFe s f).msix = s.msix := rfl
@[simp] theorem State.updFe_msixPending (s : State) (f : FeState → FeState) : (State.updFe s f).msixPending = s.msixPending := rfl
@[simp] theorem State.updFe_irqs (s : State) (f : FeState → FeState) : (State.updFe s f).irqs = s.irqs := rfl
@[simp] theorem State.updFe_top (s : State) (f : FeState → FeState) : (State.updFe s f).top = s.top := rfl
@[simp] theorem State.updFe_evr (s : State) (f : FeState → FeState) : (State.updFe s f).evr = s.evr := rfl
@[simp] theorem State.updFe_mbx (s : State) (f : FeState → FeState) : (State.updFe s f).mbx = s.mbx := rfl
@[simp] theorem State.updFe_ubl (s : State) (f : FeState → FeState) : (State.updFe s f).ubl = s.ubl := rfl
@[simp] theorem State.updFe_link (s : State) (f : FeState → FeState) : (State.updFe s f).link = s.link := rfl
@[simp] theorem State.updFe_dp (s : State) (f : FeState → FeState) : (State.updFe s f).dp = s.dp := rfl
@[simp] theorem State.updFe_map (s : State) (f : FeState → FeState) : (State.updFe s f).map = s.map := rfl
@[simp] theorem State.updFe_med (s : State) (f : FeState → FeState) : (State.updFe s f).med = s.med := rfl
@[simp] theorem State.updFe_str (s : State) (f : FeState → FeState) : (State.updFe s f).str = s.str := rfl
@[simp] theorem State.updFe_mlk (s : State) (f : FeState → FeState) : (State.updFe s f).mlk = s.mlk := rfl
@[simp] theorem State.updFe_cip (s : State) (f : FeState → FeState) : (State.updFe s f).cip = s.cip := rfl
@[simp] theorem State.updFe_pwr (s : State) (f : FeState → FeState) : (State.updFe s f).pwr = s.pwr := rfl
@[simp] theorem State.updFe_scr (s : State) (f : FeState → FeState) : (State.updFe s f).scr = s.scr := rfl
@[simp] theorem State.updFe_rdm (s : State) (f : FeState → FeState) : (State.updFe s f).rdm = s.rdm := rfl
@[simp] theorem State.updFe_dig (s : State) (f : FeState → FeState) : (State.updFe s f).dig = s.dig := rfl
@[simp] theorem State.updFe_upd (s : State) (f : FeState → FeState) : (State.updFe s f).upd = s.upd := rfl
@[simp] theorem State.updFe_vault (s : State) (f : FeState → FeState) : (State.updFe s f).vault = s.vault := rfl
@[simp] theorem State.updFe_draws (s : State) (f : FeState → FeState) : (State.updFe s f).draws = s.draws := rfl
@[simp] theorem State.updFe_pending (s : State) (f : FeState → FeState) : (State.updFe s f).pending = s.pending := rfl

/-! State.updDp changes dp. -/

@[simp] theorem State.updDp_blk (s : State) (f : DpState → DpState) : (State.updDp s f).blk = s.blk := rfl
@[simp] theorem State.updDp_cfg (s : State) (f : DpState → DpState) : (State.updDp s f).cfg = s.cfg := rfl
@[simp] theorem State.updDp_counters (s : State) (f : DpState → DpState) : (State.updDp s f).counters = s.counters := rfl
@[simp] theorem State.updDp_msix (s : State) (f : DpState → DpState) : (State.updDp s f).msix = s.msix := rfl
@[simp] theorem State.updDp_msixPending (s : State) (f : DpState → DpState) : (State.updDp s f).msixPending = s.msixPending := rfl
@[simp] theorem State.updDp_irqs (s : State) (f : DpState → DpState) : (State.updDp s f).irqs = s.irqs := rfl
@[simp] theorem State.updDp_top (s : State) (f : DpState → DpState) : (State.updDp s f).top = s.top := rfl
@[simp] theorem State.updDp_evr (s : State) (f : DpState → DpState) : (State.updDp s f).evr = s.evr := rfl
@[simp] theorem State.updDp_mbx (s : State) (f : DpState → DpState) : (State.updDp s f).mbx = s.mbx := rfl
@[simp] theorem State.updDp_ubl (s : State) (f : DpState → DpState) : (State.updDp s f).ubl = s.ubl := rfl
@[simp] theorem State.updDp_link (s : State) (f : DpState → DpState) : (State.updDp s f).link = s.link := rfl
@[simp] theorem State.updDp_fe (s : State) (f : DpState → DpState) : (State.updDp s f).fe = s.fe := rfl
@[simp] theorem State.updDp_map (s : State) (f : DpState → DpState) : (State.updDp s f).map = s.map := rfl
@[simp] theorem State.updDp_med (s : State) (f : DpState → DpState) : (State.updDp s f).med = s.med := rfl
@[simp] theorem State.updDp_str (s : State) (f : DpState → DpState) : (State.updDp s f).str = s.str := rfl
@[simp] theorem State.updDp_mlk (s : State) (f : DpState → DpState) : (State.updDp s f).mlk = s.mlk := rfl
@[simp] theorem State.updDp_cip (s : State) (f : DpState → DpState) : (State.updDp s f).cip = s.cip := rfl
@[simp] theorem State.updDp_pwr (s : State) (f : DpState → DpState) : (State.updDp s f).pwr = s.pwr := rfl
@[simp] theorem State.updDp_scr (s : State) (f : DpState → DpState) : (State.updDp s f).scr = s.scr := rfl
@[simp] theorem State.updDp_rdm (s : State) (f : DpState → DpState) : (State.updDp s f).rdm = s.rdm := rfl
@[simp] theorem State.updDp_dig (s : State) (f : DpState → DpState) : (State.updDp s f).dig = s.dig := rfl
@[simp] theorem State.updDp_upd (s : State) (f : DpState → DpState) : (State.updDp s f).upd = s.upd := rfl
@[simp] theorem State.updDp_vault (s : State) (f : DpState → DpState) : (State.updDp s f).vault = s.vault := rfl
@[simp] theorem State.updDp_draws (s : State) (f : DpState → DpState) : (State.updDp s f).draws = s.draws := rfl
@[simp] theorem State.updDp_pending (s : State) (f : DpState → DpState) : (State.updDp s f).pending = s.pending := rfl

/-! State.updRdm changes rdm. -/

@[simp] theorem State.updRdm_blk (s : State) (f : RdmState → RdmState) : (State.updRdm s f).blk = s.blk := rfl
@[simp] theorem State.updRdm_cfg (s : State) (f : RdmState → RdmState) : (State.updRdm s f).cfg = s.cfg := rfl
@[simp] theorem State.updRdm_counters (s : State) (f : RdmState → RdmState) : (State.updRdm s f).counters = s.counters := rfl
@[simp] theorem State.updRdm_msix (s : State) (f : RdmState → RdmState) : (State.updRdm s f).msix = s.msix := rfl
@[simp] theorem State.updRdm_msixPending (s : State) (f : RdmState → RdmState) : (State.updRdm s f).msixPending = s.msixPending := rfl
@[simp] theorem State.updRdm_irqs (s : State) (f : RdmState → RdmState) : (State.updRdm s f).irqs = s.irqs := rfl
@[simp] theorem State.updRdm_top (s : State) (f : RdmState → RdmState) : (State.updRdm s f).top = s.top := rfl
@[simp] theorem State.updRdm_evr (s : State) (f : RdmState → RdmState) : (State.updRdm s f).evr = s.evr := rfl
@[simp] theorem State.updRdm_mbx (s : State) (f : RdmState → RdmState) : (State.updRdm s f).mbx = s.mbx := rfl
@[simp] theorem State.updRdm_ubl (s : State) (f : RdmState → RdmState) : (State.updRdm s f).ubl = s.ubl := rfl
@[simp] theorem State.updRdm_link (s : State) (f : RdmState → RdmState) : (State.updRdm s f).link = s.link := rfl
@[simp] theorem State.updRdm_fe (s : State) (f : RdmState → RdmState) : (State.updRdm s f).fe = s.fe := rfl
@[simp] theorem State.updRdm_dp (s : State) (f : RdmState → RdmState) : (State.updRdm s f).dp = s.dp := rfl
@[simp] theorem State.updRdm_map (s : State) (f : RdmState → RdmState) : (State.updRdm s f).map = s.map := rfl
@[simp] theorem State.updRdm_med (s : State) (f : RdmState → RdmState) : (State.updRdm s f).med = s.med := rfl
@[simp] theorem State.updRdm_str (s : State) (f : RdmState → RdmState) : (State.updRdm s f).str = s.str := rfl
@[simp] theorem State.updRdm_mlk (s : State) (f : RdmState → RdmState) : (State.updRdm s f).mlk = s.mlk := rfl
@[simp] theorem State.updRdm_cip (s : State) (f : RdmState → RdmState) : (State.updRdm s f).cip = s.cip := rfl
@[simp] theorem State.updRdm_pwr (s : State) (f : RdmState → RdmState) : (State.updRdm s f).pwr = s.pwr := rfl
@[simp] theorem State.updRdm_scr (s : State) (f : RdmState → RdmState) : (State.updRdm s f).scr = s.scr := rfl
@[simp] theorem State.updRdm_dig (s : State) (f : RdmState → RdmState) : (State.updRdm s f).dig = s.dig := rfl
@[simp] theorem State.updRdm_upd (s : State) (f : RdmState → RdmState) : (State.updRdm s f).upd = s.upd := rfl
@[simp] theorem State.updRdm_vault (s : State) (f : RdmState → RdmState) : (State.updRdm s f).vault = s.vault := rfl
@[simp] theorem State.updRdm_draws (s : State) (f : RdmState → RdmState) : (State.updRdm s f).draws = s.draws := rfl
@[simp] theorem State.updRdm_pending (s : State) (f : RdmState → RdmState) : (State.updRdm s f).pending = s.pending := rfl

/-! State.updCip changes cip. -/

@[simp] theorem State.updCip_blk (s : State) (f : CipState → CipState) : (State.updCip s f).blk = s.blk := rfl
@[simp] theorem State.updCip_cfg (s : State) (f : CipState → CipState) : (State.updCip s f).cfg = s.cfg := rfl
@[simp] theorem State.updCip_counters (s : State) (f : CipState → CipState) : (State.updCip s f).counters = s.counters := rfl
@[simp] theorem State.updCip_msix (s : State) (f : CipState → CipState) : (State.updCip s f).msix = s.msix := rfl
@[simp] theorem State.updCip_msixPending (s : State) (f : CipState → CipState) : (State.updCip s f).msixPending = s.msixPending := rfl
@[simp] theorem State.updCip_irqs (s : State) (f : CipState → CipState) : (State.updCip s f).irqs = s.irqs := rfl
@[simp] theorem State.updCip_top (s : State) (f : CipState → CipState) : (State.updCip s f).top = s.top := rfl
@[simp] theorem State.updCip_evr (s : State) (f : CipState → CipState) : (State.updCip s f).evr = s.evr := rfl
@[simp] theorem State.updCip_mbx (s : State) (f : CipState → CipState) : (State.updCip s f).mbx = s.mbx := rfl
@[simp] theorem State.updCip_ubl (s : State) (f : CipState → CipState) : (State.updCip s f).ubl = s.ubl := rfl
@[simp] theorem State.updCip_link (s : State) (f : CipState → CipState) : (State.updCip s f).link = s.link := rfl
@[simp] theorem State.updCip_fe (s : State) (f : CipState → CipState) : (State.updCip s f).fe = s.fe := rfl
@[simp] theorem State.updCip_dp (s : State) (f : CipState → CipState) : (State.updCip s f).dp = s.dp := rfl
@[simp] theorem State.updCip_map (s : State) (f : CipState → CipState) : (State.updCip s f).map = s.map := rfl
@[simp] theorem State.updCip_med (s : State) (f : CipState → CipState) : (State.updCip s f).med = s.med := rfl
@[simp] theorem State.updCip_str (s : State) (f : CipState → CipState) : (State.updCip s f).str = s.str := rfl
@[simp] theorem State.updCip_mlk (s : State) (f : CipState → CipState) : (State.updCip s f).mlk = s.mlk := rfl
@[simp] theorem State.updCip_pwr (s : State) (f : CipState → CipState) : (State.updCip s f).pwr = s.pwr := rfl
@[simp] theorem State.updCip_scr (s : State) (f : CipState → CipState) : (State.updCip s f).scr = s.scr := rfl
@[simp] theorem State.updCip_rdm (s : State) (f : CipState → CipState) : (State.updCip s f).rdm = s.rdm := rfl
@[simp] theorem State.updCip_dig (s : State) (f : CipState → CipState) : (State.updCip s f).dig = s.dig := rfl
@[simp] theorem State.updCip_upd (s : State) (f : CipState → CipState) : (State.updCip s f).upd = s.upd := rfl
@[simp] theorem State.updCip_vault (s : State) (f : CipState → CipState) : (State.updCip s f).vault = s.vault := rfl
@[simp] theorem State.updCip_draws (s : State) (f : CipState → CipState) : (State.updCip s f).draws = s.draws := rfl
@[simp] theorem State.updCip_pending (s : State) (f : CipState → CipState) : (State.updCip s f).pending = s.pending := rfl

/-! State.updStr changes str. -/

@[simp] theorem State.updStr_blk (s : State) (f : StrState → StrState) : (State.updStr s f).blk = s.blk := rfl
@[simp] theorem State.updStr_cfg (s : State) (f : StrState → StrState) : (State.updStr s f).cfg = s.cfg := rfl
@[simp] theorem State.updStr_counters (s : State) (f : StrState → StrState) : (State.updStr s f).counters = s.counters := rfl
@[simp] theorem State.updStr_msix (s : State) (f : StrState → StrState) : (State.updStr s f).msix = s.msix := rfl
@[simp] theorem State.updStr_msixPending (s : State) (f : StrState → StrState) : (State.updStr s f).msixPending = s.msixPending := rfl
@[simp] theorem State.updStr_irqs (s : State) (f : StrState → StrState) : (State.updStr s f).irqs = s.irqs := rfl
@[simp] theorem State.updStr_top (s : State) (f : StrState → StrState) : (State.updStr s f).top = s.top := rfl
@[simp] theorem State.updStr_evr (s : State) (f : StrState → StrState) : (State.updStr s f).evr = s.evr := rfl
@[simp] theorem State.updStr_mbx (s : State) (f : StrState → StrState) : (State.updStr s f).mbx = s.mbx := rfl
@[simp] theorem State.updStr_ubl (s : State) (f : StrState → StrState) : (State.updStr s f).ubl = s.ubl := rfl
@[simp] theorem State.updStr_link (s : State) (f : StrState → StrState) : (State.updStr s f).link = s.link := rfl
@[simp] theorem State.updStr_fe (s : State) (f : StrState → StrState) : (State.updStr s f).fe = s.fe := rfl
@[simp] theorem State.updStr_dp (s : State) (f : StrState → StrState) : (State.updStr s f).dp = s.dp := rfl
@[simp] theorem State.updStr_map (s : State) (f : StrState → StrState) : (State.updStr s f).map = s.map := rfl
@[simp] theorem State.updStr_med (s : State) (f : StrState → StrState) : (State.updStr s f).med = s.med := rfl
@[simp] theorem State.updStr_mlk (s : State) (f : StrState → StrState) : (State.updStr s f).mlk = s.mlk := rfl
@[simp] theorem State.updStr_cip (s : State) (f : StrState → StrState) : (State.updStr s f).cip = s.cip := rfl
@[simp] theorem State.updStr_pwr (s : State) (f : StrState → StrState) : (State.updStr s f).pwr = s.pwr := rfl
@[simp] theorem State.updStr_scr (s : State) (f : StrState → StrState) : (State.updStr s f).scr = s.scr := rfl
@[simp] theorem State.updStr_rdm (s : State) (f : StrState → StrState) : (State.updStr s f).rdm = s.rdm := rfl
@[simp] theorem State.updStr_dig (s : State) (f : StrState → StrState) : (State.updStr s f).dig = s.dig := rfl
@[simp] theorem State.updStr_upd (s : State) (f : StrState → StrState) : (State.updStr s f).upd = s.upd := rfl
@[simp] theorem State.updStr_vault (s : State) (f : StrState → StrState) : (State.updStr s f).vault = s.vault := rfl
@[simp] theorem State.updStr_draws (s : State) (f : StrState → StrState) : (State.updStr s f).draws = s.draws := rfl
@[simp] theorem State.updStr_pending (s : State) (f : StrState → StrState) : (State.updStr s f).pending = s.pending := rfl

/-! State.updMed changes med. -/

@[simp] theorem State.updMed_blk (s : State) (f : MedState → MedState) : (State.updMed s f).blk = s.blk := rfl
@[simp] theorem State.updMed_cfg (s : State) (f : MedState → MedState) : (State.updMed s f).cfg = s.cfg := rfl
@[simp] theorem State.updMed_counters (s : State) (f : MedState → MedState) : (State.updMed s f).counters = s.counters := rfl
@[simp] theorem State.updMed_msix (s : State) (f : MedState → MedState) : (State.updMed s f).msix = s.msix := rfl
@[simp] theorem State.updMed_msixPending (s : State) (f : MedState → MedState) : (State.updMed s f).msixPending = s.msixPending := rfl
@[simp] theorem State.updMed_irqs (s : State) (f : MedState → MedState) : (State.updMed s f).irqs = s.irqs := rfl
@[simp] theorem State.updMed_top (s : State) (f : MedState → MedState) : (State.updMed s f).top = s.top := rfl
@[simp] theorem State.updMed_evr (s : State) (f : MedState → MedState) : (State.updMed s f).evr = s.evr := rfl
@[simp] theorem State.updMed_mbx (s : State) (f : MedState → MedState) : (State.updMed s f).mbx = s.mbx := rfl
@[simp] theorem State.updMed_ubl (s : State) (f : MedState → MedState) : (State.updMed s f).ubl = s.ubl := rfl
@[simp] theorem State.updMed_link (s : State) (f : MedState → MedState) : (State.updMed s f).link = s.link := rfl
@[simp] theorem State.updMed_fe (s : State) (f : MedState → MedState) : (State.updMed s f).fe = s.fe := rfl
@[simp] theorem State.updMed_dp (s : State) (f : MedState → MedState) : (State.updMed s f).dp = s.dp := rfl
@[simp] theorem State.updMed_map (s : State) (f : MedState → MedState) : (State.updMed s f).map = s.map := rfl
@[simp] theorem State.updMed_str (s : State) (f : MedState → MedState) : (State.updMed s f).str = s.str := rfl
@[simp] theorem State.updMed_mlk (s : State) (f : MedState → MedState) : (State.updMed s f).mlk = s.mlk := rfl
@[simp] theorem State.updMed_cip (s : State) (f : MedState → MedState) : (State.updMed s f).cip = s.cip := rfl
@[simp] theorem State.updMed_pwr (s : State) (f : MedState → MedState) : (State.updMed s f).pwr = s.pwr := rfl
@[simp] theorem State.updMed_scr (s : State) (f : MedState → MedState) : (State.updMed s f).scr = s.scr := rfl
@[simp] theorem State.updMed_rdm (s : State) (f : MedState → MedState) : (State.updMed s f).rdm = s.rdm := rfl
@[simp] theorem State.updMed_dig (s : State) (f : MedState → MedState) : (State.updMed s f).dig = s.dig := rfl
@[simp] theorem State.updMed_upd (s : State) (f : MedState → MedState) : (State.updMed s f).upd = s.upd := rfl
@[simp] theorem State.updMed_vault (s : State) (f : MedState → MedState) : (State.updMed s f).vault = s.vault := rfl
@[simp] theorem State.updMed_draws (s : State) (f : MedState → MedState) : (State.updMed s f).draws = s.draws := rfl
@[simp] theorem State.updMed_pending (s : State) (f : MedState → MedState) : (State.updMed s f).pending = s.pending := rfl

/-! State.updMap changes map. -/

@[simp] theorem State.updMap_blk (s : State) (f : MapState → MapState) : (State.updMap s f).blk = s.blk := rfl
@[simp] theorem State.updMap_cfg (s : State) (f : MapState → MapState) : (State.updMap s f).cfg = s.cfg := rfl
@[simp] theorem State.updMap_counters (s : State) (f : MapState → MapState) : (State.updMap s f).counters = s.counters := rfl
@[simp] theorem State.updMap_msix (s : State) (f : MapState → MapState) : (State.updMap s f).msix = s.msix := rfl
@[simp] theorem State.updMap_msixPending (s : State) (f : MapState → MapState) : (State.updMap s f).msixPending = s.msixPending := rfl
@[simp] theorem State.updMap_irqs (s : State) (f : MapState → MapState) : (State.updMap s f).irqs = s.irqs := rfl
@[simp] theorem State.updMap_top (s : State) (f : MapState → MapState) : (State.updMap s f).top = s.top := rfl
@[simp] theorem State.updMap_evr (s : State) (f : MapState → MapState) : (State.updMap s f).evr = s.evr := rfl
@[simp] theorem State.updMap_mbx (s : State) (f : MapState → MapState) : (State.updMap s f).mbx = s.mbx := rfl
@[simp] theorem State.updMap_ubl (s : State) (f : MapState → MapState) : (State.updMap s f).ubl = s.ubl := rfl
@[simp] theorem State.updMap_link (s : State) (f : MapState → MapState) : (State.updMap s f).link = s.link := rfl
@[simp] theorem State.updMap_fe (s : State) (f : MapState → MapState) : (State.updMap s f).fe = s.fe := rfl
@[simp] theorem State.updMap_dp (s : State) (f : MapState → MapState) : (State.updMap s f).dp = s.dp := rfl
@[simp] theorem State.updMap_med (s : State) (f : MapState → MapState) : (State.updMap s f).med = s.med := rfl
@[simp] theorem State.updMap_str (s : State) (f : MapState → MapState) : (State.updMap s f).str = s.str := rfl
@[simp] theorem State.updMap_mlk (s : State) (f : MapState → MapState) : (State.updMap s f).mlk = s.mlk := rfl
@[simp] theorem State.updMap_cip (s : State) (f : MapState → MapState) : (State.updMap s f).cip = s.cip := rfl
@[simp] theorem State.updMap_pwr (s : State) (f : MapState → MapState) : (State.updMap s f).pwr = s.pwr := rfl
@[simp] theorem State.updMap_scr (s : State) (f : MapState → MapState) : (State.updMap s f).scr = s.scr := rfl
@[simp] theorem State.updMap_rdm (s : State) (f : MapState → MapState) : (State.updMap s f).rdm = s.rdm := rfl
@[simp] theorem State.updMap_dig (s : State) (f : MapState → MapState) : (State.updMap s f).dig = s.dig := rfl
@[simp] theorem State.updMap_upd (s : State) (f : MapState → MapState) : (State.updMap s f).upd = s.upd := rfl
@[simp] theorem State.updMap_vault (s : State) (f : MapState → MapState) : (State.updMap s f).vault = s.vault := rfl
@[simp] theorem State.updMap_draws (s : State) (f : MapState → MapState) : (State.updMap s f).draws = s.draws := rfl
@[simp] theorem State.updMap_pending (s : State) (f : MapState → MapState) : (State.updMap s f).pending = s.pending := rfl

/-! State.updMlk changes mlk. -/

@[simp] theorem State.updMlk_blk (s : State) (f : MlkState → MlkState) : (State.updMlk s f).blk = s.blk := rfl
@[simp] theorem State.updMlk_cfg (s : State) (f : MlkState → MlkState) : (State.updMlk s f).cfg = s.cfg := rfl
@[simp] theorem State.updMlk_counters (s : State) (f : MlkState → MlkState) : (State.updMlk s f).counters = s.counters := rfl
@[simp] theorem State.updMlk_msix (s : State) (f : MlkState → MlkState) : (State.updMlk s f).msix = s.msix := rfl
@[simp] theorem State.updMlk_msixPending (s : State) (f : MlkState → MlkState) : (State.updMlk s f).msixPending = s.msixPending := rfl
@[simp] theorem State.updMlk_irqs (s : State) (f : MlkState → MlkState) : (State.updMlk s f).irqs = s.irqs := rfl
@[simp] theorem State.updMlk_top (s : State) (f : MlkState → MlkState) : (State.updMlk s f).top = s.top := rfl
@[simp] theorem State.updMlk_evr (s : State) (f : MlkState → MlkState) : (State.updMlk s f).evr = s.evr := rfl
@[simp] theorem State.updMlk_mbx (s : State) (f : MlkState → MlkState) : (State.updMlk s f).mbx = s.mbx := rfl
@[simp] theorem State.updMlk_ubl (s : State) (f : MlkState → MlkState) : (State.updMlk s f).ubl = s.ubl := rfl
@[simp] theorem State.updMlk_link (s : State) (f : MlkState → MlkState) : (State.updMlk s f).link = s.link := rfl
@[simp] theorem State.updMlk_fe (s : State) (f : MlkState → MlkState) : (State.updMlk s f).fe = s.fe := rfl
@[simp] theorem State.updMlk_dp (s : State) (f : MlkState → MlkState) : (State.updMlk s f).dp = s.dp := rfl
@[simp] theorem State.updMlk_map (s : State) (f : MlkState → MlkState) : (State.updMlk s f).map = s.map := rfl
@[simp] theorem State.updMlk_med (s : State) (f : MlkState → MlkState) : (State.updMlk s f).med = s.med := rfl
@[simp] theorem State.updMlk_str (s : State) (f : MlkState → MlkState) : (State.updMlk s f).str = s.str := rfl
@[simp] theorem State.updMlk_cip (s : State) (f : MlkState → MlkState) : (State.updMlk s f).cip = s.cip := rfl
@[simp] theorem State.updMlk_pwr (s : State) (f : MlkState → MlkState) : (State.updMlk s f).pwr = s.pwr := rfl
@[simp] theorem State.updMlk_scr (s : State) (f : MlkState → MlkState) : (State.updMlk s f).scr = s.scr := rfl
@[simp] theorem State.updMlk_rdm (s : State) (f : MlkState → MlkState) : (State.updMlk s f).rdm = s.rdm := rfl
@[simp] theorem State.updMlk_dig (s : State) (f : MlkState → MlkState) : (State.updMlk s f).dig = s.dig := rfl
@[simp] theorem State.updMlk_upd (s : State) (f : MlkState → MlkState) : (State.updMlk s f).upd = s.upd := rfl
@[simp] theorem State.updMlk_vault (s : State) (f : MlkState → MlkState) : (State.updMlk s f).vault = s.vault := rfl
@[simp] theorem State.updMlk_draws (s : State) (f : MlkState → MlkState) : (State.updMlk s f).draws = s.draws := rfl
@[simp] theorem State.updMlk_pending (s : State) (f : MlkState → MlkState) : (State.updMlk s f).pending = s.pending := rfl

/-! State.updDig changes dig. -/

@[simp] theorem State.updDig_blk (s : State) (f : DigState → DigState) : (State.updDig s f).blk = s.blk := rfl
@[simp] theorem State.updDig_cfg (s : State) (f : DigState → DigState) : (State.updDig s f).cfg = s.cfg := rfl
@[simp] theorem State.updDig_counters (s : State) (f : DigState → DigState) : (State.updDig s f).counters = s.counters := rfl
@[simp] theorem State.updDig_msix (s : State) (f : DigState → DigState) : (State.updDig s f).msix = s.msix := rfl
@[simp] theorem State.updDig_msixPending (s : State) (f : DigState → DigState) : (State.updDig s f).msixPending = s.msixPending := rfl
@[simp] theorem State.updDig_irqs (s : State) (f : DigState → DigState) : (State.updDig s f).irqs = s.irqs := rfl
@[simp] theorem State.updDig_top (s : State) (f : DigState → DigState) : (State.updDig s f).top = s.top := rfl
@[simp] theorem State.updDig_evr (s : State) (f : DigState → DigState) : (State.updDig s f).evr = s.evr := rfl
@[simp] theorem State.updDig_mbx (s : State) (f : DigState → DigState) : (State.updDig s f).mbx = s.mbx := rfl
@[simp] theorem State.updDig_ubl (s : State) (f : DigState → DigState) : (State.updDig s f).ubl = s.ubl := rfl
@[simp] theorem State.updDig_link (s : State) (f : DigState → DigState) : (State.updDig s f).link = s.link := rfl
@[simp] theorem State.updDig_fe (s : State) (f : DigState → DigState) : (State.updDig s f).fe = s.fe := rfl
@[simp] theorem State.updDig_dp (s : State) (f : DigState → DigState) : (State.updDig s f).dp = s.dp := rfl
@[simp] theorem State.updDig_map (s : State) (f : DigState → DigState) : (State.updDig s f).map = s.map := rfl
@[simp] theorem State.updDig_med (s : State) (f : DigState → DigState) : (State.updDig s f).med = s.med := rfl
@[simp] theorem State.updDig_str (s : State) (f : DigState → DigState) : (State.updDig s f).str = s.str := rfl
@[simp] theorem State.updDig_mlk (s : State) (f : DigState → DigState) : (State.updDig s f).mlk = s.mlk := rfl
@[simp] theorem State.updDig_cip (s : State) (f : DigState → DigState) : (State.updDig s f).cip = s.cip := rfl
@[simp] theorem State.updDig_pwr (s : State) (f : DigState → DigState) : (State.updDig s f).pwr = s.pwr := rfl
@[simp] theorem State.updDig_scr (s : State) (f : DigState → DigState) : (State.updDig s f).scr = s.scr := rfl
@[simp] theorem State.updDig_rdm (s : State) (f : DigState → DigState) : (State.updDig s f).rdm = s.rdm := rfl
@[simp] theorem State.updDig_upd (s : State) (f : DigState → DigState) : (State.updDig s f).upd = s.upd := rfl
@[simp] theorem State.updDig_vault (s : State) (f : DigState → DigState) : (State.updDig s f).vault = s.vault := rfl
@[simp] theorem State.updDig_draws (s : State) (f : DigState → DigState) : (State.updDig s f).draws = s.draws := rfl
@[simp] theorem State.updDig_pending (s : State) (f : DigState → DigState) : (State.updDig s f).pending = s.pending := rfl

/-! State.updMbx changes mbx. -/

@[simp] theorem State.updMbx_blk (s : State) (f : MbxState → MbxState) : (State.updMbx s f).blk = s.blk := rfl
@[simp] theorem State.updMbx_cfg (s : State) (f : MbxState → MbxState) : (State.updMbx s f).cfg = s.cfg := rfl
@[simp] theorem State.updMbx_counters (s : State) (f : MbxState → MbxState) : (State.updMbx s f).counters = s.counters := rfl
@[simp] theorem State.updMbx_msix (s : State) (f : MbxState → MbxState) : (State.updMbx s f).msix = s.msix := rfl
@[simp] theorem State.updMbx_msixPending (s : State) (f : MbxState → MbxState) : (State.updMbx s f).msixPending = s.msixPending := rfl
@[simp] theorem State.updMbx_irqs (s : State) (f : MbxState → MbxState) : (State.updMbx s f).irqs = s.irqs := rfl
@[simp] theorem State.updMbx_top (s : State) (f : MbxState → MbxState) : (State.updMbx s f).top = s.top := rfl
@[simp] theorem State.updMbx_evr (s : State) (f : MbxState → MbxState) : (State.updMbx s f).evr = s.evr := rfl
@[simp] theorem State.updMbx_ubl (s : State) (f : MbxState → MbxState) : (State.updMbx s f).ubl = s.ubl := rfl
@[simp] theorem State.updMbx_link (s : State) (f : MbxState → MbxState) : (State.updMbx s f).link = s.link := rfl
@[simp] theorem State.updMbx_fe (s : State) (f : MbxState → MbxState) : (State.updMbx s f).fe = s.fe := rfl
@[simp] theorem State.updMbx_dp (s : State) (f : MbxState → MbxState) : (State.updMbx s f).dp = s.dp := rfl
@[simp] theorem State.updMbx_map (s : State) (f : MbxState → MbxState) : (State.updMbx s f).map = s.map := rfl
@[simp] theorem State.updMbx_med (s : State) (f : MbxState → MbxState) : (State.updMbx s f).med = s.med := rfl
@[simp] theorem State.updMbx_str (s : State) (f : MbxState → MbxState) : (State.updMbx s f).str = s.str := rfl
@[simp] theorem State.updMbx_mlk (s : State) (f : MbxState → MbxState) : (State.updMbx s f).mlk = s.mlk := rfl
@[simp] theorem State.updMbx_cip (s : State) (f : MbxState → MbxState) : (State.updMbx s f).cip = s.cip := rfl
@[simp] theorem State.updMbx_pwr (s : State) (f : MbxState → MbxState) : (State.updMbx s f).pwr = s.pwr := rfl
@[simp] theorem State.updMbx_scr (s : State) (f : MbxState → MbxState) : (State.updMbx s f).scr = s.scr := rfl
@[simp] theorem State.updMbx_rdm (s : State) (f : MbxState → MbxState) : (State.updMbx s f).rdm = s.rdm := rfl
@[simp] theorem State.updMbx_dig (s : State) (f : MbxState → MbxState) : (State.updMbx s f).dig = s.dig := rfl
@[simp] theorem State.updMbx_upd (s : State) (f : MbxState → MbxState) : (State.updMbx s f).upd = s.upd := rfl
@[simp] theorem State.updMbx_vault (s : State) (f : MbxState → MbxState) : (State.updMbx s f).vault = s.vault := rfl
@[simp] theorem State.updMbx_draws (s : State) (f : MbxState → MbxState) : (State.updMbx s f).draws = s.draws := rfl
@[simp] theorem State.updMbx_pending (s : State) (f : MbxState → MbxState) : (State.updMbx s f).pending = s.pending := rfl

/-! State.updPwr changes pwr. -/

@[simp] theorem State.updPwr_blk (s : State) (f : PwrState → PwrState) : (State.updPwr s f).blk = s.blk := rfl
@[simp] theorem State.updPwr_cfg (s : State) (f : PwrState → PwrState) : (State.updPwr s f).cfg = s.cfg := rfl
@[simp] theorem State.updPwr_counters (s : State) (f : PwrState → PwrState) : (State.updPwr s f).counters = s.counters := rfl
@[simp] theorem State.updPwr_msix (s : State) (f : PwrState → PwrState) : (State.updPwr s f).msix = s.msix := rfl
@[simp] theorem State.updPwr_msixPending (s : State) (f : PwrState → PwrState) : (State.updPwr s f).msixPending = s.msixPending := rfl
@[simp] theorem State.updPwr_irqs (s : State) (f : PwrState → PwrState) : (State.updPwr s f).irqs = s.irqs := rfl
@[simp] theorem State.updPwr_top (s : State) (f : PwrState → PwrState) : (State.updPwr s f).top = s.top := rfl
@[simp] theorem State.updPwr_evr (s : State) (f : PwrState → PwrState) : (State.updPwr s f).evr = s.evr := rfl
@[simp] theorem State.updPwr_mbx (s : State) (f : PwrState → PwrState) : (State.updPwr s f).mbx = s.mbx := rfl
@[simp] theorem State.updPwr_ubl (s : State) (f : PwrState → PwrState) : (State.updPwr s f).ubl = s.ubl := rfl
@[simp] theorem State.updPwr_link (s : State) (f : PwrState → PwrState) : (State.updPwr s f).link = s.link := rfl
@[simp] theorem State.updPwr_fe (s : State) (f : PwrState → PwrState) : (State.updPwr s f).fe = s.fe := rfl
@[simp] theorem State.updPwr_dp (s : State) (f : PwrState → PwrState) : (State.updPwr s f).dp = s.dp := rfl
@[simp] theorem State.updPwr_map (s : State) (f : PwrState → PwrState) : (State.updPwr s f).map = s.map := rfl
@[simp] theorem State.updPwr_med (s : State) (f : PwrState → PwrState) : (State.updPwr s f).med = s.med := rfl
@[simp] theorem State.updPwr_str (s : State) (f : PwrState → PwrState) : (State.updPwr s f).str = s.str := rfl
@[simp] theorem State.updPwr_mlk (s : State) (f : PwrState → PwrState) : (State.updPwr s f).mlk = s.mlk := rfl
@[simp] theorem State.updPwr_cip (s : State) (f : PwrState → PwrState) : (State.updPwr s f).cip = s.cip := rfl
@[simp] theorem State.updPwr_scr (s : State) (f : PwrState → PwrState) : (State.updPwr s f).scr = s.scr := rfl
@[simp] theorem State.updPwr_rdm (s : State) (f : PwrState → PwrState) : (State.updPwr s f).rdm = s.rdm := rfl
@[simp] theorem State.updPwr_dig (s : State) (f : PwrState → PwrState) : (State.updPwr s f).dig = s.dig := rfl
@[simp] theorem State.updPwr_upd (s : State) (f : PwrState → PwrState) : (State.updPwr s f).upd = s.upd := rfl
@[simp] theorem State.updPwr_vault (s : State) (f : PwrState → PwrState) : (State.updPwr s f).vault = s.vault := rfl
@[simp] theorem State.updPwr_draws (s : State) (f : PwrState → PwrState) : (State.updPwr s f).draws = s.draws := rfl
@[simp] theorem State.updPwr_pending (s : State) (f : PwrState → PwrState) : (State.updPwr s f).pending = s.pending := rfl

/-! State.updUpd changes upd. -/

@[simp] theorem State.updUpd_blk (s : State) (f : UpdState → UpdState) : (State.updUpd s f).blk = s.blk := rfl
@[simp] theorem State.updUpd_cfg (s : State) (f : UpdState → UpdState) : (State.updUpd s f).cfg = s.cfg := rfl
@[simp] theorem State.updUpd_counters (s : State) (f : UpdState → UpdState) : (State.updUpd s f).counters = s.counters := rfl
@[simp] theorem State.updUpd_msix (s : State) (f : UpdState → UpdState) : (State.updUpd s f).msix = s.msix := rfl
@[simp] theorem State.updUpd_msixPending (s : State) (f : UpdState → UpdState) : (State.updUpd s f).msixPending = s.msixPending := rfl
@[simp] theorem State.updUpd_irqs (s : State) (f : UpdState → UpdState) : (State.updUpd s f).irqs = s.irqs := rfl
@[simp] theorem State.updUpd_top (s : State) (f : UpdState → UpdState) : (State.updUpd s f).top = s.top := rfl
@[simp] theorem State.updUpd_evr (s : State) (f : UpdState → UpdState) : (State.updUpd s f).evr = s.evr := rfl
@[simp] theorem State.updUpd_mbx (s : State) (f : UpdState → UpdState) : (State.updUpd s f).mbx = s.mbx := rfl
@[simp] theorem State.updUpd_ubl (s : State) (f : UpdState → UpdState) : (State.updUpd s f).ubl = s.ubl := rfl
@[simp] theorem State.updUpd_link (s : State) (f : UpdState → UpdState) : (State.updUpd s f).link = s.link := rfl
@[simp] theorem State.updUpd_fe (s : State) (f : UpdState → UpdState) : (State.updUpd s f).fe = s.fe := rfl
@[simp] theorem State.updUpd_dp (s : State) (f : UpdState → UpdState) : (State.updUpd s f).dp = s.dp := rfl
@[simp] theorem State.updUpd_map (s : State) (f : UpdState → UpdState) : (State.updUpd s f).map = s.map := rfl
@[simp] theorem State.updUpd_med (s : State) (f : UpdState → UpdState) : (State.updUpd s f).med = s.med := rfl
@[simp] theorem State.updUpd_str (s : State) (f : UpdState → UpdState) : (State.updUpd s f).str = s.str := rfl
@[simp] theorem State.updUpd_mlk (s : State) (f : UpdState → UpdState) : (State.updUpd s f).mlk = s.mlk := rfl
@[simp] theorem State.updUpd_cip (s : State) (f : UpdState → UpdState) : (State.updUpd s f).cip = s.cip := rfl
@[simp] theorem State.updUpd_pwr (s : State) (f : UpdState → UpdState) : (State.updUpd s f).pwr = s.pwr := rfl
@[simp] theorem State.updUpd_scr (s : State) (f : UpdState → UpdState) : (State.updUpd s f).scr = s.scr := rfl
@[simp] theorem State.updUpd_rdm (s : State) (f : UpdState → UpdState) : (State.updUpd s f).rdm = s.rdm := rfl
@[simp] theorem State.updUpd_dig (s : State) (f : UpdState → UpdState) : (State.updUpd s f).dig = s.dig := rfl
@[simp] theorem State.updUpd_vault (s : State) (f : UpdState → UpdState) : (State.updUpd s f).vault = s.vault := rfl
@[simp] theorem State.updUpd_draws (s : State) (f : UpdState → UpdState) : (State.updUpd s f).draws = s.draws := rfl
@[simp] theorem State.updUpd_pending (s : State) (f : UpdState → UpdState) : (State.updUpd s f).pending = s.pending := rfl

/-! State.updEvr changes evr. -/

@[simp] theorem State.updEvr_blk (s : State) (f : EvrState → EvrState) : (State.updEvr s f).blk = s.blk := rfl
@[simp] theorem State.updEvr_cfg (s : State) (f : EvrState → EvrState) : (State.updEvr s f).cfg = s.cfg := rfl
@[simp] theorem State.updEvr_counters (s : State) (f : EvrState → EvrState) : (State.updEvr s f).counters = s.counters := rfl
@[simp] theorem State.updEvr_msix (s : State) (f : EvrState → EvrState) : (State.updEvr s f).msix = s.msix := rfl
@[simp] theorem State.updEvr_msixPending (s : State) (f : EvrState → EvrState) : (State.updEvr s f).msixPending = s.msixPending := rfl
@[simp] theorem State.updEvr_irqs (s : State) (f : EvrState → EvrState) : (State.updEvr s f).irqs = s.irqs := rfl
@[simp] theorem State.updEvr_top (s : State) (f : EvrState → EvrState) : (State.updEvr s f).top = s.top := rfl
@[simp] theorem State.updEvr_mbx (s : State) (f : EvrState → EvrState) : (State.updEvr s f).mbx = s.mbx := rfl
@[simp] theorem State.updEvr_ubl (s : State) (f : EvrState → EvrState) : (State.updEvr s f).ubl = s.ubl := rfl
@[simp] theorem State.updEvr_link (s : State) (f : EvrState → EvrState) : (State.updEvr s f).link = s.link := rfl
@[simp] theorem State.updEvr_fe (s : State) (f : EvrState → EvrState) : (State.updEvr s f).fe = s.fe := rfl
@[simp] theorem State.updEvr_dp (s : State) (f : EvrState → EvrState) : (State.updEvr s f).dp = s.dp := rfl
@[simp] theorem State.updEvr_map (s : State) (f : EvrState → EvrState) : (State.updEvr s f).map = s.map := rfl
@[simp] theorem State.updEvr_med (s : State) (f : EvrState → EvrState) : (State.updEvr s f).med = s.med := rfl
@[simp] theorem State.updEvr_str (s : State) (f : EvrState → EvrState) : (State.updEvr s f).str = s.str := rfl
@[simp] theorem State.updEvr_mlk (s : State) (f : EvrState → EvrState) : (State.updEvr s f).mlk = s.mlk := rfl
@[simp] theorem State.updEvr_cip (s : State) (f : EvrState → EvrState) : (State.updEvr s f).cip = s.cip := rfl
@[simp] theorem State.updEvr_pwr (s : State) (f : EvrState → EvrState) : (State.updEvr s f).pwr = s.pwr := rfl
@[simp] theorem State.updEvr_scr (s : State) (f : EvrState → EvrState) : (State.updEvr s f).scr = s.scr := rfl
@[simp] theorem State.updEvr_rdm (s : State) (f : EvrState → EvrState) : (State.updEvr s f).rdm = s.rdm := rfl
@[simp] theorem State.updEvr_dig (s : State) (f : EvrState → EvrState) : (State.updEvr s f).dig = s.dig := rfl
@[simp] theorem State.updEvr_upd (s : State) (f : EvrState → EvrState) : (State.updEvr s f).upd = s.upd := rfl
@[simp] theorem State.updEvr_vault (s : State) (f : EvrState → EvrState) : (State.updEvr s f).vault = s.vault := rfl
@[simp] theorem State.updEvr_draws (s : State) (f : EvrState → EvrState) : (State.updEvr s f).draws = s.draws := rfl
@[simp] theorem State.updEvr_pending (s : State) (f : EvrState → EvrState) : (State.updEvr s f).pending = s.pending := rfl

/-! State.updTop changes top. -/

@[simp] theorem State.updTop_blk (s : State) (f : TopState → TopState) : (State.updTop s f).blk = s.blk := rfl
@[simp] theorem State.updTop_cfg (s : State) (f : TopState → TopState) : (State.updTop s f).cfg = s.cfg := rfl
@[simp] theorem State.updTop_counters (s : State) (f : TopState → TopState) : (State.updTop s f).counters = s.counters := rfl
@[simp] theorem State.updTop_msix (s : State) (f : TopState → TopState) : (State.updTop s f).msix = s.msix := rfl
@[simp] theorem State.updTop_msixPending (s : State) (f : TopState → TopState) : (State.updTop s f).msixPending = s.msixPending := rfl
@[simp] theorem State.updTop_irqs (s : State) (f : TopState → TopState) : (State.updTop s f).irqs = s.irqs := rfl
@[simp] theorem State.updTop_evr (s : State) (f : TopState → TopState) : (State.updTop s f).evr = s.evr := rfl
@[simp] theorem State.updTop_mbx (s : State) (f : TopState → TopState) : (State.updTop s f).mbx = s.mbx := rfl
@[simp] theorem State.updTop_ubl (s : State) (f : TopState → TopState) : (State.updTop s f).ubl = s.ubl := rfl
@[simp] theorem State.updTop_link (s : State) (f : TopState → TopState) : (State.updTop s f).link = s.link := rfl
@[simp] theorem State.updTop_fe (s : State) (f : TopState → TopState) : (State.updTop s f).fe = s.fe := rfl
@[simp] theorem State.updTop_dp (s : State) (f : TopState → TopState) : (State.updTop s f).dp = s.dp := rfl
@[simp] theorem State.updTop_map (s : State) (f : TopState → TopState) : (State.updTop s f).map = s.map := rfl
@[simp] theorem State.updTop_med (s : State) (f : TopState → TopState) : (State.updTop s f).med = s.med := rfl
@[simp] theorem State.updTop_str (s : State) (f : TopState → TopState) : (State.updTop s f).str = s.str := rfl
@[simp] theorem State.updTop_mlk (s : State) (f : TopState → TopState) : (State.updTop s f).mlk = s.mlk := rfl
@[simp] theorem State.updTop_cip (s : State) (f : TopState → TopState) : (State.updTop s f).cip = s.cip := rfl
@[simp] theorem State.updTop_pwr (s : State) (f : TopState → TopState) : (State.updTop s f).pwr = s.pwr := rfl
@[simp] theorem State.updTop_scr (s : State) (f : TopState → TopState) : (State.updTop s f).scr = s.scr := rfl
@[simp] theorem State.updTop_rdm (s : State) (f : TopState → TopState) : (State.updTop s f).rdm = s.rdm := rfl
@[simp] theorem State.updTop_dig (s : State) (f : TopState → TopState) : (State.updTop s f).dig = s.dig := rfl
@[simp] theorem State.updTop_upd (s : State) (f : TopState → TopState) : (State.updTop s f).upd = s.upd := rfl
@[simp] theorem State.updTop_vault (s : State) (f : TopState → TopState) : (State.updTop s f).vault = s.vault := rfl
@[simp] theorem State.updTop_draws (s : State) (f : TopState → TopState) : (State.updTop s f).draws = s.draws := rfl
@[simp] theorem State.updTop_pending (s : State) (f : TopState → TopState) : (State.updTop s f).pending = s.pending := rfl

/-! State.setSlot changes cip. -/

@[simp] theorem State.setSlot_blk (s : State) (n : Nat) (k : KSlot) : (State.setSlot s n k).blk = s.blk := rfl
@[simp] theorem State.setSlot_cfg (s : State) (n : Nat) (k : KSlot) : (State.setSlot s n k).cfg = s.cfg := rfl
@[simp] theorem State.setSlot_counters (s : State) (n : Nat) (k : KSlot) : (State.setSlot s n k).counters = s.counters := rfl
@[simp] theorem State.setSlot_msix (s : State) (n : Nat) (k : KSlot) : (State.setSlot s n k).msix = s.msix := rfl
@[simp] theorem State.setSlot_msixPending (s : State) (n : Nat) (k : KSlot) : (State.setSlot s n k).msixPending = s.msixPending := rfl
@[simp] theorem State.setSlot_irqs (s : State) (n : Nat) (k : KSlot) : (State.setSlot s n k).irqs = s.irqs := rfl
@[simp] theorem State.setSlot_top (s : State) (n : Nat) (k : KSlot) : (State.setSlot s n k).top = s.top := rfl
@[simp] theorem State.setSlot_evr (s : State) (n : Nat) (k : KSlot) : (State.setSlot s n k).evr = s.evr := rfl
@[simp] theorem State.setSlot_mbx (s : State) (n : Nat) (k : KSlot) : (State.setSlot s n k).mbx = s.mbx := rfl
@[simp] theorem State.setSlot_ubl (s : State) (n : Nat) (k : KSlot) : (State.setSlot s n k).ubl = s.ubl := rfl
@[simp] theorem State.setSlot_link (s : State) (n : Nat) (k : KSlot) : (State.setSlot s n k).link = s.link := rfl
@[simp] theorem State.setSlot_fe (s : State) (n : Nat) (k : KSlot) : (State.setSlot s n k).fe = s.fe := rfl
@[simp] theorem State.setSlot_dp (s : State) (n : Nat) (k : KSlot) : (State.setSlot s n k).dp = s.dp := rfl
@[simp] theorem State.setSlot_map (s : State) (n : Nat) (k : KSlot) : (State.setSlot s n k).map = s.map := rfl
@[simp] theorem State.setSlot_med (s : State) (n : Nat) (k : KSlot) : (State.setSlot s n k).med = s.med := rfl
@[simp] theorem State.setSlot_str (s : State) (n : Nat) (k : KSlot) : (State.setSlot s n k).str = s.str := rfl
@[simp] theorem State.setSlot_mlk (s : State) (n : Nat) (k : KSlot) : (State.setSlot s n k).mlk = s.mlk := rfl
@[simp] theorem State.setSlot_pwr (s : State) (n : Nat) (k : KSlot) : (State.setSlot s n k).pwr = s.pwr := rfl
@[simp] theorem State.setSlot_scr (s : State) (n : Nat) (k : KSlot) : (State.setSlot s n k).scr = s.scr := rfl
@[simp] theorem State.setSlot_rdm (s : State) (n : Nat) (k : KSlot) : (State.setSlot s n k).rdm = s.rdm := rfl
@[simp] theorem State.setSlot_dig (s : State) (n : Nat) (k : KSlot) : (State.setSlot s n k).dig = s.dig := rfl
@[simp] theorem State.setSlot_upd (s : State) (n : Nat) (k : KSlot) : (State.setSlot s n k).upd = s.upd := rfl
@[simp] theorem State.setSlot_vault (s : State) (n : Nat) (k : KSlot) : (State.setSlot s n k).vault = s.vault := rfl
@[simp] theorem State.setSlot_draws (s : State) (n : Nat) (k : KSlot) : (State.setSlot s n k).draws = s.draws := rfl
@[simp] theorem State.setSlot_pending (s : State) (n : Nat) (k : KSlot) : (State.setSlot s n k).pending = s.pending := rfl

/-! State.setPage changes cip. -/

@[simp] theorem State.setPage_blk (s : State) (p : Nat) (u : UPage) : (State.setPage s p u).blk = s.blk := rfl
@[simp] theorem State.setPage_cfg (s : State) (p : Nat) (u : UPage) : (State.setPage s p u).cfg = s.cfg := rfl
@[simp] theorem State.setPage_counters (s : State) (p : Nat) (u : UPage) : (State.setPage s p u).counters = s.counters := rfl
@[simp] theorem State.setPage_msix (s : State) (p : Nat) (u : UPage) : (State.setPage s p u).msix = s.msix := rfl
@[simp] theorem State.setPage_msixPending (s : State) (p : Nat) (u : UPage) : (State.setPage s p u).msixPending = s.msixPending := rfl
@[simp] theorem State.setPage_irqs (s : State) (p : Nat) (u : UPage) : (State.setPage s p u).irqs = s.irqs := rfl
@[simp] theorem State.setPage_top (s : State) (p : Nat) (u : UPage) : (State.setPage s p u).top = s.top := rfl
@[simp] theorem State.setPage_evr (s : State) (p : Nat) (u : UPage) : (State.setPage s p u).evr = s.evr := rfl
@[simp] theorem State.setPage_mbx (s : State) (p : Nat) (u : UPage) : (State.setPage s p u).mbx = s.mbx := rfl
@[simp] theorem State.setPage_ubl (s : State) (p : Nat) (u : UPage) : (State.setPage s p u).ubl = s.ubl := rfl
@[simp] theorem State.setPage_link (s : State) (p : Nat) (u : UPage) : (State.setPage s p u).link = s.link := rfl
@[simp] theorem State.setPage_fe (s : State) (p : Nat) (u : UPage) : (State.setPage s p u).fe = s.fe := rfl
@[simp] theorem State.setPage_dp (s : State) (p : Nat) (u : UPage) : (State.setPage s p u).dp = s.dp := rfl
@[simp] theorem State.setPage_map (s : State) (p : Nat) (u : UPage) : (State.setPage s p u).map = s.map := rfl
@[simp] theorem State.setPage_med (s : State) (p : Nat) (u : UPage) : (State.setPage s p u).med = s.med := rfl
@[simp] theorem State.setPage_str (s : State) (p : Nat) (u : UPage) : (State.setPage s p u).str = s.str := rfl
@[simp] theorem State.setPage_mlk (s : State) (p : Nat) (u : UPage) : (State.setPage s p u).mlk = s.mlk := rfl
@[simp] theorem State.setPage_pwr (s : State) (p : Nat) (u : UPage) : (State.setPage s p u).pwr = s.pwr := rfl
@[simp] theorem State.setPage_scr (s : State) (p : Nat) (u : UPage) : (State.setPage s p u).scr = s.scr := rfl
@[simp] theorem State.setPage_rdm (s : State) (p : Nat) (u : UPage) : (State.setPage s p u).rdm = s.rdm := rfl
@[simp] theorem State.setPage_dig (s : State) (p : Nat) (u : UPage) : (State.setPage s p u).dig = s.dig := rfl
@[simp] theorem State.setPage_upd (s : State) (p : Nat) (u : UPage) : (State.setPage s p u).upd = s.upd := rfl
@[simp] theorem State.setPage_vault (s : State) (p : Nat) (u : UPage) : (State.setPage s p u).vault = s.vault := rfl
@[simp] theorem State.setPage_draws (s : State) (p : Nat) (u : UPage) : (State.setPage s p u).draws = s.draws := rfl
@[simp] theorem State.setPage_pending (s : State) (p : Nat) (u : UPage) : (State.setPage s p u).pending = s.pending := rfl

/-! State.setLoop changes scr. -/

@[simp] theorem State.setLoop_blk (s : State) (n : Nat) (l : Loop) : (State.setLoop s n l).blk = s.blk := rfl
@[simp] theorem State.setLoop_cfg (s : State) (n : Nat) (l : Loop) : (State.setLoop s n l).cfg = s.cfg := rfl
@[simp] theorem State.setLoop_counters (s : State) (n : Nat) (l : Loop) : (State.setLoop s n l).counters = s.counters := rfl
@[simp] theorem State.setLoop_msix (s : State) (n : Nat) (l : Loop) : (State.setLoop s n l).msix = s.msix := rfl
@[simp] theorem State.setLoop_msixPending (s : State) (n : Nat) (l : Loop) : (State.setLoop s n l).msixPending = s.msixPending := rfl
@[simp] theorem State.setLoop_irqs (s : State) (n : Nat) (l : Loop) : (State.setLoop s n l).irqs = s.irqs := rfl
@[simp] theorem State.setLoop_top (s : State) (n : Nat) (l : Loop) : (State.setLoop s n l).top = s.top := rfl
@[simp] theorem State.setLoop_evr (s : State) (n : Nat) (l : Loop) : (State.setLoop s n l).evr = s.evr := rfl
@[simp] theorem State.setLoop_mbx (s : State) (n : Nat) (l : Loop) : (State.setLoop s n l).mbx = s.mbx := rfl
@[simp] theorem State.setLoop_ubl (s : State) (n : Nat) (l : Loop) : (State.setLoop s n l).ubl = s.ubl := rfl
@[simp] theorem State.setLoop_link (s : State) (n : Nat) (l : Loop) : (State.setLoop s n l).link = s.link := rfl
@[simp] theorem State.setLoop_fe (s : State) (n : Nat) (l : Loop) : (State.setLoop s n l).fe = s.fe := rfl
@[simp] theorem State.setLoop_dp (s : State) (n : Nat) (l : Loop) : (State.setLoop s n l).dp = s.dp := rfl
@[simp] theorem State.setLoop_map (s : State) (n : Nat) (l : Loop) : (State.setLoop s n l).map = s.map := rfl
@[simp] theorem State.setLoop_med (s : State) (n : Nat) (l : Loop) : (State.setLoop s n l).med = s.med := rfl
@[simp] theorem State.setLoop_str (s : State) (n : Nat) (l : Loop) : (State.setLoop s n l).str = s.str := rfl
@[simp] theorem State.setLoop_mlk (s : State) (n : Nat) (l : Loop) : (State.setLoop s n l).mlk = s.mlk := rfl
@[simp] theorem State.setLoop_cip (s : State) (n : Nat) (l : Loop) : (State.setLoop s n l).cip = s.cip := rfl
@[simp] theorem State.setLoop_pwr (s : State) (n : Nat) (l : Loop) : (State.setLoop s n l).pwr = s.pwr := rfl
@[simp] theorem State.setLoop_rdm (s : State) (n : Nat) (l : Loop) : (State.setLoop s n l).rdm = s.rdm := rfl
@[simp] theorem State.setLoop_dig (s : State) (n : Nat) (l : Loop) : (State.setLoop s n l).dig = s.dig := rfl
@[simp] theorem State.setLoop_upd (s : State) (n : Nat) (l : Loop) : (State.setLoop s n l).upd = s.upd := rfl
@[simp] theorem State.setLoop_vault (s : State) (n : Nat) (l : Loop) : (State.setLoop s n l).vault = s.vault := rfl
@[simp] theorem State.setLoop_draws (s : State) (n : Nat) (l : Loop) : (State.setLoop s n l).draws = s.draws := rfl
@[simp] theorem State.setLoop_pending (s : State) (n : Nat) (l : Loop) : (State.setLoop s n l).pending = s.pending := rfl

/-! State.pageRaise changes cip, msixPending, irqs. -/

@[simp] theorem State.pageRaise_blk (s : State) (p : Nat) (bit : Nat) : (State.pageRaise s p bit).blk = s.blk := by unfold State.pageRaise; dsimp only; split <;> simp
@[simp] theorem State.pageRaise_cfg (s : State) (p : Nat) (bit : Nat) : (State.pageRaise s p bit).cfg = s.cfg := by unfold State.pageRaise; dsimp only; split <;> simp
@[simp] theorem State.pageRaise_counters (s : State) (p : Nat) (bit : Nat) : (State.pageRaise s p bit).counters = s.counters := by unfold State.pageRaise; dsimp only; split <;> simp
@[simp] theorem State.pageRaise_msix (s : State) (p : Nat) (bit : Nat) : (State.pageRaise s p bit).msix = s.msix := by unfold State.pageRaise; dsimp only; split <;> simp
@[simp] theorem State.pageRaise_top (s : State) (p : Nat) (bit : Nat) : (State.pageRaise s p bit).top = s.top := by unfold State.pageRaise; dsimp only; split <;> simp
@[simp] theorem State.pageRaise_evr (s : State) (p : Nat) (bit : Nat) : (State.pageRaise s p bit).evr = s.evr := by unfold State.pageRaise; dsimp only; split <;> simp
@[simp] theorem State.pageRaise_mbx (s : State) (p : Nat) (bit : Nat) : (State.pageRaise s p bit).mbx = s.mbx := by unfold State.pageRaise; dsimp only; split <;> simp
@[simp] theorem State.pageRaise_ubl (s : State) (p : Nat) (bit : Nat) : (State.pageRaise s p bit).ubl = s.ubl := by unfold State.pageRaise; dsimp only; split <;> simp
@[simp] theorem State.pageRaise_link (s : State) (p : Nat) (bit : Nat) : (State.pageRaise s p bit).link = s.link := by unfold State.pageRaise; dsimp only; split <;> simp
@[simp] theorem State.pageRaise_fe (s : State) (p : Nat) (bit : Nat) : (State.pageRaise s p bit).fe = s.fe := by unfold State.pageRaise; dsimp only; split <;> simp
@[simp] theorem State.pageRaise_dp (s : State) (p : Nat) (bit : Nat) : (State.pageRaise s p bit).dp = s.dp := by unfold State.pageRaise; dsimp only; split <;> simp
@[simp] theorem State.pageRaise_map (s : State) (p : Nat) (bit : Nat) : (State.pageRaise s p bit).map = s.map := by unfold State.pageRaise; dsimp only; split <;> simp
@[simp] theorem State.pageRaise_med (s : State) (p : Nat) (bit : Nat) : (State.pageRaise s p bit).med = s.med := by unfold State.pageRaise; dsimp only; split <;> simp
@[simp] theorem State.pageRaise_str (s : State) (p : Nat) (bit : Nat) : (State.pageRaise s p bit).str = s.str := by unfold State.pageRaise; dsimp only; split <;> simp
@[simp] theorem State.pageRaise_mlk (s : State) (p : Nat) (bit : Nat) : (State.pageRaise s p bit).mlk = s.mlk := by unfold State.pageRaise; dsimp only; split <;> simp
@[simp] theorem State.pageRaise_pwr (s : State) (p : Nat) (bit : Nat) : (State.pageRaise s p bit).pwr = s.pwr := by unfold State.pageRaise; dsimp only; split <;> simp
@[simp] theorem State.pageRaise_scr (s : State) (p : Nat) (bit : Nat) : (State.pageRaise s p bit).scr = s.scr := by unfold State.pageRaise; dsimp only; split <;> simp
@[simp] theorem State.pageRaise_rdm (s : State) (p : Nat) (bit : Nat) : (State.pageRaise s p bit).rdm = s.rdm := by unfold State.pageRaise; dsimp only; split <;> simp
@[simp] theorem State.pageRaise_dig (s : State) (p : Nat) (bit : Nat) : (State.pageRaise s p bit).dig = s.dig := by unfold State.pageRaise; dsimp only; split <;> simp
@[simp] theorem State.pageRaise_upd (s : State) (p : Nat) (bit : Nat) : (State.pageRaise s p bit).upd = s.upd := by unfold State.pageRaise; dsimp only; split <;> simp
@[simp] theorem State.pageRaise_vault (s : State) (p : Nat) (bit : Nat) : (State.pageRaise s p bit).vault = s.vault := by unfold State.pageRaise; dsimp only; split <;> simp
@[simp] theorem State.pageRaise_draws (s : State) (p : Nat) (bit : Nat) : (State.pageRaise s p bit).draws = s.draws := by unfold State.pageRaise; dsimp only; split <;> simp
@[simp] theorem State.pageRaise_pending (s : State) (p : Nat) (bit : Nat) : (State.pageRaise s p bit).pending = s.pending := by unfold State.pageRaise; dsimp only; split <;> simp

/-! State.cplEvents changes cip, msixPending, irqs. -/

@[simp] theorem State.cplEvents_blk (s : State) (p : Nat) (int : Bool) (e : List Byte) : (State.cplEvents s p int e).blk = s.blk := by unfold State.cplEvents; split <;> split <;> simp
@[simp] theorem State.cplEvents_cfg (s : State) (p : Nat) (int : Bool) (e : List Byte) : (State.cplEvents s p int e).cfg = s.cfg := by unfold State.cplEvents; split <;> split <;> simp
@[simp] theorem State.cplEvents_counters (s : State) (p : Nat) (int : Bool) (e : List Byte) : (State.cplEvents s p int e).counters = s.counters := by unfold State.cplEvents; split <;> split <;> simp
@[simp] theorem State.cplEvents_msix (s : State) (p : Nat) (int : Bool) (e : List Byte) : (State.cplEvents s p int e).msix = s.msix := by unfold State.cplEvents; split <;> split <;> simp
@[simp] theorem State.cplEvents_top (s : State) (p : Nat) (int : Bool) (e : List Byte) : (State.cplEvents s p int e).top = s.top := by unfold State.cplEvents; split <;> split <;> simp
@[simp] theorem State.cplEvents_evr (s : State) (p : Nat) (int : Bool) (e : List Byte) : (State.cplEvents s p int e).evr = s.evr := by unfold State.cplEvents; split <;> split <;> simp
@[simp] theorem State.cplEvents_mbx (s : State) (p : Nat) (int : Bool) (e : List Byte) : (State.cplEvents s p int e).mbx = s.mbx := by unfold State.cplEvents; split <;> split <;> simp
@[simp] theorem State.cplEvents_ubl (s : State) (p : Nat) (int : Bool) (e : List Byte) : (State.cplEvents s p int e).ubl = s.ubl := by unfold State.cplEvents; split <;> split <;> simp
@[simp] theorem State.cplEvents_link (s : State) (p : Nat) (int : Bool) (e : List Byte) : (State.cplEvents s p int e).link = s.link := by unfold State.cplEvents; split <;> split <;> simp
@[simp] theorem State.cplEvents_fe (s : State) (p : Nat) (int : Bool) (e : List Byte) : (State.cplEvents s p int e).fe = s.fe := by unfold State.cplEvents; split <;> split <;> simp
@[simp] theorem State.cplEvents_dp (s : State) (p : Nat) (int : Bool) (e : List Byte) : (State.cplEvents s p int e).dp = s.dp := by unfold State.cplEvents; split <;> split <;> simp
@[simp] theorem State.cplEvents_map (s : State) (p : Nat) (int : Bool) (e : List Byte) : (State.cplEvents s p int e).map = s.map := by unfold State.cplEvents; split <;> split <;> simp
@[simp] theorem State.cplEvents_med (s : State) (p : Nat) (int : Bool) (e : List Byte) : (State.cplEvents s p int e).med = s.med := by unfold State.cplEvents; split <;> split <;> simp
@[simp] theorem State.cplEvents_str (s : State) (p : Nat) (int : Bool) (e : List Byte) : (State.cplEvents s p int e).str = s.str := by unfold State.cplEvents; split <;> split <;> simp
@[simp] theorem State.cplEvents_mlk (s : State) (p : Nat) (int : Bool) (e : List Byte) : (State.cplEvents s p int e).mlk = s.mlk := by unfold State.cplEvents; split <;> split <;> simp
@[simp] theorem State.cplEvents_pwr (s : State) (p : Nat) (int : Bool) (e : List Byte) : (State.cplEvents s p int e).pwr = s.pwr := by unfold State.cplEvents; split <;> split <;> simp
@[simp] theorem State.cplEvents_scr (s : State) (p : Nat) (int : Bool) (e : List Byte) : (State.cplEvents s p int e).scr = s.scr := by unfold State.cplEvents; split <;> split <;> simp
@[simp] theorem State.cplEvents_rdm (s : State) (p : Nat) (int : Bool) (e : List Byte) : (State.cplEvents s p int e).rdm = s.rdm := by unfold State.cplEvents; split <;> split <;> simp
@[simp] theorem State.cplEvents_dig (s : State) (p : Nat) (int : Bool) (e : List Byte) : (State.cplEvents s p int e).dig = s.dig := by unfold State.cplEvents; split <;> split <;> simp
@[simp] theorem State.cplEvents_upd (s : State) (p : Nat) (int : Bool) (e : List Byte) : (State.cplEvents s p int e).upd = s.upd := by unfold State.cplEvents; split <;> split <;> simp
@[simp] theorem State.cplEvents_vault (s : State) (p : Nat) (int : Bool) (e : List Byte) : (State.cplEvents s p int e).vault = s.vault := by unfold State.cplEvents; split <;> split <;> simp
@[simp] theorem State.cplEvents_draws (s : State) (p : Nat) (int : Bool) (e : List Byte) : (State.cplEvents s p int e).draws = s.draws := by unfold State.cplEvents; split <;> split <;> simp
@[simp] theorem State.cplEvents_pending (s : State) (p : Nat) (int : Bool) (e : List Byte) : (State.cplEvents s p int e).pending = s.pending := by unfold State.cplEvents; split <;> split <;> simp

/-! State.putCpl changes cip, msixPending, irqs. -/

@[simp] theorem State.putCpl_blk (s : State) (p : Nat) (int : Bool) (e : List Byte) : (State.putCpl s p int e).blk = s.blk := by unfold State.putCpl; dsimp only; split <;> simp
@[simp] theorem State.putCpl_cfg (s : State) (p : Nat) (int : Bool) (e : List Byte) : (State.putCpl s p int e).cfg = s.cfg := by unfold State.putCpl; dsimp only; split <;> simp
@[simp] theorem State.putCpl_counters (s : State) (p : Nat) (int : Bool) (e : List Byte) : (State.putCpl s p int e).counters = s.counters := by unfold State.putCpl; dsimp only; split <;> simp
@[simp] theorem State.putCpl_msix (s : State) (p : Nat) (int : Bool) (e : List Byte) : (State.putCpl s p int e).msix = s.msix := by unfold State.putCpl; dsimp only; split <;> simp
@[simp] theorem State.putCpl_top (s : State) (p : Nat) (int : Bool) (e : List Byte) : (State.putCpl s p int e).top = s.top := by unfold State.putCpl; dsimp only; split <;> simp
@[simp] theorem State.putCpl_evr (s : State) (p : Nat) (int : Bool) (e : List Byte) : (State.putCpl s p int e).evr = s.evr := by unfold State.putCpl; dsimp only; split <;> simp
@[simp] theorem State.putCpl_mbx (s : State) (p : Nat) (int : Bool) (e : List Byte) : (State.putCpl s p int e).mbx = s.mbx := by unfold State.putCpl; dsimp only; split <;> simp
@[simp] theorem State.putCpl_ubl (s : State) (p : Nat) (int : Bool) (e : List Byte) : (State.putCpl s p int e).ubl = s.ubl := by unfold State.putCpl; dsimp only; split <;> simp
@[simp] theorem State.putCpl_link (s : State) (p : Nat) (int : Bool) (e : List Byte) : (State.putCpl s p int e).link = s.link := by unfold State.putCpl; dsimp only; split <;> simp
@[simp] theorem State.putCpl_fe (s : State) (p : Nat) (int : Bool) (e : List Byte) : (State.putCpl s p int e).fe = s.fe := by unfold State.putCpl; dsimp only; split <;> simp
@[simp] theorem State.putCpl_dp (s : State) (p : Nat) (int : Bool) (e : List Byte) : (State.putCpl s p int e).dp = s.dp := by unfold State.putCpl; dsimp only; split <;> simp
@[simp] theorem State.putCpl_map (s : State) (p : Nat) (int : Bool) (e : List Byte) : (State.putCpl s p int e).map = s.map := by unfold State.putCpl; dsimp only; split <;> simp
@[simp] theorem State.putCpl_med (s : State) (p : Nat) (int : Bool) (e : List Byte) : (State.putCpl s p int e).med = s.med := by unfold State.putCpl; dsimp only; split <;> simp
@[simp] theorem State.putCpl_str (s : State) (p : Nat) (int : Bool) (e : List Byte) : (State.putCpl s p int e).str = s.str := by unfold State.putCpl; dsimp only; split <;> simp
@[simp] theorem State.putCpl_mlk (s : State) (p : Nat) (int : Bool) (e : List Byte) : (State.putCpl s p int e).mlk = s.mlk := by unfold State.putCpl; dsimp only; split <;> simp
@[simp] theorem State.putCpl_pwr (s : State) (p : Nat) (int : Bool) (e : List Byte) : (State.putCpl s p int e).pwr = s.pwr := by unfold State.putCpl; dsimp only; split <;> simp
@[simp] theorem State.putCpl_scr (s : State) (p : Nat) (int : Bool) (e : List Byte) : (State.putCpl s p int e).scr = s.scr := by unfold State.putCpl; dsimp only; split <;> simp
@[simp] theorem State.putCpl_rdm (s : State) (p : Nat) (int : Bool) (e : List Byte) : (State.putCpl s p int e).rdm = s.rdm := by unfold State.putCpl; dsimp only; split <;> simp
@[simp] theorem State.putCpl_dig (s : State) (p : Nat) (int : Bool) (e : List Byte) : (State.putCpl s p int e).dig = s.dig := by unfold State.putCpl; dsimp only; split <;> simp
@[simp] theorem State.putCpl_upd (s : State) (p : Nat) (int : Bool) (e : List Byte) : (State.putCpl s p int e).upd = s.upd := by unfold State.putCpl; dsimp only; split <;> simp
@[simp] theorem State.putCpl_vault (s : State) (p : Nat) (int : Bool) (e : List Byte) : (State.putCpl s p int e).vault = s.vault := by unfold State.putCpl; dsimp only; split <;> simp
@[simp] theorem State.putCpl_draws (s : State) (p : Nat) (int : Bool) (e : List Byte) : (State.putCpl s p int e).draws = s.draws := by unfold State.putCpl; dsimp only; split <;> simp
@[simp] theorem State.putCpl_pending (s : State) (p : Nat) (int : Bool) (e : List Byte) : (State.putCpl s p int e).pending = s.pending := by unfold State.putCpl; dsimp only; split <;> simp

/-! State.dma changes cip. -/

@[simp] theorem State.dma_blk (s : State) (addr : Nat) (b : List Byte) : (State.dma s addr b).blk = s.blk := rfl
@[simp] theorem State.dma_cfg (s : State) (addr : Nat) (b : List Byte) : (State.dma s addr b).cfg = s.cfg := rfl
@[simp] theorem State.dma_counters (s : State) (addr : Nat) (b : List Byte) : (State.dma s addr b).counters = s.counters := rfl
@[simp] theorem State.dma_msix (s : State) (addr : Nat) (b : List Byte) : (State.dma s addr b).msix = s.msix := rfl
@[simp] theorem State.dma_msixPending (s : State) (addr : Nat) (b : List Byte) : (State.dma s addr b).msixPending = s.msixPending := rfl
@[simp] theorem State.dma_irqs (s : State) (addr : Nat) (b : List Byte) : (State.dma s addr b).irqs = s.irqs := rfl
@[simp] theorem State.dma_top (s : State) (addr : Nat) (b : List Byte) : (State.dma s addr b).top = s.top := rfl
@[simp] theorem State.dma_evr (s : State) (addr : Nat) (b : List Byte) : (State.dma s addr b).evr = s.evr := rfl
@[simp] theorem State.dma_mbx (s : State) (addr : Nat) (b : List Byte) : (State.dma s addr b).mbx = s.mbx := rfl
@[simp] theorem State.dma_ubl (s : State) (addr : Nat) (b : List Byte) : (State.dma s addr b).ubl = s.ubl := rfl
@[simp] theorem State.dma_link (s : State) (addr : Nat) (b : List Byte) : (State.dma s addr b).link = s.link := rfl
@[simp] theorem State.dma_fe (s : State) (addr : Nat) (b : List Byte) : (State.dma s addr b).fe = s.fe := rfl
@[simp] theorem State.dma_dp (s : State) (addr : Nat) (b : List Byte) : (State.dma s addr b).dp = s.dp := rfl
@[simp] theorem State.dma_map (s : State) (addr : Nat) (b : List Byte) : (State.dma s addr b).map = s.map := rfl
@[simp] theorem State.dma_med (s : State) (addr : Nat) (b : List Byte) : (State.dma s addr b).med = s.med := rfl
@[simp] theorem State.dma_str (s : State) (addr : Nat) (b : List Byte) : (State.dma s addr b).str = s.str := rfl
@[simp] theorem State.dma_mlk (s : State) (addr : Nat) (b : List Byte) : (State.dma s addr b).mlk = s.mlk := rfl
@[simp] theorem State.dma_pwr (s : State) (addr : Nat) (b : List Byte) : (State.dma s addr b).pwr = s.pwr := rfl
@[simp] theorem State.dma_scr (s : State) (addr : Nat) (b : List Byte) : (State.dma s addr b).scr = s.scr := rfl
@[simp] theorem State.dma_rdm (s : State) (addr : Nat) (b : List Byte) : (State.dma s addr b).rdm = s.rdm := rfl
@[simp] theorem State.dma_dig (s : State) (addr : Nat) (b : List Byte) : (State.dma s addr b).dig = s.dig := rfl
@[simp] theorem State.dma_upd (s : State) (addr : Nat) (b : List Byte) : (State.dma s addr b).upd = s.upd := rfl
@[simp] theorem State.dma_vault (s : State) (addr : Nat) (b : List Byte) : (State.dma s addr b).vault = s.vault := rfl
@[simp] theorem State.dma_draws (s : State) (addr : Nat) (b : List Byte) : (State.dma s addr b).draws = s.draws := rfl
@[simp] theorem State.dma_pending (s : State) (addr : Nat) (b : List Byte) : (State.dma s addr b).pending = s.pending := rfl

/-! State.tx changes rdm, scr. -/

@[simp] theorem State.tx_blk (s : State) (x : RdmTx) : (State.tx s x).blk = s.blk := by
  unfold State.tx State.trace; split <;> rfl
@[simp] theorem State.tx_cfg (s : State) (x : RdmTx) : (State.tx s x).cfg = s.cfg := by
  unfold State.tx State.trace; split <;> rfl
@[simp] theorem State.tx_counters (s : State) (x : RdmTx) : (State.tx s x).counters = s.counters := by
  unfold State.tx State.trace; split <;> rfl
@[simp] theorem State.tx_msix (s : State) (x : RdmTx) : (State.tx s x).msix = s.msix := by
  unfold State.tx State.trace; split <;> rfl
@[simp] theorem State.tx_msixPending (s : State) (x : RdmTx) : (State.tx s x).msixPending = s.msixPending := by
  unfold State.tx State.trace; split <;> rfl
@[simp] theorem State.tx_irqs (s : State) (x : RdmTx) : (State.tx s x).irqs = s.irqs := by
  unfold State.tx State.trace; split <;> rfl
@[simp] theorem State.tx_top (s : State) (x : RdmTx) : (State.tx s x).top = s.top := by
  unfold State.tx State.trace; split <;> rfl
@[simp] theorem State.tx_evr (s : State) (x : RdmTx) : (State.tx s x).evr = s.evr := by
  unfold State.tx State.trace; split <;> rfl
@[simp] theorem State.tx_mbx (s : State) (x : RdmTx) : (State.tx s x).mbx = s.mbx := by
  unfold State.tx State.trace; split <;> rfl
@[simp] theorem State.tx_ubl (s : State) (x : RdmTx) : (State.tx s x).ubl = s.ubl := by
  unfold State.tx State.trace; split <;> rfl
@[simp] theorem State.tx_link (s : State) (x : RdmTx) : (State.tx s x).link = s.link := by
  unfold State.tx State.trace; split <;> rfl
@[simp] theorem State.tx_fe (s : State) (x : RdmTx) : (State.tx s x).fe = s.fe := by
  unfold State.tx State.trace; split <;> rfl
@[simp] theorem State.tx_dp (s : State) (x : RdmTx) : (State.tx s x).dp = s.dp := by
  unfold State.tx State.trace; split <;> rfl
@[simp] theorem State.tx_map (s : State) (x : RdmTx) : (State.tx s x).map = s.map := by
  unfold State.tx State.trace; split <;> rfl
@[simp] theorem State.tx_med (s : State) (x : RdmTx) : (State.tx s x).med = s.med := by
  unfold State.tx State.trace; split <;> rfl
@[simp] theorem State.tx_str (s : State) (x : RdmTx) : (State.tx s x).str = s.str := by
  unfold State.tx State.trace; split <;> rfl
@[simp] theorem State.tx_mlk (s : State) (x : RdmTx) : (State.tx s x).mlk = s.mlk := by
  unfold State.tx State.trace; split <;> rfl
@[simp] theorem State.tx_cip (s : State) (x : RdmTx) : (State.tx s x).cip = s.cip := by
  unfold State.tx State.trace; split <;> rfl
@[simp] theorem State.tx_pwr (s : State) (x : RdmTx) : (State.tx s x).pwr = s.pwr := by
  unfold State.tx State.trace; split <;> rfl
@[simp] theorem State.tx_dig (s : State) (x : RdmTx) : (State.tx s x).dig = s.dig := by
  unfold State.tx State.trace; split <;> rfl
@[simp] theorem State.tx_upd (s : State) (x : RdmTx) : (State.tx s x).upd = s.upd := by
  unfold State.tx State.trace; split <;> rfl
@[simp] theorem State.tx_vault (s : State) (x : RdmTx) : (State.tx s x).vault = s.vault := by
  unfold State.tx State.trace; split <;> rfl
@[simp] theorem State.tx_draws (s : State) (x : RdmTx) : (State.tx s x).draws = s.draws := by
  unfold State.tx State.trace; split <;> rfl
@[simp] theorem State.tx_pending (s : State) (x : RdmTx) : (State.tx s x).pending = s.pending := by
  unfold State.tx State.trace; split <;> rfl

@[simp] theorem State.tx_rdm (s : State) (x : RdmTx) : (State.tx s x).rdm = { s.rdm with sent := s.rdm.sent ++ [x] } := by
  unfold State.tx State.trace; split <;> rfl

@[simp] theorem State.updUbl_ubl (s : State) (f : UblState → UblState) : (s.updUbl f).ubl = f s.ubl := rfl
@[simp] theorem State.updFe_fe (s : State) (f : FeState → FeState) : (s.updFe f).fe = f s.fe := rfl
@[simp] theorem State.updDp_dp (s : State) (f : DpState → DpState) : (s.updDp f).dp = f s.dp := rfl
@[simp] theorem State.updRdm_rdm (s : State) (f : RdmState → RdmState) : (s.updRdm f).rdm = f s.rdm := rfl
@[simp] theorem State.updCip_cip (s : State) (f : CipState → CipState) : (s.updCip f).cip = f s.cip := rfl
@[simp] theorem State.updStr_str (s : State) (f : StrState → StrState) : (s.updStr f).str = f s.str := rfl
@[simp] theorem State.updMed_med (s : State) (f : MedState → MedState) : (s.updMed f).med = f s.med := rfl
@[simp] theorem State.updMap_map (s : State) (f : MapState → MapState) : (s.updMap f).map = f s.map := rfl
@[simp] theorem State.updMlk_mlk (s : State) (f : MlkState → MlkState) : (s.updMlk f).mlk = f s.mlk := rfl
@[simp] theorem State.updDig_dig (s : State) (f : DigState → DigState) : (s.updDig f).dig = f s.dig := rfl
@[simp] theorem State.updMbx_mbx (s : State) (f : MbxState → MbxState) : (s.updMbx f).mbx = f s.mbx := rfl
@[simp] theorem State.updPwr_pwr (s : State) (f : PwrState → PwrState) : (s.updPwr f).pwr = f s.pwr := rfl
@[simp] theorem State.updUpd_upd (s : State) (f : UpdState → UpdState) : (s.updUpd f).upd = f s.upd := rfl
@[simp] theorem State.updEvr_evr (s : State) (f : EvrState → EvrState) : (s.updEvr f).evr = f s.evr := rfl
@[simp] theorem State.updTop_top (s : State) (f : TopState → TopState) : (s.updTop f).top = f s.top := rfl

/-- Raising an event sets its bit with the next SEQ (R356). -/
theorem State.raise_raisedBy (s : State) (b : Blk) (bit : Nat) : (s.raise b bit).raisedBy s b bit := by
  unfold State.raise State.raisedBy
  split <;> simp [State.updBlk, BlkSt.raise, State.signal] <;> split <;> simp

/-- Nothing changes in a state compared with itself. -/
theorem Only.refl (ps : List Part) (s : State) : Only ps s s := fun p _ => by cases p <;> simp [Part.same]

/-- Changes add up. -/
theorem Only.trans {ps : List Part} {s t u : State} (h1 : Only ps s t) (h2 : Only ps t u) : Only ps s u := by
  intro p hp
  have a := h1 p hp
  have b := h2 p hp
  cases p <;> simp_all [Part.same]

/-- Fewer parts changed is a stronger claim. -/
theorem Only.mono {ps qs : List Part} {s t : State} (h : Only ps s t) (hs : ∀ p ∈ ps, p ∈ qs) : Only qs s t :=
  fun p hp => h p (fun hq => hp (hs p hq))

end Sys2Proof.Machine
end

