-- ==== Sys2Proof/Laws/Commands.lean ====
section
/-!
SUPPORT. What the shared operations of commands do: a mailbox request that runs, a raised event, a claim, a list update.
-/

namespace Sys2Proof.Machine

/-- A request that its command runs is answered by the command's own rules (R373, R375, R376). -/
theorem State.runCmd_takes {s : State} {c op : Nat} {ch : Bool} {r : List Byte} {d : Option SD} {objs : List (Nat × Nat)}
    {names : State → List Byte → Except Nat Names} {f : State → List Byte → Ans}
    (h : s.takesCmd c op r d objs) (hn : names s r = .ok ⟨d, objs⟩) :
    s.runCmd c op ch names f = match f s r with
      | .done rsn data s1 => .next (s1.answerCmd c op ch d r rsn data)
      | .later s1 => .next (s1.updMbx fun m => { m with running := m.running ++ objs }) := by
  obtain ⟨h1, h2, h3, h4⟩ := h
  have hrec : (if ch = true ∧ ridOf r ≠ 0 then s.recorded (ridOf r) else none) = none := by
    rcases h2 with h2 | h2 <;> simp [h2]
  have hany : objs.any (fun o => decide (o ∈ s.mbx.running)) = false := by
    simpa using h4
  cases d with
  | none =>
    simp only [State.runCmd, h1, hrec, hn, hany]
    rfl
  | some x =>
    obtain ⟨ho, hg, hp⟩ := h3 x rfl
    have hp' : ¬ s.top.phase < 6 := Nat.not_lt.mpr hp
    simp only [State.runCmd, h1, hrec, hn, hany, ho, hg, hp']
    rfl

theorem updAt_getElem? {α : Type} (l : List α) (i : Nat) (f : α → α) : (updAt l i f)[i]? = l[i]?.map f := by
  simp [updAt]

/-- An event raised over a state whose common registers are those of `s`. -/
theorem State.raise_raisedBy_of (s u : State) (b : Blk) (bit : Nat) (h : u.blk = s.blk) : (u.raise b bit).raisedBy s b bit := by
  obtain ⟨h1, e, h2⟩ := State.raise_raisedBy u b bit
  exact ⟨by rw [h1, h], e, h2⟩

theorem holder_released (l : List Claim) (r : Nat) :
    (((updAt l r fun c => { c with holder := 0 })[r]?).map (·.holder)).getD 0 = 0 := by
  rw [updAt_getElem?]; cases l[r]? <;> rfl

theorem holder_claimed (l : List Claim) (r h : Nat) (hl : r < l.length) :
    (((updAt l r fun c => { c with holder := h })[r]?).map (·.holder)).getD 0 = h := by
  rw [updAt_getElem?]; simp [hl]

end Sys2Proof.Machine
end

