-- ==== Sys2Proof/Laws/Kept.lean ====
section
/-!
SUPPORT. What the commands leave alone: the queue and the byte memories. Writes of a byte memory keep its canonical form,
and the shape of the laws that say, operation by operation, that these parts stay.
-/

namespace Sys2Proof.Machine

/-- The canonical form, one cell at a time. -/
theorem Memory.wf_cons (k : Nat) (v : Byte) (t : Memory) :
    Memory.wf ((k, v) :: t) = (decide (v ≠ 0) && (match t with | [] => true | (n, _) :: _ => decide (k < n)) && Memory.wf t) := by
  cases t with
  | nil => simp [Memory.wf]
  | cons p t => obtain ⟨n, w⟩ := p; simp [Memory.wf, Bool.and_assoc]

/-- A write keeps the canonical form. -/
theorem Memory.write_wf (m : Memory) (n : Nat) (v : Byte) (h : m.wf = true) : (m.write n v).wf = true := by
  induction m with
  | nil => unfold Memory.write; split <;> simp_all [Memory.wf]
  | cons p t ih =>
    obtain ⟨k, w⟩ := p
    rw [Memory.wf_cons] at h
    unfold Memory.write
    cases t with
    | nil => grind [Memory.wf_cons, Memory.wf, Memory.write]
    | cons q t => obtain ⟨j, x⟩ := q; grind [Memory.wf_cons, Memory.wf, Memory.write]

/-- A write of several bytes keeps the canonical form. -/
theorem Memory.writeAll_wf (m : Memory) (n : Nat) (b : List Byte) (h : m.wf = true) : (m.writeAll n b).wf = true := by
  induction b generalizing m n with
  | nil => exact h
  | cons x b ih => exact ih _ _ (Memory.write_wf _ _ _ h)

/-- What no command but a few touches: the queue and the byte memories. -/
def State.kept (s : State) : List Instr × Memory × Memory × Option Dump :=
  (s.pending, s.ubl.mirror, s.rdm.landing, s.vault.dump)

/-- The state of a mailbox command's answer. -/
def Ans.st : Ans → State
  | .done _ _ s => s
  | .later s => s

/-- The queue stays and canonical memories stay canonical. -/
def Held (s t : State) : Prop := t.pending = s.pending ∧ (s.memOk → t.memOk)

/-- Canonical memories are a matter of what is kept. -/
theorem memOk_iff (s : State) : s.memOk ↔
    s.kept.2.1.wf = true ∧ s.kept.2.2.1.wf = true ∧ ∀ x, s.kept.2.2.2 = some x → x.mirror.wf = true := by
  unfold State.memOk State.memories State.kept
  cases s.vault.dump <;> simp

/-- What each step of a fold keeps true stays true. -/
theorem foldl_ind {σ α : Type} (P : σ → Prop) (l : List α) (f : σ → α → σ) (x : σ) (h0 : P x) (h : ∀ x a, P x → P (f x a)) :
    P (l.foldl f x) := by
  induction l generalizing x <;> simp_all

/-- A fold keeps what each of its steps keeps. -/
theorem foldl_kept {α : Type} (l : List α) (f : State → α → State) (h : ∀ s a, (f s a).kept = s.kept) (s : State) :
    (l.foldl f s).kept = s.kept := by
  induction l generalizing s <;> simp_all

/-- The state after an outcome keeps what every next state keeps. -/
theorem nextOr_kept (s : State) (r : Res) (h : ∀ t, r = .next t → t.kept = s.kept) : (nextOr s r).kept = s.kept := by
  cases r <;> simp_all [nextOr]

/-- An optional state or its default keeps what both keep. -/
theorem getD_kept (o : Option State) (s d : State) (h1 : ∀ t, o = some t → t.kept = s.kept) (h2 : d.kept = s.kept) :
    (o.getD d).kept = s.kept := by
  cases o <;> simp_all

/-- What is kept is held. -/
theorem held_of_kept {s t : State} (h : t.kept = s.kept) : Held s t := by
  refine ⟨congrArg (·.1) h, ?_⟩
  rw [memOk_iff, memOk_iff, h]; exact id

/-- Holding goes on. -/
theorem Held.trans {s t u : State} (h1 : Held s t) (h2 : Held t u) : Held s u :=
  ⟨h2.1.trans h1.1, fun h => h2.2 (h1.2 h)⟩

end Sys2Proof.Machine
end

