-- ==== Sys2Proof/Laws/Frame1.lean ====
section
/-!
SUPPORT. Frame laws, part 1 of 4: each shared operation keeps the queue and the byte memories, or says how it holds them.
-/

set_option maxRecDepth 4000
set_option linter.all false

namespace Sys2Proof.Machine

theorem State.updBlk_kept (s : State) (b : Blk) (f : BlkSt → BlkSt) : (State.updBlk s b f).kept = s.kept := by
  grind [State.updBlk, State.updUbl, State.updRdm, State.kept, foldl_kept]

theorem State.setCounter_kept (s : State) (c : Ctr) (v : Word) : (State.setCounter s c v).kept = s.kept := by
  grind [State.setCounter, State.updUbl, State.updRdm, State.kept, foldl_kept]

theorem State.count_kept (s : State) (c : Ctr) (n : Nat) : (State.count s c n).kept = s.kept := by
  grind [State.count, State.updUbl, State.updRdm, State.kept, foldl_kept, State.setCounter_kept]

theorem State.countSat_kept (s : State) (c : Ctr) : (State.countSat s c).kept = s.kept := by
  grind [State.countSat, State.updUbl, State.updRdm, State.kept, foldl_kept, State.setCounter_kept]

theorem State.signal_kept (s : State) (v : Nat) : (State.signal s v).kept = s.kept := by
  grind [State.signal, State.updUbl, State.updRdm, State.kept, foldl_kept]

theorem State.raise_kept (s : State) (b : Blk) (bit : Nat) : (State.raise s b bit).kept = s.kept := by
  grind [State.raise, State.updUbl, State.updRdm, State.kept, foldl_kept, State.signal_kept, State.updBlk_kept]

theorem State.violation_kept (s : State) (source : Nat) (write : Bool) (offset : Nat) : (State.violation s source write offset).kept = s.kept := by
  grind [State.violation, State.updUbl, State.updRdm, State.kept, foldl_kept]

theorem State.snag_kept (s : State) (source : Nat) (code : Nat) (sd : Option SD) (port : Nat) (arg : List Byte) : (State.snag s source code sd port arg).kept = s.kept := by
  grind [State.snag, State.updUbl, State.updRdm, State.kept, foldl_kept, State.countSat_kept, State.raise_kept]

theorem State.notify_kept (s : State) (source : Nat) (code : Nat) (raised : Bool) (sd : Option SD) (port : Nat) (arg : List Byte) : (State.notify s source code raised sd port arg).kept = s.kept := by
  grind [State.notify, State.updUbl, State.updRdm, State.kept, foldl_kept, State.raise_kept, State.signal_kept, State.snag_kept]

theorem State.draw_kept (s : State) (ta : List Byte) (tn : State) (h : State.draw s = (ta, tn)) : tn.kept = s.kept := by
  grind [State.draw, State.updUbl, State.updRdm, State.kept, foldl_kept]

theorem State.draw_kept2 (s : State) : (State.draw s).2.kept = s.kept := State.draw_kept s (State.draw s).1 (State.draw s).2 rfl

theorem State.setMeta_kept (s : State) (d : SD) (m : Meta) : (State.setMeta s d m).kept = s.kept := by
  grind [State.setMeta, State.updUbl, State.updRdm, State.kept, foldl_kept]

theorem State.delta_kept (s : State) (d : SD) (x : Delta) : (State.delta s d x).kept = s.kept := by
  rfl

theorem State.deltas_kept (s : State) (d : SD) (l : List Delta) : (State.deltas s d l).kept = s.kept := by
  grind [State.deltas, State.updUbl, State.updRdm, State.kept, foldl_kept, State.delta_kept]

theorem State.sendRaw_kept (s : State) (f : TxFrame) : (State.sendRaw s f).kept = s.kept := by
  grind [State.sendRaw, State.updUbl, State.updRdm, State.kept, foldl_kept]

theorem State.send_kept (s : State) (f : TxFrame) : (State.send s f).kept = s.kept := by
  grind [State.send, State.updUbl, State.updRdm, State.kept, foldl_kept, State.sendRaw_kept]

theorem State.wakeEvent_kept (s : State) (src : Nat) : (State.wakeEvent s src).kept = s.kept := by
  grind [State.wakeEvent, State.updUbl, State.updRdm, State.kept, foldl_kept]

theorem State.pend_kept (s : State) (b : Blk) (late : Bool) : (State.pend s b late).kept = s.kept := by
  grind [State.pend, State.updUbl, State.updRdm, State.kept, foldl_kept, State.updBlk_kept]

theorem State.claim_kept (s : State) (r : Nat) (who : Nat) (ta : Bool) (tn : State) (h : State.claim s r who = (ta, tn)) : tn.kept = s.kept := by
  grind [State.claim, State.updUbl, State.updRdm, State.kept, foldl_kept]

theorem State.claim_kept2 (s : State) (r : Nat) (who : Nat) : (State.claim s r who).2.kept = s.kept := State.claim_kept s r who (State.claim s r who).1 (State.claim s r who).2 rfl

theorem State.release_kept (s : State) (r : Nat) (who : Nat) : (State.release s r who).kept = s.kept := by
  grind [State.release, State.updUbl, State.updRdm, State.kept, foldl_kept]

theorem State.addRef_kept (s : State) (d : SD) (loc : Nat) : (State.addRef s d loc).kept = s.kept := by
  grind [State.addRef, State.updUbl, State.updRdm, State.kept, foldl_kept, State.count_kept, State.delta_kept, State.raise_kept]

theorem State.dropIndex_kept (s : State) (d : SD) (r : RefRec) (loc : Nat) : (State.dropIndex s d r loc).kept = s.kept := by
  grind [State.dropIndex, State.updUbl, State.updRdm, State.kept, foldl_kept, State.delta_kept]

theorem State.freePending_kept (s : State) (d : SD) (loc : Nat) : (State.freePending s d loc).kept = s.kept := by
  grind [State.freePending, State.updUbl, State.updRdm, State.kept, foldl_kept, State.delta_kept, State.dropIndex_kept]

theorem State.subRef_kept (s : State) (d : SD) (loc : Nat) : (State.subRef s d loc).kept = s.kept := by
  grind [State.subRef, State.updUbl, State.updRdm, State.kept, foldl_kept, State.count_kept, State.delta_kept, State.freePending_kept]

theorem State.backRef_kept (s : State) (d : SD) (mpid : Nat) (idx : Nat) (loc : Nat) : (State.backRef s d mpid idx loc).kept = s.kept := by
  grind [State.backRef, State.updUbl, State.updRdm, State.kept, foldl_kept, State.delta_kept]

theorem State.enterHbm_kept (s : State) (d : SD) (mpid : Nat) : (State.enterHbm s d mpid).kept = s.kept := by
  grind [State.enterHbm, State.updUbl, State.updRdm, State.kept, foldl_kept]

theorem State.leaveTiers_kept (s : State) (d : SD) (mpid : Nat) : (State.leaveTiers s d mpid).kept = s.kept := by
  grind [State.leaveTiers, State.updUbl, State.updRdm, State.kept, foldl_kept]

theorem State.newPage_kept (s : State) (d : SD) (level : Nat) (ents : Table DWord) (ta : Nat) (tn : State) (h : State.newPage s d level ents = (ta, tn)) : tn.kept = s.kept := by
  grind [State.newPage, State.updUbl, State.updRdm, State.kept, foldl_kept, State.delta_kept, State.enterHbm_kept]

theorem State.newPage_kept2 (s : State) (d : SD) (level : Nat) (ents : Table DWord) : (State.newPage s d level ents).2.kept = s.kept := State.newPage_kept s d level ents (State.newPage s d level ents).1 (State.newPage s d level ents).2 rfl

theorem State.share_kept (s : State) (d : SD) (mpid : Nat) (f : Nat → Nat) : (State.share s d mpid f).kept = s.kept := by
  grind [State.share, State.updUbl, State.updRdm, State.kept, foldl_kept, State.delta_kept]

theorem State.copyPage_kept (s : State) (d : SD) (root : Nat) (gran : Nat) : (State.copyPage s d root gran).kept = s.kept := by
  intros; unfold State.copyPage; grind [State.copyPage, State.updUbl, State.updRdm, State.kept, foldl_kept, State.addRef_kept, State.backRef_kept, State.delta_kept, State.newPage_kept, State.newPage_kept2, State.share_kept]

theorem State.growPath_kept (s : State) (d : SD) (gran : Nat) (x0 : Nat) (x1 : Nat) : (State.growPath s d gran x0 x1).kept = s.kept := by
  induction x0 generalizing s x1 <;> grind [State.growPath, State.updUbl, State.updRdm, State.kept, foldl_kept, State.delta_kept, State.newPage_kept, State.newPage_kept2]

theorem State.writeEntry_kept (s : State) (d : SD) (root : Nat) (gran : Nat) (e : MapEnt) : (State.writeEntry s d root gran e).kept = s.kept := by
  intros; unfold State.writeEntry; grind [State.writeEntry, State.updUbl, State.updRdm, State.kept, foldl_kept, State.addRef_kept, State.backRef_kept, State.delta_kept, State.growPath_kept, State.subRef_kept]

theorem State.allocLine_kept (s : State) (d : SD) (mpid : Nat) (seen : Option (Nat × Nat)) : (State.allocLine s d mpid seen).kept = s.kept := by
  grind [State.allocLine, State.updUbl, State.updRdm, State.kept, foldl_kept, getD_kept]

theorem State.evbHold_kept (s : State) (t : State) (ht : t.kept = s.kept) : (State.evbHold s t).kept = s.kept := by
  grind [State.evbHold, State.updUbl, State.updRdm, State.kept, foldl_kept, State.raise_kept]

theorem State.installSector_kept (s : State) (d : SD) (mpid : Nat) (sector : Nat) (seen : Option (Nat × Nat)) : (State.installSector s d mpid sector seen).kept = s.kept := by
  grind [State.installSector, State.updUbl, State.updRdm, State.kept, foldl_kept, State.allocLine_kept]

theorem State.touchPage_kept (s : State) (d : SD) (mpid : Nat) (seen : Option (Nat × Nat)) : (State.touchPage s d mpid seen).kept = s.kept := by
  grind [State.touchPage, State.updUbl, State.updRdm, State.kept, foldl_kept]

theorem State.dirtySector_kept (s : State) (d : SD) (mpid : Nat) (sector : Nat) (seen : Option (Nat × Nat)) : (State.dirtySector s d mpid sector seen).kept = s.kept := by
  grind [State.dirtySector, State.updUbl, State.updRdm, State.kept, foldl_kept, State.allocLine_kept]

theorem State.takeEntry_kept (s : State) (d : SD) (root : Nat) (gran : Nat) (ta : DWord) (tn : State) (h : State.takeEntry s d root gran = (ta, tn)) : tn.kept = s.kept := by
  grind [State.takeEntry, State.updUbl, State.updRdm, State.kept, foldl_kept, State.touchPage_kept]

theorem State.takeEntry_kept2 (s : State) (d : SD) (root : Nat) (gran : Nat) : (State.takeEntry s d root gran).2.kept = s.kept := State.takeEntry_kept s d root gran (State.takeEntry s d root gran).1 (State.takeEntry s d root gran).2 rfl

theorem State.updPort_kept (s : State) (p : Nat) (f : Port → Port) : (State.updPort s p f).kept = s.kept := by
  grind [State.updPort, State.updUbl, State.updRdm, State.kept, foldl_kept]

theorem State.writeSel_kept (s : State) (late : Bool) (port : Nat) (v : Nat) : (State.writeSel s late port v).kept = s.kept := by
  grind [State.writeSel, State.updUbl, State.updRdm, State.kept, foldl_kept, getD_kept, State.pend_kept]

theorem State.noteHour_kept (s : State) : (State.noteHour s).kept = s.kept := by
  grind [State.noteHour, State.updUbl, State.updRdm, State.kept, foldl_kept, State.raise_kept]

theorem State.allocSeg_kept (s : State) (d : SD) (seg : Nat) (port : Nat) (pseg : Nat) : (State.allocSeg s d seg port pseg).kept = s.kept := by
  grind [State.allocSeg, State.updUbl, State.updRdm, State.kept, foldl_kept, State.delta_kept]

theorem State.takeMember_kept (s : State) (d : SD) (finish : Bool) (port : Nat) (ta : Nat) (tn : State) (h : State.takeMember s d finish port = some (ta, tn)) : tn.kept = s.kept := by
  grind [State.takeMember, State.updUbl, State.updRdm, State.kept, foldl_kept, State.allocSeg_kept, State.delta_kept]

theorem State.takeMembers_kept (s : State) (d : SD) (finish : Bool) (x0 : List Nat) (ta : List Nat) (tn : State) (h : State.takeMembers s d finish x0 = some (ta, tn)) : tn.kept = s.kept := by
  induction x0 generalizing s tn ta <;> grind [State.takeMembers, State.updUbl, State.updRdm, State.kept, foldl_kept, State.takeMember_kept]

theorem State.linkNext_kept (s : State) (d : SD) (a : Stripe) (b : Stripe) : (State.linkNext s d a b).kept = s.kept := by
  grind [State.linkNext, State.updUbl, State.updRdm, State.kept, foldl_kept, State.delta_kept]

theorem State.formStripe_kept (s : State) (d : SD) (finish : Bool) (isMeta : Bool) : (State.formStripe s d finish isMeta).kept = s.kept := by
  grind [State.formStripe, State.updUbl, State.updRdm, State.kept, foldl_kept, State.delta_kept, State.linkNext_kept, State.takeMembers_kept]

theorem State.takeSlot_kept (s : State) (d : SD) (n : Nat) (t : Stripe) (r : Nat) (j : Nat) : (State.takeSlot s d n t r j).kept = s.kept := by
  grind [State.takeSlot, State.updUbl, State.updRdm, State.kept, foldl_kept, State.delta_kept]

theorem State.promote_kept (s : State) (d : SD) (finish : Bool) (isMeta : Bool) : (State.promote s d finish isMeta).kept = s.kept := by
  grind [State.promote, State.updUbl, State.updRdm, State.kept, foldl_kept]

theorem State.openAt_kept (s : State) (d : SD) (kdom : Nat) (copy : Bool) (finish : Bool) (isMeta : Bool) (ta : Pack) (tn : State) (h : State.openAt s d kdom copy finish isMeta = some (ta, tn)) : tn.kept = s.kept := by
  grind [State.openAt, State.updUbl, State.updRdm, State.kept, foldl_kept, State.promote_kept, State.takeSlot_kept]

theorem State.openPack_kept (s : State) (d : SD) (kdom : Nat) (copy : Bool) (ta : Pack) (tn : State) (h : State.openPack s d kdom copy = some (ta, tn)) : tn.kept = s.kept := by
  grind [State.openPack, State.updUbl, State.updRdm, State.kept, foldl_kept, State.openAt_kept, State.raise_kept]

theorem State.openSuccessor_kept (s : State) (p : Pack) (ta : Pack) (tn : State) (h : State.openSuccessor s p = some (ta, tn)) : tn.kept = s.kept := by
  unfold State.openSuccessor at h; split at h <;> grind [State.openSuccessor, State.updUbl, State.updRdm, State.kept, foldl_kept, State.takeSlot_kept]

theorem State.issue_kept (s : State) (c : MCmd) : (State.issue s c).kept = s.kept := by
  grind [State.issue, State.updUbl, State.updRdm, State.kept, foldl_kept, State.count_kept]

theorem State.issueProgram_kept (s : State) (d : SD) (n : Nat) (t : Stripe) (row : Nat) (pos : Nat) (img : List Byte) : (State.issueProgram s d n t row pos img).kept = s.kept := by
  grind [State.issueProgram, State.updUbl, State.updRdm, State.kept, foldl_kept, getD_kept, State.issue_kept]

theorem State.pin_kept (s : State) (port : Nat) (pseg : Nat) : (State.pin s port pseg).kept = s.kept := by
  grind [State.pin, State.updUbl, State.updRdm, State.kept, foldl_kept, getD_kept]

theorem State.unpin_kept (s : State) (port : Nat) (pseg : Nat) : (State.unpin s port pseg).kept = s.kept := by
  grind [State.unpin, State.updUbl, State.updRdm, State.kept, foldl_kept, getD_kept]

theorem State.countRead_kept (s : State) (port : Nat) (pseg : Nat) : (State.countRead s port pseg).kept = s.kept := by
  grind [State.countRead, State.updUbl, State.updRdm, State.kept, foldl_kept, getD_kept]

theorem State.setPSeg_kept (s : State) (d : SD) (port : Nat) (pseg : Nat) (f : PSegRec → PSegRec) : (State.setPSeg s d port pseg f).kept = s.kept := by
  grind [State.setPSeg, State.updUbl, State.updRdm, State.kept, foldl_kept, State.delta_kept]

theorem State.retire_kept (s : State) (d : SD) (port : Nat) (pseg : Nat) : (State.retire s d port pseg).kept = s.kept := by
  grind [State.retire, State.updUbl, State.updRdm, State.kept, foldl_kept, State.raise_kept, State.setPSeg_kept]

theorem State.victim_kept (s : State) (d : SD) (n : Nat) (prio : Nat) : (State.victim s d n prio).kept = s.kept := by
  grind [State.victim, State.updUbl, State.updRdm, State.kept, foldl_kept]

theorem State.refresh_kept (s : State) (d : SD) (seg : Nat) : (State.refresh s d seg).kept = s.kept := by
  grind [State.refresh, State.updUbl, State.updRdm, State.kept, foldl_kept, State.victim_kept]

theorem State.lose_kept (s : State) (d : SD) (loc : Nat) (cause : Nat) (blocks : Nat) : (State.lose s d loc cause blocks).kept = s.kept := by
  grind [State.lose, State.updUbl, State.updRdm, State.kept, foldl_kept, getD_kept, State.count_kept, State.delta_kept, State.dropIndex_kept, State.freePending_kept, State.notify_kept, State.raise_kept]

theorem State.losePack_kept (s : State) (d : SD) (pack : Nat) (cause : Nat) : (State.losePack s d pack cause).kept = s.kept := by
  grind [State.losePack, State.updUbl, State.updRdm, State.kept, foldl_kept, State.lose_kept]

theorem State.loseRow_kept (s : State) (d : SD) (n : Nat) (t : Stripe) (row : Nat) (bad : List Nat) (cause : Nat) : (State.loseRow s d n t row bad cause).kept = s.kept := by
  grind [State.loseRow, State.updUbl, State.updRdm, State.kept, foldl_kept, getD_kept, State.delta_kept, State.losePack_kept, State.notify_kept, State.raise_kept, State.victim_kept]

theorem State.updStats_kept (s : State) (port : Nat) (f : ModStats → ModStats) : (State.updStats s port f).kept = s.kept := by
  grind [State.updStats, State.updUbl, State.updRdm, State.kept, foldl_kept, getD_kept]

theorem State.noteRead_kept (s : State) (port : Nat) (stepped : Bool) : (State.noteRead s port stepped).kept = s.kept := by
  grind [State.noteRead, State.updUbl, State.updRdm, State.kept, foldl_kept, State.updStats_kept]

theorem State.ladderFailed_kept (s : State) (port : Nat) : (State.ladderFailed s port).kept = s.kept := by
  grind [State.ladderFailed, State.updUbl, State.updRdm, State.kept, foldl_kept, State.count_kept, State.noteRead_kept, State.updStats_kept]

theorem State.ladderDone_kept (s : State) (d : SD) (port : Nat) (seg : Nat) (step : Nat) : (State.ladderDone s d port seg step).kept = s.kept := by
  grind [State.ladderDone, State.updUbl, State.updRdm, State.kept, foldl_kept, State.count_kept, State.noteRead_kept, State.refresh_kept]

theorem State.noteErase_kept (s : State) (port : Nat) (finish : Bool) : (State.noteErase s port finish).kept = s.kept := by
  grind [State.noteErase, State.updUbl, State.updRdm, State.kept, foldl_kept, State.updStats_kept]

theorem State.noteTemp_kept (s : State) (port : Nat) (t : Temps) : (State.noteTemp s port t).kept = s.kept := by
  grind [State.noteTemp, State.updUbl, State.updRdm, State.kept, foldl_kept, getD_kept, State.updStats_kept]

theorem State.countReads_kept (s : State) (port : Nat) (pseg : Nat) (n : Nat) : (State.countReads s port pseg n).kept = s.kept := by
  grind [State.countReads, State.updUbl, State.updRdm, State.kept, foldl_kept, State.countRead_kept]

theorem State.readLadder_kept (s : State) (d : SD) (pack : Nat) (good : List Byte → Bool) (ta : Option (List Byte)) (tn : State) (h : State.readLadder s d pack good = (ta, tn)) : tn.kept = s.kept := by
  grind [State.readLadder, State.updUbl, State.updRdm, State.kept, foldl_kept, State.count_kept, State.countReads_kept, State.ladderDone_kept, State.ladderFailed_kept, State.noteHour_kept, State.raise_kept]

theorem State.readLadder_kept2 (s : State) (d : SD) (pack : Nat) (good : List Byte → Bool) : (State.readLadder s d pack good).2.kept = s.kept := State.readLadder_kept s d pack good (State.readLadder s d pack good).1 (State.readLadder s d pack good).2 rfl

theorem State.rowSource_kept (s : State) (d : SD) (n : Nat) (t : Stripe) (row : Nat) (pos : Nat) (ta : Option (List Byte)) (tn : State) (h : State.rowSource s d n t row pos = (ta, tn)) : tn.kept = s.kept := by
  grind [State.rowSource, State.updUbl, State.updRdm, State.kept, foldl_kept, getD_kept, State.readLadder_kept, State.readLadder_kept2]

theorem State.rowSource_kept2 (s : State) (d : SD) (n : Nat) (t : Stripe) (row : Nat) (pos : Nat) : (State.rowSource s d n t row pos).2.kept = s.kept := State.rowSource_kept s d n t row pos (State.rowSource s d n t row pos).1 (State.rowSource s d n t row pos).2 rfl

theorem State.rebuildRow_kept (s : State) (d : SD) (n : Nat) (t : Stripe) (row : Nat) (pos : Nat) (bad : List Nat) (ta : Option (List Byte)) (tb : List Nat) (tn : State) (h : State.rebuildRow s d n t row pos bad = (ta, tb, tn)) : tn.kept = s.kept := by
  unfold State.rebuildRow at h; dsimp only at h
  generalize hz : List.foldl _ _ _ = z at h
  have hk : z.2.2.kept = s.kept := by
    rw [← hz]
    refine foldl_ind (fun z : List (Nat × List Byte) × List Nat × State => z.2.2.kept = s.kept) _ _ _ rfl ?_
    rintro ⟨got, gone, s'⟩ q hq
    dsimp only at hq ⊢
    (repeat' split) <;> first
      | exact hq
      | (simp only [State.ladderFailed_kept, State.rowSource_kept, State.rowSource_kept2]; exact hq)
      | (rename_i e; rw [← hq]; exact State.rowSource_kept _ _ _ _ _ _ _ _ e)
      | grind [State.ladderFailed_kept, State.rowSource_kept, State.rowSource_kept2]
  obtain ⟨z1, z2, z3⟩ := z
  dsimp only at h hk
  split at h <;> (simp only [Prod.mk.injEq] at h; obtain ⟨-, -, rfl⟩ := h; exact hk)

theorem State.rebuildRow_kept2 (s : State) (d : SD) (n : Nat) (t : Stripe) (row : Nat) (pos : Nat) (bad : List Nat) : (State.rebuildRow s d n t row pos bad).2.2.kept = s.kept := State.rebuildRow_kept s d n t row pos bad (State.rebuildRow s d n t row pos bad).1 (State.rebuildRow s d n t row pos bad).2.1 (State.rebuildRow s d n t row pos bad).2.2 rfl

theorem State.openRead_kept (s : State) (d : SD) (pack : Nat) (img : List Byte) (ta : Opened) (tn : State) (h : State.openRead s d pack img = (ta, tn)) : tn.kept = s.kept := by
  grind [State.openRead, State.updUbl, State.updRdm, State.kept, foldl_kept, State.count_kept, State.raise_kept]

theorem State.openRead_kept2 (s : State) (d : SD) (pack : Nat) (img : List Byte) : (State.openRead s d pack img).2.kept = s.kept := State.openRead_kept s d pack img (State.openRead s d pack img).1 (State.openRead s d pack img).2 rfl

theorem State.loseGone_kept (s : State) (d : SD) (n : Nat) (t : Stripe) (row : Nat) (gone : List Nat) : (State.loseGone s d n t row gone).kept = s.kept := by
  grind [State.loseGone, State.updUbl, State.updRdm, State.kept, foldl_kept, State.loseRow_kept]

theorem State.readPack_kept (s : State) (d : SD) (pack : Nat) (ta : Opened) (tn : State) (h : State.readPack s d pack = (ta, tn)) : tn.kept = s.kept := by
  unfold State.readPack at h
  split at h
  · simp only [Prod.mk.injEq] at h; rw [← h.2]
  · exact State.openRead_kept _ _ _ _ _ _ h
  · split at h
    · simp only [Prod.mk.injEq] at h; rw [← h.2]
    · dsimp only at h
      split at h
      · simp only [Prod.mk.injEq] at h; rw [← h.2]
      · split at h
        · rename_i e; rw [State.openRead_kept _ _ _ _ _ _ h]; exact State.readLadder_kept _ _ _ _ _ _ e
        · rename_i s1 e
          have e1 := State.readLadder_kept _ _ _ _ _ _ e
          generalize hr : State.rebuildRow _ _ _ _ _ _ _ = z at h
          obtain ⟨z1, z2, z3⟩ := z
          have e3 := State.rebuildRow_kept _ _ _ _ _ _ _ _ _ _ hr
          have e4 : z3.kept = s.kept := by rw [e3, ← e1]; split <;> simp only [State.count_kept]
          split at h
          · rename_i q; simp only [Prod.mk.injEq] at q; rw [State.openRead_kept _ _ _ _ _ _ h, ← q.2.2, e4]
          · rename_i q; simp only [Prod.mk.injEq] at q h; rw [← h.2, State.loseGone_kept, ← q.2.2, e4]

theorem State.readPack_kept2 (s : State) (d : SD) (pack : Nat) : (State.readPack s d pack).2.kept = s.kept := State.readPack_kept s d pack (State.readPack s d pack).1 (State.readPack s d pack).2 rfl

theorem State.granuleBad_kept (s : State) (d : SD) (loc : Nat) (format : Bool) : (State.granuleBad s d loc format).kept = s.kept := by
  grind [State.granuleBad, State.updUbl, State.updRdm, State.kept, foldl_kept, State.count_kept, State.lose_kept]

theorem State.readBody_kept (s : State) (d : SD) (loc : Nat) (chain : Option (Bool × Nat)) (ta : Option (List Byte × List Byte × List Byte)) (tn : State) (h : State.readBody s d loc chain = (ta, tn)) : tn.kept = s.kept := by
  grind [State.readBody, State.updUbl, State.updRdm, State.kept, foldl_kept, State.readPack_kept, State.readPack_kept2]

theorem State.readBody_kept2 (s : State) (d : SD) (loc : Nat) (chain : Option (Bool × Nat)) : (State.readBody s d loc chain).2.kept = s.kept := State.readBody_kept s d loc chain (State.readBody s d loc chain).1 (State.readBody s d loc chain).2 rfl

theorem State.readStored_kept (s : State) (d : SD) (raw : Bool) (loc : Nat) (chain : Option (Bool × Nat)) (ta : Stored) (tn : State) (h : State.readStored s d raw loc chain = (ta, tn)) : tn.kept = s.kept := by
  grind [State.readStored, State.updUbl, State.updRdm, State.kept, foldl_kept, State.granuleBad_kept, State.readBody_kept, State.readBody_kept2]

theorem State.readStored_kept2 (s : State) (d : SD) (raw : Bool) (loc : Nat) (chain : Option (Bool × Nat)) : (State.readStored s d raw loc chain).2.kept = s.kept := State.readStored_kept s d raw loc chain (State.readStored s d raw loc chain).1 (State.readStored s d raw loc chain).2 rfl

theorem State.readLoc_kept (s : State) (d : SD) (loc : Nat) (ta : Stored) (tn : State) (h : State.readLoc s d loc = (ta, tn)) : tn.kept = s.kept := by
  grind [State.readLoc, State.updUbl, State.updRdm, State.kept, foldl_kept, State.readStored_kept, State.readStored_kept2]

theorem State.readLoc_kept2 (s : State) (d : SD) (loc : Nat) : (State.readLoc s d loc).2.kept = s.kept := State.readLoc_kept s d loc (State.readLoc s d loc).1 (State.readLoc s d loc).2 rfl

theorem State.storedBytes_kept (s : State) (d : SD) (r : RefRec) (loc : Nat) (ta : Option (List Byte × Option DWord)) (tn : State) (h : State.storedBytes s d r loc = (ta, tn)) : tn.kept = s.kept := by
  grind [State.storedBytes, State.updUbl, State.updRdm, State.kept, foldl_kept, State.readBody_kept, State.readBody_kept2]

theorem State.storedBytes_kept2 (s : State) (d : SD) (r : RefRec) (loc : Nat) : (State.storedBytes s d r loc).2.kept = s.kept := State.storedBytes_kept s d r loc (State.storedBytes s d r loc).1 (State.storedBytes s d r loc).2 rfl

theorem State.mirror_kept (s : State) (d : SD) (release : Bool) (offset : Nat) (data : List Byte) (mhdr : Option Nat) : (State.mirror s d release offset data mhdr).kept = s.kept := by
  grind [State.mirror, State.updUbl, State.updRdm, State.kept, foldl_kept, getD_kept, State.release_kept, State.send_kept]

theorem State.mirrorBytes_kept (s : State) (d : SD) (offset : Nat) (x0 : Nat) (x1 : List Byte) : (State.mirrorBytes s d offset x0 x1).kept = s.kept := by
  induction x0 generalizing s offset x1 with
  | zero => rfl
  | succ n ih => unfold State.mirrorBytes; grind [State.mirror_kept]

theorem State.putEntry_kept (s : State) (off : Nat) (e : Entry) : (State.putEntry s off e).kept = s.kept := by
  grind [State.putEntry, State.updUbl, State.updRdm, State.kept, foldl_kept, State.mirror_kept]

theorem State.landSlot_kept (s : State) (d : SD) (slot : Nat) (off : Nat) (b : List Byte) (mhdr : Option Nat) : (State.landSlot s d slot off b mhdr).kept = s.kept := by
  grind [State.landSlot, State.updUbl, State.updRdm, State.kept, foldl_kept, State.mirror_kept]

theorem State.markEntry_kept (s : State) (off : Nat) : (State.markEntry s off).kept = s.kept := by
  grind [State.markEntry, State.updUbl, State.updRdm, State.kept, foldl_kept]

theorem State.releaseEntry_kept (s : State) (hdr : Nat) (e : Entry) : (State.releaseEntry s hdr e).kept = s.kept := by
  grind [State.releaseEntry, State.updUbl, State.updRdm, State.kept, foldl_kept, State.mirror_kept]

theorem State.journal_kept (s : State) (d : SD) (r : JRec) : (State.journal s d r).kept = s.kept := by
  grind [State.journal, State.updUbl, State.updRdm, State.kept, foldl_kept, State.mirrorBytes_kept]

theorem State.heard_kept (s : State) (c : Nat) (flits : Nat) : (State.heard s c flits).kept = s.kept := by
  grind [State.heard, State.updUbl, State.updRdm, State.kept, foldl_kept]

theorem State.retrained_kept (s : State) : (State.retrained s).kept = s.kept := by
  grind [State.retrained, State.updUbl, State.updRdm, State.kept, foldl_kept]

theorem State.updFe_kept (s : State) (f : FeState → FeState) : (State.updFe s f).kept = s.kept := by
  grind [State.updFe, State.updUbl, State.updRdm, State.kept, foldl_kept]

theorem State.respond_kept (s : State) (r : Response) : (State.respond s r).kept = s.kept := by
  grind [State.respond, State.updUbl, State.updRdm, State.kept, foldl_kept, State.updFe_kept]

theorem State.answer_kept (s : State) (c : Capsule) (st : Status) (dw0 : Nat) (data : List Byte) : (State.answer s c st dw0 data).kept = s.kept := by
  grind [State.answer, State.updUbl, State.updRdm, State.kept, foldl_kept, State.respond_kept, State.send_kept]

theorem State.updCmd_kept (s : State) (d : SD) (stamp : Nat) (f : Cmd → Cmd) : (State.updCmd s d stamp f).kept = s.kept := by
  grind [State.updCmd, State.updUbl, State.updRdm, State.kept, foldl_kept, State.updFe_kept]

theorem State.result_kept (s : State) (d : SD) (stamp : Nat) (st : Status) : (State.result s d stamp st).kept = s.kept := by
  grind [State.result, State.updUbl, State.updRdm, State.kept, foldl_kept, State.updCmd_kept]

theorem State.setResv_kept (s : State) (d : SD) (nsid : Nat) (r : Resv) : (State.setResv s d nsid r).kept = s.kept := by
  grind [State.setResv, State.updUbl, State.updRdm, State.kept, foldl_kept, State.delta_kept]

theorem State.asyncTo_kept (s : State) (cntlid : Nat) (e : AEvent) : (State.asyncTo s cntlid e).kept = s.kept := by
  grind [State.asyncTo, State.updUbl, State.updRdm, State.kept, foldl_kept, State.respond_kept, State.updFe_kept]

theorem State.asyncAll_kept (s : State) (e : AEvent) : (State.asyncAll s e).kept = s.kept := by
  grind [State.asyncAll, State.updUbl, State.updRdm, State.kept, foldl_kept, State.asyncTo_kept]

theorem State.nsChanged_kept (s : State) (nsid : Nat) (who : List Nat) : (State.nsChanged s nsid who).kept = s.kept := by
  grind [State.nsChanged, State.updUbl, State.updRdm, State.kept, foldl_kept, State.asyncTo_kept, State.updFe_kept]

theorem State.anaChanged_kept (s : State) : (State.anaChanged s).kept = s.kept := by
  grind [State.anaChanged, State.updUbl, State.updRdm, State.kept, foldl_kept, State.asyncAll_kept, State.raise_kept, State.updFe_kept]

theorem State.queueError_kept (s : State) (q : QId) : (State.queueError s q).kept = s.kept := by
  grind [State.queueError, State.updUbl, State.updRdm, State.kept, foldl_kept, State.updFe_kept]

theorem State.abandon_kept (s : State) (d : SD) (stamp : Nat) : (State.abandon s d stamp).kept = s.kept := by
  grind [State.abandon, State.updUbl, State.updRdm, State.kept, foldl_kept, getD_kept, State.releaseEntry_kept, State.updCmd_kept, State.updFe_kept]

theorem State.breakOff_kept (s : State) (c : Cmd) : (State.breakOff s c).kept = s.kept := by
  grind [State.breakOff, State.updUbl, State.updRdm, State.kept, foldl_kept, State.abandon_kept, State.result_kept]

theorem State.breakQueue_kept (s : State) (q : QId) : (State.breakQueue s q).kept = s.kept := by
  grind [State.breakQueue, State.updUbl, State.updRdm, State.kept, foldl_kept, State.breakOff_kept, State.send_kept]

theorem State.endHost_kept (s : State) (cntlid : Nat) : (State.endHost s cntlid).kept = s.kept := by
  grind [State.endHost, State.updUbl, State.updRdm, State.kept, foldl_kept, State.breakQueue_kept, State.queueError_kept, State.updFe_kept]

theorem State.updDp_kept (s : State) (f : DpState → DpState) : (State.updDp s f).kept = s.kept := by
  grind [State.updDp, State.updUbl, State.updRdm, State.kept, foldl_kept]

theorem State.settleRead_kept (s : State) (d : SD) (stamp : Nat) : (State.settleRead s d stamp).kept = s.kept := by
  grind [State.settleRead, State.updUbl, State.updRdm, State.kept, foldl_kept, State.result_kept, State.updCmd_kept, State.updFe_kept]

theorem State.gotGran_kept (s : State) (d : SD) (stamp : Nat) (gran : Nat) (bytes : List Byte) (failed : Bool) : (State.gotGran s d stamp gran bytes failed).kept = s.kept := by
  grind [State.gotGran, State.updUbl, State.updRdm, State.kept, foldl_kept, getD_kept, State.settleRead_kept, State.updCmd_kept, State.updDp_kept]

theorem State.issueRead_kept (s : State) (id : Nat) (hour : Nat) (f : Fetch) : (State.issueRead s id hour f).kept = s.kept := by
  grind [State.issueRead, State.updUbl, State.updRdm, State.kept, foldl_kept, State.countRead_kept, State.issue_kept, State.noteHour_kept]

theorem State.nextRead_kept (s : State) (port : Nat) : (State.nextRead s port).kept = s.kept := by
  grind [State.nextRead, State.updUbl, State.updRdm, State.kept, foldl_kept, State.issueRead_kept, State.updDp_kept]

theorem State.joinFetch_kept (s : State) (hour : Nat) (id : Nat) (f : Fetch) (user : Nat × Nat) : (State.joinFetch s hour id f user).kept = s.kept := by
  grind [State.joinFetch, State.updUbl, State.updRdm, State.kept, foldl_kept, State.issueRead_kept, State.updDp_kept]

theorem State.fetchPack_kept (s : State) (hour : Nat) (d : SD) (pack : Nat) (spec : Bool) (user : Nat × Nat) (ta : Option Nat) (tn : State) (h : State.fetchPack s hour d pack spec user = (tn, ta)) : tn.kept = s.kept := by
  grind [State.fetchPack, State.updUbl, State.updRdm, State.kept, foldl_kept, getD_kept, State.issueRead_kept, State.joinFetch_kept, State.pin_kept, State.updDp_kept]

theorem State.fetchPack_kept2 (s : State) (hour : Nat) (d : SD) (pack : Nat) (spec : Bool) (user : Nat × Nat) : (State.fetchPack s hour d pack spec user).1.kept = s.kept := State.fetchPack_kept s hour d pack spec user (State.fetchPack s hour d pack spec user).2 (State.fetchPack s hour d pack spec user).1 rfl

theorem State.freeFetch_kept (s : State) (id : Nat) : (State.freeFetch s id).kept = s.kept := by
  grind [State.freeFetch, State.updUbl, State.updRdm, State.kept, foldl_kept, State.nextRead_kept, State.unpin_kept, State.updDp_kept]

theorem State.leaveFetch_kept (s : State) (id : Nat) (user : Nat × Nat) : (State.leaveFetch s id user).kept = s.kept := by
  grind [State.leaveFetch, State.updUbl, State.updRdm, State.kept, foldl_kept, State.freeFetch_kept, State.updDp_kept]

theorem State.leaveAll_kept (s : State) (d : SD) (user : Nat × Nat) : (State.leaveAll s d user).kept = s.kept := by
  grind [State.leaveAll, State.updUbl, State.updRdm, State.kept, foldl_kept, State.leaveFetch_kept]

theorem State.failFetch_kept (s : State) (id : Nat) : (State.failFetch s id).kept = s.kept := by
  grind [State.failFetch, State.updUbl, State.updRdm, State.kept, foldl_kept, State.gotGran_kept, State.leaveAll_kept]

theorem State.mapFormat_kept (s : State) (d : SD) (root : Nat) (gran : Nat) : (State.mapFormat s d root gran).kept = s.kept := by
  grind [State.mapFormat, State.updUbl, State.updRdm, State.kept, foldl_kept, State.raise_kept, State.snag_kept]

theorem State.compareGuess_kept (s : State) (hour : Nat) (d : SD) (stamp : Nat) (gran : Nat) (guess : Option Nat) (pack : Option Nat) (want : Bool) : (State.compareGuess s hour d stamp gran guess pack want).kept = s.kept := by
  intros; unfold State.compareGuess; grind [State.compareGuess, State.updUbl, State.updRdm, State.kept, foldl_kept, State.count_kept, State.fetchPack_kept, State.fetchPack_kept2, State.freeFetch_kept, State.updDp_kept]

theorem State.resolveGran_kept (s : State) (hour : Nat) (r : RGran) : (State.resolveGran s hour r).kept = s.kept := by
  unfold State.resolveGran; split <;> grind [State.resolveGran, State.updUbl, State.updRdm, State.kept, foldl_kept, State.compareGuess_kept, State.fetchPack_kept, State.fetchPack_kept2, State.gotGran_kept, State.mapFormat_kept, State.takeEntry_kept, State.takeEntry_kept2, State.updDp_kept]

theorem State.speculate_kept (s : State) (hour : Nat) (r : RGran) : (State.speculate s hour r).kept = s.kept := by
  unfold State.speculate; grind [State.speculate, State.updUbl, State.updRdm, State.kept, foldl_kept, State.count_kept, State.fetchPack_kept, State.fetchPack_kept2, State.updDp_kept]

theorem State.presentGran_kept (s : State) (hour : Nat) (c : Cmd) (n : Namespace) (gran : Nat) : (State.presentGran s hour c n gran).kept = s.kept := by
  grind [State.presentGran, State.updUbl, State.updRdm, State.kept, foldl_kept, State.gotGran_kept, State.resolveGran_kept, State.speculate_kept, State.updDp_kept]

theorem State.startRead_kept (s : State) (hour : Nat) (d : SD) (stamp : Nat) : (State.startRead s hour d stamp).kept = s.kept := by
  grind [State.startRead, State.updUbl, State.updRdm, State.kept, foldl_kept, State.presentGran_kept, State.updCmd_kept]

theorem State.enterGran_kept (s : State) (c : Cmd) (n : Namespace) (p : Piece) (bytes : Option (List Byte)) (unmap : Option Nat) : (State.enterGran s c n p bytes unmap).kept = s.kept := by
  grind [State.enterGran, State.updUbl, State.updRdm, State.kept, foldl_kept, getD_kept, State.updDp_kept]

theorem State.completeUnit_kept (s : State) (d : SD) (stamp : Nat) (u : Unit) : (State.completeUnit s d stamp u).kept = s.kept := by
  grind [State.completeUnit, State.updUbl, State.updRdm, State.kept, foldl_kept, State.markEntry_kept, State.updCmd_kept, State.updFe_kept]

theorem State.settleWrite_kept (s : State) (d : SD) (stamp : Nat) : (State.settleWrite s d stamp).kept = s.kept := by
  grind [State.settleWrite, State.updUbl, State.updRdm, State.kept, foldl_kept, getD_kept, State.result_kept]

theorem State.piFail_kept (s : State) (d : SD) (stamp : Nat) (st : Status) : (State.piFail s d stamp st).kept = s.kept := by
  grind [State.piFail, State.updUbl, State.updRdm, State.kept, foldl_kept, State.abandon_kept, State.count_kept, State.raise_kept, State.result_kept]

theorem State.setCheck_kept (s : State) (d : SD) (stamp : Nat) (uidx : Nat) (gran : Nat) (data : List Byte) : (State.setCheck s d stamp uidx gran data).kept = s.kept := by
  grind [State.setCheck, State.updUbl, State.updRdm, State.kept, foldl_kept, State.updFe_kept]

theorem State.landNext_kept (s : State) (d : SD) (stamp : Nat) (tn : State) (h : State.landNext s d stamp = some tn) : tn.kept = s.kept := by
  unfold State.landNext at h; split at h <;> grind [State.landNext, State.updUbl, State.updRdm, State.kept, foldl_kept, State.completeUnit_kept, State.enterGran_kept, State.landSlot_kept, State.piFail_kept, State.setCheck_kept, State.updCmd_kept]

theorem State.landAll_kept (s : State) (d : SD) (stamp : Nat) (x0 : Nat) : (State.landAll s d stamp x0).kept = s.kept := by
  induction x0 generalizing s <;> grind [State.landAll, State.updUbl, State.updRdm, State.kept, foldl_kept, State.landNext_kept, State.settleWrite_kept]

theorem State.landOn_kept (s : State) (d : SD) (stamp : Nat) : (State.landOn s d stamp).kept = s.kept := by
  grind [State.landOn, State.updUbl, State.updRdm, State.kept, foldl_kept, State.landAll_kept]

theorem State.landHeld_kept (s : State) : (State.landHeld s).kept = s.kept := by
  grind [State.landHeld, State.updUbl, State.updRdm, State.kept, foldl_kept, State.landOn_kept]

theorem State.feed_kept (s : State) (d : SD) (stamp : Nat) (data : List Byte) : (State.feed s d stamp data).kept = s.kept := by
  grind [State.feed, State.updUbl, State.updRdm, State.kept, foldl_kept, State.landOn_kept, State.settleRead_kept, State.updCmd_kept]

theorem State.landZero_kept (s : State) (c : Cmd) (n : Namespace) (u : Unit) : (State.landZero s c n u).kept = s.kept := by
  grind [State.landZero, State.updUbl, State.updRdm, State.kept, foldl_kept, State.completeUnit_kept, State.enterGran_kept, State.putEntry_kept]

theorem State.makeUnits_kept (s : State) (c : Cmd) (n : Namespace) (idx : Nat) (x0 : List (Nat × Nat)) (tn : State) (h : State.makeUnits s c n idx x0 = some tn) : tn.kept = s.kept := by
  induction x0 generalizing s idx tn <;> grind [State.makeUnits, State.updUbl, State.updRdm, State.kept, foldl_kept, State.putEntry_kept, State.updCmd_kept, State.updFe_kept]

theorem State.nextStamp_kept (s : State) (d : SD) (ta : Nat) (tn : State) (h : State.nextStamp s d = (ta, tn)) : tn.kept = s.kept := by
  grind [State.nextStamp, State.updUbl, State.updRdm, State.kept, foldl_kept, State.updFe_kept]

theorem State.nextStamp_kept2 (s : State) (d : SD) : (State.nextStamp s d).2.kept = s.kept := State.nextStamp_kept s d (State.nextStamp s d).1 (State.nextStamp s d).2 rfl

theorem State.emptyTop_kept (s : State) (d : SD) (size : Nat) (ta : Nat) (tb : Nat) (tn : State) (h : State.emptyTop s d size = (ta, tb, tn)) : tn.kept = s.kept := by
  grind [State.emptyTop, State.updUbl, State.updRdm, State.kept, foldl_kept, State.newPage_kept, State.newPage_kept2]

theorem State.emptyTop_kept2 (s : State) (d : SD) (size : Nat) : (State.emptyTop s d size).2.2.kept = s.kept := State.emptyTop_kept s d size (State.emptyTop s d size).1 (State.emptyTop s d size).2.1 (State.emptyTop s d size).2.2 rfl

theorem State.makeVolume_kept (s : State) (d : SD) (root : Nat) (kdom : Nat) (size : Nat) : (State.makeVolume s d root kdom size).kept = s.kept := by
  grind [State.makeVolume, State.updUbl, State.updRdm, State.kept, foldl_kept, State.delta_kept, State.emptyTop_kept, State.emptyTop_kept2]

theorem State.snapRoot_kept (s : State) (d : SD) (src : Nat) (point : Nat) (ta : Nat) (tn : State) (h : State.snapRoot s d src point = some (ta, tn)) : tn.kept = s.kept := by
  grind [State.snapRoot, State.updUbl, State.updRdm, State.kept, foldl_kept, State.delta_kept, State.share_kept]

theorem State.snapRoots_kept (s : State) (d : SD) (point : Nat) (x0 : List Nat) (ta : List Nat) (tn : State) (h : State.snapRoots s d point x0 = some (ta, tn)) : tn.kept = s.kept := by
  induction x0 generalizing s tn ta with
  | nil => simp_all [State.snapRoots]
  | cons r l ih =>
    unfold State.snapRoots at h; split at h
    · simp at h
    · simp only [Option.map_eq_some_iff] at h; obtain ⟨⟨x, y⟩, h1, h2⟩ := h; grind [State.snapRoot_kept]

theorem State.takeSnap_kept (s : State) (d : SD) (roots : List Nat) (ta : Nat) (tb : List Nat) (tn : State) (h : State.takeSnap s d roots = some (ta, tb, tn)) : tn.kept = s.kept := by
  simp only [State.takeSnap, Option.map_eq_some_iff] at h; obtain ⟨⟨x, y⟩, h1, h2⟩ := h; grind [State.takeSnap, State.updUbl, State.updRdm, State.kept, foldl_kept, State.nextStamp_kept, State.nextStamp_kept2, State.snapRoots_kept]

theorem State.sealRoot_kept (s : State) (d : SD) (root : Nat) : (State.sealRoot s d root).kept = s.kept := by
  grind [State.sealRoot, State.updUbl, State.updRdm, State.kept, foldl_kept, State.delta_kept]

theorem State.deleteRoot_kept (s : State) (d : SD) (root : Nat) : (State.deleteRoot s d root).kept = s.kept := by
  grind [State.deleteRoot, State.updUbl, State.updRdm, State.kept, foldl_kept, getD_kept, State.delta_kept, State.share_kept]

theorem State.emptyRoot_kept (s : State) (d : SD) (root : Nat) : (State.emptyRoot s d root).kept = s.kept := by
  grind [State.emptyRoot, State.updUbl, State.updRdm, State.kept, foldl_kept, State.delta_kept, State.newPage_kept, State.newPage_kept2, State.share_kept]

theorem State.setLoop_kept (s : State) (n : Nat) (l : Loop) : (State.setLoop s n l).kept = s.kept := by
  grind [State.setLoop, State.updUbl, State.updRdm, State.kept, foldl_kept]

theorem State.applyLoop_kept (s : State) (n : Nat) : (State.applyLoop s n).kept = s.kept := by
  grind [State.applyLoop, State.updUbl, State.updRdm, State.kept, foldl_kept, State.raise_kept, State.setLoop_kept]

theorem State.writeLoop_kept (s : State) (n : Nat) (ws : List (Nat × Word)) : (State.writeLoop s n ws).kept = s.kept := by
  grind [State.writeLoop, State.updUbl, State.updRdm, State.kept, foldl_kept, State.setLoop_kept]

theorem State.gcLoop_kept (s : State) : (State.gcLoop s).kept = s.kept := by
  grind [State.gcLoop, State.updUbl, State.updRdm, State.kept, foldl_kept, State.writeLoop_kept]

theorem State.thermalLoop_kept (s : State) (n : Nat) : (State.thermalLoop s n).kept = s.kept := by
  grind [State.thermalLoop, State.updUbl, State.updRdm, State.kept, foldl_kept, State.writeLoop_kept]

theorem State.qosLoop_kept (s : State) (g : Nat) : (State.qosLoop s g).kept = s.kept := by
  grind [State.qosLoop, State.updUbl, State.updRdm, State.kept, foldl_kept, State.writeLoop_kept]

theorem State.startLoops_kept (s : State) : (State.startLoops s).kept = s.kept := by
  grind [State.startLoops, State.updUbl, State.updRdm, State.kept, foldl_kept, State.gcLoop_kept, State.qosLoop_kept, State.thermalLoop_kept]

theorem State.qosChanged_kept (s : State) (g : Nat) : (State.qosChanged s g).kept = s.kept := by
  grind [State.qosChanged, State.updUbl, State.updRdm, State.kept, foldl_kept, State.qosLoop_kept]

end Sys2Proof.Machine
end

