-- ==== Sys2Proof/Laws/Frame2.lean ====
section
/-!
SUPPORT. Frame laws, part 2 of 4: each shared operation keeps the queue and the byte memories, or says how it holds them.
-/

set_option maxRecDepth 4000
set_option linter.all false

namespace Sys2Proof.Machine

theorem State.writeTarget_kept (s : State) (late : Bool) (tgt : Nat) (idx : Nat) (v : Nat) : (State.writeTarget s late tgt idx v).kept = s.kept := by
  intros; unfold State.writeTarget; grind [State.writeTarget, State.updUbl, State.updRdm, State.kept, foldl_kept, State.pend_kept]

theorem State.capture_kept (s : State) (n : Nat) (b : List Byte) : (State.capture s n b).kept = s.kept := by
  grind [State.capture, State.updUbl, State.updRdm, State.kept, foldl_kept]

theorem State.missLoop_kept (s : State) (n : Nat) : (State.missLoop s n).kept = s.kept := by
  grind [State.missLoop, State.updUbl, State.updRdm, State.kept, foldl_kept, State.capture_kept, State.count_kept, State.raise_kept, State.setLoop_kept]

theorem State.evalLoop_kept (s : State) (late : Bool) (n : Nat) (y : Int) : (State.evalLoop s late n y).kept = s.kept := by
  grind [State.evalLoop, State.updUbl, State.updRdm, State.kept, foldl_kept, State.capture_kept, State.count_kept, State.setLoop_kept, State.writeTarget_kept]

theorem State.fillTokens_kept (s : State) : (State.fillTokens s).kept = s.kept := by
  grind [State.fillTokens, State.updUbl, State.updRdm, State.kept, foldl_kept, getD_kept]

theorem execCaptureStart_kept (r : Requester) (loop : Nat) (s : State) (tn : State) (h : execCaptureStart r loop s = .next tn) : tn.kept = s.kept := by
  unfold execCaptureStart at h; grind [execCaptureStart, State.updUbl, State.updRdm, State.kept, foldl_kept, State.claim_kept, State.claim_kept2, State.raise_kept, State.violation_kept]

theorem execCaptureStop_kept (r : Requester) (loop : Nat) (s : State) (tn : State) (h : execCaptureStop r loop s = .next tn) : tn.kept = s.kept := by
  unfold execCaptureStop at h; grind [execCaptureStop, State.updUbl, State.updRdm, State.kept, foldl_kept, State.release_kept, State.violation_kept]

theorem execTraceStart_kept (r : Requester) (s : State) (tn : State) (h : execTraceStart r s = .next tn) : tn.kept = s.kept := by
  unfold execTraceStart at h; grind [execTraceStart, State.updUbl, State.updRdm, State.kept, foldl_kept, State.claim_kept, State.claim_kept2, State.violation_kept]

theorem execTraceStop_kept (r : Requester) (s : State) (tn : State) (h : execTraceStop r s = .next tn) : tn.kept = s.kept := by
  unfold execTraceStop at h; grind [execTraceStop, State.updUbl, State.updRdm, State.kept, foldl_kept, State.release_kept, State.violation_kept]

theorem State.trace_kept (s : State) (b : List Byte) : (State.trace s b).kept = s.kept := by
  grind [State.trace, State.updUbl, State.updRdm, State.kept, foldl_kept]

theorem State.tx_kept (s : State) (x : RdmTx) : (State.tx s x).kept = s.kept := by
  grind [State.tx, State.updUbl, State.updRdm, State.kept, foldl_kept, State.trace_kept]

theorem State.updQp_kept (s : State) (i : Nat) (f : Qp → Qp) : (State.updQp s i f).kept = s.kept := by
  grind [State.updQp, State.updUbl, State.updRdm, State.kept, foldl_kept]

theorem State.useQp_kept (s : State) (i : Nat) : (State.useQp s i).kept = s.kept := by
  grind [State.useQp, State.updUbl, State.updRdm, State.kept, foldl_kept, State.updQp_kept]

theorem State.makeRoom_kept (s : State) : (State.makeRoom s).kept = s.kept := by
  grind [State.makeRoom, State.updUbl, State.updRdm, State.kept, foldl_kept, State.updQp_kept]

theorem State.qpError_kept (s : State) (i : Nat) (cause : Option WcSt) : (State.qpError s i cause).kept = s.kept := by
  grind [State.qpError, State.updUbl, State.updRdm, State.kept, foldl_kept, getD_kept, State.breakQueue_kept, State.count_kept, State.queueError_kept, State.raise_kept, State.updQp_kept]

theorem State.endController_kept (s : State) (cntlid : Nat) : (State.endController s cntlid).kept = s.kept := by
  grind [State.endController, State.updUbl, State.updRdm, State.kept, foldl_kept, State.endHost_kept, State.qpError_kept]

theorem State.scrimTx_kept (s : State) (i : Nat) (msn : Nat) (pidx : Nat) (path : Nat) (retry : Bool) : (State.scrimTx s i msn pidx path retry).kept = s.kept := by
  grind [State.scrimTx, State.updUbl, State.updRdm, State.kept, foldl_kept, getD_kept, State.tx_kept, State.updQp_kept]

theorem State.pump_kept (s : State) (i : Nat) (x0 : Nat) : (State.pump s i x0).kept = s.kept := by
  induction x0 generalizing s <;> grind [State.pump, State.updUbl, State.updRdm, State.kept, foldl_kept, State.scrimTx_kept, State.tx_kept, State.updQp_kept]

theorem State.pumpAll_kept (s : State) (i : Nat) : (State.pumpAll s i).kept = s.kept := by
  grind [State.pumpAll, State.updUbl, State.updRdm, State.kept, foldl_kept, State.pump_kept]

theorem State.sendCtl_kept (s : State) (i : Nat) (x : RdmTx) : (State.sendCtl s i x).kept = s.kept := by
  grind [State.sendCtl, State.updUbl, State.updRdm, State.kept, foldl_kept, State.pumpAll_kept, State.tx_kept, State.updQp_kept]

theorem State.openWindow_kept (s : State) (qp : Nat) (base : Nat) (len : Nat) (rights : Nat) (ta : Nat) (tn : State) (h : State.openWindow s qp base len rights = some (ta, tn)) : tn.kept = s.kept := by
  simp only [State.openWindow, Option.bind_eq_some_iff, Option.map_eq_some_iff] at h; grind [State.openWindow, State.updUbl, State.updRdm, State.kept, foldl_kept, getD_kept]

theorem State.place_held (s : State) (i : Nat) (off : Nat) (b : List Byte) : Held s (State.place s i off b) := by
  simp only [Held, memOk_iff]; unfold State.place; grind [State.place, State.updUbl, State.updRdm, State.kept, foldl_kept, Held, memOk_iff, State.mirrorBytes_kept, Memory.writeAll_wf]

theorem State.closeWindow_kept (s : State) (w : Nat) : (State.closeWindow s w).kept = s.kept := by
  grind [State.closeWindow, State.updUbl, State.updRdm, State.kept, foldl_kept]

theorem State.refuseAccess_kept (s : State) (i : Nat) (psn : Nat) : (State.refuseAccess s i psn).kept = s.kept := by
  grind [State.refuseAccess, State.updUbl, State.updRdm, State.kept, foldl_kept, State.qpError_kept, State.tx_kept]

theorem State.failFront_kept (s : State) (c : Capsule) (st : Status) : (State.failFront s c st).kept = s.kept := by
  grind [State.failFront, State.updUbl, State.updRdm, State.kept, foldl_kept, State.answer_kept, State.updFe_kept]

theorem State.receiveCapsule_kept (s : State) (c : Capsule) : (State.receiveCapsule s c).kept = s.kept := by
  grind [State.receiveCapsule, State.updUbl, State.updRdm, State.kept, foldl_kept, State.failFront_kept, State.updFe_kept]

theorem State.wakeP1_kept (s : State) : (State.wakeP1 s).kept = s.kept := by
  grind [State.wakeP1, State.updUbl, State.updRdm, State.kept, foldl_kept, State.wakeEvent_kept]

theorem State.updAtt_kept (s : State) (id : Nat) (f : Attach → Attach) : (State.updAtt s id f).kept = s.kept := by
  grind [State.updAtt, State.updUbl, State.updRdm, State.kept, foldl_kept, State.delta_kept]

theorem State.setAcked_kept (s : State) (id : Nat) (set : Nat) : (State.setAcked s id set).kept = s.kept := by
  grind [State.setAcked, State.updUbl, State.updRdm, State.kept, foldl_kept, getD_kept, State.deleteRoot_kept, State.updAtt_kept]

theorem State.endWr_kept (s : State) (w : Wr) : (State.endWr s w).kept = s.kept := by
  grind [State.endWr, State.updUbl, State.updRdm, State.kept, foldl_kept, State.setAcked_kept, State.updAtt_kept]

theorem State.ackWrs_kept (s : State) (i : Nat) (psn : Nat) : (State.ackWrs s i psn).kept = s.kept := by
  grind [State.ackWrs, State.updUbl, State.updRdm, State.kept, foldl_kept, State.endWr_kept, State.updQp_kept]

theorem State.retry_kept (s : State) (i : Nat) (rnr : Bool) : (State.retry s i rnr).kept = s.kept := by
  grind [State.retry, State.updUbl, State.updRdm, State.kept, foldl_kept, State.qpError_kept, State.tx_kept, State.updQp_kept]

theorem State.postRead_kept (s : State) (q : QId) (d : SD) (key : Nat) (n : Nat) : (State.postRead s q d key n).kept = s.kept := by
  grind [State.postRead, State.updUbl, State.updRdm, State.kept, foldl_kept, State.updQp_kept]

theorem State.capArrived_kept (s : State) (i : Nat) (d : SD) (c : Capsule) (data : List Byte) : (State.capArrived s i d c data).kept = s.kept := by
  grind [State.capArrived, State.updUbl, State.updRdm, State.kept, foldl_kept, State.updFe_kept, State.updQp_kept]

theorem State.readArrived_kept (s : State) (i : Nat) (d : SD) (stamp : Nat) (data : List Byte) : (State.readArrived s i d stamp data).kept = s.kept := by
  grind [State.readArrived, State.updUbl, State.updRdm, State.kept, foldl_kept, State.feed_kept, State.updQp_kept]

theorem State.fwdArrived_kept (s : State) (i : Nat) (f : Fwd) (data : List Byte) : (State.fwdArrived s i f data).kept = s.kept := by
  grind [State.fwdArrived, State.updUbl, State.updRdm, State.kept, foldl_kept, State.send_kept, State.updFe_kept, State.updQp_kept]

theorem State.dataArrived_kept (s : State) (i : Nat) (d : SD) (stamp : Nat) (data : List Byte) : (State.dataArrived s i d stamp data).kept = s.kept := by
  unfold State.dataArrived; (repeat' split) <;> simp only [State.capArrived_kept, State.fwdArrived_kept, State.readArrived_kept]

theorem State.readPkt_kept (s : State) (i : Nat) (q : Qp) (psn : Nat) (d : SD) (stamp : Nat) (data : List Byte) : (State.readPkt s i q psn d stamp data).kept = s.kept := by
  unfold State.readPkt; (repeat' split) <;> simp only [State.dataArrived_kept]

theorem State.scrimBad_kept (s : State) (i : Nat) : (State.scrimBad s i).kept = s.kept := by
  grind [State.scrimBad, State.updUbl, State.updRdm, State.kept, foldl_kept, State.qpError_kept]

theorem State.scrimRx_held (s : State) (i : Nat) (q : Qp) (x : Sxh) (data : List Byte) : Held s (State.scrimRx s i q x data) := by
  have h1 : ∀ o f, Held s ((s.place i o data).updQp i f) := fun o f =>
    (State.place_held s i o data).trans (held_of_kept (State.updQp_kept _ _ _))
  have h2 : ∀ o f x, Held s (((s.place i o data).updQp i f).tx x) := fun o f x =>
    (h1 o f).trans (held_of_kept (State.tx_kept _ _))
  unfold State.scrimRx; dsimp only; (repeat' split) <;> first
    | exact h1 _ _
    | exact h2 _ _ _
    | exact held_of_kept (State.tx_kept _ _)
    | exact held_of_kept (State.scrimBad_kept _ _)
    | exact held_of_kept (State.refuseAccess_kept _ _ _)

theorem State.request_held (s : State) (i : Nat) (psn : Nat) (op : PktOp) : Held s (State.request s i psn op) := by
  intros; unfold State.request; grind [State.request, State.updUbl, State.updRdm, State.kept, foldl_kept, Held, memOk_iff, State.closeWindow_kept, State.place_held, State.qpError_kept, State.raise_kept, State.receiveCapsule_kept, State.refuseAccess_kept, State.send_kept, State.tx_kept, State.updQp_kept]

theorem State.duplicate_kept (s : State) (i : Nat) (psn : Nat) (op : PktOp) : (State.duplicate s i psn op).kept = s.kept := by
  intros; unfold State.duplicate; grind [State.duplicate, State.updUbl, State.updRdm, State.kept, foldl_kept, State.refuseAccess_kept, State.tx_kept]

theorem State.handlePkt_held (s : State) (i : Nat) (q : Qp) (p : Pkt) : Held s (State.handlePkt s i q p) := by
  unfold State.handlePkt; split
  · exact held_of_kept (State.count_kept _ _ _)
  · refine Held.trans (held_of_kept (State.useQp_kept s i)) ?_
    generalize s.useQp i = u; dsimp only; (repeat' split) <;> first
      | exact State.scrimRx_held _ _ _ _ _
      | exact (held_of_kept (State.updQp_kept _ _ _)).trans (State.request_held _ _ _ _)
      | exact State.request_held _ _ _ _
      | exact State.duplicate_held _ _ _ _
      | exact held_of_kept (by simp only [State.tx_kept, State.duplicate_kept, State.qpError_kept, State.retry_kept, State.ackWrs_kept, State.readPkt_kept])
      | exact held_of_kept (by grind [State.duplicate_kept])

theorem State.rxPkt_held (s0 : State) (p : Pkt) : Held s0 (State.rxPkt s0 p) := by
  unfold State.rxPkt; dsimp only
  have e : (s0.wakeP1.trace p.header).kept = s0.kept := by rw [State.trace_kept, State.wakeP1_kept]
  refine Held.trans (held_of_kept e) ?_
  generalize s0.wakeP1.trace p.header = u
  (repeat' split) <;> first
    | exact State.handlePkt_held _ _ _ _
    | exact held_of_kept (by simp only [State.count_kept, State.raise_kept, State.updQp_kept])

theorem State.updCip_kept (s : State) (f : CipState → CipState) : (State.updCip s f).kept = s.kept := by
  grind [State.updCip, State.updUbl, State.updRdm, State.kept, foldl_kept]

theorem State.setSlot_kept (s : State) (n : Nat) (k : KSlot) : (State.setSlot s n k).kept = s.kept := by
  grind [State.setSlot, State.updUbl, State.updRdm, State.kept, foldl_kept, State.updCip_kept]

theorem State.setPage_kept (s : State) (p : Nat) (u : UPage) : (State.setPage s p u).kept = s.kept := by
  grind [State.setPage, State.updUbl, State.updRdm, State.kept, foldl_kept, State.updCip_kept]

theorem State.pageRaise_kept (s : State) (p : Nat) (bit : Nat) : (State.pageRaise s p bit).kept = s.kept := by
  grind [State.pageRaise, State.updUbl, State.updRdm, State.kept, foldl_kept, State.raise_kept, State.setPage_kept, State.signal_kept]

theorem State.takeDrawn_kept (s : State) (ta : List Byte) (tn : State) (h : State.takeDrawn s = (ta, tn)) : tn.kept = s.kept := by
  grind [State.takeDrawn, State.updUbl, State.updRdm, State.kept, foldl_kept, State.count_kept, State.draw_kept, State.draw_kept2, State.updCip_kept]

theorem State.takeDrawn_kept2 (s : State) : (State.takeDrawn s).2.kept = s.kept := State.takeDrawn_kept s (State.takeDrawn s).1 (State.takeDrawn s).2 rfl

theorem State.packNonce_kept (s : State) (slot : Nat) (ta : List Byte) (tn : State) (h : State.packNonce s slot = .drawn ta tn) : tn.kept = s.kept := by
  grind [State.packNonce, State.updUbl, State.updRdm, State.kept, foldl_kept, State.setSlot_kept]

theorem State.msgNonce_kept (s : State) (slot : Nat) (ta : List Byte) (tn : State) (h : State.msgNonce s slot = .drawn ta tn) : tn.kept = s.kept := by
  grind [State.msgNonce, State.updUbl, State.updRdm, State.kept, foldl_kept, State.count_kept, State.setSlot_kept, State.takeDrawn_kept, State.takeDrawn_kept2]

theorem State.cplEvents_kept (s : State) (p : Nat) (int : Bool) (e : List Byte) : (State.cplEvents s p int e).kept = s.kept := by
  grind [State.cplEvents, State.updUbl, State.updRdm, State.kept, foldl_kept, State.pageRaise_kept]

theorem State.putCpl_kept (s : State) (p : Nat) (int : Bool) (e : List Byte) : (State.putCpl s p int e).kept = s.kept := by
  grind [State.putCpl, State.updUbl, State.updRdm, State.kept, foldl_kept, State.cplEvents_kept, State.setPage_kept, State.updCip_kept]

theorem State.dma_kept (s : State) (addr : Nat) (b : List Byte) : (State.dma s addr b).kept = s.kept := by
  grind [State.dma, State.updUbl, State.updRdm, State.kept, foldl_kept, State.updCip_kept]

theorem State.fetched_kept (s : State) (p : Nat) (didx : Nat) (b : List Byte) (src : Option (List Byte)) (aad : List Byte) (tag : List Byte) (dstOk : Bool) (ta : Fetched) (tn : State) (h : State.fetched s p didx b src aad tag dstOk = (ta, tn)) : tn.kept = s.kept := by
  grind [State.fetched, State.updUbl, State.updRdm, State.kept, foldl_kept, State.msgNonce_kept]

theorem State.fetched_kept2 (s : State) (p : Nat) (didx : Nat) (b : List Byte) (src : Option (List Byte)) (aad : List Byte) (tag : List Byte) (dstOk : Bool) : (State.fetched s p didx b src aad tag dstOk).2.kept = s.kept := State.fetched_kept s p didx b src aad tag dstOk (State.fetched s p didx b src aad tag dstOk).1 (State.fetched s p didx b src aad tag dstOk).2 rfl

theorem State.msgEnded_kept (s : State) (dst : Nat) (o : OffOut) : (State.msgEnded s dst o).kept = s.kept := by
  grind [State.msgEnded, State.updUbl, State.updRdm, State.kept, foldl_kept, State.count_kept, State.dma_kept, State.raise_kept]

theorem State.postEnded_kept (s : State) (p : Nat) : (State.postEnded s p).kept = s.kept := by
  grind [State.postEnded, State.updUbl, State.updRdm, State.kept, foldl_kept, State.putCpl_kept, State.updCip_kept]

theorem State.endStreams_kept (s : State) : (State.endStreams s).kept = s.kept := by
  grind [State.endStreams, State.updUbl, State.updRdm, State.kept, foldl_kept, State.msgEnded_kept, State.postEnded_kept, State.updCip_kept]

theorem State.poolTick_kept (s : State) : (State.poolTick s).kept = s.kept := by
  grind [State.poolTick, State.updUbl, State.updRdm, State.kept, foldl_kept, State.endStreams_kept, State.updCip_kept]

theorem State.cutStreams_kept (s : State) (slot : Nat) : (State.cutStreams s slot).kept = s.kept := by
  grind [State.cutStreams, State.updUbl, State.updRdm, State.kept, foldl_kept, State.count_kept, State.postEnded_kept, State.raise_kept, State.updCip_kept]

theorem State.loadPlain_kept (s : State) (slot : Nat) (usage : Nat) (klen : Bool) (key : List Byte) : (State.loadPlain s slot usage klen key).kept = s.kept := by
  grind [State.loadPlain, State.updUbl, State.updRdm, State.kept, foldl_kept, State.setSlot_kept, State.takeDrawn_kept, State.takeDrawn_kept2]

theorem State.loadAtRest_kept (s : State) (slot : Nat) (key : List Byte) (fresh : Bool) (tn : State) (h : State.loadAtRest s slot key fresh = some tn) : tn.kept = s.kept := by
  grind [State.loadAtRest, State.updUbl, State.updRdm, State.kept, foldl_kept, State.delta_kept, State.setSlot_kept]

theorem State.zeroize_kept (s : State) (slot : Nat) : (State.zeroize s slot).kept = s.kept := by
  grind [State.zeroize, State.updUbl, State.updRdm, State.kept, foldl_kept, State.cutStreams_kept, State.setSlot_kept, State.updCip_kept]

theorem State.needAtRest_kept (s : State) (ta : Nat) (tn : State) (h : State.needAtRest s = some (ta, tn)) : tn.kept = s.kept := by
  unfold State.needAtRest at h; split at h
  · simp_all
  · simp only [Option.map_eq_some_iff] at h; grind [State.kept, State.setPage_kept]

theorem State.vaultFp_kept (s : State) (k : Nat) (fp : List Byte) : (State.vaultFp s k fp).kept = s.kept := by
  grind [State.vaultFp, State.updUbl, State.updRdm, State.kept, foldl_kept, State.draw_kept, State.draw_kept2]

theorem State.loadFpKeys_kept (s : State) : (State.loadFpKeys s).kept = s.kept := by
  grind [State.loadFpKeys, State.updUbl, State.updRdm, State.kept, foldl_kept, getD_kept]

theorem State.installKdom_kept (s : State) (k : Nat) (mode : DMode) (slot : Nat) (fp : List Byte) (key : List Byte) : (State.installKdom s k mode slot fp key).kept = s.kept := by
  unfold State.installKdom; grind [State.installKdom, State.updUbl, State.updRdm, State.kept, foldl_kept, getD_kept, State.loadAtRest_kept, State.setPage_kept, State.vaultFp_kept]

theorem State.sendKdom_kept (s : State) (k : Nat) : (State.sendKdom s k).kept = s.kept := by
  grind [State.sendKdom, State.updUbl, State.updRdm, State.kept, foldl_kept, State.draw_kept, State.draw_kept2, State.send_kept, State.vaultFp_kept]

theorem State.takeKdom_kept (s : State) (b : List Byte) : (State.takeKdom s b).kept = s.kept := by
  unfold State.takeKdom; split <;> simp only [State.installKdom_kept]

theorem State.drawMetaKey_kept (s : State) : (State.drawMetaKey s).kept = s.kept := by
  unfold State.drawMetaKey; split
  · rfl
  · rename_i n s1 h1
    have e1 := State.needAtRest_kept _ _ _ h1
    dsimp only
    split
    · rfl
    · rename_i s3 h3
      have e3 := State.loadAtRest_kept _ _ _ _ _ h3
      rw [State.sendKdom_kept]
      exact (e3.trans (State.draw_kept2 _)).trans e1

theorem State.endSat_kept (s : State) (k : Nat) : (State.endSat s k).kept = s.kept := by
  grind [State.endSat, State.updUbl, State.updRdm, State.kept, foldl_kept, State.count_kept, State.delta_kept, State.freePending_kept]

theorem State.removeKdom_kept (s : State) (k : Nat) : (State.removeKdom s k).kept = s.kept := by
  grind [State.removeKdom, State.updUbl, State.updRdm, State.kept, foldl_kept, State.endSat_kept, State.zeroize_kept]

theorem execPgSqTail_kept (p : Nat) (v : Word) (s : State) (tn : State) (h : execPgSqTail p v s = .next tn) : tn.kept = s.kept := by
  unfold execPgSqTail at h; grind [execPgSqTail, State.updUbl, State.updRdm, State.kept, foldl_kept, State.setPage_kept, State.violation_kept]

theorem State.postHeld_kept (s : State) (p : Nat) : (State.postHeld s p).kept = s.kept := by
  grind [State.postHeld, State.updUbl, State.updRdm, State.kept, foldl_kept, State.putCpl_kept, State.setPage_kept]

theorem execPgCqHead_kept (p : Nat) (v : Word) (s : State) (tn : State) (h : execPgCqHead p v s = .next tn) : tn.kept = s.kept := by
  unfold execPgCqHead at h; grind [execPgCqHead, State.updUbl, State.updRdm, State.kept, foldl_kept, State.postHeld_kept, State.setPage_kept, State.violation_kept]

theorem execPgStatusAck_kept (p : Nat) (v : Word) (s : State) (tn : State) (h : execPgStatusAck p v s = .next tn) : tn.kept = s.kept := by
  unfold execPgStatusAck at h; grind [execPgStatusAck, State.updUbl, State.updRdm, State.kept, foldl_kept, State.setPage_kept, State.violation_kept]

theorem execPgZeroize_kept (p : Nat) (v : Word) (s : State) (tn : State) (h : execPgZeroize p v s = .next tn) : tn.kept = s.kept := by
  unfold execPgZeroize at h; grind [execPgZeroize, State.updUbl, State.updRdm, State.kept, foldl_kept, State.violation_kept, State.zeroize_kept]

theorem State.updStr_kept (s : State) (f : StrState → StrState) : (State.updStr s f).kept = s.kept := by
  grind [State.updStr, State.updUbl, State.updRdm, State.kept, foldl_kept]

theorem State.updMed_kept (s : State) (f : MedState → MedState) : (State.updMed s f).kept = s.kept := by
  grind [State.updMed, State.updUbl, State.updRdm, State.kept, foldl_kept]

theorem State.updRow_kept (s : State) (d : SD) (n : Nat) (row : Nat) (f : Row → Row) : (State.updRow s d n row f).kept = s.kept := by
  grind [State.updRow, State.updUbl, State.updRdm, State.kept, foldl_kept, State.updStr_kept]

theorem State.foldData_kept (s : State) (d : SD) (n : Nat) (row : Nat) (j : Nat) (img : List Byte) : (State.foldData s d n row j img).kept = s.kept := by
  grind [State.foldData, State.updUbl, State.updRdm, State.kept, foldl_kept, State.updRow_kept]

theorem State.stageFor_kept (s : State) (d : SD) (seg : Nat) (row : Nat) (img : List Byte) : (State.stageFor s d seg row img).kept = s.kept := by
  grind [State.stageFor, State.updUbl, State.updRdm, State.kept, foldl_kept, State.updMed_kept]

theorem State.programSlot_kept (s : State) (d : SD) (n : Nat) (t : Stripe) (row : Nat) (pos : Nat) (img : List Byte) : (State.programSlot s d n t row pos img).kept = s.kept := by
  grind [State.programSlot, State.updUbl, State.updRdm, State.kept, foldl_kept, getD_kept, State.issueProgram_kept, State.stageFor_kept]

theorem State.programParity_kept (s : State) (d : SD) (n : Nat) (t : Stripe) (row : Nat) : (State.programParity s d n t row).kept = s.kept := by
  grind [State.programParity, State.updUbl, State.updRdm, State.kept, foldl_kept, State.programSlot_kept, State.updRow_kept]

theorem State.closeStripe_kept (s : State) (d : SD) (n : Nat) : (State.closeStripe s d n).kept = s.kept := by
  grind [State.closeStripe, State.updUbl, State.updRdm, State.kept, foldl_kept, State.delta_kept]

theorem State.trimSubs_kept (s : State) : (State.trimSubs s).kept = s.kept := by
  grind [State.trimSubs, State.updUbl, State.updRdm, State.kept, foldl_kept, State.updMed_kept]

theorem State.closeRow_kept (s : State) (d : SD) (n : Nat) (row : Nat) : (State.closeRow s d n row).kept = s.kept := by
  grind [State.closeRow, State.updUbl, State.updRdm, State.kept, foldl_kept, State.closeStripe_kept, State.journal_kept, State.trimSubs_kept, State.updStr_kept]

theorem State.slotDone_kept (s : State) (d : SD) (n : Nat) (row : Nat) (pos : Nat) : (State.slotDone s d n row pos).kept = s.kept := by
  grind [State.slotDone, State.updUbl, State.updRdm, State.kept, foldl_kept, State.closeRow_kept, State.updRow_kept]

theorem State.fillRow_kept (s : State) (d : SD) (n : Nat) (t : Stripe) (row : Nat) : (State.fillRow s d n t row).kept = s.kept := by
  grind [State.fillRow, State.updUbl, State.updRdm, State.kept, foldl_kept, State.closeRow_kept, State.foldData_kept, State.programParity_kept, State.programSlot_kept, State.takeSlot_kept]

theorem State.fillRows_kept (s : State) (d : SD) (n : Nat) : (State.fillRows s d n).kept = s.kept := by
  grind [State.fillRows, State.updUbl, State.updRdm, State.kept, foldl_kept, State.fillRow_kept]

theorem State.closeEarly_kept (s : State) (d : SD) (n : Nat) : (State.closeEarly s d n).kept = s.kept := by
  grind [State.closeEarly, State.updUbl, State.updRdm, State.kept, foldl_kept, State.closeStripe_kept, State.fillRows_kept, State.updMed_kept]

theorem State.tidyRows_kept (s : State) (d : SD) : (State.tidyRows s d).kept = s.kept := by
  grind [State.tidyRows, State.updUbl, State.updRdm, State.kept, foldl_kept, State.closeRow_kept, State.closeStripe_kept, State.fillRows_kept]

theorem State.setMissing_kept (s : State) (d : SD) (n : Nat) (pos : Nat) : (State.setMissing s d n pos).kept = s.kept := by
  grind [State.setMissing, State.updUbl, State.updRdm, State.kept, foldl_kept, State.closeRow_kept, State.delta_kept, State.raise_kept]

theorem State.releaseJournal_kept (s : State) (d : SD) : (State.releaseJournal s d).kept = s.kept := by
  grind [State.releaseJournal, State.updUbl, State.updRdm, State.kept, foldl_kept, State.journal_kept, State.updStr_kept]

theorem State.putPack_kept (s : State) (p : Pack) : (State.putPack s p).kept = s.kept := by
  grind [State.putPack, State.updUbl, State.updRdm, State.kept, foldl_kept, State.updDp_kept]

theorem State.streamPack_kept (s : State) (d : SD) (kdom : Nat) (copy : Bool) (ta : Pack) (tn : State) (h : State.streamPack s d kdom copy = some (ta, tn)) : tn.kept = s.kept := by
  unfold State.streamPack at h; split at h
  · grind
  · split at h
    · simp only [Option.map_eq_some_iff] at h; obtain ⟨⟨p, s1⟩, h1, h2⟩ := h; grind [State.streamPack, State.updUbl, State.updRdm, State.kept, foldl_kept, State.openPack_kept, State.updDp_kept]
    · simp at h

theorem State.appendForm_kept (s : State) (d : SD) (kdom : Nat) (copy : Bool) (form : List Byte) (check : Option DWord) (src : Src) (ta : Nat) (tb : Option Nat) (tn : State) (h : State.appendForm s d kdom copy form check src = some (ta, tb, tn)) : tn.kept = s.kept := by
  unfold State.appendForm at h; split at h
  · simp at h
  · rename_i p s1 hp
    have e := State.streamPack_kept _ _ _ _ _ _ hp
    dsimp only at h; split at h
    · simp only [Option.some.injEq, Prod.mk.injEq] at h; obtain ⟨-, -, rfl⟩ := h; rw [State.putPack_kept, e]
    · split at h
      · simp at h
      · rename_i q s2 hq
        have e2 : s2.kept = s1.kept := by
          split at hq
          · exact State.openSuccessor_kept _ _ _ _ hq
          · simp at hq
        simp only [Option.some.injEq, Prod.mk.injEq] at h; obtain ⟨-, -, rfl⟩ := h
        simp only [State.count_kept, State.updDp_kept, State.putPack_kept, e2, e]

theorem State.closePack_kept (s : State) (p : Pack) : (State.closePack s p).kept = s.kept := by
  grind [State.closePack, State.updUbl, State.updRdm, State.kept, foldl_kept, State.updDp_kept]

theorem State.placeMeta_kept (s : State) (d : SD) (body : List Byte) (ids : List Nat) (ta : Nat) (tn : State) (h : State.placeMeta s d body ids = some (ta, tn)) : tn.kept = s.kept := by
  unfold State.placeMeta at h; split at h
  · simp at h
  · simp only [Option.map_eq_some_iff] at h; obtain ⟨⟨p, s1⟩, h1, h2⟩ := h
    simp only [Prod.mk.injEq] at h2; obtain ⟨-, rfl⟩ := h2
    rw [State.deltas_kept, State.updDp_kept]; exact State.openAt_kept _ _ _ _ _ _ _ _ h1

theorem State.writePages_kept (s : State) (d : SD) (x0 : Nat) (x1 : CkptWork) (ta : CkptWork) (tn : State) (h : State.writePages s d x0 x1 = (ta, tn)) : tn.kept = s.kept := by
  induction x0 generalizing s x1 tn ta <;> grind [State.writePages, State.updUbl, State.updRdm, State.kept, foldl_kept, State.placeMeta_kept]

theorem State.writePages_kept2 (s : State) (d : SD) (x0 : Nat) (x1 : CkptWork) : (State.writePages s d x0 x1).2.kept = s.kept := State.writePages_kept s d x0 x1 (State.writePages s d x0 x1).1 (State.writePages s d x0 x1).2 rfl

theorem State.trimDdr_kept (s : State) : (State.trimDdr s).kept = s.kept := by
  grind [State.trimDdr, State.updUbl, State.updRdm, State.kept, foldl_kept]

theorem State.fillPage_kept (s : State) (d : SD) (mpid : Nat) : (State.fillPage s d mpid).kept = s.kept := by
  grind [State.fillPage, State.updUbl, State.updRdm, State.kept, foldl_kept, State.enterHbm_kept, State.readPack_kept, State.readPack_kept2, State.trimDdr_kept]

theorem State.takeToken_kept (s : State) (n : Namespace) : (State.takeToken s n).kept = s.kept := by
  grind [State.takeToken, State.updUbl, State.updRdm, State.kept, foldl_kept, getD_kept]

theorem State.acceptOwned_kept (s : State) (c : Capsule) (n : Namespace) (data : List Byte) (tn : State) (h : State.acceptOwned s c n data = some tn) : tn.kept = s.kept := by
  grind [State.acceptOwned, State.updUbl, State.updRdm, State.kept, foldl_kept, getD_kept, State.count_kept, State.makeUnits_kept, State.nextStamp_kept, State.nextStamp_kept2, State.result_kept, State.takeToken_kept, State.updCmd_kept, State.updFe_kept]

theorem State.forward_kept (s : State) (c : Capsule) (d : SD) : (State.forward s c d).kept = s.kept := by
  grind [State.forward, State.updUbl, State.updRdm, State.kept, foldl_kept, State.count_kept, State.postRead_kept, State.send_kept, State.updFe_kept]

theorem State.acceptSpan_kept (s : State) (c : Capsule) (ds : List SD) : (State.acceptSpan s c ds).kept = s.kept := by
  intros; unfold State.acceptSpan; grind [State.acceptSpan, State.updUbl, State.updRdm, State.kept, foldl_kept, State.answer_kept, State.count_kept, State.forward_kept, State.nextStamp_kept, State.nextStamp_kept2, State.result_kept, State.updCmd_kept, State.updFe_kept]

theorem State.fencePoint_kept (s : State) (f : Fence) : (State.fencePoint s f).kept = s.kept := by
  grind [State.fencePoint, State.updUbl, State.updRdm, State.kept, foldl_kept, State.acceptSpan_kept, State.updFe_kept]

theorem State.updGran_kept (s : State) (id : Nat) (f : Gran → Gran) : (State.updGran s id f).kept = s.kept := by
  grind [State.updGran, State.updUbl, State.updRdm, State.kept, foldl_kept, State.updDp_kept]

theorem State.mergeBase_kept (s : State) (d : SD) (root : Nat) (gran : Nat) (ta : List Byte) (tb : Nat) (tn : State) (h : State.mergeBase s d root gran = (ta, tb, tn)) : tn.kept = s.kept := by
  grind [State.mergeBase, State.updUbl, State.updRdm, State.kept, foldl_kept, State.mapFormat_kept, State.readStored_kept, State.readStored_kept2]

theorem State.mergeBase_kept2 (s : State) (d : SD) (root : Nat) (gran : Nat) : (State.mergeBase s d root gran).2.2.kept = s.kept := State.mergeBase_kept s d root gran (State.mergeBase s d root gran).1 (State.mergeBase s d root gran).2.1 (State.mergeBase s d root gran).2.2 rfl

theorem State.merged_kept (s : State) (g : Gran) (n : Namespace) (own : InFl) (ta : List Byte) (tb : List Nat) (tn : State) (h : State.merged s g n own = (ta, tb, tn)) : tn.kept = s.kept := by
  grind [State.merged, State.updUbl, State.updRdm, State.kept, foldl_kept, State.mergeBase_kept, State.mergeBase_kept2]

theorem State.merged_kept2 (s : State) (g : Gran) (n : Namespace) (own : InFl) : (State.merged s g n own).2.2.kept = s.kept := State.merged_kept s g n own (State.merged s g n own).1 (State.merged s g n own).2.1 (State.merged s g n own).2.2 rfl

theorem State.insertIndex_kept (s : State) (id : Nat) (g : Gran) (fp : List Byte) (loc : Nat) : (State.insertIndex s id g fp loc).kept = s.kept := by
  grind [State.insertIndex, State.updUbl, State.updRdm, State.kept, foldl_kept, State.updGran_kept]

theorem State.recordIndex_kept (s : State) (g : Gran) (loc : Nat) : (State.recordIndex s g loc).kept = s.kept := by
  grind [State.recordIndex, State.updUbl, State.updRdm, State.kept, foldl_kept, getD_kept, State.delta_kept]

theorem State.appendGran_kept (s : State) (id : Nat) (g : Gran) (fp : List Byte) (b : List Byte) (l : Lane) (tn : State) (h : State.appendGran s id g fp b l = some tn) : tn.kept = s.kept := by
  simp only [State.appendGran, Option.bind_eq_some_iff, Option.map_eq_some_iff] at h; grind [State.appendGran, State.updUbl, State.updRdm, State.kept, foldl_kept, State.appendForm_kept, State.insertIndex_kept, State.merged_kept, State.merged_kept2, State.updGran_kept]

theorem State.toPend_kept (s : State) (id : Nat) : (State.toPend s id).kept = s.kept := by
  grind [State.toPend, State.updUbl, State.updRdm, State.kept, foldl_kept, State.pend_kept, State.updDp_kept]

theorem State.dirtyPath_kept (s : State) (d : SD) (root : Nat) (gran : Nat) (before : Nat) : (State.dirtyPath s d root gran before).kept = s.kept := by
  grind [State.dirtyPath, State.updUbl, State.updRdm, State.kept, foldl_kept, State.dirtySector_kept]

theorem State.recordEntry_kept (s : State) (d : SD) (root : Nat) (gran : Nat) (e : MapEnt) : (State.recordEntry s d root gran e).kept = s.kept := by
  grind [State.recordEntry, State.updUbl, State.updRdm, State.kept, foldl_kept, State.dirtyPath_kept, State.writeEntry_kept]

theorem State.recordAll_kept (s : State) (g : Gran) (e : MapEnt) : (State.recordAll s g e).kept = s.kept := by
  grind [State.recordAll, State.updUbl, State.updRdm, State.kept, foldl_kept, State.recordEntry_kept]

theorem State.dropCmd_kept (s : State) (d : SD) (stamp : Nat) : (State.dropCmd s d stamp).kept = s.kept := by
  grind [State.dropCmd, State.updUbl, State.updRdm, State.kept, foldl_kept, State.updFe_kept]

theorem State.granDone_kept (s : State) (id : Nat) (g : Gran) : (State.granDone s id g).kept = s.kept := by
  grind [State.granDone, State.updUbl, State.updRdm, State.kept, foldl_kept, State.dropCmd_kept, State.pend_kept, State.updCmd_kept, State.updDp_kept, State.updFe_kept]

theorem State.recordGran_kept (s : State) (id : Nat) (g : Gran) : (State.recordGran s id g).kept = s.kept := by
  have hr : (State.recordGran.refuse s id g).kept = s.kept := by unfold State.recordGran.refuse; grind [State.appendGran_kept, State.count_kept]
  unfold State.recordGran; (repeat' split) <;> first
    | exact hr
    | rfl
    | (simp only [State.appendGran_kept, State.count_kept, State.delta_kept, State.granDone_kept, State.lose_kept, State.recordAll_kept, State.recordIndex_kept, State.result_kept])
    | (dsimp only; split <;> simp only [State.appendGran_kept, State.count_kept, State.delta_kept, State.granDone_kept, State.lose_kept, State.recordAll_kept, State.recordIndex_kept, State.result_kept])

theorem State.relink_kept (s : State) (d : SD) (root : Nat) (gran : Nat) (x : Nat) (c : Nat) : (State.relink s d root gran x c).kept = s.kept := by
  grind [State.relink, State.updUbl, State.updRdm, State.kept, foldl_kept, State.count_kept, State.pend_kept, State.recordEntry_kept, State.updDp_kept]

theorem State.protect_kept (s : State) (p : Pack) (t : Stripe) (img : List Byte) (r : JRec) : (State.protect s p t img r).kept = s.kept := by
  grind [State.protect, State.updUbl, State.updRdm, State.kept, foldl_kept, State.closeRow_kept, State.foldData_kept, State.journal_kept, State.programParity_kept, State.programSlot_kept]

theorem State.dropPack_kept (s : State) (p : Pack) (t : Stripe) : (State.dropPack s p t).kept = s.kept := by
  grind [State.dropPack, State.updUbl, State.updRdm, State.kept, foldl_kept, State.closeRow_kept, State.foldData_kept, State.programParity_kept, State.updRow_kept]

theorem State.addLatency_kept (s : State) (nsid : Nat) (us : Nat) : (State.addLatency s nsid us).kept = s.kept := by
  grind [State.addLatency, State.updUbl, State.updRdm, State.kept, foldl_kept, getD_kept]

theorem State.updFetch_kept (s : State) (id : Nat) (f : Fetch → Fetch) : (State.updFetch s id f).kept = s.kept := by
  grind [State.updFetch, State.updUbl, State.updRdm, State.kept, foldl_kept, State.updDp_kept]

theorem State.reserveSlots_kept (s : State) (b : Blk) : (State.reserveSlots s b).kept = s.kept := by
  grind [State.reserveSlots, State.updUbl, State.updRdm, State.kept, foldl_kept, getD_kept]

theorem State.fabTick_kept (s : State) : (State.fabTick s).kept = s.kept := by
  grind [State.fabTick, State.updUbl, State.updRdm, State.kept, foldl_kept]

theorem State.updMap_kept (s : State) (f : MapState → MapState) : (State.updMap s f).kept = s.kept := by
  grind [State.updMap, State.updUbl, State.updRdm, State.kept, foldl_kept]

theorem State.mapOp_kept (s : State) (r : Requester) (op : Nat) (refuse : Nat) (go : State → State) (h_go : ∀ x, (go x).kept = x.kept) : (State.mapOp s r op refuse go).kept = s.kept := by
  grind [State.mapOp, State.updUbl, State.updRdm, State.kept, foldl_kept, State.raise_kept, State.updMap_kept, State.violation_kept]

theorem State.mapDone_kept (s : State) (op : Nat) : (State.mapDone s op).kept = s.kept := by
  grind [State.mapDone, State.updUbl, State.updRdm, State.kept, foldl_kept, State.raise_kept, State.updMap_kept]

theorem State.cacheOff_kept (s : State) : (State.cacheOff s).kept = s.kept := by
  grind [State.cacheOff, State.updUbl, State.updRdm, State.kept, foldl_kept, State.mapDone_kept, State.updMap_kept]

theorem State.cacheOn_kept (s : State) : (State.cacheOn s).kept = s.kept := by
  grind [State.cacheOn, State.updUbl, State.updRdm, State.kept, foldl_kept, State.mapDone_kept, State.updMap_kept]

theorem execInvalidate_kept (r : Requester) (s : State) (tn : State) (h : execInvalidate r s = .next tn) : tn.kept = s.kept := by
  unfold execInvalidate at h; grind [execInvalidate, State.updUbl, State.updRdm, State.kept, foldl_kept, State.mapOp_kept, State.updMap_kept]

theorem execMapFlush_kept (r : Requester) (s : State) (tn : State) (h : execMapFlush r s = .next tn) : tn.kept = s.kept := by
  unfold execMapFlush at h; grind [execMapFlush, State.updUbl, State.updRdm, State.kept, foldl_kept, State.mapOp_kept, State.updMap_kept]

theorem execMapDisable_kept (r : Requester) (s : State) (tn : State) (h : execMapDisable r s = .next tn) : tn.kept = s.kept := by
  unfold execMapDisable at h; grind [execMapDisable, State.updUbl, State.updRdm, State.kept, foldl_kept, State.mapOp_kept, State.raise_kept, State.updMap_kept]

theorem execMapEnable_kept (r : Requester) (s : State) (tn : State) (h : execMapEnable r s = .next tn) : tn.kept = s.kept := by
  unfold execMapEnable at h; grind [execMapEnable, State.updUbl, State.updRdm, State.kept, foldl_kept, State.mapOp_kept, State.raise_kept, State.updMap_kept]

theorem execWriteback_kept (r : Requester) (s : State) (tn : State) (h : execWriteback r s = .next tn) : tn.kept = s.kept := by
  unfold execWriteback at h; grind [execWriteback, State.updUbl, State.updRdm, State.kept, foldl_kept, State.mapOp_kept, State.raise_kept, State.updMap_kept]

theorem State.dropRoot_kept (s : State) (d : SD) (root : Nat) : (State.dropRoot s d root).kept = s.kept := by
  grind [State.dropRoot, State.updUbl, State.updRdm, State.kept, foldl_kept, State.delta_kept]

theorem State.dropChild_kept (s : State) (d : SD) (root : Option Nat) (mpid : Nat) : (State.dropChild s d root mpid).kept = s.kept := by
  grind [State.dropChild, State.updUbl, State.updRdm, State.kept, foldl_kept, State.delta_kept, State.share_kept]

theorem State.coatVerify_kept (s : State) (d : SD) (x : Nat) (c : Nat) (rx : RefRec) (rc : RefRec) (ta : Bool) (tn : State) (h : State.coatVerify s d x c rx rc = (ta, tn)) : tn.kept = s.kept := by
  grind [State.coatVerify, State.updUbl, State.updRdm, State.kept, foldl_kept, getD_kept, State.delta_kept, State.readStored_kept, State.readStored_kept2, State.snag_kept]

theorem State.coatVerify_kept2 (s : State) (d : SD) (x : Nat) (c : Nat) (rx : RefRec) (rc : RefRec) : (State.coatVerify s d x c rx rc).2.kept = s.kept := State.coatVerify_kept s d x c rx rc (State.coatVerify s d x c rx rc).1 (State.coatVerify s d x c rx rc).2 rfl

theorem State.coverLog_kept (s : State) (d : SD) : (State.coverLog s d).kept = s.kept := by
  grind [State.coverLog, State.updUbl, State.updRdm, State.kept, foldl_kept, State.deltas_kept, State.updMap_kept]

theorem State.coverLogs_kept (s : State) (d : SD) (x0 : Nat) : (State.coverLogs s d x0).kept = s.kept := by
  induction x0 generalizing s <;> grind [State.coverLogs, State.updUbl, State.updRdm, State.kept, foldl_kept, State.coverLog_kept]

theorem State.ckptGo_kept (s : State) (d : SD) (w : CkptWork) : (State.ckptGo s d w).kept = s.kept := by
  grind [State.ckptGo, State.updUbl, State.updRdm, State.kept, foldl_kept, State.coverLogs_kept, State.trimDdr_kept, State.updMap_kept, State.writePages_kept, State.writePages_kept2]

theorem State.updMlk_kept (s : State) (f : MlkState → MlkState) : (State.updMlk s f).kept = s.kept := by
  grind [State.updMlk, State.updUbl, State.updRdm, State.kept, foldl_kept]

theorem State.updMod_kept (s : State) (port : Nat) (f : Module → Module) : (State.updMod s port f).kept = s.kept := by
  grind [State.updMod, State.updUbl, State.updRdm, State.kept, foldl_kept, State.updMlk_kept]

theorem State.stamp_kept (s : State) (d : SD) (port : Nat) (pseg : Nat) (t : Int) : (State.stamp s d port pseg t).kept = s.kept := by
  grind [State.stamp, State.updUbl, State.updRdm, State.kept, foldl_kept, State.delta_kept, State.noteHour_kept]

theorem State.formAll_kept (s : State) : (State.formAll s).kept = s.kept := by
  grind [State.formAll, State.updUbl, State.updRdm, State.kept, foldl_kept, State.formStripe_kept]

theorem State.sizeSheets_kept (s : State) : (State.sizeSheets s).kept = s.kept := by
  grind [State.sizeSheets, State.updUbl, State.updRdm, State.kept, foldl_kept, State.raise_kept]

theorem State.loseMissing_kept (s : State) (d : SD) (n : Nat) : (State.loseMissing s d n).kept = s.kept := by
  grind [State.loseMissing, State.updUbl, State.updRdm, State.kept, foldl_kept, State.loseRow_kept]

theorem State.outOfService_kept (s : State) (port : Nat) : (State.outOfService s port).kept = s.kept := by
  grind [State.outOfService, State.updUbl, State.updRdm, State.kept, foldl_kept, State.closeEarly_kept, State.loseMissing_kept, State.setMissing_kept]

end Sys2Proof.Machine
end

