-- ==== Sys2Proof/Laws/Frame3.lean ====
section
/-!
SUPPORT. Frame laws, part 3 of 4: each shared operation keeps the queue and the byte memories, or says how it holds them.
-/

set_option maxRecDepth 4000
set_option linter.all false

namespace Sys2Proof.Machine

theorem State.markMembers_kept (s : State) (d : SD) : (State.markMembers s d).kept = s.kept := by
  grind [State.markMembers, State.updUbl, State.updRdm, State.kept, foldl_kept, State.loseMissing_kept, State.setMissing_kept]

theorem State.endOuts_kept (s : State) (port : Nat) : (State.endOuts s port).kept = s.kept := by
  grind [State.endOuts, State.updUbl, State.updRdm, State.kept, foldl_kept, State.updMlk_kept]

theorem State.markSerial_kept (s : State) (port : Nat) : (State.markSerial s port).kept = s.kept := by
  grind [State.markSerial, State.updUbl, State.updRdm, State.kept, foldl_kept, State.snag_kept]

theorem State.failModule_kept (s : State) (port : Nat) (cause : Nat) : (State.failModule s port cause).kept = s.kept := by
  grind [State.failModule, State.updUbl, State.updRdm, State.kept, foldl_kept, State.endOuts_kept, State.markSerial_kept, State.notify_kept, State.outOfService_kept, State.raise_kept, State.sizeSheets_kept, State.updPort_kept]

theorem State.cutPrograms_kept (s : State) (port : Nat) : (State.cutPrograms s port).kept = s.kept := by
  grind [State.cutPrograms, State.updUbl, State.updRdm, State.kept, foldl_kept, getD_kept, State.stageFor_kept, State.updMed_kept, State.updMlk_kept]

theorem State.makeAbsent_kept (s : State) (port : Nat) : (State.makeAbsent s port).kept = s.kept := by
  grind [State.makeAbsent, State.updUbl, State.updRdm, State.kept, foldl_kept, State.cutPrograms_kept, State.endOuts_kept, State.outOfService_kept, State.sizeSheets_kept, State.updPort_kept]

theorem State.setProgress_kept (s : State) (p : Option Progress) : (State.setProgress s p).kept = s.kept := by
  grind [State.setProgress, State.updUbl, State.updRdm, State.kept, foldl_kept, State.delta_kept, State.updFe_kept]

theorem State.dropAtts_kept (s : State) (d : SD) : (State.dropAtts s d).kept = s.kept := by
  grind [State.dropAtts, State.updUbl, State.updRdm, State.kept, foldl_kept, State.closeWindow_kept, State.qpError_kept]

theorem State.leaveDomain_kept (s : State) (d : SD) : (State.leaveDomain s d).kept = s.kept := by
  grind [State.leaveDomain, State.updUbl, State.updRdm, State.kept, foldl_kept, State.anaChanged_kept, State.dropAtts_kept, State.freeFetch_kept, State.journal_kept, State.pend_kept, State.relink_kept, State.updDp_kept, State.updFe_kept, State.updMap_kept, State.updMed_kept, State.updMlk_kept, State.updStr_kept]

theorem State.updDig_kept (s : State) (f : DigState → DigState) : (State.updDig s f).kept = s.kept := by
  grind [State.updDig, State.updUbl, State.updRdm, State.kept, foldl_kept]

theorem State.digDone_kept (s : State) (reason : Nat) (data : List Byte) : (State.digDone s reason data).kept = s.kept := by
  grind [State.digDone, State.updUbl, State.updRdm, State.kept, foldl_kept, State.updDig_kept]

theorem State.updCtx_kept (s : State) (c : Nat) (f : DCtx → DCtx) : (State.updCtx s c f).kept = s.kept := by
  grind [State.updCtx, State.updUbl, State.updRdm, State.kept, foldl_kept, State.updDig_kept]

theorem State.logExtend_kept (s : State) (e : LogEnt) : (State.logExtend s e).kept = s.kept := by
  grind [State.logExtend, State.updUbl, State.updRdm, State.kept, foldl_kept, State.raise_kept, State.updDig_kept]

theorem State.extendReg_kept (s : State) (i : Nat) (input : List Byte) (event : Nat) (subject : Nat) (unmatched : Bool) : (State.extendReg s i input event subject unmatched).kept = s.kept := by
  grind [State.extendReg, State.updUbl, State.updRdm, State.kept, foldl_kept, State.digDone_kept, State.logExtend_kept, State.updDig_kept]

theorem State.refuseExtend_kept (s : State) (reason : Nat) : (State.refuseExtend s reason).kept = s.kept := by
  grind [State.refuseExtend, State.updUbl, State.updRdm, State.kept, foldl_kept, State.digDone_kept, State.raise_kept]

theorem State.extend_kept (s : State) (i : Nat) (input : List Byte) (event : Nat) (subject : Nat) (unmatched : Bool) : (State.extend s i input event subject unmatched).kept = s.kept := by
  grind [State.extend, State.updUbl, State.updRdm, State.kept, foldl_kept, State.extendReg_kept, State.refuseExtend_kept]

theorem State.askTrust_kept (s : State) (b : List Byte) : (State.askTrust s b).kept = s.kept := by
  grind [State.askTrust, State.updUbl, State.updRdm, State.kept, foldl_kept, State.updDig_kept]

theorem State.replyTrust_kept (s : State) (b : List Byte) : (State.replyTrust s b).kept = s.kept := by
  grind [State.replyTrust, State.updUbl, State.updRdm, State.kept, foldl_kept, State.updDig_kept]

theorem State.extendAsked_kept (s : State) (reg : Nat) (event : Nat) (subject : Nat) (unmatched : Bool) (d : List Byte) : (State.extendAsked s reg event subject unmatched d).kept = s.kept := by
  grind [State.extendAsked, State.updUbl, State.updRdm, State.kept, foldl_kept, State.extendReg_kept, State.refuseExtend_kept, State.updDig_kept]

theorem State.extendFor_kept (s : State) (reg : Nat) (event : Nat) (subject : Nat) (unmatched : Bool) (d : List Byte) : (State.extendFor s reg event subject unmatched d).kept = s.kept := by
  grind [State.extendFor, State.updUbl, State.updRdm, State.kept, foldl_kept, State.askTrust_kept, State.extendAsked_kept, State.replyTrust_kept]

theorem State.extendModule_kept (s : State) (port : Nat) (desc : List Byte) (fw : List Byte) (image : Option (List Byte × List Byte)) : (State.extendModule s port desc fw image).kept = s.kept := by
  intros; unfold State.extendModule; grind [State.extendModule, State.updUbl, State.updRdm, State.kept, foldl_kept, State.extendFor_kept]

theorem State.modAnswer_kept (s : State) (src : MSrc) (r : MRes) : (State.modAnswer s src r).kept = s.kept := by
  intros; unfold State.modAnswer; grind [State.modAnswer, State.updUbl, State.updRdm, State.kept, foldl_kept, State.updMlk_kept]

theorem State.modRun_kept (s : State) (port : Nat) (src : MSrc) (op : MOp) (f : Module → Nat → MCmd → Module × MRes) : (State.modRun s port src op f).kept = s.kept := by
  grind [State.modRun, State.updUbl, State.updRdm, State.kept, foldl_kept, State.modAnswer_kept, State.updMod_kept]

theorem State.refuse_kept (s : State) (port : Nat) (cause : Nat) : (State.refuse s port cause).kept = s.kept := by
  grind [State.refuse, State.updUbl, State.updRdm, State.kept, foldl_kept, State.raise_kept, State.updPort_kept]

theorem State.admitStep_kept (s : State) (port : Nat) (n : Nat) : (State.admitStep s port n).kept = s.kept := by
  grind [State.admitStep, State.updUbl, State.updRdm, State.kept, foldl_kept, State.updPort_kept]

theorem State.gotDesc_kept (s : State) (port : Nat) (r : Option (List Byte)) : (State.gotDesc s port r).kept = s.kept := by
  intros; unfold State.gotDesc; grind [State.gotDesc, State.updUbl, State.updRdm, State.kept, foldl_kept, State.admitStep_kept, State.issue_kept, State.refuse_kept, State.updPort_kept]

theorem State.splitDone_kept (s : State) (port : Nat) : (State.splitDone s port).kept = s.kept := by
  grind [State.splitDone, State.updUbl, State.updRdm, State.kept, foldl_kept, State.admitStep_kept, State.send_kept, State.updMap_kept, State.updMed_kept, State.updMod_kept]

theorem State.fence_kept (s : State) (d : SD) (port : Nat) : (State.fence s d port).kept = s.kept := by
  grind [State.fence, State.updUbl, State.updRdm, State.kept, foldl_kept, State.issue_kept]

theorem State.unmark_kept (s : State) (port : Nat) : (State.unmark s port).kept = s.kept := by
  grind [State.unmark, State.updUbl, State.updRdm, State.kept, foldl_kept, State.updMed_kept]

theorem State.eraseMarked_kept (s : State) (port : Nat) : (State.eraseMarked s port).kept = s.kept := by
  grind [State.eraseMarked, State.updUbl, State.updRdm, State.kept, foldl_kept, State.delta_kept, State.unmark_kept]

theorem State.loadCard_kept (s : State) (port : Nat) : (State.loadCard s port).kept = s.kept := by
  grind [State.loadCard, State.updUbl, State.updRdm, State.kept, foldl_kept, State.updMed_kept, State.writeSel_kept]

theorem execAdmission_kept (port : Nat) (s : State) (tn : State) (h : execAdmission port s = .next tn) : tn.kept = s.kept := by
  unfold execAdmission at h; grind [execAdmission, State.updUbl, State.updRdm, State.kept, foldl_kept, State.admitStep_kept, State.eraseMarked_kept, State.extendModule_kept, State.fence_kept, State.issue_kept, State.loadCard_kept, State.refuse_kept]

theorem State.admitted_kept (s : State) (port : Nat) : (State.admitted s port).kept = s.kept := by
  grind [State.admitted, State.updUbl, State.updRdm, State.kept, foldl_kept, State.formAll_kept, State.raise_kept, State.sizeSheets_kept, State.updPort_kept]

theorem State.noteTimeout_kept (s : State) (c : MCmd) : (State.noteTimeout s c).kept = s.kept := by
  grind [State.noteTimeout, State.updUbl, State.updRdm, State.kept, foldl_kept, State.count_kept, State.failModule_kept, State.fence_kept, State.updPort_kept]

theorem State.mediaSnag_kept (s : State) (c : MCmd) (st : MSt) : (State.mediaSnag s c st).kept = s.kept := by
  grind [State.mediaSnag, State.updUbl, State.updRdm, State.kept, foldl_kept, State.snag_kept]

theorem State.needSub_kept (s : State) (d : SD) (seg : Nat) (c : MCmd) : (State.needSub s d seg c).kept = s.kept := by
  grind [State.needSub, State.updUbl, State.updRdm, State.kept, foldl_kept, State.stageFor_kept, State.updMed_kept]

theorem State.foldMember_kept (s : State) (d : SD) (n : Nat) (pos : Nat) (seg : Nat) (fails : Nat) (tn : State) (h : State.foldMember s d n pos seg fails = some tn) : tn.kept = s.kept := by
  unfold State.foldMember at h; split at h
  · grind
  · simp only [Option.map_eq_some_iff] at h; obtain ⟨p, h1, h2⟩ := h; grind [State.foldMember, State.updUbl, State.updRdm, State.kept, foldl_kept, State.allocSeg_kept, State.issue_kept, State.updMed_kept]

theorem State.foldFallback_kept (s : State) (d : SD) (n : Nat) : (State.foldFallback s d n).kept = s.kept := by
  grind [State.foldFallback, State.updUbl, State.updRdm, State.kept, foldl_kept, State.raise_kept, State.victim_kept]

theorem State.foldFailed_kept (s : State) (d : SD) (n : Nat) (pos : Nat) : (State.foldFailed s d n pos).kept = s.kept := by
  unfold State.foldFailed; grind [State.foldFailed, State.updUbl, State.updRdm, State.kept, foldl_kept, getD_kept, State.foldFallback_kept, State.foldMember_kept, State.retire_kept, State.updMed_kept]

theorem State.programEnd_kept (s : State) (d : SD) (n : Nat) (row : Nat) (pos : Nat) (c : MCmd) (ok : Bool) (temp : Int) : (State.programEnd s d n row pos c ok temp).kept = s.kept := by
  grind [State.programEnd, State.updUbl, State.updRdm, State.kept, foldl_kept, getD_kept, State.needSub_kept, State.slotDone_kept, State.stamp_kept]

theorem State.eraseEnd_kept (s : State) (d : SD) (c : MCmd) (st : MSt) : (State.eraseEnd s d c st).kept = s.kept := by
  intros; unfold State.eraseEnd; grind [State.eraseEnd, State.updUbl, State.updRdm, State.kept, foldl_kept, State.formAll_kept, State.noteErase_kept, State.retire_kept, State.setPSeg_kept, State.unmark_kept, State.updMed_kept]

theorem State.readEnd_kept (s : State) (id : Nat) (r : MRes) : (State.readEnd s id r).kept = s.kept := by
  grind [State.readEnd, State.updUbl, State.updRdm, State.kept, foldl_kept, State.updFetch_kept]

theorem State.ownerReject_kept (s : State) (o : Out) (st : MSt) : (State.ownerReject s o st).kept = s.kept := by
  grind [State.ownerReject, State.updUbl, State.updRdm, State.kept, foldl_kept, State.count_kept, State.leaveDomain_kept, State.mediaSnag_kept, State.raise_kept, State.updMlk_kept]

theorem State.foldReported_kept (s : State) (d : SD) (n : Nat) (pos : Nat) (b : List Byte) : (State.foldReported s d n pos b).kept = s.kept := by
  grind [State.foldReported, State.updUbl, State.updRdm, State.kept, foldl_kept, State.updMed_kept]

theorem State.complete_kept (s : State) (o : Out) (r : MRes) : (State.complete s o r).kept = s.kept := by
  grind [State.complete, State.updUbl, State.updRdm, State.kept, foldl_kept, State.admitStep_kept, State.count_kept, State.eraseEnd_kept, State.fence_kept, State.foldFailed_kept, State.foldReported_kept, State.gotDesc_kept, State.mediaSnag_kept, State.noteTemp_kept, State.noteTimeout_kept, State.ownerReject_kept, State.programEnd_kept, State.raise_kept, State.readEnd_kept, State.refuse_kept, State.splitDone_kept, State.updMlk_kept, State.updPort_kept]

theorem State.submitNext_kept (s : State) (port : Nat) : (State.submitNext s port).kept = s.kept := by
  grind [State.submitNext, State.updUbl, State.updRdm, State.kept, foldl_kept, State.count_kept, State.updMlk_kept]

theorem State.clearMissing_kept (s : State) (d : SD) (n : Nat) (pos : Nat) : (State.clearMissing s d n pos).kept = s.kept := by
  grind [State.clearMissing, State.updUbl, State.updRdm, State.kept, foldl_kept, State.delta_kept, State.notify_kept, State.raise_kept]

theorem State.subImages_kept (s : State) (x : Sub) (ta : List (Nat × List Byte)) (tn : State) (h : State.subImages s x = (ta, tn)) : tn.kept = s.kept := by
  unfold State.subImages at h; dsimp only at h
  simp only [Prod.mk.injEq] at h
  obtain ⟨-, h⟩ := h
  rw [← h]
  refine foldl_ind (fun z : List (Nat × List Byte) × State => z.2.kept = s.kept) _ _ _ rfl ?_
  rintro ⟨got, s'⟩ ⟨i, b⟩ hq
  dsimp only at hq ⊢
  (repeat' split) <;> grind [State.loseGone_kept, State.readLadder_kept, State.readLadder_kept2, State.rebuildRow_kept, State.rebuildRow_kept2]

theorem State.subImages_kept2 (s : State) (x : Sub) : (State.subImages s x).2.kept = s.kept := State.subImages_kept s x (State.subImages s x).1 (State.subImages s x).2 rfl

theorem State.writeSlot_kept (s : State) (d : SD) (port : Nat) (pseg : Nat) (row : Nat) (img : List Byte) (temp : Int) : (State.writeSlot s d port pseg row img temp).kept = s.kept := by
  grind [State.writeSlot, State.updUbl, State.updRdm, State.kept, foldl_kept, State.stamp_kept, State.updMod_kept]

theorem State.dropSub_kept (s : State) (x : Sub) : (State.dropSub s x).kept = s.kept := by
  grind [State.dropSub, State.updUbl, State.updRdm, State.kept, foldl_kept, State.updMed_kept]

theorem State.subFails_kept (s : State) (x : Sub) : (State.subFails s x).kept = s.kept := by
  grind [State.subFails, State.updUbl, State.updRdm, State.kept, foldl_kept, State.closeEarly_kept, State.dropSub_kept, State.setMissing_kept, State.trimSubs_kept]

theorem State.substitute_kept (s : State) (x : Sub) (ok : Bool) (temp : Int) : (State.substitute s x ok temp).kept = s.kept := by
  grind [State.substitute, State.updUbl, State.updRdm, State.kept, foldl_kept, getD_kept, State.allocSeg_kept, State.count_kept, State.delta_kept, State.dropSub_kept, State.ownerReject_kept, State.raise_kept, State.retire_kept, State.slotDone_kept, State.subFails_kept, State.subImages_kept, State.subImages_kept2, State.writeSlot_kept]

theorem State.returned_kept (s : State) (port : Nat) (temp : Int) : (State.returned s port temp).kept = s.kept := by
  grind [State.returned, State.updUbl, State.updRdm, State.kept, foldl_kept, getD_kept, State.clearMissing_kept, State.eraseMarked_kept, State.formAll_kept, State.sizeSheets_kept, State.substitute_kept]

theorem State.finishStripe_kept (s : State) (d : SD) (n : Nat) : (State.finishStripe s d n).kept = s.kept := by
  grind [State.finishStripe, State.updUbl, State.updRdm, State.kept, foldl_kept, State.delta_kept]

theorem State.updVictim_kept (s : State) (d : SD) (n : Nat) (f : Victim → Victim) : (State.updVictim s d n f).kept = s.kept := by
  grind [State.updVictim, State.updUbl, State.updRdm, State.kept, foldl_kept, State.updMed_kept]

theorem State.copyGran_kept (s : State) (d : SD) (n : Nat) (loc : Nat) (r : RefRec) (tn : State) (h : State.copyGran s d n loc r = some tn) : tn.kept = s.kept := by
  unfold State.copyGran at h; split at h
  · grind [State.copyGran, State.updUbl, State.updRdm, State.kept, foldl_kept, State.appendForm_kept, State.delta_kept, State.storedBytes_kept, State.storedBytes_kept2, State.updMed_kept]
  · simp only [Option.map_eq_some_iff] at h; obtain ⟨⟨a, b, c⟩, h1, h2⟩ := h; grind [State.copyGran, State.updUbl, State.updRdm, State.kept, foldl_kept, State.appendForm_kept, State.delta_kept, State.storedBytes_kept, State.storedBytes_kept2, State.updMed_kept]

theorem State.relocateOne_kept (s : State) (d : SD) (x : Nat) (dst : Nat) (b : BackRef) : (State.relocateOne s d x dst b).kept = s.kept := by
  grind [State.relocateOne, State.updUbl, State.updRdm, State.kept, foldl_kept, State.addRef_kept, State.backRef_kept, State.delta_kept, State.dirtySector_kept, State.subRef_kept]

theorem State.relocateEnd_kept (s : State) (d : SD) (x : Nat) (dst : Nat) : (State.relocateEnd s d x dst).kept = s.kept := by
  grind [State.relocateEnd, State.updUbl, State.updRdm, State.kept, foldl_kept, State.count_kept, State.delta_kept, State.freePending_kept]

theorem State.freeStripe_kept (s : State) (d : SD) (n : Nat) (t : Stripe) : (State.freeStripe s d n t).kept = s.kept := by
  grind [State.freeStripe, State.updUbl, State.updRdm, State.kept, foldl_kept, State.delta_kept, State.setPSeg_kept, State.updMed_kept]

theorem State.eraseCursor_kept (s : State) (port : Nat) (pseg : Nat) : (State.eraseCursor s port pseg).kept = s.kept := by
  grind [State.eraseCursor, State.updUbl, State.updRdm, State.kept, foldl_kept, State.setProgress_kept]

theorem State.rebuilt_kept (s : State) (d : SD) (n : Nat) (pos : Nat) (seg : Nat) (tgt : Nat × Nat) : (State.rebuilt s d n pos seg tgt).kept = s.kept := by
  grind [State.rebuilt, State.updUbl, State.updRdm, State.kept, foldl_kept, State.clearMissing_kept, State.delta_kept, State.finishStripe_kept, State.updMed_kept]

theorem State.recoatTake_kept (s : State) (d : SD) (n : Nat) : (State.recoatTake s d n).kept = s.kept := by
  grind [State.recoatTake, State.updUbl, State.updRdm, State.kept, foldl_kept, State.delta_kept, State.updVictim_kept, State.victim_kept]

theorem State.sheetGran_kept (s : State) (d : SD) (slot : Nat) (merged : Bool) (ta : List Byte) (tn : State) (h : State.sheetGran s d slot merged = (ta, tn)) : tn.kept = s.kept := by
  unfold State.sheetGran at h; (repeat' split at h) <;> grind [State.merged_kept, State.merged_kept2, State.readStored_kept, State.readStored_kept2, State.stamp_kept]

theorem State.sheetGran_kept2 (s : State) (d : SD) (slot : Nat) (merged : Bool) : (State.sheetGran s d slot merged).2.kept = s.kept := State.sheetGran_kept s d slot merged (State.sheetGran s d slot merged).1 (State.sheetGran s d slot merged).2 rfl

theorem State.srcForm_kept (s : State) (d : SD) (kind : Nat) (addr : Nat) (ta : Option Form) (tn : State) (h : State.srcForm s d kind addr = (ta, tn)) : tn.kept = s.kept := by
  grind [State.srcForm, State.updUbl, State.updRdm, State.kept, foldl_kept, State.sheetGran_kept, State.sheetGran_kept2, State.storedBytes_kept, State.storedBytes_kept2]

theorem State.srcForm_kept2 (s : State) (d : SD) (kind : Nat) (addr : Nat) : (State.srcForm s d kind addr).2.kept = s.kept := State.srcForm_kept s d kind addr (State.srcForm s d kind addr).1 (State.srcForm s d kind addr).2 rfl

theorem State.regenBody_kept (d : SD) (fuel pack : Nat) (srcs : List Src) (s : State) (ta : Option (List Byte × List (Nat × DWord))) (tn : State) (h : State.regenBody d fuel pack srcs s = (ta, tn)) : tn.kept = s.kept := by
  induction fuel generalizing pack srcs s ta tn with
  | zero => simp only [State.regenBody, Prod.mk.injEq] at h; rw [← h.2]
  | succ n ih =>
    unfold State.regenBody at h
    generalize hz : List.foldl _ _ _ = z at h
    have hk : z.2.kept = s.kept := by
      rw [← hz]
      refine foldl_ind (fun z : Option (List Byte × List (Nat × DWord)) × State => z.2.kept = s.kept) _ _ _ rfl ?_
      rintro ⟨acc, s'⟩ x hq
      dsimp only at hq ⊢
      (repeat' split) <;> grind [State.srcForm_kept]
    rw [← hk, h]

theorem State.regen_kept (s : State) (d : SD) (pack : Nat) (r : JRec) (ta : Regen) (tn : State) (h : State.regen s d pack r = (ta, tn)) : tn.kept = s.kept := by
  unfold State.regen at h; split at h
  · simp only [Prod.mk.injEq] at h; rw [← h.2]
  · dsimp only at h; split at h
    · simp only [Prod.mk.injEq] at h; rw [← h.2]
    · split at h
      · rename_i e; simp only [Prod.mk.injEq] at h; rw [← h.2]; exact State.regenBody_kept _ _ _ _ _ _ _ e
      · rename_i e; simp only [Prod.mk.injEq] at h; rw [← h.2]; exact State.regenBody_kept _ _ _ _ _ _ _ e

theorem State.regen_kept2 (s : State) (d : SD) (pack : Nat) (r : JRec) : (State.regen s d pack r).2.kept = s.kept := State.regen_kept s d pack r (State.regen s d pack r).1 (State.regen s d pack r).2 rfl

theorem State.replaySlot_kept (s : State) (d : SD) (t : Stripe) (row : Nat) (pos : Nat) (img : List Byte) (temp : Int) : (State.replaySlot s d t row pos img temp).kept = s.kept := by
  unfold State.replaySlot; grind [State.replaySlot, State.updUbl, State.updRdm, State.kept, foldl_kept, getD_kept, State.replaySlot.sub, State.stageFor_kept, State.updMed_kept, State.writeSlot_kept]

theorem State.rowImages_kept (s : State) (d : SD) (n : Nat) (t : Stripe) (row : Nat) (ta : List Regen) (tn : State) (h : State.rowImages s d n t row = (ta, tn)) : tn.kept = s.kept := by
  unfold State.rowImages at h
  rw [show tn = (ta, tn).2 from rfl, ← h]
  refine foldl_ind (fun z : List Regen × State => z.2.kept = s.kept) _ _ _ rfl ?_
  rintro ⟨got, s'⟩ j hq
  dsimp only at hq ⊢
  split
  · dsimp only; rw [State.regen_kept2]; exact hq
  · exact hq

theorem State.rowImages_kept2 (s : State) (d : SD) (n : Nat) (t : Stripe) (row : Nat) : (State.rowImages s d n t row).2.kept = s.kept := State.rowImages_kept s d n t row (State.rowImages s d n t row).1 (State.rowImages s d n t row).2 rfl

theorem State.replayData_kept (s : State) (d : SD) (n : Nat) (t : Stripe) (row : Nat) (imgs : List Regen) (bad : List Nat) (temp : Int) : (State.replayData s d n t row imgs bad temp).kept = s.kept := by
  grind [State.replayData, State.updUbl, State.updRdm, State.kept, foldl_kept, State.raise_kept, State.replaySlot_kept, State.snag_kept]

theorem State.replayParity_kept (s : State) (d : SD) (t : Stripe) (row : Nat) (imgs : List Regen) (temp : Int) : (State.replayParity s d t row imgs temp).kept = s.kept := by
  grind [State.replayParity, State.updUbl, State.updRdm, State.kept, foldl_kept, State.replaySlot_kept]

theorem State.updMbx_kept (s : State) (f : MbxState → MbxState) : (State.updMbx s f).kept = s.kept := by
  grind [State.updMbx, State.updUbl, State.updRdm, State.kept, foldl_kept]

theorem State.updChan_kept (s : State) (c : Nat) (f : Chan → Chan) : (State.updChan s c f).kept = s.kept := by
  grind [State.updChan, State.updUbl, State.updRdm, State.kept, foldl_kept, State.updMbx_kept]

theorem State.reply_kept (s : State) (c : Nat) (rsn : Nat) (data : List Byte) : (State.reply s c rsn data).kept = s.kept := by
  grind [State.reply, State.updUbl, State.updRdm, State.kept, foldl_kept, State.updChan_kept]

theorem State.record_kept (s : State) (d : Option SD) (op : Nat) (r : List Byte) (resp : List Byte) : (State.record s d op r resp).kept = s.kept := by
  intros; unfold State.record; grind [State.record, State.updUbl, State.updRdm, State.kept, foldl_kept, State.delta_kept, State.updMbx_kept]

theorem State.answerCmd_kept (s : State) (c : Nat) (op : Nat) (changes : Bool) (d : Option SD) (r : List Byte) (rsn : Nat) (data : List Byte) : (State.answerCmd s c op changes d r rsn data).kept = s.kept := by
  grind [State.answerCmd, State.updUbl, State.updRdm, State.kept, foldl_kept, State.record_kept, State.reply_kept]

theorem State.finishCmd_kept (s : State) (c : Nat) (op : Nat) (d : Option SD) (objs : List (Nat × Nat)) (rsn : Nat) (data : List Byte) : (State.finishCmd s c op d objs rsn data).kept = s.kept := by
  grind [State.finishCmd, State.updUbl, State.updRdm, State.kept, foldl_kept, State.answerCmd_kept, State.updMbx_kept]

theorem State.updPwr_kept (s : State) (f : PwrState → PwrState) : (State.updPwr s f).kept = s.kept := by
  grind [State.updPwr, State.updUbl, State.updRdm, State.kept, foldl_kept]

theorem State.endRequest_kept (s : State) (rsn : Nat) (bit : Nat) : (State.endRequest s rsn bit).kept = s.kept := by
  grind [State.endRequest, State.updUbl, State.updRdm, State.kept, foldl_kept, State.raise_kept, State.updPwr_kept]

theorem State.startTransition_kept (s : State) (r : Nat) : (State.startTransition s r).kept = s.kept := by
  grind [State.startTransition, State.updUbl, State.updRdm, State.kept, foldl_kept, State.updPwr_kept]

theorem State.cancelPending_kept (s : State) : (State.cancelPending s).kept = s.kept := by
  grind [State.cancelPending, State.updUbl, State.updRdm, State.kept, foldl_kept, State.endRequest_kept, State.updPwr_kept]

theorem State.requestState_kept (s : State) (r : Nat) : (State.requestState s r).kept = s.kept := by
  grind [State.requestState, State.updUbl, State.updRdm, State.kept, foldl_kept, State.cancelPending_kept, State.endRequest_kept, State.startTransition_kept, State.updPwr_kept]

theorem State.transitionEnded_kept (s : State) : (State.transitionEnded s).kept = s.kept := by
  grind [State.transitionEnded, State.updUbl, State.updRdm, State.kept, foldl_kept, State.cancelPending_kept, State.raise_kept, State.startTransition_kept, State.updPwr_kept]

theorem State.sayState_kept (s : State) (n : Nat) : (State.sayState s n).kept = s.kept := by
  grind [State.sayState, State.updUbl, State.updRdm, State.kept, foldl_kept]

theorem State.askFlush_kept (s : State) (cause : Nat) : (State.askFlush s cause).kept = s.kept := by
  grind [State.askFlush, State.updUbl, State.updRdm, State.kept, foldl_kept, State.raise_kept]

theorem State.portsDown_kept (s : State) : (State.portsDown s).kept = s.kept := by
  grind [State.portsDown, State.updUbl, State.updRdm, State.kept, foldl_kept, State.endHost_kept, State.qpError_kept, State.updPwr_kept]

theorem State.updUpd_kept (s : State) (f : UpdState → UpdState) : (State.updUpd s f).kept = s.kept := by
  grind [State.updUpd, State.updUbl, State.updRdm, State.kept, foldl_kept]

theorem State.updComp_kept (s : State) (c : Nat) (f : CompDir → CompDir) : (State.updComp s c f).kept = s.kept := by
  grind [State.updComp, State.updUbl, State.updRdm, State.kept, foldl_kept, State.updUpd_kept]

theorem State.recordStaged_kept (s : State) (b : List Byte) : (State.recordStaged s b).kept = s.kept := by
  grind [State.recordStaged, State.updUbl, State.updRdm, State.kept, foldl_kept, getD_kept, State.extendFor_kept, State.notify_kept, State.updComp_kept, State.updUpd_kept]

theorem State.dropStaging_kept (s : State) (c : Nat) : (State.dropStaging s c).kept = s.kept := by
  grind [State.dropStaging, State.updUbl, State.updRdm, State.kept, foldl_kept, State.updComp_kept]

theorem State.failPush_kept (s : State) (reason : Nat) (refuser : Nat) : (State.failPush s reason refuser).kept = s.kept := by
  grind [State.failPush, State.updUbl, State.updRdm, State.kept, foldl_kept, State.dropStaging_kept, State.finishCmd_kept, State.updUpd_kept]

theorem State.pushReply_kept (s : State) (b : List Byte) : (State.pushReply s b).kept = s.kept := by
  grind [State.pushReply, State.updUbl, State.updRdm, State.kept, foldl_kept, State.failPush_kept, State.finishCmd_kept, State.recordStaged_kept, State.updUpd_kept]

theorem State.pushArrived_kept (s : State) (b : List Byte) : (State.pushArrived s b).kept = s.kept := by
  grind [State.pushArrived, State.updUbl, State.updRdm, State.kept, foldl_kept, State.updUpd_kept]

theorem State.stagedModule_kept (s : State) (port : Nat) (version : Nat) (fwstr : List Byte) (digest : List Byte) : (State.stagedModule s port version fwstr digest).kept = s.kept := by
  grind [State.stagedModule, State.updUbl, State.updRdm, State.kept, foldl_kept, State.updMed_kept, State.updMod_kept, State.updUpd_kept]

theorem State.resetModule_kept (s : State) (port : Nat) : (State.resetModule s port).kept = s.kept := by
  grind [State.resetModule, State.updUbl, State.updRdm, State.kept, foldl_kept, State.updPort_kept]

theorem State.activateModule_kept (s : State) (port : Nat) : (State.activateModule s port).kept = s.kept := by
  grind [State.activateModule, State.updUbl, State.updRdm, State.kept, foldl_kept, State.makeAbsent_kept, State.resetModule_kept, State.updMod_kept, State.updUpd_kept]

theorem State.revertModule_kept (s : State) (port : Nat) : (State.revertModule s port).kept = s.kept := by
  grind [State.revertModule, State.updUbl, State.updRdm, State.kept, foldl_kept, State.resetModule_kept, State.updMod_kept, State.updUpd_kept]

theorem State.settleModule_kept (s : State) (port : Nat) (temp : Int) : (State.settleModule s port temp).kept = s.kept := by
  grind [State.settleModule, State.updUbl, State.updRdm, State.kept, foldl_kept, State.returned_kept, State.updMod_kept, State.updUpd_kept]

theorem State.actEnd_kept (s : State) (reason : Nat) : (State.actEnd s reason).kept = s.kept := by
  grind [State.actEnd, State.updUbl, State.updRdm, State.kept, foldl_kept, State.finishCmd_kept, State.updUpd_kept]

theorem State.actStep_kept (s : State) (n : Nat) : (State.actStep s n).kept = s.kept := by
  grind [State.actStep, State.updUbl, State.updRdm, State.kept, foldl_kept, State.updUpd_kept]

theorem State.fetchCap_kept (s : State) (w : Waiting) : (State.fetchCap s w).kept = s.kept := by
  grind [State.fetchCap, State.updUbl, State.updRdm, State.kept, foldl_kept, State.postRead_kept, State.updFe_kept]

theorem State.takeWait_kept (s : State) (w : Waiting) : (State.takeWait s w).kept = s.kept := by
  grind [State.takeWait, State.updUbl, State.updRdm, State.kept, foldl_kept, State.updFe_kept]

theorem State.stampWait_kept (s : State) (w : Waiting) (n : Namespace) : (State.stampWait s w n).kept = s.kept := by
  grind [State.stampWait, State.updUbl, State.updRdm, State.kept, foldl_kept, getD_kept, State.acceptOwned_kept, State.raise_kept, State.takeWait_kept]

theorem State.intoFe_kept (s : State) (w : Waiting) : (State.intoFe s w).kept = s.kept := by
  unfold State.intoFe; grind [State.intoFe, State.updUbl, State.updRdm, State.kept, foldl_kept, State.acceptSpan_kept, State.failFront_kept, State.fetchCap_kept, State.forward_kept, State.stampWait_kept, State.takeWait_kept]

theorem State.fwdFeature_kept (s : State) (c : Capsule) : (State.fwdFeature s c).kept = s.kept := by
  grind [State.fwdFeature, State.updUbl, State.updRdm, State.kept, foldl_kept, State.answer_kept, State.setResv_kept]

theorem State.admitFwd_kept (s : State) (w : Waiting) : (State.admitFwd s w).kept = s.kept := by
  unfold State.admitFwd; grind [State.admitFwd, State.updUbl, State.updRdm, State.kept, foldl_kept, State.acceptSpan_kept, State.answer_kept, State.fwdFeature_kept, State.stampWait_kept, State.takeWait_kept]

theorem State.fetchHost_kept (s : State) (c : Cmd) : (State.fetchHost s c).kept = s.kept := by
  grind [State.fetchHost, State.updUbl, State.updRdm, State.kept, foldl_kept, State.postRead_kept, State.stamp_kept, State.updCmd_kept]

theorem State.landUnits_kept (s : State) (sd : SD) (stamp : Nat) : (State.landUnits s sd stamp).kept = s.kept := by
  grind [State.landUnits, State.updUbl, State.updRdm, State.kept, foldl_kept, State.landZero_kept, State.result_kept, State.settleWrite_kept, State.stamp_kept]

theorem State.resvEvent_kept (s : State) (host : Nat) (nsid : Nat) (kind : Nat) : (State.resvEvent s host nsid kind).kept = s.kept := by
  grind [State.resvEvent, State.updUbl, State.updRdm, State.kept, foldl_kept, getD_kept, State.asyncTo_kept, State.updFe_kept]

theorem State.resvNotify_kept (s : State) (d : SD) (hosts : List Nat) (kind : Nat) (nsid : Nat) : (State.resvNotify s d hosts kind nsid).kept = s.kept := by
  grind [State.resvNotify, State.updUbl, State.updRdm, State.kept, foldl_kept, State.resvEvent_kept, State.send_kept]

theorem State.resvFail_kept (s : State) (c : Cmd) : (State.resvFail s c).kept = s.kept := by
  grind [State.resvFail, State.updUbl, State.updRdm, State.kept, foldl_kept, State.count_kept, State.result_kept, State.stamp_kept]

theorem State.takeAdmin_kept (s : State) (q : QId) : (State.takeAdmin s q).kept = s.kept := by
  grind [State.takeAdmin, State.updUbl, State.updRdm, State.kept, foldl_kept, State.updFe_kept]

theorem State.adminDone_kept (s : State) (c : Capsule) (st : Status) (dw0 : Nat) (data : List Byte) : (State.adminDone s c st dw0 data).kept = s.kept := by
  grind [State.adminDone, State.updUbl, State.updRdm, State.kept, foldl_kept, State.answer_kept, State.takeAdmin_kept]

theorem State.updHost_kept (s : State) (cntlid : Nat) (f : HostCtl → HostCtl) : (State.updHost s cntlid f).kept = s.kept := by
  grind [State.updHost, State.updUbl, State.updRdm, State.kept, foldl_kept, State.updFe_kept]

theorem State.abortDone_kept (s : State) (c : Capsule) (caught : Bool) : (State.abortDone s c caught).kept = s.kept := by
  grind [State.abortDone, State.updUbl, State.updRdm, State.kept, foldl_kept, State.adminDone_kept, State.count_kept]

theorem State.catchCmd_kept (s : State) (p : Capsule → Bool) (tn : State) (h : State.catchCmd s p = some tn) : tn.kept = s.kept := by
  grind [State.catchCmd, State.updUbl, State.updRdm, State.kept, foldl_kept, State.abandon_kept, State.answer_kept, State.result_kept, State.stamp_kept, State.takeWait_kept, State.updCmd_kept, State.updFe_kept]

theorem State.endQueue_kept (s : State) (q : QId) : (State.endQueue s q).kept = s.kept := by
  grind [State.endQueue, State.updUbl, State.updRdm, State.kept, foldl_kept, State.qpError_kept, State.queueError_kept, State.updFe_kept]

theorem State.reattach_held (s : State) (i : Nat) : Held s (State.reattach s i) := by
  unfold State.reattach; split
  · exact held_of_kept rfl
  · rename_i id a h0
    dsimp only
    have e0 : ∀ x f, (State.updQp ({ s with rdm := { s.rdm with atts := x } } : State) i f).kept = s.kept := fun x f => by
      rw [State.updQp_kept]; rfl
    have e1 := e0 (Table.put s.rdm.atts id { a with qp := i }) (fun q => { q with att := some id })
    revert e1
    generalize State.updQp _ i _ = u
    intro e1
    split
    · exact held_of_kept e1
    · have e2 : ∀ w : List Byte, Held u (u.updRdm fun r => { r with landing := r.landing.writeAll a.win.1 w }) := fun w => by
        simp only [Held, memOk_iff]; grind [State.updRdm, State.kept, Memory.writeAll_wf]
      refine ((held_of_kept e1).trans (e2 _)).trans (held_of_kept (getD_kept _ _ _ (fun t ht => ?_) rfl))
      obtain ⟨⟨p, q⟩, h1, h2⟩ := Option.map_eq_some_iff.mp ht
      dsimp only at h2; subst h2
      exact State.openWindow_kept _ _ _ _ _ _ _ h1

theorem State.cryptoErase_kept (s : State) (k : Nat) : (State.cryptoErase s k).kept = s.kept := by
  unfold State.cryptoErase; split
  · rfl
  · rename_i d hd
    have hz : (((d.slot :: d.oldSlots).foldl State.zeroize s).endSat k).kept = s.kept := by rw [State.endSat_kept]; exact foldl_kept _ _ State.zeroize_kept _
    revert hz; generalize ((d.slot :: d.oldSlots).foldl State.zeroize s).endSat k = u; intro hz
    have e2 : u.draw.2.draw.2.kept = s.kept := by rw [State.draw_kept2, State.draw_kept2, hz]
    dsimp only
    revert e2
    generalize u.draw.2.draw.1 = key
    generalize u.draw.1 = fp
    generalize u.draw.2.draw.2 = u2
    intro e2
    rw [State.sendKdom_kept]; split
    · rename_i n s3 h3
      have e : s3.kept = u2.kept := State.needAtRest_kept _ _ _ h3
      split
      · rename_i s5 h5
        rw [State.updDp_kept, State.loadAtRest_kept s3 n key true s5 h5, e, e2]
      · exact e.trans e2
    · exact (State.updDp_kept _ _).trans e2

theorem State.emptyScope_kept (s : State) (p : Progress) : (State.emptyScope s p).kept = s.kept := by
  grind [State.emptyScope, State.updUbl, State.updRdm, State.kept, foldl_kept, State.emptyRoot_kept, State.updDp_kept, State.updFe_kept]

theorem State.startErase_kept (s : State) : (State.startErase s).kept = s.kept := by
  grind [State.startErase, State.updUbl, State.updRdm, State.kept, foldl_kept, State.closeEarly_kept, State.formAll_kept, State.updMed_kept, State.victim_kept]

theorem State.markBad_kept (s : State) (bad : List Nat) : (State.markBad s bad).kept = s.kept := by
  grind [State.markBad, State.updUbl, State.updRdm, State.kept, foldl_kept, State.markSerial_kept]

theorem State.closeRecord_kept (s : State) (p : Progress) : (State.closeRecord s p).kept = s.kept := by
  grind [State.closeRecord, State.updUbl, State.updRdm, State.kept, foldl_kept, State.asyncAll_kept, State.nsChanged_kept, State.raise_kept, State.respond_kept, State.setProgress_kept, State.updFe_kept]

theorem State.tellPeer_kept (s : State) (p : Progress) : (State.tellPeer s p).kept = s.kept := by
  grind [State.tellPeer, State.updUbl, State.updRdm, State.kept, foldl_kept, State.send_kept]

theorem State.openRecord_kept (s : State) (p : Progress) : (State.openRecord s p).kept = s.kept := by
  grind [State.openRecord, State.updUbl, State.updRdm, State.kept, foldl_kept, State.raise_kept, State.setProgress_kept, State.tellPeer_kept]

theorem State.zeroizeKdom_kept (s : State) (k : Nat) : (State.zeroizeKdom s k).kept = s.kept := by
  grind [State.zeroizeKdom, State.updUbl, State.updRdm, State.kept, foldl_kept, State.endSat_kept, State.updDp_kept, State.zeroize_kept]

theorem State.phaseWork_kept (s : State) (p : Progress) (peer : Bool) : (State.phaseWork s p peer).kept = s.kept := by
  grind [State.phaseWork, State.updUbl, State.updRdm, State.kept, foldl_kept, State.cryptoErase_kept, State.emptyScope_kept, State.startErase_kept, State.zeroizeKdom_kept]

theorem State.resumeRecord_kept (s : State) : (State.resumeRecord s).kept = s.kept := by
  grind [State.resumeRecord, State.updUbl, State.updRdm, State.kept, foldl_kept, State.phaseWork_kept, State.updFe_kept]

theorem State.tellDone_kept (s : State) (p : Progress) : (State.tellDone s p).kept = s.kept := by
  grind [State.tellDone, State.updUbl, State.updRdm, State.kept, foldl_kept, State.send_kept]

theorem State.peerPhase_kept (s : State) (p : Progress) : (State.peerPhase s p).kept = s.kept := by
  grind [State.peerPhase, State.updUbl, State.updRdm, State.kept, foldl_kept, State.phaseWork_kept, State.tellDone_kept, State.updFe_kept]

theorem State.tell_kept (s : State) (kind : Nat) (d : SD) (b : List Byte) : (State.tell s kind d b).kept = s.kept := by
  grind [State.tell, State.updUbl, State.updRdm, State.kept, foldl_kept, State.send_kept]

theorem State.sealLog_kept (s : State) (d : SD) : (State.sealLog s d).kept = s.kept := by
  grind [State.sealLog, State.updUbl, State.updRdm, State.kept, foldl_kept, getD_kept, State.delta_kept, State.send_kept, State.stamp_kept, State.tx_kept, State.updMap_kept]

theorem State.openLog_kept (s : State) (d : SD) : (State.openLog s d).kept = s.kept := by
  grind [State.openLog, State.updUbl, State.updRdm, State.kept, foldl_kept, State.updMap_kept]

theorem State.holdWrites_kept (s : State) (d : SD) : (State.holdWrites s d).kept = s.kept := by
  grind [State.holdWrites, State.updUbl, State.updRdm, State.kept, foldl_kept]

theorem State.freeHold_kept (s : State) (d : SD) : (State.freeHold s d).kept = s.kept := by
  grind [State.freeHold, State.updUbl, State.updRdm, State.kept, foldl_kept]

theorem State.settleAll_kept (s : State) (d : SD) : (State.settleAll s d).kept = s.kept := by
  grind [State.settleAll, State.updUbl, State.updRdm, State.kept, foldl_kept, State.settleWrite_kept, State.stamp_kept, State.updFe_kept]

theorem State.goUnmirrored_kept (s : State) : (State.goUnmirrored s).kept = s.kept := by
  grind [State.goUnmirrored, State.updUbl, State.updRdm, State.kept, foldl_kept, State.raise_kept, State.settleAll_kept, State.tx_kept]

theorem State.endFill_kept (s : State) : (State.endFill s).kept = s.kept := by
  grind [State.endFill, State.updUbl, State.updRdm, State.kept, foldl_kept, State.updBlk_kept]

theorem State.epochCopied_kept (s : State) (d : SD) : (State.epochCopied s d).kept = s.kept := by
  grind [State.epochCopied, State.updUbl, State.updRdm, State.kept, foldl_kept, State.endFill_kept, State.freeHold_kept, State.releaseJournal_kept, State.tx_kept]

theorem State.resendPeer_kept (s : State) : (State.resendPeer s).kept = s.kept := by
  grind [State.resendPeer, State.updUbl, State.updRdm, State.kept, foldl_kept, State.mirror_kept, State.send_kept, State.tx_kept]

theorem State.loseLink_kept (s : State) : (State.loseLink s).kept = s.kept := by
  grind [State.loseLink, State.updUbl, State.updRdm, State.kept, foldl_kept, State.failPush_kept, State.raise_kept, State.sayState_kept, State.updUpd_kept]

theorem State.actDeclared_kept (s : State) (rehearsal : Bool) : (State.actDeclared s rehearsal).kept = s.kept := by
  grind [State.actDeclared, State.updUbl, State.updRdm, State.kept, foldl_kept, State.goUnmirrored_kept, State.updFe_kept]

theorem State.declare_kept (s : State) (how : Nat) : (State.declare s how).kept = s.kept := by
  grind [State.declare, State.updUbl, State.updRdm, State.kept, foldl_kept, State.actDeclared_kept, State.notify_kept, State.raise_kept, State.wakeEvent_kept]

theorem State.seeBatten_kept (s : State) (d : SD) (level : Bool) : (State.seeBatten s d level).kept = s.kept := by
  grind [State.seeBatten, State.updUbl, State.updRdm, State.kept, foldl_kept]

theorem State.seize_kept (s : State) (d : SD) : (State.seize s d).kept = s.kept := by
  grind [State.seize, State.updUbl, State.updRdm, State.kept, foldl_kept]

theorem State.fenceAll_kept (s : State) (d : SD) : (State.fenceAll s d).kept = s.kept := by
  grind [State.fenceAll, State.updUbl, State.updRdm, State.kept, foldl_kept, State.fence_kept, State.updMlk_kept]

theorem State.installDomain_kept (s : State) (d : SD) (m0 : Meta) : (State.installDomain s d m0).kept = s.kept := by
  grind [State.installDomain, State.updUbl, State.updRdm, State.kept, foldl_kept, State.delta_kept, State.record_kept, State.tx_kept, State.updFe_kept, State.updMap_kept, State.updMed_kept, State.victim_kept]

theorem State.dropCopies_kept (s : State) (d : SD) : (State.dropCopies s d).kept = s.kept := by
  grind [State.dropCopies, State.updUbl, State.updRdm, State.kept, foldl_kept, State.count_kept, State.delta_kept, State.freePending_kept, State.updMed_kept]

theorem State.recoverSteps_kept (s : State) (d : SD) : (State.recoverSteps s d).kept = s.kept := by
  grind [State.recoverSteps, State.updUbl, State.updRdm, State.kept, foldl_kept, State.closeStripe_kept, State.delta_kept, State.dropCopies_kept, State.markMembers_kept]

theorem State.narrow_kept (s : State) (e : Entry) (todo : Nat → Bool) : (State.narrow s e todo).kept = s.kept := by
  grind [State.narrow, State.updUbl, State.updRdm, State.kept, foldl_kept, State.stamp_kept, State.updCmd_kept, State.updDp_kept, State.updFe_kept]

theorem State.reenter_kept (s : State) (e : Entry) (todo : Nat → Bool) (data : Nat → List Byte) (tn : State) (h : State.reenter s e todo data = some tn) : tn.kept = s.kept := by
  unfold State.reenter at h; split at h
  · grind
  · dsimp only at h; cases hc : s.cmd? e.sd e.stamp <;> simp only [hc] at h <;> (repeat' split at h) <;> first
      | grind [State.reenter, State.updUbl, State.updRdm, State.kept, foldl_kept, State.completeUnit_kept, State.enterGran_kept, State.landSlot_kept, State.landZero_kept, State.makeUnits_kept, State.narrow_kept, State.setCheck_kept, State.stamp_kept, State.updFe_kept]
      | (simp only [Option.map_eq_some_iff] at h; obtain ⟨x, h1, h2⟩ := h; grind [State.reenter, State.updUbl, State.updRdm, State.kept, foldl_kept, State.completeUnit_kept, State.enterGran_kept, State.landSlot_kept, State.landZero_kept, State.makeUnits_kept, State.narrow_kept, State.setCheck_kept, State.stamp_kept, State.updFe_kept])

end Sys2Proof.Machine
end

