-- ==== Sys2Proof/Laws/Frame4.lean ====
section
/-!
SUPPORT. Frame laws, part 4 of 4: each shared operation keeps the queue and the byte memories, or says how it holds them.
-/

set_option maxRecDepth 4000
set_option linter.all false

namespace Sys2Proof.Machine

theorem State.reenterAll_kept (s : State) (todo : Entry → Nat → Bool) (data : State → Entry → Nat → List Byte) (x0 : List Entry) (ta : Bool) (tn : State) (h : State.reenterAll s todo data x0 = (tn, ta)) : tn.kept = s.kept := by
  induction x0 generalizing s tn ta <;> grind [State.reenterAll, State.updUbl, State.updRdm, State.kept, foldl_kept, State.reenter_kept]

theorem State.reenterAll_kept2 (s : State) (todo : Entry → Nat → Bool) (data : State → Entry → Nat → List Byte) (x0 : List Entry) : (State.reenterAll s todo data x0).1.kept = s.kept := State.reenterAll_kept s todo data x0 (State.reenterAll s todo data x0).2 (State.reenterAll s todo data x0).1 rfl

theorem State.failForwards_kept (s : State) (d : SD) : (State.failForwards s d).kept = s.kept := by
  grind [State.failForwards, State.updUbl, State.updRdm, State.kept, foldl_kept, State.answer_kept, State.updFe_kept]

theorem State.endGap_kept (s : State) (d : SD) : (State.endGap s d).kept = s.kept := by
  grind [State.endGap, State.updUbl, State.updRdm, State.kept, foldl_kept, State.updFe_kept]

theorem State.startGap_kept (s : State) (d : SD) : (State.startGap s d).kept = s.kept := by
  grind [State.startGap, State.updUbl, State.updRdm, State.kept, foldl_kept, State.updFe_kept]

theorem State.applyConfig_kept (s : State) (e : Half) : (State.applyConfig s e).kept = s.kept := by
  grind [State.applyConfig, State.updUbl, State.updRdm, State.kept, foldl_kept, State.updBlk_kept]

theorem State.freeGranules_kept (s : State) (d : SD) : (State.freeGranules s d).kept = s.kept := by
  grind [State.freeGranules, State.updUbl, State.updRdm, State.kept, foldl_kept, State.count_kept, State.delta_kept, State.freePending_kept]

theorem State.takeShape_kept (s : State) (d : SD) : (State.takeShape s d).kept = s.kept := by
  grind [State.takeShape, State.updUbl, State.updRdm, State.kept, foldl_kept, State.closeEarly_kept, State.delta_kept]

theorem State.applySels_kept (s : State) : (State.applySels s).kept = s.kept := by
  grind [State.applySels, State.updUbl, State.updRdm, State.kept, foldl_kept, getD_kept, State.raise_kept, State.updMed_kept]

theorem State.handoverBoundary_kept (s : State) : (State.handoverBoundary s).kept = s.kept := by
  grind [State.handoverBoundary, State.updUbl, State.updRdm, State.kept, foldl_kept, State.pend_kept, State.startGap_kept]

theorem State.ageAttach_kept (s : State) : (State.ageAttach s).kept = s.kept := by
  grind [State.ageAttach, State.updUbl, State.updRdm, State.kept, foldl_kept, State.stamp_kept]

theorem State.turnEpoch_kept (s : State) : (State.turnEpoch s).kept = s.kept := by
  grind [State.turnEpoch, State.updUbl, State.updRdm, State.kept, foldl_kept, State.count_kept, State.holdWrites_kept, State.openLog_kept, State.raise_kept, State.sealLog_kept]

theorem State.boundaryConfig_kept (s : State) : (State.boundaryConfig s).kept = s.kept := by
  grind [State.boundaryConfig, State.updUbl, State.updRdm, State.kept, foldl_kept, getD_kept, State.applyConfig_kept, State.applySels_kept, State.updBlk_kept, State.updDp_kept, State.updMed_kept]

theorem State.boundaryArray_kept (s : State) : (State.boundaryArray s).kept = s.kept := by
  grind [State.boundaryArray, State.updUbl, State.updRdm, State.kept, foldl_kept, State.admitted_kept, State.formAll_kept, State.freeGranules_kept, State.raise_kept, State.releaseJournal_kept, State.takeShape_kept, State.tidyRows_kept, State.updMed_kept]

theorem State.mirrorWrite_held (s : State) (f : MFrame) : Held s (State.mirrorWrite s f) := by
  simp only [Held, memOk_iff]; unfold State.mirrorWrite; grind [State.mirrorWrite, State.updUbl, State.updRdm, State.kept, foldl_kept, Held, memOk_iff, State.mirror_kept, Memory.writeAll_wf]

theorem State.frameTaken_kept (s : State) (f : MFrame) (check : DWord) : (State.frameTaken s f check).kept = s.kept := by
  grind [State.frameTaken, State.updUbl, State.updRdm, State.kept, foldl_kept, getD_kept, State.send_kept]

theorem State.receiveFrame_kept (s : State) (f : MFrame) (check : DWord) (g : State → State) (h_g : ∀ x, (g x).kept = x.kept) : (State.receiveFrame s f check g).kept = s.kept := by
  grind [State.receiveFrame, State.updUbl, State.updRdm, State.kept, foldl_kept, State.frameTaken_kept, State.send_kept]

theorem State.tryAck_kept (s : State) (d : SD) : (State.tryAck s d).kept = s.kept := by
  grind [State.tryAck, State.updUbl, State.updRdm, State.kept, foldl_kept, getD_kept, State.deltas_kept, State.record_kept, State.send_kept, State.updFe_kept, State.updMed_kept]

theorem State.foldShadow_kept (s : State) (d : SD) : (State.foldShadow s d).kept = s.kept := by
  grind [State.foldShadow, State.updUbl, State.updRdm, State.kept, foldl_kept, getD_kept, State.deltas_kept]

theorem State.refuseHello_kept (s : State) : (State.refuseHello s).kept = s.kept := by
  grind [State.refuseHello, State.updUbl, State.updRdm, State.kept, foldl_kept, State.raise_kept]

theorem State.actHello_kept (s : State) (ok : Bool) : (State.actHello s ok).kept = s.kept := by
  grind [State.actHello, State.updUbl, State.updRdm, State.kept, foldl_kept, State.actEnd_kept, State.actStep_kept, State.declare_kept]

theorem State.extendHello_kept (s : State) (head : Nat) (level : Nat) (version : Nat) (array : List Byte) (cert : List Byte) : (State.extendHello s head level version array cert).kept = s.kept := by
  grind [State.extendHello, State.updUbl, State.updRdm, State.kept, foldl_kept, State.extendFor_kept]

theorem State.faultReported_kept (s : State) : (State.faultReported s).kept = s.kept := by
  grind [State.faultReported, State.updUbl, State.updRdm, State.kept, foldl_kept, State.declare_kept]

theorem State.beat_kept (s : State) : (State.beat s).kept = s.kept := by
  grind [State.beat, State.updUbl, State.updRdm, State.kept, foldl_kept, State.sayState_kept, State.send_kept, State.sendRaw_kept]

theorem State.setTake_kept (s : State) (t : Takeover) : (State.setTake s t).kept = s.kept := by
  grind [State.setTake, State.updUbl, State.updRdm, State.kept, foldl_kept]

theorem State.dropTake_kept (s : State) (d : SD) : (State.dropTake s d).kept = s.kept := by
  grind [State.dropTake, State.updUbl, State.updRdm, State.kept, foldl_kept]

theorem State.failRehearsal_kept (s : State) (d : SD) : (State.failRehearsal s d).kept = s.kept := by
  grind [State.failRehearsal, State.updUbl, State.updRdm, State.kept, foldl_kept, State.count_kept, State.dropTake_kept, State.endGap_kept, State.notify_kept, State.raise_kept, State.tell_kept, State.updMap_kept]

theorem State.finishTakeover_kept (s : State) (t : Takeover) (gap : Nat) : (State.finishTakeover s t gap).kept = s.kept := by
  grind [State.finishTakeover, State.updUbl, State.updRdm, State.kept, foldl_kept, State.anaChanged_kept, State.count_kept, State.dropTake_kept, State.endGap_kept, State.failForwards_kept, State.notify_kept, State.raise_kept, State.resumeRecord_kept, State.stamp_kept, State.tell_kept, State.updFe_kept]

theorem State.refill_kept (s : State) (d : SD) : (State.refill s d).kept = s.kept := by
  grind [State.refill, State.updUbl, State.updRdm, State.kept, foldl_kept, State.journal_kept, State.mirror_kept, State.updStr_kept]

theorem State.askAcks_kept (s : State) (d : SD) : (State.askAcks s d).kept = s.kept := by
  grind [State.askAcks, State.updUbl, State.updRdm, State.kept, foldl_kept, State.complete_kept, State.updFe_kept]

theorem State.actAsk_kept (s : State) : (State.actAsk s).kept = s.kept := by
  grind [State.actAsk, State.updUbl, State.updRdm, State.kept, foldl_kept, getD_kept, State.tell_kept]

theorem State.handoverDone_kept (s : State) (h : Handover) : (State.handoverDone s h).kept = s.kept := by
  grind [State.handoverDone, State.updUbl, State.updRdm, State.kept, foldl_kept, State.finishCmd_kept, State.notify_kept, State.raise_kept]

theorem State.abortHandover_kept (s : State) (h : Handover) : (State.abortHandover s h).kept = s.kept := by
  grind [State.abortHandover, State.updUbl, State.updRdm, State.kept, foldl_kept, State.actEnd_kept, State.endGap_kept, State.finishCmd_kept, State.raise_kept, State.tell_kept]

theorem State.beginHandover_kept (s : State) (d : SD) (why : Nat) (chan : Option Nat) : (State.beginHandover s d why chan).kept = s.kept := by
  grind [State.beginHandover, State.updUbl, State.updRdm, State.kept, foldl_kept, State.tell_kept]

theorem State.actGive_kept (s : State) : (State.actGive s).kept = s.kept := by
  grind [State.actGive, State.updUbl, State.updRdm, State.kept, foldl_kept, State.actEnd_kept, State.beginHandover_kept]

theorem State.actMoved_kept (s : State) : (State.actMoved s).kept = s.kept := by
  grind [State.actMoved, State.updUbl, State.updRdm, State.kept, foldl_kept, State.actAsk_kept, State.actGive_kept, State.updUpd_kept]

theorem State.restartNotice_kept (s : State) : (State.restartNotice s).kept = s.kept := by
  grind [State.restartNotice, State.updUbl, State.updRdm, State.kept, foldl_kept, State.sayState_kept, State.tell_kept]

theorem State.giveStep_kept (s : State) (h : Handover) : (State.giveStep s h).kept = s.kept := by
  grind [State.giveStep, State.updUbl, State.updRdm, State.kept, foldl_kept, State.closeEarly_kept, State.closePack_kept, State.leaveDomain_kept, State.sayState_kept, State.stamp_kept, State.tell_kept, State.tx_kept]

theorem State.takeStep_kept (s : State) (h : Handover) (level : Bool) : (State.takeStep s h level).kept = s.kept := by
  grind [State.takeStep, State.updUbl, State.updRdm, State.kept, foldl_kept, State.actMoved_kept, State.anaChanged_kept, State.endGap_kept, State.fenceAll_kept, State.handoverDone_kept, State.installDomain_kept, State.seeBatten_kept, State.seize_kept, State.stamp_kept, State.tell_kept, State.updFe_kept]

theorem State.giveRehearsal_kept (s : State) : (State.giveRehearsal s).kept = s.kept := by
  grind [State.giveRehearsal, State.updUbl, State.updRdm, State.kept, foldl_kept, State.beginHandover_kept]

theorem State.holdPeer_kept (s : State) : (State.holdPeer s).kept = s.kept := by
  grind [State.holdPeer, State.updUbl, State.updRdm, State.kept, foldl_kept, State.goUnmirrored_kept]

theorem State.commission_kept (s : State) (pq : Bool) (k : Nat) (vsegs : Nat) (ssegs : Nat) (holdup : Nat) (array : List Byte) (nqn : List Byte) : (State.commission s pq k vsegs ssegs holdup array nqn).kept = s.kept := by
  grind [State.commission, State.updUbl, State.updRdm, State.kept, foldl_kept, State.delta_kept, State.updFe_kept, State.updMed_kept]

theorem State.postWr_kept (s : State) (i : Nat) (op : WrOp) : (State.postWr s i op).kept = s.kept := by
  grind [State.postWr, State.updUbl, State.updRdm, State.kept, foldl_kept, State.updQp_kept]

theorem State.sendMsg_kept (s : State) (id : Nat) (pt : List Byte) (tn : State) (h : State.sendMsg s id pt = some tn) : tn.kept = s.kept := by
  unfold State.sendMsg at h; grind [State.sendMsg, State.updUbl, State.updRdm, State.kept, foldl_kept, State.count_kept, State.msgNonce_kept, State.postWr_kept, State.pumpAll_kept, State.send_kept, State.tx_kept, State.updAtt_kept, State.updQp_kept]

theorem State.sendMsgs_kept (s : State) (id : Nat) (x0 : List (List Byte)) (tn : State) (h : State.sendMsgs s id x0 = some tn) : tn.kept = s.kept := by
  induction x0 generalizing s tn with
  | nil => simp_all [State.sendMsgs]
  | cons a l ih => simp only [State.sendMsgs, Option.bind_eq_some_iff] at h; grind [State.sendMsg_kept]

theorem State.sendFlush_kept (s : State) (id : Nat) (upTo : Nat) : (State.sendFlush s id upTo).kept = s.kept := by
  grind [State.sendFlush, State.updUbl, State.updRdm, State.kept, foldl_kept, State.postWr_kept, State.sendCtl_kept]

theorem State.granRec_kept (s : State) (d : SD) (lbaf : Nat) (root : Nat) (i : Nat) (point : Nat) (set : Nat) (gran : Nat) (ta : Option Rec) (tn : State) (h : State.granRec s d lbaf root i point set gran = (ta, tn)) : tn.kept = s.kept := by
  grind [State.granRec, State.updUbl, State.updRdm, State.kept, foldl_kept, State.readLoc_kept, State.readLoc_kept2]

theorem State.granRec_kept2 (s : State) (d : SD) (lbaf : Nat) (root : Nat) (i : Nat) (point : Nat) (set : Nat) (gran : Nat) : (State.granRec s d lbaf root i point set gran).2.kept = s.kept := State.granRec_kept s d lbaf root i point set gran (State.granRec s d lbaf root i point set gran).1 (State.granRec s d lbaf root i point set gran).2 rfl

theorem State.resyncRecs_kept (s : State) (a : Attach) (set : Nat) (point : Nat) (ta : List Rec) (tn : State) (h : State.resyncRecs s a set point = (ta, tn)) : tn.kept = s.kept := by
  unfold State.resyncRecs at h; dsimp only at h
  generalize hz : List.foldl _ _ (a.roots.zipIdx) = z at h
  have hk : z.2.kept = s.kept := by
    rw [← hz]
    refine foldl_ind (fun z : List Rec × State => z.2.kept = s.kept) _ _ _ rfl ?_
    rintro ⟨got, s'⟩ ⟨root, i⟩ hq
    dsimp only at hq ⊢
    split
    · exact hq
    · refine foldl_ind (fun y : List Rec × State => y.2.kept = s.kept) _ _ _ hq ?_
      rintro ⟨y, s2⟩ g hg
      dsimp only at hg ⊢
      rw [State.granRec_kept2]; exact hg
  rw [← hk]; grind

theorem State.resyncRecs_kept2 (s : State) (a : Attach) (set : Nat) (point : Nat) : (State.resyncRecs s a set point).2.kept = s.kept := State.resyncRecs_kept s a set point (State.resyncRecs s a set point).1 (State.resyncRecs s a set point).2 rfl

theorem State.landRecs_kept (s : State) (c : Cmd) (n : Namespace) (x0 : List Unit) (x1 : List Byte) : (State.landRecs s c n x0 x1).kept = s.kept := by
  induction x0 generalizing s x1 <;> grind [State.landRecs, State.updUbl, State.updRdm, State.kept, foldl_kept, State.completeUnit_kept, State.enterGran_kept, State.landSlot_kept, State.landZero_kept, State.setCheck_kept, State.stamp_kept]

theorem State.applyRecs_kept (s : State) (a : Attach) (rs : List Rec) (tn : State) (h : State.applyRecs s a rs = some tn) : tn.kept = s.kept := by
  unfold State.applyRecs at h; split at h
  · grind
  · split at h
    · grind
    · dsimp only at h; simp only [Option.map_eq_some_iff] at h; obtain ⟨x, h1, h2⟩ := h; grind [State.applyRecs, State.updUbl, State.updRdm, State.kept, foldl_kept, State.landRecs_kept, State.makeUnits_kept, State.nextStamp_kept, State.nextStamp_kept2, State.updFe_kept]

theorem State.takeRecs_kept (s : State) (a : Attach) (x0 : List Rec) (ta : Attach) (tn : State) (h : State.takeRecs s a x0 = some (ta, tn)) : tn.kept = s.kept := by
  induction x0 generalizing s a tn ta with
  | nil => simp_all [State.takeRecs]
  | cons r l ih => unfold State.takeRecs at h; grind [State.applyRecs_kept, State.stamp_kept]

theorem State.updEvr_kept (s : State) (f : EvrState → EvrState) : (State.updEvr s f).kept = s.kept := by
  grind [State.updEvr, State.updUbl, State.updRdm, State.kept, foldl_kept]

theorem State.dropSnag_kept (s : State) : (State.dropSnag s).kept = s.kept := by
  grind [State.dropSnag, State.updUbl, State.updRdm, State.kept, foldl_kept, State.countSat_kept, State.raise_kept]

theorem State.enterSnag_kept (s : State) (x : Snag) : (State.enterSnag s x).kept = s.kept := by
  grind [State.enterSnag, State.updUbl, State.updRdm, State.kept, foldl_kept, State.count_kept, State.dropSnag_kept, State.raise_kept, State.updEvr_kept]

theorem State.clearLog_kept (s : State) : (State.clearLog s).kept = s.kept := by
  grind [State.clearLog, State.updUbl, State.updRdm, State.kept, foldl_kept, State.count_kept, State.setCounter_kept, State.updEvr_kept]

theorem State.evrCtrl_kept (s : State) (r : Requester) (v : Half) : (State.evrCtrl s r v).kept = s.kept := by
  grind [State.evrCtrl, State.updUbl, State.updRdm, State.kept, foldl_kept, State.askFlush_kept, State.clearLog_kept, State.updEvr_kept, State.violation_kept]

theorem State.endFlush_kept (s : State) (ok : Bool) : (State.endFlush s ok).kept = s.kept := by
  grind [State.endFlush, State.updUbl, State.updRdm, State.kept, foldl_kept, State.clearLog_kept, State.count_kept, State.raise_kept, State.updEvr_kept, State.updMlk_kept]

theorem State.programImage_kept (s : State) (img : List Byte) (pl : Nat × Nat) (port : Nat) : (State.programImage s img pl port).kept = s.kept := by
  grind [State.programImage, State.updUbl, State.updRdm, State.kept, foldl_kept, State.issue_kept]

theorem State.presentFlush_kept (s : State) : (State.presentFlush s).kept = s.kept := by
  grind [State.presentFlush, State.updUbl, State.updRdm, State.kept, foldl_kept, State.updEvr_kept]

theorem State.indReadEffect_kept (s : State) (b : Blk) (a : Nat) : (State.indReadEffect s b a).kept = s.kept := by
  grind [State.indReadEffect, State.updUbl, State.updRdm, State.kept, foldl_kept, State.updPwr_kept]

theorem State.indWrite_kept (s : State) (late : Bool) (b : Blk) (a : Nat) (w : Word) (tn : State) (h : State.indWrite s late b a w = some tn) : tn.kept = s.kept := by
  unfold State.indWrite at h; split at h <;> grind [State.indWrite, State.updUbl, State.updRdm, State.kept, foldl_kept, getD_kept, State.setLoop_kept, State.updMed_kept, State.updPwr_kept, State.writeSel_kept]

theorem State.fullReset_held (s : State) (cause : Nat) : Held s (State.fullReset s cause) := by
  simp only [Held, memOk_iff]; unfold State.fullReset; grind [State.fullReset, State.updUbl, State.updRdm, State.kept, foldl_kept, Held, memOk_iff, State.dma_kept, State.draw_kept, State.draw_kept2, State.record_kept, State.reset, UblState.reset, RdmState.reset, VaultState.reset, Memory.wf]

theorem State.powerOn_held (s : State) (head : Nat) : Held s (State.powerOn s head) := by
  have h := State.fullReset_held s causePower; simp only [Held, memOk_iff] at *; unfold State.powerOn; grind [State.kept]

theorem State.sendState4_kept (s : State) : (State.sendState4 s).kept = s.kept := by
  grind [State.sendState4, State.updUbl, State.updRdm, State.kept, foldl_kept, State.beat_kept, State.sayState_kept]

theorem State.resend_kept (s : State) (i : Nat) (q : Qp) (m : TMsg) (ps : List Nat) : (State.resend s i q m ps).kept = s.kept := by
  grind [State.resend, State.updUbl, State.updRdm, State.kept, foldl_kept, State.count_kept, State.scrimTx_kept]

theorem State.dropPath_kept (s : State) (i : Nat) (path : Nat) : (State.dropPath s i path).kept = s.kept := by
  grind [State.dropPath, State.updUbl, State.updRdm, State.kept, foldl_kept, getD_kept, State.qpError_kept, State.raise_kept, State.resend_kept, State.updQp_kept]

theorem execPortLinkDown_kept (port : Nat) (s : State) (tn : State) (h : execPortLinkDown port s = .next tn) : tn.kept = s.kept := by
  unfold execPortLinkDown at h; grind [execPortLinkDown, State.updUbl, State.updRdm, State.kept, foldl_kept, State.dropPath_kept, State.qpError_kept]

theorem State.updTop_kept (s : State) (f : TopState → TopState) : (State.updTop s f).kept = s.kept := by
  grind [State.updTop, State.updUbl, State.updRdm, State.kept, foldl_kept]

theorem State.writeEnable_kept (s : State) (r : Requester) (b : Blk) (v : Bool) : (State.writeEnable s r b v).kept = s.kept := by
  grind [State.writeEnable, State.updUbl, State.updRdm, State.kept, foldl_kept, State.mapDone_kept, State.updBlk_kept, State.updMap_kept, State.violation_kept]

theorem State.refuseEnable_kept (s : State) (b : Blk) (rsn : Nat) (holder : Nat) : (State.refuseEnable s b rsn holder).kept = s.kept := by
  grind [State.refuseEnable, State.updUbl, State.updRdm, State.kept, foldl_kept, State.updBlk_kept]

theorem State.claimBlock_kept (s : State) (b : Blk) (ta : Nat) (tn : State) (h : State.claimBlock s b = (ta, tn)) : tn.kept = s.kept := by
  unfold State.claimBlock at h; split at h <;> grind [State.claimBlock, State.updUbl, State.updRdm, State.kept, foldl_kept, State.claim_kept, State.claim_kept2, State.updTop_kept]

theorem State.claimBlock_kept2 (s : State) (b : Blk) : (State.claimBlock s b).2.kept = s.kept := State.claimBlock_kept s b (State.claimBlock s b).1 (State.claimBlock s b).2 rfl

theorem execConsistencyCheckDone_kept (b : Blk) (s : State) (tn : State) (h : execConsistencyCheckDone b s = .next tn) : tn.kept = s.kept := by
  unfold execConsistencyCheckDone at h; grind [execConsistencyCheckDone, State.updUbl, State.updRdm, State.kept, foldl_kept, State.claimBlock_kept, State.claimBlock_kept2, State.refuseEnable_kept, State.reserveSlots_kept, State.updBlk_kept]

theorem State.releaseBlock_kept (s : State) (b : Blk) : (State.releaseBlock s b).kept = s.kept := by
  intros; unfold State.releaseBlock; grind [State.releaseBlock, State.updUbl, State.updRdm, State.kept, foldl_kept, State.release_kept, State.updTop_kept]

theorem State.writeTimer_kept (s : State) (r : Requester) (n : Nat) (v : Nat) : (State.writeTimer s r n v).kept = s.kept := by
  grind [State.writeTimer, State.updUbl, State.updRdm, State.kept, foldl_kept, State.claim_kept, State.claim_kept2, State.count_kept, State.release_kept, State.updTop_kept]

theorem State.timerFires_kept (s : State) (n : Nat) : (State.timerFires s n).kept = s.kept := by
  grind [State.timerFires, State.updUbl, State.updRdm, State.kept, foldl_kept, State.count_kept, State.raise_kept, State.updTop_kept]

theorem State.writePinmux_kept (s : State) (g : Nat) (f : Nat) : (State.writePinmux s g f).kept = s.kept := by
  grind [State.writePinmux, State.updUbl, State.updRdm, State.kept, foldl_kept, State.claim_kept, State.claim_kept2, State.release_kept, State.updTop_kept]

theorem State.writeVaultPart_kept (s : State) (r : Requester) (v : Nat) : (State.writeVaultPart s r v).kept = s.kept := by
  grind [State.writeVaultPart, State.updUbl, State.updRdm, State.kept, foldl_kept, State.updTop_kept]

theorem State.writeCage_kept (s : State) (c : Nat) (v : Nat) : (State.writeCage s c v).kept = s.kept := by
  grind [State.writeCage, State.updUbl, State.updRdm, State.kept, foldl_kept, nextOr_kept, getD_kept, execPortLinkDown_kept]

theorem State.ctlSet_kept (s : State) (r : Requester) (late : Bool) (b : Blk) (off : Nat) (v : Nat) : (State.ctlSet s r late b off v).kept = s.kept := by
  intros; unfold State.ctlSet; grind [State.ctlSet, State.updUbl, State.updRdm, State.kept, foldl_kept, State.pend_kept, State.updPwr_kept, State.updTop_kept, State.writeCage_kept, State.writeEnable_kept, State.writePinmux_kept, State.writeTimer_kept, State.writeVaultPart_kept]

theorem State.ctlWrite_kept (s : State) (r : Requester) (late : Bool) (b : Blk) (q : Nat) (off : Nat) (mask : Nat) (w : Word) : (State.ctlWrite s r late b q off mask w).kept = s.kept := by
  grind [State.ctlWrite, State.updUbl, State.updRdm, State.kept, foldl_kept, State.ctlSet_kept, State.violation_kept]

theorem State.doorbell_kept (s : State) (r : Requester) (c : Nat) (w : Word) : (State.doorbell s r c w).kept = s.kept := by
  grind [State.doorbell, State.updUbl, State.updRdm, State.kept, foldl_kept, State.raise_kept, State.refuse_kept, State.updChan_kept, State.violation_kept, State.wakeEvent_kept]

theorem State.ackChan_kept (s : State) (r : Requester) (c : Nat) (w : Word) : (State.ackChan s r c w).kept = s.kept := by
  grind [State.ackChan, State.updUbl, State.updRdm, State.kept, foldl_kept, State.updChan_kept, State.violation_kept]

theorem State.writeCons_kept (s : State) (r : Requester) (w : Word) : (State.writeCons s r w).kept = s.kept := by
  grind [State.writeCons, State.updUbl, State.updRdm, State.kept, foldl_kept, State.updMbx_kept, State.violation_kept]

theorem State.writeChan_kept (s : State) (r : Requester) (c : Nat) (off : Nat) (w : Word) : (State.writeChan s r c off w).kept = s.kept := by
  intros; unfold State.writeChan; grind [State.writeChan, State.updUbl, State.updRdm, State.kept, foldl_kept, State.ackChan_kept, State.doorbell_kept, State.updChan_kept, State.updMbx_kept, State.violation_kept, State.writeCons_kept]

theorem State.advanceInd_kept (s : State) (r : Requester) (b : Blk) : (State.advanceInd s r b).kept = s.kept := by
  grind [State.advanceInd, State.updUbl, State.updRdm, State.kept, foldl_kept, State.updBlk_kept]

theorem State.answerRead_kept (s : State) (r : Requester) (w : Word) : (State.answerRead s r w).kept = s.kept := by
  grind [State.answerRead, State.updUbl, State.updRdm, State.kept, foldl_kept, State.updTop_kept]

theorem State.readInd_kept (s : State) (r : Requester) (b : Blk) : (State.readInd s r b).kept = s.kept := by
  grind [State.readInd, State.updUbl, State.updRdm, State.kept, foldl_kept, State.advanceInd_kept, State.answerRead_kept, State.indReadEffect_kept, State.violation_kept]

theorem State.writeInd_kept (s : State) (r : Requester) (late : Bool) (b : Blk) (w : Word) : (State.writeInd s r late b w).kept = s.kept := by
  grind [State.writeInd, State.updUbl, State.updRdm, State.kept, foldl_kept, State.advanceInd_kept, State.indWrite_kept, State.violation_kept]

theorem State.writeStyle_kept (s : State) (r : Requester) (b : Blk) (w : Word) : (State.writeStyle s r b w).kept = s.kept := by
  grind [State.writeStyle, State.updUbl, State.updRdm, State.kept, foldl_kept, State.updBlk_kept, State.violation_kept]

theorem State.writeAck_kept (s : State) (r : Requester) (b : Blk) (w : Word) : (State.writeAck s r b w).kept = s.kept := by
  grind [State.writeAck, State.updUbl, State.updRdm, State.kept, foldl_kept, State.updBlk_kept, State.violation_kept]

theorem State.writePstate_kept (s : State) (r : Requester) (w : Word) : (State.writePstate s r w).kept = s.kept := by
  grind [State.writePstate, State.updUbl, State.updRdm, State.kept, foldl_kept, State.requestState_kept, State.violation_kept, State.wakeEvent_kept]

theorem State.writeReset_held (s : State) (r : Requester) (w : Word) : Held s (State.writeReset s r w) := by
  grind [State.writeReset, State.updUbl, State.updRdm, State.kept, foldl_kept, Held, memOk_iff, State.fullReset_held, State.sendState4_kept, State.violation_kept]

theorem State.writeMapCmd_kept (s : State) (r : Requester) (w : Word) : (State.writeMapCmd s r w).kept = s.kept := by
  grind [State.writeMapCmd, State.updUbl, State.updRdm, State.kept, foldl_kept, nextOr_kept, State.violation_kept, execInvalidate_kept, execMapDisable_kept, execMapEnable_kept, execMapFlush_kept, execWriteback_kept]

theorem State.plainWrite_held (s : State) (r : Requester) (late : Bool) (b : Blk) (off : Nat) (w : Word) : Held s (State.plainWrite s r late b off w) := by
  intros; unfold State.plainWrite; grind [State.plainWrite, State.updUbl, State.updRdm, State.kept, foldl_kept, Held, memOk_iff, nextOr_kept, State.evrCtrl_kept, State.updBlk_kept, State.updTop_kept, State.violation_kept, State.writeAck_kept, State.writeInd_kept, State.writeMapCmd_kept, State.writePstate_kept, State.writeReset_held, State.writeStyle_kept, execCaptureStart_kept, execCaptureStop_kept, execTraceStart_kept, execTraceStop_kept]

theorem State.bar2Write_kept (s : State) (a : Nat) (w : Word) : (State.bar2Write s a w).kept = s.kept := by
  grind [State.bar2Write, State.updUbl, State.updRdm, State.kept, foldl_kept, nextOr_kept, State.setPage_kept, State.violation_kept, execPgCqHead_kept, execPgSqTail_kept, execPgStatusAck_kept, execPgZeroize_kept]

theorem State.msixWrite_kept (s : State) (a : Nat) (w : Word) : (State.msixWrite s a w).kept = s.kept := by
  grind [State.msixWrite, State.updUbl, State.updRdm, State.kept, foldl_kept, getD_kept]

theorem State.regWrite_held (s : State) (r : Requester) (late : Bool) (a : Nat) (w : Word) : Held s (State.regWrite s r late a w) := by
  unfold State.regWrite; dsimp only; (repeat' split) <;> first
    | exact held_of_kept rfl
    | exact State.plainWrite_held _ _ _ _ _ _
    | exact held_of_kept (by simp only [State.ctlWrite_kept, State.msixWrite_kept, State.plainWrite_held, State.violation_kept, State.writeChan_kept])

theorem State.waitOver_kept (s : State) (w : CmdWait) (ta : Nat) (tb : List Byte) (tn : State) (h : State.waitOver s w = some (ta, tb, tn)) : tn.kept = s.kept := by
  grind [State.waitOver, State.updUbl, State.updRdm, State.kept, foldl_kept, getD_kept, State.deleteRoot_kept]

theorem State.endWait_kept (s : State) (c : Nat) : (State.endWait s c).kept = s.kept := by
  grind [State.endWait, State.updUbl, State.updRdm, State.kept, foldl_kept, State.finishCmd_kept, State.updChan_kept, State.waitOver_kept]

theorem State.waitFor_kept (s : State) (c : Nat) (what : WaitFor) (d : Option SD) (objs : List (Nat × Nat)) : (State.waitFor s c what d objs).kept = s.kept := by
  grind [State.waitFor, State.updUbl, State.updRdm, State.kept, foldl_kept, State.updChan_kept]

theorem State.splitAll_kept (s : State) : (State.splitAll s).kept = s.kept := by
  grind [State.splitAll, State.updUbl, State.updRdm, State.kept, foldl_kept, execAdmission_kept]

theorem State.deleteCmd_kept (s : State) (c : Nat) (root : Nat) (snap : Bool) : (State.deleteCmd s c root snap).st.kept = s.kept := by
  unfold State.deleteCmd; grind [State.deleteCmd, State.updUbl, State.updRdm, State.kept, foldl_kept, Ans.st, Ans.no, State.waitFor_kept]

theorem State.growTop_kept (s : State) (d : SD) (depth : Nat) (x0 : Nat) (x1 : Nat) (x2 : Nat) (ta : Nat) (tn : State) (h : State.growTop s d depth x0 x1 x2 = (ta, tn)) : tn.kept = s.kept := by
  induction x0 generalizing s x1 x2 tn ta <;> grind [State.growTop, State.updUbl, State.updRdm, State.kept, foldl_kept, State.newPage_kept, State.newPage_kept2]

theorem State.growTop_kept2 (s : State) (d : SD) (depth : Nat) (x0 : Nat) (x1 : Nat) (x2 : Nat) : (State.growTop s d depth x0 x1 x2).2.kept = s.kept := State.growTop_kept s d depth x0 x1 x2 (State.growTop s d depth x0 x1 x2).1 (State.growTop s d depth x0 x1 x2).2 rfl

theorem State.putNs_kept (s : State) (nsid : Nat) (d : SD) (n : Option Namespace) : (State.putNs s nsid d n).kept = s.kept := by
  grind [State.putNs, State.updUbl, State.updRdm, State.kept, foldl_kept, State.delta_kept, State.updFe_kept]

theorem State.onNamespace_kept (s : State) (nsid : Nat) (f : Namespace → Ans) (h_f : ∀ n, (f n).st.kept = s.kept) : (State.onNamespace s nsid f).st.kept = s.kept := by
  grind [State.onNamespace, State.updUbl, State.updRdm, State.kept, foldl_kept, Ans.st, Ans.no]

theorem State.lostOver_kept (s : State) (d : SD) : (State.lostOver s d).kept = s.kept := by
  grind [State.lostOver, State.updUbl, State.updRdm, State.kept, foldl_kept, State.delta_kept]

theorem State.drawKey_kept (s : State) (n : Nat) (ta : List Byte) (tn : State) (h : State.drawKey s n = (ta, tn)) : tn.kept = s.kept := by
  unfold State.drawKey at h; simp only [State.draw] at h; split at h <;> grind [State.kept]

theorem State.drawKey_kept2 (s : State) (n : Nat) : (State.drawKey s n).2.kept = s.kept := State.drawKey_kept s n (State.drawKey s n).1 (State.drawKey s n).2 rfl

theorem State.signBody_kept (s : State) (body : List Byte) (ta : List Byte) (tn : State) (h : State.signBody s body = (ta, tn)) : tn.kept = s.kept := by
  grind [State.signBody, State.updUbl, State.updRdm, State.kept, foldl_kept, State.updDig_kept]

theorem State.signRecord_kept (s : State) : (State.signRecord s).kept = s.kept := by
  grind [State.signRecord, State.updUbl, State.updRdm, State.kept, foldl_kept, State.raise_kept, State.record_kept, State.signBody_kept, State.updDig_kept]

theorem State.pushStart_kept (s : State) (c : Nat) (r : List Byte) (image : List Byte) (dmaOk : Bool) : (State.pushStart s c r image dmaOk).st.kept = s.kept := by
  unfold State.pushStart; dsimp only; (repeat' split) <;> simp only [Ans.st, State.send_kept, State.updComp_kept, State.updUpd_kept]

theorem State.pushAnswer_kept (s : State) (reason : Nat) (modules : Nat) : (State.pushAnswer s reason modules).kept = s.kept := by
  grind [State.pushAnswer, State.updUbl, State.updRdm, State.kept, foldl_kept, State.send_kept, State.updUpd_kept]

theorem State.pushPeer_kept (s : State) (bad : List Nat) : (State.pushPeer s bad).kept = s.kept := by
  grind [State.pushPeer, State.updUbl, State.updRdm, State.kept, foldl_kept, State.pushAnswer_kept, State.recordStaged_kept, State.send_kept, State.stagedModule_kept]

theorem State.beginModule_kept (s : State) (port : Nat) : (State.beginModule s port).kept = s.kept := by
  grind [State.beginModule, State.updUbl, State.updRdm, State.kept, foldl_kept, State.activateModule_kept, State.tell_kept]

theorem State.startActivate_kept (s : State) (c : Nat) (comp : Nat) (target : Nat) : (State.startActivate s c comp target).st.kept = s.kept := by
  unfold State.startActivate; dsimp only; (repeat' split) <;> simp only [Ans.st, Ans.no, State.actAsk_kept, State.beginModule_kept, State.updUpd_kept]

theorem State.moduleGoesOn_kept (s : State) (a : Act) : (State.moduleGoesOn s a).kept = s.kept := by
  grind [State.moduleGoesOn, State.updUbl, State.updRdm, State.kept, foldl_kept, getD_kept, State.actEnd_kept, State.beginModule_kept, State.updUpd_kept]

theorem State.confirm_kept (s : State) (c : Nat) : (State.confirm s c).kept = s.kept := by
  grind [State.confirm, State.updUbl, State.updRdm, State.kept, foldl_kept, State.updComp_kept]

theorem State.driveComp_kept (s : State) (n : Nat) (c : Nat) (ta : Bool) (tn : State) (h : State.driveComp s n c = (tn, ta)) : tn.kept = s.kept := by
  grind [State.driveComp, State.updUbl, State.updRdm, State.kept, foldl_kept, State.updComp_kept, State.updUpd_kept]

theorem State.driveComp_kept2 (s : State) (n : Nat) (c : Nat) : (State.driveComp s n c).1.kept = s.kept := State.driveComp_kept s n c (State.driveComp s n c).2 (State.driveComp s n c).1 rfl

theorem State.bringUp_kept (s : State) (bad : List Nat) (badFall : List Nat) (c : Nat) (tn : State) (h : State.bringUp s bad badFall c = some tn) : tn.kept = s.kept := by
  grind [State.bringUp, State.updUbl, State.updRdm, State.kept, foldl_kept, State.updComp_kept, State.updUpd_kept]

theorem State.failStart_kept (s : State) : (State.failStart s).kept = s.kept := by
  grind [State.failStart, State.updUbl, State.updRdm, State.kept, foldl_kept, State.askFlush_kept, State.snag_kept, State.updTop_kept]

theorem State.runTerzan_kept (s : State) : (State.runTerzan s).kept = s.kept := by
  grind [State.runTerzan, State.updUbl, State.updRdm, State.kept, foldl_kept]

theorem State.primerExtend_kept (s : State) (i : Nat) (b : List Byte) : (State.primerExtend s i b).kept = s.kept := by
  grind [State.primerExtend, State.updUbl, State.updRdm, State.kept, foldl_kept, State.extend_kept]

theorem State.primerRuns_kept (s : State) (acts : Nat) (bad : List Nat) (badFall : List Nat) (config : Nat) : (State.primerRuns s acts bad badFall config).kept = s.kept := by
  unfold State.primerRuns; grind [State.primerRuns, State.updUbl, State.updRdm, State.kept, foldl_kept, State.bringUp_kept, State.driveComp_kept, State.driveComp_kept2, State.failStart_kept, State.primerExtend_kept, State.runTerzan_kept, State.updUpd_kept]

theorem State.saveBanks_kept (s : State) (t : Nat) : (State.saveBanks s t).kept = s.kept := by
  grind [State.saveBanks, State.updUbl, State.updRdm, State.kept, foldl_kept, State.updPwr_kept]

theorem State.loseBank_kept (s : State) (b : Nat) : (State.loseBank s b).kept = s.kept := by
  intros; unfold State.loseBank; grind [State.loseBank, State.updUbl, State.updRdm, State.kept, foldl_kept, State.updEvr_kept, State.updMap_kept]

theorem State.bankLost_kept (s : State) (b : Nat) : (State.bankLost s b).kept = s.kept := by
  grind [State.bankLost, State.updUbl, State.updRdm, State.kept, foldl_kept, State.loseBank_kept, State.notify_kept, State.raise_kept]

theorem State.refuseEntry_kept (s : State) (rsn : Nat) (refuser : Nat) (row : Nat) : (State.refuseEntry s rsn refuser row).kept = s.kept := by
  grind [State.refuseEntry, State.updUbl, State.updRdm, State.kept, foldl_kept, getD_kept, State.count_kept, State.endRequest_kept, State.sayState_kept, State.transitionEnded_kept, State.updPwr_kept]

theorem State.prepareEntry_kept (s : State) (t : Nat) : (State.prepareEntry s t).kept = s.kept := by
  grind [State.prepareEntry, State.updUbl, State.updRdm, State.kept, foldl_kept, State.cacheOff_kept, State.closePack_kept]

theorem State.park_kept (s : State) : (State.park s).kept = s.kept := by
  grind [State.park, State.updUbl, State.updRdm, State.kept, foldl_kept, State.sayState_kept, State.tell_kept, State.updPwr_kept]

theorem State.enter_kept (s : State) (t : Nat) : (State.enter s t).kept = s.kept := by
  grind [State.enter, State.updUbl, State.updRdm, State.kept, foldl_kept, State.endRequest_kept, State.loseBank_kept, State.saveBanks_kept, State.sayState_kept, State.transitionEnded_kept, State.updDp_kept, State.updMap_kept, State.updPwr_kept]

theorem State.leave_kept (s : State) (bad : List Nat) : (State.leave s bad).kept = s.kept := by
  grind [State.leave, State.updUbl, State.updRdm, State.kept, foldl_kept, State.bankLost_kept, State.updPwr_kept, State.updTop_kept]

theorem State.resume_kept (s : State) (was : Nat) : (State.resume s was).kept = s.kept := by
  grind [State.resume, State.updUbl, State.updRdm, State.kept, foldl_kept, State.beat_kept, State.cacheOn_kept, State.sayState_kept, State.updPwr_kept]

theorem State.replanRail_kept (s : State) (reads : List (List Int)) (r : Nat) : (State.replanRail s reads r).kept = s.kept := by
  grind [State.replanRail, State.updUbl, State.updRdm, State.kept, foldl_kept, getD_kept, State.raise_kept, State.snag_kept, State.updPwr_kept]

theorem State.writeDump_kept (s : State) (x : Dump) : (State.writeDump s x).kept = s.kept := by
  grind [State.writeDump, State.updUbl, State.updRdm, State.kept, foldl_kept, getD_kept, State.updMod_kept]

theorem State.abortEntry_kept (s : State) : (State.abortEntry s).kept = s.kept := by
  grind [State.abortEntry, State.updUbl, State.updRdm, State.kept, foldl_kept, State.cancelPending_kept, State.startTransition_kept, State.updPwr_kept]

theorem State.idlePorts_kept (s : State) : (State.idlePorts s).kept = s.kept := by
  grind [State.idlePorts, State.updUbl, State.updRdm, State.kept, foldl_kept, State.portsDown_kept, State.updPwr_kept]

theorem State.enableNow_kept (s : State) (b : Blk) : (State.enableNow s b).kept = s.kept := by
  unfold State.enableNow; grind [State.enableNow, State.updUbl, State.updRdm, State.kept, foldl_kept, nextOr_kept, State.writeEnable_kept, execConsistencyCheckDone_kept]

theorem State.beginInit_kept (s : State) (sheet : Nat) (peerSheet : Nat) (landing : Nat) : (State.beginInit s sheet peerSheet landing).kept = s.kept := by
  grind [State.beginInit, State.updUbl, State.updRdm, State.kept, foldl_kept, State.cacheOn_kept, State.enableNow_kept, State.updTop_kept, State.updUpd_kept]

theorem State.beginMailbox_kept (s : State) : (State.beginMailbox s).kept = s.kept := by
  grind [State.beginMailbox, State.updUbl, State.updRdm, State.kept, foldl_kept, State.notify_kept, State.presentFlush_kept, State.snag_kept, State.updMbx_kept, State.updTop_kept, State.updUpd_kept]

theorem State.beginModules_kept (s : State) : (State.beginModules s).kept = s.kept := by
  grind [State.beginModules, State.updUbl, State.updRdm, State.kept, foldl_kept, State.updMed_kept, State.updPort_kept, State.updTop_kept]

theorem State.seizeMine_kept (s : State) (levels : Nat) : (State.seizeMine s levels).kept = s.kept := by
  grind [State.seizeMine, State.updUbl, State.updRdm, State.kept, foldl_kept, State.fenceAll_kept, State.seeBatten_kept, State.seize_kept]

theorem State.beginOwn_kept (s : State) (levels : Nat) : (State.beginOwn s levels).kept = s.kept := by
  grind [State.beginOwn, State.updUbl, State.updRdm, State.kept, foldl_kept, State.record_kept, State.seizeMine_kept, State.updMed_kept, State.updTop_kept]

theorem State.beginRecover_held (s : State) : Held s (State.beginRecover s) := by
  have hf : ∀ (l : List (Nat × KSlot)) (u : State),
      (l.foldl (fun s x => match x with | (n, k) => (s.loadAtRest n k.key false).getD s) u).kept = u.kept :=
    fun l u => foldl_kept l _ (fun s a => getD_kept _ _ _ (fun t h => State.loadAtRest_kept _ _ _ _ _ h) rfl) u
  have hd : ∀ x, s.ownDump = some x → s.vault.dump = some x := by
    intro x h; unfold State.ownDump at h; cases hv : s.vault.dump with
    | none => simp [hv] at h
    | some y => simp only [hv, Option.bind_some] at h; split at h <;> simp_all
  unfold State.beginRecover; dsimp only; split
  · rename_i x hx
    refine ⟨congrArg (·.1) (hf _ _), fun h => ?_⟩
    rw [memOk_iff] at h
    have key : ∀ t : State, t.kept = (s.pending, x.mirror, s.rdm.landing, s.vault.dump) → t.memOk := fun t e => by
      rw [memOk_iff, e]; exact ⟨h.2.2 x (hd x hx), h.2.1, h.2.2⟩
    exact key _ ((hf _ _).trans rfl)
  · exact held_of_kept (hf _ _)

theorem State.beginServing_held (s : State) : Held s (State.beginServing s) := by
  grind [State.beginServing, State.updUbl, State.updRdm, State.kept, foldl_kept, Held, memOk_iff, State.sayState_kept, State.startLoops_kept, State.updMlk_kept, State.updPwr_kept, State.updTop_kept]

theorem State.halfReads_kept (s : State) (d : SD) : (State.halfReads s d).kept = s.kept := by
  grind [State.halfReads, State.updUbl, State.updRdm, State.kept, foldl_kept, getD_kept, State.updMed_kept]

theorem State.restoreMeta_kept (s : State) (d : SD) (mirror : Option MirrorDump) (ck : Option Meta) : (State.restoreMeta s d mirror ck).kept = s.kept := by
  grind [State.restoreMeta, State.updUbl, State.updRdm, State.kept, foldl_kept, getD_kept, State.deltas_kept, State.installDomain_kept, State.mirror_kept, State.stamp_kept, State.updFe_kept, State.updMed_kept]

theorem State.restoreJournal_kept (s : State) (d : SD) (mirror : Option MirrorDump) : (State.restoreJournal s d mirror).kept = s.kept := by
  grind [State.restoreJournal, State.updUbl, State.updRdm, State.kept, foldl_kept, getD_kept, State.journal_kept, State.mirror_kept, State.updStr_kept]

theorem State.restoreRest_kept (s : State) (d : SD) : (State.restoreRest s d).kept = s.kept := by
  grind [State.restoreRest, State.updUbl, State.updRdm, State.kept, foldl_kept, State.delta_kept, State.resumeRecord_kept, State.updFe_kept]

theorem State.loseChunks_held (s : State) (l : List Nat) : Held s (State.loseChunks s l) := by
  simp only [Held, memOk_iff]; unfold State.loseChunks; cases h : s.vault.dump <;> simp [State.kept, h]

theorem State.timerTick_kept (s : State) (n : Nat) : (State.timerTick s n).kept = s.kept := by
  grind [State.timerTick, State.updUbl, State.updRdm, State.kept, foldl_kept, State.count_kept, State.timerFires_kept, State.updTop_kept]

theorem State.linkTick_kept (s : State) : (State.linkTick s).kept = s.kept := by
  grind [State.linkTick, State.updUbl, State.updRdm, State.kept, foldl_kept, State.landHeld_kept]

theorem State.tick_kept (s : State) : (State.tick s).kept = s.kept := by
  grind [State.tick, State.updUbl, State.updRdm, State.kept, foldl_kept, State.fabTick_kept, State.linkTick_kept, State.poolTick_kept, State.timerTick_kept]

/-- A mailbox command keeps what its body keeps. -/
theorem State.runCmd_kept (s : State) (c op : Nat) (changes : Bool) (names : State → List Byte → Except Nat Names)
    (f : State → List Byte → Ans) (hf : ∀ u r, (f u r).st.kept = u.kept) (t : State)
    (h : s.runCmd c op changes names f = .next t) : t.kept = s.kept := by
  have next : ∀ {a b : State}, (Host.Outcome.next a : Res) = .next b → a.kept = s.kept → b.kept = s.kept := by
    intro a b h e; cases h; exact e
  unfold State.runCmd at h
  split at h
  · exact next h rfl
  · split at h
    · split at h
      · exact next h (State.updChan_kept _ _ _)
      · exact next h (State.reply_kept _ _ _ _)
    · split at h
      · exact next h (State.answerCmd_kept _ _ _ _ _ _ _ _)
      · rename_i r _ _ _ _ n _
        dsimp only at h
        repeat' split at h
        all_goals first
          | exact next h rfl
          | exact next h (State.reply_kept _ _ _ _)
          | (have e := hf s r
             simp only [‹f s r = _›, Ans.st] at e
             first
               | exact next h ((State.answerCmd_kept _ _ _ _ _ _ _ _).trans e)
               | exact next h ((State.updMbx_kept _ _).trans e))

/-- A reservation command keeps what every other command keeps. -/
theorem State.resvRun_kept (s : State) (sd : SD) (stamp op : Nat) (t : State)
    (h : s.resvRun sd stamp op = .next t) : t.kept = s.kept := by
  unfold State.resvRun at h; grind [State.setResv_kept, State.resvFail_kept, State.result_kept, State.resvNotify_kept, foldl_kept]


end Sys2Proof.Machine
end

