-- ==== Sys2Proof/Tests/Slice0.lean ====
section
/-!
SUPPORT. Tests of the model: ill-formed commands, worked examples of the manual, and for every statement of
Certificates/Slice0/Obligations.lean that has hypotheses a concrete state and operands that meet them, clause by clause.
-/

set_option maxRecDepth 100000
set_option linter.unusedVariables false
set_option Elab.async false

namespace Sys2Proof.Machine.Tests

/-! ### Ill-formed commands: one for each check of WellFormed.lean -/

/-- A queue entry of 64 bytes. -/
def wSqe : List Byte := zeros 64

/-- Each term breaks one check: bits 8, 16, 24, 32, 64 and 128; below each count; lengths 64, 136 and 16; and the checks of a
queue, a capsule, a packet header and a scrim header. -/
theorem test_ill_formed_commands_are_refused : ((
  [.read .a (2 ^ 64), .fencePointReached ⟨0, 1⟩ 65536, .accept ⟨65536, 1⟩, .accept ⟨1, 65536⟩,
   .nsDelete 0 (2 ^ 32), .windowRevoke 0 (2 ^ 32), .windowOpen 0 (2 ^ 24) 0 0 0, .rootList 0 .a 0 (2 ^ 64) 0 true,
   .healthEvent 256 0 true, .healthEvent 0 65536 true, .rdmaCmConnectRequest .native 32 0 [], .hello 2 0 0 [] [],
   .domainHandover (some 63) .a false, .breakRelease 63, .forwardAbort 65536, .portLinkDown 32,
   .offloadMessage 256 wSqe none [] [] ⟨true, true⟩, .offloadMessage 0 [] none [] [] ⟨true, true⟩, .zeroizeDone 4096, .nonceSafe 4096,
   .ownerFence 48 (.own 0) [], .moduleRemove 0 48, .timerExpiry 8, .pinmuxWrite .head 0 4 0, .pgSqTail 256 0,
   .mbDoorbell .head 63 0, .notification 65536 true none 0 [], .notification 0 true none 256 [], .notification 0 true none 0 (zeros 17),
   .updatePush (some 63) [] true [], .start 4 none, .absorb 0 (zeros 135), .resetN 2, .powerOnReset 2,
   .forwardCmd 0 ⟨⟨0, 1⟩, zeros 63, [], 0, none⟩, .forwardCmd 0 ⟨⟨0, 1⟩, wSqe, [], 2 ^ 128, none⟩,
   .forwardCmd 0 ⟨⟨0, 1⟩, wSqe, [], 0, some 65536⟩, .forwardCmd 65536 ⟨⟨0, 1⟩, wSqe, [], 0, none⟩,
   .sendWithInvalidate true (2 ^ 24) 0 0 0, .sendWithInvalidate true 0 (2 ^ 24) 0 0, .sendWithInvalidate true 0 0 32 0,
   .sendWithInvalidate true 0 0 0 (2 ^ 32)] : List Instr).all fun c => !c.wf) = true := by decide +kernel

theorem test_a_header_out_of_its_fields_is_refused :
    ([⟨2 ^ 32, 0, 0, 0, false, 0, 0⟩, ⟨0, 256, 0, 0, false, 0, 0⟩, ⟨0, 0, 256, 0, false, 0, 0⟩, ⟨0, 0, 0, 256, false, 0, 0⟩,
      ⟨0, 0, 0, 0, false, 2 ^ 32, 0⟩, ⟨0, 0, 0, 0, false, 0, 2 ^ 32⟩].all fun x : Sxh => !x.wf) = true := by decide +kernel

theorem test_the_same_commands_in_their_fields_are_accepted :
    ([.read .a 5, .fencePointReached ⟨0, 1⟩ 4, .nsDelete 62 7, .timerExpiry 7, .absorb 3 (zeros 136), .ownerFence 47 (.own 0) [],
      .forwardCmd 3 ⟨⟨0, 1⟩, wSqe, [], 0, none⟩].all fun c : Instr => c.wf) = true := by decide +kernel

/-! ### Worked examples of the manual -/

/-- "The shade card" of 07_media_management.md (R178 to R182): INDEX 39, and 55, 59 at ladder steps 1 and 2. -/
theorem test_shade_index :
    (let card : List Byte := zeros 4 ++ leBytes 2 168 ++ leBytes 2 2160 ++ leBytes 2 8760 ++ [10, 30] ++ leBytes 2 250 ++
       leBytes 2 500 ++ leBytes 2 750
     let x := shadeIdx card ⟨410000, 8, 14, 1240, .allocated, true, .a, 1, 0⟩ 2200 3000 (some ⟨52, 47, 0⟩)
     (x.index, (ladderStep x 1).1, (ladderStep x 2).1, (ladderStep x 4).1)) = (39, 55, 59, 39) := by decide +kernel

/-- The recovery example under R200 (08_stripes_and_rebuild.md): D1 0x01 and D3 0x48. -/
theorem test_two_lost_slots :
    rebuildData 4 [(0, [0x31]), (2, [0x00])] (some [0x78]) (some [0x49]) 3 = some [0x48] ∧
    rebuildData 4 [(0, [0x31]), (2, [0x00])] (some [0x78]) (some [0x49]) 1 = some [0x01] := by decide +kernel

/-- The nonce and location example under R248 (10_cipher_engine.md). -/
theorem test_nonce_and_location :
    leBytes 4 19 ++ leBytes 8 128000 = [0x13, 0, 0, 0, 0, 0xF4, 0x01, 0, 0, 0, 0, 0] ∧
    locBlock .b (0x0A2C * 4096 + 0x7F3) = [0xF3, 0xC7, 0xA2, 0, 0, 0x01] ++ zeros 10 := by decide +kernel

/-- The example under R356 (15_registers.md): MED_STATUS after an acknowledgement of 0x41 and then of 0x43. -/
theorem test_status_acknowledgement :
    (let k := ((({ BlkSt.reset true with seq := 0x40 } : BlkSt).raise 3).raise 1).raise 3
     ((k.ack 0x41).statusReg, (k.ack 0x43).statusReg)) = (0x4300000A, 0x43000000) := by decide +kernel

/-- The Screed example under R339 (14_screed_control.md): e 4.0, i 80.5, u 96.5, SAT 0, CREDIT 96. -/
theorem test_control_law :
    (let l : Loop := { Loop.empty with words :=
       [0x80000000, 100, 0x00400000, 0x00040000, 0x00002000, 0, 0x00100000, 0x04000000, 0, 0x04000000, 0, 0, 0x00500000, 0, 0, 1] }
     let x := l.law 0x003C0000 0
     (x.e, x.integ, x.out, x.sat, tgtValue 1 x.out)) = (0x40000, 0x508000, 0x608000, false, 96) := by decide +kernel

/-- The extend example of 17_trust_and_measurement.md: 64 digest bytes, 0x1F, six zero bytes, 0x80. -/
theorem test_extend_input :
    extendInput (List.replicate 64 7) = List.replicate 64 7 ++ [0x1F, 0, 0, 0, 0, 0, 0, 0x80] := by decide +kernel

/-- The read example of 03_datapath.md: the responses of a right and of a wrong hint. -/
theorem test_read_example :
    Timing.readResponse 67562 = 68436 ∧ Timing.readReissued 279 = 319 ∧ Timing.readResponse 67820 = 68694 := by decide +kernel

/-! ### States that meet the statements' hypotheses -/


/-- A running head that owns both domains. -/
def w0 : State := { State.reset with
  blk := ⟨.reset true, .reset true, .reset true, .reset true, .reset true, .reset true, .reset true, .reset true,
    .reset true, .reset true, .reset true, .reset true, .reset true, .reset true, .reset true⟩
  top := { TopState.reset with phase := 6, running := true, epoch := 100 }
  ubl := { UblState.reset with up := true, own := ⟨true, true⟩, battenOut := ⟨true, true⟩, hbState := 1 }
  upd := { UpdState.reset with core0 := true, locked := true, bootRel := true }
  map := { MapState.reset with en := true, invalidated := true }
  pwr := { PwrState.reset with ethUp := true }
  rdm := { RdmState.reset with landingSize := 65536 } }
def wAsk (s : State) (op : Nat) (r : List Byte) : State :=
  { s with mbx := { s.mbx with chans := [(0, { Chan.reset with state := 1, op := op, cur := zeros 8 ++ r })] } }

def wReq (s : State) (op : Nat) (r : List Byte) : State :=
  { s with mbx := { s.mbx with chans := [(0, { Chan.reset with state := 1, op := op, cur := r })] } }

def wRoot : RootRec := { kind := 0, isSealed := false, deleting := false, kdom := 0, depth := 0, top := 0, parent := none, size := 64, point := 0, createEpoch := 0 }
def wNs (att : List Nat) : Namespace := ⟨4, .a, 0, 0, false, 0, none, att, []⟩
def wQp : Qp := { gen := 1, kind := .native, q := none, att := none, port := 0, mtu := 4096, epsn := 0, npsn := 0, onChip := true, pinned := false, fetching := false, used := 0, parked := [], err := false, wrs := [], recvs := 0, comps := [], retries := 0, rnrs := 0, retryMax := 7, rnrMax := 7, rate := 0, paths := [], base := 0, rmsgs := [], nextMsn := 0, tmsgs := [], rwaits := [], twait := [], pkts := 0 }
def wQpN : Qp := { wQp with kind := .nvme }
def wAtt : Attach := { source := true, sd := .a, roots := [4], sync := false, degrade := false, slot := 33, array := List.replicate 8 7, qp := 5, set := 1, cuts := [], age := 0, mark := 0, interval := 15625, backlog := 32, syncTo := 2000, shipped := 0, durable := 0, acked := (0, 0), snaps := [], resync := false, msn := 0, applied := [], gather := [], word := 0, win := (0, 0), detached := false }
def wMod : Module := { desc := [], split := none, slots := [], tags := [], oepoch := ⟨0, 0⟩, oport := ⟨none, none⟩, temps := ⟨0, 0, 0⟩, fw := [], fwStaged := none, fwOld := none, vault := [] }
def wGran : Gran := { sd := .a, stamp := 3, unitIdx := 0, nsid := 7, root := 4, kdom := 0, gran := 0, slot := 0, merged := false, bytes := none, bad := 0, mode := .on, lane := 0, fp := none, check := 0, result := none, look := .none, verify := none, dec := .none, unmap := none, indexed := none }
def wFl : InFl := { sd := .a, stamp := 3, nsid := 7, unitIdx := 0, gran := 0, blk := 0, nblk := 0, slot := 0, complete := true, etype := 1, check := 0 }
def wPack : Pack := { sd := .a, kdom := 0, copy := false, stripe := 1, row := 0, didx := 0, seg := 2, pidx := 0, opened := 96, body := [1], rct := [], srcs := [], chainOut := false, finish := false }
def wEnt : Entry := { etype := 1, sd := .a, part := false, fast := false, uidx := 0, nsid := 7, stamp := 3, slba := 0, nblk := 1, data := 8192, epoch := 5, marked := true, nslots := 1, recAt := 2 }
def wFetch : Fetch := { sd := .a, pack := 8192, port := 2, pseg := 5, finish := false, spec := false, dropped := false, queued := false, step := 0, image := none, st := none, released := false, plain := none, users := [(3, 0)] }
def wRef : RefRec := { fp := [], count := 1, ddom := 0, st := .live, fpBad := false, sat := false, raw := false, succ := none, zeroAt := 0, size := 100, copyOf := none }
def wUnit : Unit := { idx := 0, slba := 0, nblk := 1, hdr := 0, slot := 0, complete := true, abandoned := false, mseq := none, acked := true, left := 1 }
def wHost : HostCtl := { HostCtl.new 9 0 false with cc := 1 }
def wKdom : KDom := ⟨.on, none, [], 0, []⟩
/-- A command capsule: opcode, command identifier, namespace, SGL type, dwords 10 and 11. -/
def wCaps (q : QId) (op cid nsid sgl d10 d11 : Nat) (data : List Byte) : Capsule :=
  ⟨q, [BitVec.ofNat 8 op, 0] ++ leBytes 2 cid ++ leBytes 4 nsid ++ zeros 31 ++ [BitVec.ofNat 8 sgl] ++ leBytes 4 d10 ++ leBytes 4 d11 ++ zeros 16, data, 9, none⟩
def wStripe : Stripe := { k := 2, pq := false, finish := false, isMeta := false, st := .closed, gen := 0, missing := [], rows := 2, members := [1, 2, 3], used := [], closedAt := 4 }
def wPSeg : PSegRec := { PSegRec.fresh false with st := .allocated, seg := 1 }
def wMeta (t : Stripe) : Meta := { Meta.empty with stripes := [(1, t)], segs := [(1, ⟨none, 2, 70⟩), (2, ⟨none, 3, 70⟩), (3, ⟨none, 4, 70⟩)] }
/-- Domain A with one stripe on three present modules, ports 2 to 4. -/
def wMedia (m : Meta) : State := { w0 with
  map := { w0.map with live := { w0.map.live with a := m } }
  mlk := { w0.mlk with ports := [2, 3, 4, 5].map fun p => (p, { Port.empty with state := 2, rate := 6, ownA := true }), mods := [2, 3, 4, 5].map fun p => (p, { wMod with desc := zeros 4096 }) }
  med := { w0.med with pseg := [(psegKey 2 70, { wPSeg with seg := 1 }), (psegKey 3 70, { wPSeg with seg := 2 }), (psegKey 4 70, { wPSeg with seg := 3 })] } }

/-- A stream of one block in counter mode. -/
def wStream : Stream := { page := 2, didx := 0, dst := 0x1000, int := false, dstOk := true, slot := 33, mode := 2, dec := false, key := zeros 32, nonce := [], aad := [], tag := [], len := 16, long := false, srcOk := true, todo := zeros 16, chain := [], ctr := 0, ghash := 0, count := 0, out := [], res := none }

/-- An answer that is there, its parts named. -/
theorem wGet {α : Type} {o : Option α} (h : o.isSome = true) : o = some (o.get h) := (Option.some_get h).symm

/-- An answer that is there is the pair of its parts. -/
theorem wSome {α β : Type} {o : Option (α × β)} (h : o.isSome = true) : o = some ((o.get h).1, (o.get h).2) := wGet h

/-- An answer of three parts that is there. -/
theorem wSome3 {α β γ : Type} {o : Option (α × β × γ)} (h : o.isSome = true) :
    o = some ((o.get h).1, (o.get h).2.1, (o.get h).2.2) := wGet h

/-- A pair is that of its parts. -/
theorem wPair {α β : Type} (o : α × β) : o = (o.1, o.2) := rfl

/-- A triple is that of its parts. -/
theorem wTriple {α β γ : Type} (o : α × β × γ) : o = (o.1, o.2.1, o.2.2) := rfl

/-- A pair whose second part is known. -/
theorem wFst {α β : Type} {o : α × β} {b : β} (h : o.2 = b) : o = (o.1, b) := by rw [← h]

/-- A pair whose first part is known. -/
theorem wRest {α β : Type} {o : α × β} {a : α} (h : o.1 = a) : o = (a, o.2) := by rw [← h]

/-- A triple whose first part is known. -/
theorem wTriple1 {α β γ : Type} {o : α × β × γ} {a : α} (h : o.1 = a) : o = (a, o.2.1, o.2.2) := by rw [← h]

/-- A pair that is there and whose first part is known. -/
theorem wHead {α β : Type} {o : Option (α × β)} {a : α} (h : o.map (·.1) = some a) :
    o = some (a, (o.get (by cases o <;> simp_all)).2) := by
  cases o with
  | none => cases h
  | some x => cases h; rfl

/-- A pair that is there and whose second part is known. -/
theorem wTail {α β : Type} {o : Option (α × β)} {b : β} (h : o.map (·.2) = some b) :
    o = some ((o.get (by cases o <;> simp_all)).1, b) := by
  cases o with
  | none => cases h
  | some x => cases h; rfl

/-- A triple whose first part is there. -/
theorem wTripleSome {α β γ : Type} {o : Option α × β × γ} (h : o.1.isSome = true) : o = (some (o.1.get h), o.2.1, o.2.2) := by
  obtain ⟨a, b⟩ := o
  cases a with
  | none => cases h
  | some x => rfl

/-- A message without data, as it stands on the wire. -/
def wWire (key aad : List Byte) : List Byte := zeros 16 ++ gcmTag key (zeros 12) aad []

/-- The parts of that message. -/
theorem wSlices (t : List Byte) (h : t.length = 16) : (zeros 16 ++ t).length = 32 ∧
    slice (zeros 16 ++ t) 0 12 = zeros 12 ∧ (zeros 16 ++ t).take 0 = [] ∧ slice (zeros 16 ++ t) 16 16 = t := by
  refine ⟨by simp [zeros, h], by simp [slice, zeros], rfl, ?_⟩
  have e : (zeros 16 ++ t).drop 16 = t := List.drop_left' (by simp [zeros])
  unfold slice; rw [e, ← h]; exact List.take_length

/-- The message opens, and its plaintext is empty. -/
theorem wOpens (key aad : List Byte) (h : (gcmTag key (zeros 12) aad []).length = 16) :
    ¬ (wWire key aad).length < 32 ∧
    gcmDec key (slice (wWire key aad) ((wWire key aad).length - 32) 12) aad ((wWire key aad).take ((wWire key aad).length - 32))
      (slice (wWire key aad) ((wWire key aad).length - 32 + 16) 16) = some [] := by
  obtain ⟨h0, h1, h2, h3⟩ := wSlices _ h
  unfold wWire
  rw [h0, h1, h2, h3]
  exact ⟨by decide, if_pos rfl⟩

/-- The hypotheses of ScreedAndTheCaptureBuffer can be met, clause by clause. -/
theorem witness_ScreedAndTheCaptureBuffer :
    (∃ (r : Requester) (loop : Nat) (s : State), s.powered .scr = true ∧ s.claimHolder 0 = 0 ∧
        0 < s.top.claims.length) ∧
    (∃ (r : Requester) (loop : Nat) (s : State), s.powered .scr = true ∧ s.claimHolder 0 = 0x10) ∧
    (∃ (s : State), s.capturing = true ∧ s.claimHolder 0 = 0x10 ∧ s.scr.cap.owner = 0x10 ∧
        4096 ≤ s.scr.cap.recs.length) ∧
    (∃ (r : Requester) (s : State), s.powered .rdm = true ∧ s.claimHolder 0 = 0 ∧ 0 < s.top.claims.length) ∧
    (∃ (r : Requester) (s : State), s.powered .rdm = true ∧ s.claimHolder 0 = 0x11) ∧
    (∃ (s : State), s.claimHolder 0 = 0x11 ∧ s.scr.cap.owner = 0x11 ∧ 4096 ≤ s.scr.cap.recs.length) ∧
    (∃ (s s1 s2 s3 : State) (temps : List (Nat × Int)) (late : Bool) (ids due : List Nat), s.powered .scr = true ∧
        s.works .scr = true ∧ s.scr.late = [] ∧ (s1 =
        { s with scr := { s.scr with late := [], temps := temps.foldl (fun t x => Table.put t x.1 x.2) [] } }) ∧
        ids = s.scr.loops.map Prod.fst ∧ (s2 = ids.foldl (fun u n => if (u.loop n).running = true ∧
        (!(u.loop n).dueAt s.scr.tick) = true then u else u.applyLoop n) s1) ∧
        (due = ids.filter (fun n => (s2.loop n).running && (s2.loop n).dueAt s.scr.tick && s2.loopPowered (s2.loop
        n))) ∧ (s3 = ((due.map fun n => (n, s2.loopInput (s2.loop n))).take 64).foldl
        (fun u x => match x.2 with | some v => u.evalLoop late x.1 v | none => u.missLoop x.1) s2)) ∧
    (∃ (s s1 : State), s1 = s.scr.late.foldl State.missLoop s) ∧
    (∃ (s : State) (late : Bool) (n : Nat) (y : Int), (s.loop n).words.length = 16 ∧ (s.loop n).tgt = 0) ∧
    (∃ (s : State) (n : Nat), (s.loop n).words.length = 16) :=
  ⟨by refine ⟨.head, 5, w0, ?_, ?_, ?_⟩ <;> decide +kernel,
   by refine ⟨.head, 5, ((w0.claim 0 0x10).2), ?_, ?_⟩ <;> decide +kernel,
   by refine ⟨{ (w0.claim 0 0x10).2 with scr := { w0.scr with capDone := false, cap := ⟨0x10, List.replicate 4096 []⟩ } }, ?_,
              ?_, ?_, ?_⟩ <;> decide +kernel,
   by refine ⟨.head, w0, ?_, ?_, ?_⟩ <;> decide +kernel,
   by refine ⟨.head, ((w0.claim 0 0x11).2), ?_, ?_⟩ <;> decide +kernel,
   by refine ⟨{ (w0.claim 0 0x11).2 with scr := { w0.scr with cap := ⟨0x11, List.replicate 4096 []⟩ } }, ?_, ?_, ?_⟩ <;> decide +kernel,
   by refine ⟨{ w0 with scr := { w0.scr with loops := [(3, { Loop.empty with words := [0x80000000, 1] ++ List.replicate 13 0 ++ [1] })] } },
              _, _, _, [], false, _, _, ?_, ?_, ?_, rfl, rfl, rfl, rfl, rfl⟩ <;> decide +kernel,
   ⟨{ w0 with scr := { w0.scr with late := [3], loops := [(3, Loop.empty)] } }, _, rfl⟩,
   by refine ⟨w0, false, 0, 0, ?_, ?_⟩ <;> decide +kernel,
   ⟨w0, 0, by decide +kernel⟩⟩

/-- The hypotheses of ControlLawStaysInLimits can be met. -/
theorem witness_ControlLawStaysInLimits :
    ∃ (l : Loop) (y x : Int), sWord (l.w 6) ≤ sWord (l.w 7) ∧ sWord (l.w 8) ≤ sWord (l.w 9) ∧
      sWord (l.w 8) ≤ sWord (l.w 12) ∧ sWord (l.w 12) ≤ sWord (l.w 9) :=
  by refine ⟨Loop.empty, 5, -7, ?_, ?_, ?_, ?_⟩ <;> decide +kernel

/-- The hypotheses of CipherPages can be met, clause by clause. -/
theorem witness_CipherPages :
    (∃ (s : State) (slot : Nat), slot ∈ s.cip.zeroizing) ∧
    (∃ (s : State) (slot : Nat) (e : DWord), (s.kslot slot).safeWait = some e ∧ s.slotEpochSafe e = true) ∧
    (∃ (s : State) (p : Nat) (v : Word), s.pageOpen p = true ∧ v.toNat < 4096 ∧ v.toNat < (s.upage p).sqSize) ∧
    (∃ (s : State) (p : Nat) (v : Word), s.pageOpen p = true) ∧
    (∃ (s : State) (p : Nat) (v : Word), s.pageOpen p = true ∧ ((s.upage p).seq - BitVec.ofNat 8 v.toNat).toNat < 128) ∧
    (∃ (s : State) (p : Nat) (v : Word), s.pageOpen p = true) ∧
    (∃ (s s2 : State) (p : Nat) (desc aad tag : List Byte) (src : Option (List Byte)) (whole dstOk : Bool) (x :
        Stream) (bound : List Stream), (bound = s.cip.streams.filter (fun y => y.res.isNone)) ∧ bound.length < 1024 ∧
        ((bound.filter fun y => decide (y.page = p)).length < 4) ∧ (s.upage p).owner = 1 ∧
        (s.upage p).assigned = true ∧ (s.upage p).sqSize ≠ 0 ∧ (s.upage p).sqHead ≠ (s.upage p).sqTail ∧
        (s.upage p).heldCpl = [] ∧ s.works .cip = true ∧ s.powered .cip = true ∧
        (s.setPage p { s.upage p with sqHead := ((s.upage p).sqHead + 1) % (s.upage p).sqSize }).fetched p (s.upage
        p).sqHead (fit desc 64) src aad tag dstOk = (.bound x, s2)) ∧
    (∃ (s : State) (slot : Nat), (s.kslot slot).state ≠ 0) ∧
    (∃ (x : Stream), x.mode ≤ 2 ∧ x.out = []) :=
  ⟨⟨((w0.setSlot 20 { KSlot.empty with state := 1, key := [1] }).zeroize 20), 20, by decide +kernel⟩,
   by refine ⟨{ w0.setSlot 20 { KSlot.empty with safeWait := some 3 } with ubl := { w0.ubl with copied := ⟨3, 4⟩ } }, 20, 3, ?_,
              ?_⟩ <;> decide +kernel,
   by refine ⟨(w0.setPage 2 { UPage.empty with owner := 1, assigned := true, sqSize := 16, cqSize := 16 }), 2, 15, ?_, ?_, ?_⟩ <;> decide +kernel,
   ⟨(w0.setPage 2 { UPage.empty with owner := 1, assigned := true, sqSize := 16, cqSize := 16 }), 2, 3,
    by decide +kernel⟩,
   by refine ⟨(w0.setPage 2 { UPage.empty with owner := 1, assigned := true, sqSize := 16, cqSize := 16, seq := 4, events := [(0, 3, false), (1, 4, false)] }),
              2, 3, ?_, ?_⟩ <;> decide +kernel,
   ⟨(w0.setPage 2 { UPage.empty with owner := 1, assigned := true, sqSize := 16, cqSize := 16 }).setSlot 33 { KSlot.empty with state := 1, key := [1] },
    2, 2, by decide +kernel⟩,
   by refine ⟨((w0.setPage 2 { UPage.empty with owner := 1, assigned := true, sqSize := 16, cqSize := 16, sqTail := 1 }).setSlot 33 { KSlot.empty with state := 1, usage := usageOf 2, klen := false, key := zeros 32 }),
              _, 2, ([1, 2] ++ leBytes 2 1 ++ leBytes 4 16 ++ zeros 8 ++ zeros 16 ++ zeros 8 ++ leBytes 8 0x1000 ++ zeros 16),
              [], [], (some (zeros 16)), true, true,
              (match ((((w0.setPage 2 { UPage.empty with owner := 1, assigned := true, sqSize := 16, cqSize := 16, sqTail := 1 }).setSlot 33 { KSlot.empty with state := 1, usage := usageOf 2, klen := false, key := zeros 32 })).setPage 2 { (((w0.setPage 2 { UPage.empty with owner := 1, assigned := true, sqSize := 16, cqSize := 16, sqTail := 1 }).setSlot 33 { KSlot.empty with state := 1, usage := usageOf 2, klen := false, key := zeros 32 })).upage 2 with sqHead := 1 }).fetched 2 0 (fit ([1, 2] ++ leBytes 2 1 ++ leBytes 4 16 ++ zeros 8 ++ zeros 16 ++ zeros 8 ++ leBytes 8 0x1000 ++ zeros 16) 64) (some (zeros 16)) [] [] true with | (.bound x, _) => x | _ => (wStream)),
              _, rfl, ?_, ?_, ?_, ?_, ?_, ?_, ?_, ?_, ?_, wRest (by decide +kernel)⟩ <;> decide +kernel,
   ⟨(w0.setSlot 20 { KSlot.empty with state := 1, key := [1] }), 20, by decide +kernel⟩,
   by refine ⟨wStream, ?_, ?_⟩ <;> decide +kernel⟩

/-- The hypotheses of MapCacheOperations can be met, clauses 1, 2, 3, 4, 5, 6, 7. -/
theorem witness_MapCacheOperations :
    (∃ (r : Requester) (s : State), s.powered .map = true ∧ (s.blk.get .map).enable = true ∧ s.map.busy = 0 ∧
        s.map.dirtyCount = 0) ∧
    (∃ (r : Requester) (s : State), s.powered .map = true ∧ (s.blk.get .map).enable = true ∧ s.map.busy = 0) ∧
    (∃ (r : Requester) (s : State), s.powered .map = true ∧ (s.blk.get .map).enable = true ∧ s.map.busy = 0 ∧
        s.map.dirtyCount = 0) ∧
    (∃ (r : Requester) (s : State), s.powered .map = true ∧ (s.blk.get .map).enable = true ∧ s.map.busy = 0 ∧
        s.map.invalidated = true) ∧
    (∃ (r : Requester) (s : State), s.powered .map = true ∧ (s.blk.get .map).enable = true ∧ s.map.busy = 0 ∧
        s.map.en = true) ∧
    (∃ (s : State), s.map.busy = 1) ∧
    (∃ (s : State), s.map.busy = 2) :=
  ⟨by refine ⟨.head, { w0 with map := { w0.map with sets := [(5, resetSet)], walk := [(1, 2, 3)] } }, ?_, ?_, ?_, ?_⟩ <;> decide +kernel,
   by refine ⟨.head, w0, ?_, ?_, ?_⟩ <;> decide +kernel,
   by refine ⟨.head, w0, ?_, ?_, ?_, ?_⟩ <;> decide +kernel,
   by refine ⟨.head, w0, ?_, ?_, ?_, ?_⟩ <;> decide +kernel,
   by refine ⟨.head, w0, ?_, ?_, ?_, ?_⟩ <;> decide +kernel,
   ⟨{ w0 with map := { w0.map with busy := 1 } }, by decide +kernel⟩,
   ⟨{ w0 with map := { w0.map with busy := 2, sets := [(5, resetSet)] } }, by decide +kernel⟩⟩

/-- The hypotheses of MetadataUpkeep can be met, clause by clause. -/
theorem witness_MetadataUpkeep :
    (∃ (s : State) (d : SD) (root : Nat) (r : RootRec) (v : Nat), s.up .map = true ∧
        Table.find (s.metaOf d).roots root = some r ∧ r.parent = some v ∧ r.kind = 1 ∧ r.isSealed = false ∧
        s.replaying d = false ∧ s.rootQuiet d v (some r.point) = true) ∧
    (∃ (s s1 : State) (d : SD) (mpid : Nat) (p : Page), Table.find (s.metaOf d).pages mpid = some p ∧ p.share = 0 ∧
        s.up .map = true ∧ s.owns d = true ∧ s.logFull d = false ∧
        s1 = (((s.delta d (.page mpid none)).delta d (.pageAt mpid none)).delta d (.freeing mpid none)).leaveTiers d
        mpid) ∧
    (∃ (s s1 : State) (d : SD) (c : Cursor) (verify : Bool), s.up .dp = true ∧ s.up .map = true ∧ s.owns d = true ∧
        s.logFull d = false ∧ s.coatAt d (s.metaOf d).coat = some c ∧
        verify = ((s.coatPair d c).isSome && decide (((Table.find s.dp.kdoms c.x).map (·.mode)) = some .verify)) ∧
        coatCost verify ≤ s.dp.coatLeft ∧ (s1 = (s.updDp fun p =>
        { p with coatLeft := p.coatLeft - coatCost verify }).delta d (.cursor 2 { c with z := c.z + 1 }))) ∧
    (∃ (s : State) (i : Nat) (d : SD) (root gran x c : Nat), s.dp.pend[i]? = some (.relink d root gran x c) ∧
        s.up .map = true ∧ s.logFull d = false ∧ s.mapReady d root gran = true ∧
        s.pendFirst i (.relink d root gran x c) = false) ∧
    (∃ (s : State) (d : SD) (ddom : Nat) (fp : List Byte) (loc : Nat), (s.metaOf d).fullAt (fullKey ddom fp) = some
        loc ∧ s.owns d = true ∧ s.up .dp = true) ∧
    (∃ (s : State) (d : SD) (x : Delta) (q : List (SD × Delta)), s.dp.fullQ = (d, x) :: q) ∧
    (∃ (s : State) (d : SD) (n : Nat), s.owns d = true ∧ s.up .map = true ∧ s.logFull d = false ∧
        ((s.dp.fullQ.any fun e => decide (e.1 = d)) = false) ∧ s.map.work.get d = none ∧ 0 < n ∧ s.map.logs.get d ≠ []) ∧
    (∃ (s : State) (d : SD) (n : Nat) (w : CkptWork), s.owns d = true ∧ s.up .map = true ∧ s.logFull d = false ∧
        ((s.dp.fullQ.any fun e => decide (e.1 = d)) = false) ∧ s.map.work.get d = some w) ∧
    (∃ (s : State) (d : SD) (root gran x c : Nat) (r : RefRec), (MapEnt.ofWord (entryOf (s.metaOf d) root gran)).loc?
        = some x ∧ s.refOf d c = some r ∧ r.hitOk = true) :=
  ⟨by refine ⟨(w0.setMeta .a { Meta.empty with roots := [(4, wRoot), (9, { wRoot with kind := 1, parent := some 4, point := 7 })] }),
              .a, 9, { wRoot with kind := 1, parent := some 4, point := 7 }, 4, ?_, ?_, ?_, ?_, ?_, ?_, ?_⟩ <;> decide +kernel,
   by refine ⟨(w0.setMeta .a { Meta.empty with pages := [(6, ⟨0, 0, []⟩)] }), _, .a, 6, ⟨0, 0, []⟩, ?_, ?_, ?_, ?_, ?_, rfl⟩ <;> decide +kernel,
   by refine ⟨{ w0.setMeta .a { Meta.empty with roots := [(4, wRoot)] } with dp := { w0.dp with coatLeft := 5, kdoms := [(0, wKdom)] } },
              _, .a, _, false, ?_, ?_, ?_, ?_, wGet (by decide +kernel), ?_, ?_, rfl⟩ <;> decide +kernel,
   by refine ⟨{ w0.updMap fun m => { m with en := false, live := ⟨{ Meta.empty with roots := [(4, { wRoot with depth := 0 })], pages := [(0, ⟨0, 1, [(0, MapEnt.word (.stored false 50 none))]⟩)], refs := [(50, wRef), (60, wRef)] }, Meta.empty⟩ } with dp := { w0.dp with pend := [.relink .a 4 0 50 60] } },
              0, .a, 4, 0, 50, 60, ?_, ?_, ?_, ?_, ?_⟩ <;> decide +kernel,
   by refine ⟨(w0.setMeta .a (Meta.empty.applyFull (.full (fullKey 0 (zeros 24)) (some 77)))), .a, 0, (zeros 24), 77, ?_, ?_, ?_⟩ <;> decide +kernel,
   ⟨{ w0 with dp := { w0.dp with fullQ := [(.a, Delta.full 5 (some 77))] } }, .a, (Delta.full 5 (some 77)), [],
    by decide +kernel⟩,
   by refine ⟨{ w0 with map := { w0.map with logs := ⟨[⟨3, 0, []⟩], []⟩ } }, .a, 1, ?_, ?_, ?_, ?_, ?_, ?_, ?_⟩ <;> decide +kernel,
   by refine ⟨{ w0 with map := { w0.map with logs := ⟨[⟨3, 0, []⟩], []⟩, work := ⟨some ⟨1, [], []⟩, none⟩ } }, .a, 1, _, ?_, ?_,
              ?_, ?_, wGet (by decide +kernel)⟩ <;> decide +kernel,
   ⟨(w0.setMeta .a { Meta.empty with roots := [(4, { wRoot with depth := 0 })], pages := [(0, ⟨0, 2, [(0, BitVec.ofNat 64 (2 * 2 ^ 61 + 8192 * 4096))]⟩)], nextMpid := 1, refs := [(99, wRef)] }),
    .a, 4, 0, _, 99, _, wGet (by decide +kernel), wGet (by decide +kernel), by decide +kernel⟩⟩

/-- The hypotheses of DigestEngineOperations can be met, clause by clause. -/
theorem witness_DigestEngineOperations :
    (∃ (s : State) (c : Nat), c < 4) ∧
    (∃ (s : State) (c : Nat) (b : List Byte), c < 4) ∧
    (∃ (s : State) (c src n : Nat), c < 4 ∧ src < 2) ∧
    (∃ (s : State) (c : Nat) (x : DTap) (b : List Byte), (s.ctx c).tap = some x) ∧
    (∃ (s : State) (c : Nat) (p : List Byte), c < 4 ∧ 136 - (s.ctx c).tail.length ≤ p.length) ∧
    (∃ (s : State) (c n : Nat), c < 4 ∧ n ≤ 136 ∧ (s.ctx c).finished = true) ∧
    (∃ (s : State) (c n : Nat), c < 4) :=
  ⟨⟨w0, 3, by decide +kernel⟩,
   ⟨w0, 3, (List.replicate 136 5), by decide +kernel⟩,
   by refine ⟨w0, 3, 1, 50, ?_, ?_⟩ <;> decide +kernel,
   ⟨(w0.updCtx 2 fun c => { c with tap := some ⟨1, 3, 0⟩ }), 2, ⟨1, 3, 0⟩, [1, 2, 3], by decide +kernel⟩,
   by refine ⟨w0, 1, (List.replicate 136 1), ?_, ?_⟩ <;> decide +kernel,
   by refine ⟨(w0.updCtx 2 fun c => { c with finished := true }), 2, 136, ?_, ?_, ?_⟩ <;> decide +kernel,
   ⟨w0, 0, 0, by decide +kernel⟩⟩

/-- The hypotheses of MeasurementAndAlarm can be met, clause by clause. -/
theorem witness_MeasurementAndAlarm :
    (∃ (s : State) (i : Nat) (b : List Byte) (ev sub : Nat) (un : Bool), s.dig.alarmed = false ∧ i < 24 ∧
        b.length = 72) ∧
    (∃ (s : State) (i : Nat) (d : List Byte) (ev sub : Nat) (un : Bool), s.dig.alarmed = false ∧
        s.mayExtend i ev = true) ∧
    (∃ (s : State) (c : Nat), c < 4 ∧ (s.ctx c).keyed = false) ∧
    (∃ (s : State) (c : Nat) (b : List Byte), c < 4 ∧ b.length = 344) ∧
    (∃ (s : State) (n : Nat) (be : Bool), ((n % 16 ≠ 0 ∨ be = true))) ∧
    (∃ (s : State) (b : List Byte × State), b = s.signBody (s.recordBody false []) ∧ s.upd.core0 = true ∧
        s.dig.m5 = true ∧ 4 ≤ s.top.phase ∧ ((s.mlk.ports.any fun x => decide (x.2.state = 1)) = false) ∧
        s.dig.recordSigned = false ∧ s.dig.alarmed = false) ∧
    (∃ (s : State) (b : List Byte × State), b = s.signBody (s.recordBody false []) ∧ s.upd.core0 = true ∧
        s.dig.recordSigned = false ∧ s.dig.alarmed = false) ∧
    (∃ (s : State) (c : Nat), c < 4 ∧ s.dig.exports.length < 16) ∧
    (∃ (s : State) (i : Nat) (b : List Byte) (ev sub : Nat) (un : Bool), s.dig.log.length < 1024) :=
  ⟨by refine ⟨w0, 3, (zeros 72), 6, 0, false, ?_, ?_, ?_⟩ <;> decide +kernel,
   by refine ⟨w0, 5, (zeros 64), 6, 0, false, ?_, ?_⟩ <;> decide +kernel,
   by refine ⟨w0, 0, ?_, ?_⟩ <;> decide +kernel,
   by refine ⟨w0, 0, (zeros 344), ?_, ?_⟩ <;> decide +kernel,
   ⟨w0, 3, false, by decide +kernel⟩,
   by refine ⟨(w0.updDig fun g => { g with m5 := true }), _, rfl, ?_, ?_, ?_, ?_, ?_, ?_⟩ <;> decide +kernel,
   by refine ⟨w0, _, rfl, ?_, ?_, ?_⟩ <;> decide +kernel,
   by refine ⟨w0, 0, ?_, ?_⟩ <;> decide +kernel,
   ⟨w0, 0, [], 0, 0, false, by decide +kernel⟩⟩

/-- The hypotheses of PowerStateCommands can be met, clause by clause. -/
theorem witness_PowerStateCommands :
    (∃ (r : Requester) (v : Word) (s : State), s.powered .pwr = true ∧ s.pwr.current = 0 ∧ v.toNat < 4 ∧ v ≠ 0 ∧
        s.pwr.inflight = false) ∧
    (∃ (s : State) (p : Bool), s.pwr.inflight = true ∧ s.pwr.target ≠ 0 ∧ s.pwr.current = 0 ∧ s.pwr.pllHeld = false ∧
        s.pwr.pfail = 0 ∧ s.pwr.prepared = true) ∧
    (∃ (s s1 : State), s1 = s.prepareEntry s.pwr.target ∧ s.pwr.inflight = true ∧
        (s.pwr.target = 1 ∨ s.pwr.target = 2) ∧ s.pwr.current = 0 ∧ s.pwr.pllHeld = false ∧ s.pwr.pfail = 0 ∧
        s.pwr.prepared = false ∧ s1.entryRow s.pwr.target = none) ∧
    (∃ (s : State) (bad : List Nat) (ok : Bool), s.pwr.inflight = true ∧ s.pwr.current ≠ 0 ∧ s.pwr.pllHeld = false ∧
        ((s.pwr.current = 3 → ok = true)) ∧ ((s.leave bad).resume s.pwr.current).pwr.target = 0) ∧
    (∃ (s : State) (x : Nat), 4 ≤ x ∧ x ≤ 8 ∧ ((x ≠ 5 ∨ s.pwr.wakeTime ≤ s.pwr.rtc)) ∧
        wakesIn x s.pwr.current = true ∧ s.pwr.current ≠ 0 ∧ s.pwr.current ≠ 3 ∧ s.pwr.inflight = false ∧
        s.pwr.pllHeld = false) ∧
    (∃ (s : State), s.pwr.inflight = true ∧ s.pwr.target = 3 ∧ s.pwr.current = 0 ∧ s.pwr.pllHeld = false ∧
        s.pwr.prepared = false ∧ s.pwr.parkWait = false) ∧
    (∃ (s : State) (r : Nat), r < 4 ∧ s.powered .pwr = true ∧ r ∉ s.pwr.avsTry) ∧
    (∃ (s : State) (ds : List Int) (rs : List Nat) (reads : List (List Int)), s.pwr.current = 0 ∧
        s.pwr.inflight = false ∧ s.pwr.pllHeld = false ∧ s.upd.core0 = true ∧ s.replanNow = true) ∧
    (∃ (s : State) (n r : Nat) (x : Int), n < 64 ∧ r < 4 ∧ x < 10 ∧ domainOn s.pwr.current 3 = true ∧
        s.pwr.pllHeld = false) ∧
    (∃ (s : State), s.pwr.pllHeld = false ∧ s.pwr.current ≠ 3) ∧
    (∃ (s : State), s.pwr.pllHeld = true) ∧
    (∃ (s s1 : State) (r : Nat), r < 4 ∧ s.powered .pwr = true ∧ r ∈ s.pwr.avsTry ∧
        (s1 = ((s.updPwr fun p => { p with avsTry := p.avsTry.filter (· ≠ r) }).raise .pwr 5).snag 1 0x1008 none 0xFF
        (leBytes 1 r))) :=
  ⟨by refine ⟨.head, 2, w0, ?_, ?_, ?_, ?_, ?_⟩ <;> decide +kernel,
   by refine ⟨{ w0 with pwr := { w0.pwr with inflight := true, target := 2, prepared := true } }, true, ?_, ?_, ?_, ?_, ?_, ?_⟩ <;> decide +kernel,
   by refine ⟨{ w0 with pwr := { w0.pwr with inflight := true, target := 1 } }, _, rfl, ?_, ?_, ?_, ?_, ?_, ?_, ?_⟩ <;> decide +kernel,
   by refine ⟨{ w0 with pwr := { w0.pwr with inflight := true, current := 1 } }, [], true, ?_, ?_, ?_, ?_, ?_⟩ <;> decide +kernel,
   by refine ⟨{ w0 with pwr := { w0.pwr with current := 2 } }, 4, ?_, ?_, ?_, ?_, ?_, ?_, ?_, ?_⟩ <;> decide +kernel,
   by refine ⟨{ w0 with pwr := { w0.pwr with inflight := true, target := 3 } }, ?_, ?_, ?_, ?_, ?_, ?_⟩ <;> decide +kernel,
   by refine ⟨w0, 2, ?_, ?_, ?_⟩ <;> decide +kernel,
   by refine ⟨{ w0 with pwr := { w0.pwr with replanDue := true } }, [5], [7], [], ?_, ?_, ?_, ?_, ?_⟩ <;> decide +kernel,
   by refine ⟨w0, 63, 3, -4, ?_, ?_, ?_, ?_, ?_⟩ <;> decide +kernel,
   by refine ⟨w0, ?_, ?_⟩ <;> decide +kernel,
   ⟨{ w0 with pwr := { w0.pwr with pllHeld := true } }, by decide +kernel⟩,
   by refine ⟨{ w0 with pwr := { w0.pwr with avsTry := [0] } }, _, 0, ?_, ?_, ?_, rfl⟩ <;> decide +kernel⟩

/-- The hypotheses of ResetsAndFaults can be met, clauses 1, 3, 5, 6, 7, 8, 9, 10. -/
theorem witness_ResetsAndFaults :
    (∃ (s : State) (h : Nat), s.pwr.pfail ≠ 1) ∧
    (∃ (s s1 : State), (s1 = Blk.all.foldl (fun u b => u.updBlk b fun k =>
        { k with style := k.style.set .head 0, indAddr := k.indAddr.set .head 0 }) s)) ∧
    (∃ (s : State) (c k : Nat), s.upd.core0 = true ∧ s.pwr.pllHeld = false) ∧
    (∃ (s s1 : State), s.pwr.pfail = 0 ∧ s.pwr.pllHeld = false ∧ s.top.phase = 6 ∧ s.pwr.current ≤ 1 ∧
        (s1 = (s.updPwr fun p => { p with pfail := 1, pfailReleased := false }).abortEntry.askFlush 0)) ∧
    (∃ (s s1 : State) (x : Dump), s.vault.dumping = true ∧ s.vault.dump = some x ∧
        s1 = ({ s.writeDump x with vault := { s.vault with dumping := false, dump := some { x with ended := true } } }
        : State).idlePorts) ∧
    (∃ (s : State), s.pwr.pfail = 2) ∧
    (∃ (s : State), s.pwr.pfail = 0 ∧ s.pwr.pllHeld = false ∧ ¬ (s.top.phase = 6 ∧ s.pwr.current ≤ 1)) ∧
    (∃ (s : State), s.pwr.pfail = 1) :=
  ⟨⟨w0, 1, by decide +kernel⟩,
   ⟨((w0.raise .fe 2).msixWrite 0x02000000 5), _, rfl⟩,
   by refine ⟨w0, 3, 9, ?_, ?_⟩ <;> decide +kernel,
   by refine ⟨w0, _, ?_, ?_, ?_, ?_, rfl⟩ <;> decide +kernel,
   ⟨{ w0 with vault := { w0.vault with dump := some w0.makeDump, dumping := true } }, _, _, by decide +kernel,
    wGet (by decide +kernel), rfl⟩,
   ⟨{ w0 with pwr := { w0.pwr with pfail := 2 } }, by decide +kernel⟩,
   by refine ⟨{ w0 with top := { w0.top with phase := 3 } }, ?_, ?_, ?_⟩ <;> decide +kernel,
   ⟨{ w0 with pwr := { w0.pwr with pfail := 1 } }, by decide +kernel⟩⟩

/-- The hypotheses of StartUpCommands can be met, clauses 1, 2, 3, 4, 5, 6, 7, 8, 9, 10, 11. -/
theorem witness_StartUpCommands :
    (∃ (s : State) (lv a b c : Nat), s.top.failed = false ∧ s.pwr.pllHeld = false ∧ s.pwr.pfail = 0 ∧
        s.upd.core0 = true ∧ s.top.phase = 1) ∧
    (∃ (s : State) (lv a b c : Nat), s.top.failed = false ∧ s.pwr.pllHeld = false ∧ s.pwr.pfail = 0 ∧
        s.upd.core0 = true ∧ s.top.phase = 5 ∧ s.vault.restore = []) ∧
    (∃ (s s1 : State) (ck : Meta), s.top.phase = 6 ∧ s.ubl.up = false ∧ s.ubl.hbLink.seen = false ∧
        s.ubl.hbPair.seen = false ∧ s.ubl.peerFailed = false ∧
        (s1 = [SD.a, SD.b].foldl (fun u d => if u.owns d = true then u else u.updUbl fun x =>
        { x with shadow := x.shadow.set d ck }) s)) ∧
    (∃ (s : State) (d : SD) (m : Option MirrorDump) (ck : Option Meta) (l : List Nat), s.top.phase = 5 ∧
        Table.find s.vault.restore d.num = some 3) ∧
    (∃ (s : State) (lv a b c : Nat), s.top.failed = false ∧ s.pwr.pllHeld = false ∧ s.pwr.pfail = 0 ∧
        s.upd.core0 = true ∧ s.top.phase = 0 ∧ s.upd.bootRel = true) ∧
    (∃ (s : State) (lv a b c : Nat), s.top.failed = false ∧ s.pwr.pllHeld = false ∧ s.pwr.pfail = 0 ∧
        s.upd.core0 = true ∧ s.top.phase = 2) ∧
    (∃ (s : State) (lv a b c : Nat), s.top.failed = false ∧ s.pwr.pllHeld = false ∧ s.pwr.pfail = 0 ∧
        s.upd.core0 = true ∧ s.top.phase = 3 ∧ ((s.mlk.ports.any fun x => decide (x.2.state = 1 ∧
        x.2.step ≠ 4)) = false) ∧ s.ubl.headClash = false) ∧
    (∃ (s : State) (lv a b c : Nat), s.top.failed = false ∧ s.pwr.pllHeld = false ∧ s.pwr.pfail = 0 ∧
        s.upd.core0 = true ∧ s.top.phase = 4 ∧ ((s.mine.all fun d => s.ubl.battenOut.get d && s.fencedAll d) = true)) ∧
    (∃ (s : State) (lv a b c : Nat), s.top.failed = false ∧ s.pwr.pllHeld = false ∧ s.pwr.pfail = 0 ∧
        s.upd.core0 = true ∧ s.top.phase < 6) ∧
    (∃ (s : State) (d : SD) (m : Option MirrorDump) (ck : Option Meta) (l : List Nat), s.top.phase = 5 ∧
        Table.find s.vault.restore d.num = some 4 ∧ (((s.str.journal.get d).any fun r => s.rowOpen d r.stripe r.row) =
        false)) ∧
    (∃ (s : State) (d : SD) (m : Option MirrorDump) (ck : Option Meta) (l : List Nat), s.top.phase = 5 ∧
        Table.find s.vault.restore d.num = some 6) :=
  ⟨by refine ⟨{ w0 with top := { w0.top with phase := 1 } }, 3, 1, 1, 1, ?_, ?_, ?_, ?_, ?_⟩ <;> decide +kernel,
   by refine ⟨{ w0 with top := { w0.top with phase := 5 } }, 3, 1, 1, 1, ?_, ?_, ?_, ?_, ?_, ?_⟩ <;> decide +kernel,
   by refine ⟨{ w0 with ubl := { w0.ubl with up := false } }, _, Meta.empty, ?_, ?_, ?_, ?_, ?_, rfl⟩ <;> decide +kernel,
   by refine ⟨{ w0 with top := { w0.top with phase := 5 }, vault := { w0.vault with restore := [(0, 3)] } }, .a, none, none, [],
              ?_, ?_⟩ <;> decide +kernel,
   by refine ⟨{ w0 with top := { w0.top with phase := 0 } }, 3, 0, 0, 0, ?_, ?_, ?_, ?_, ?_, ?_⟩ <;> decide +kernel,
   by refine ⟨{ w0 with top := { w0.top with phase := 2 } }, 3, 0, 0, 0, ?_, ?_, ?_, ?_, ?_⟩ <;> decide +kernel,
   by refine ⟨{ w0 with top := { w0.top with phase := 3 } }, 3, 0, 0, 0, ?_, ?_, ?_, ?_, ?_, ?_, ?_⟩ <;> decide +kernel,
   by refine ⟨{ w0 with top := { w0.top with phase := 4 } }, 3, 0, 0, 0, ?_, ?_, ?_, ?_, ?_, ?_⟩ <;> decide +kernel,
   by refine ⟨{ w0 with top := { w0.top with phase := 3 } }, 3, 0, 0, 0, ?_, ?_, ?_, ?_, ?_⟩ <;> decide +kernel,
   by refine ⟨{ w0 with top := { w0.top with phase := 5 }, vault := { w0.vault with restore := [(0, 4)] } }, .a, none, none, [],
              ?_, ?_, ?_⟩ <;> decide +kernel,
   by refine ⟨{ w0 with top := { w0.top with phase := 5 }, vault := { w0.vault with restore := [(0, 6)] } }, .a, none, none, [],
              ?_, ?_⟩ <;> decide +kernel⟩

/-- The hypotheses of MailboxGeneralCommands can be met, clause by clause. -/
theorem witness_MailboxGeneralCommands :
    (∃ (c : Nat) (s : State) (r : List Byte), s.takesCmd c 0x0001 r none []) ∧
    (∃ (c : Nat) (s : State) (r : List Byte), s.takesCmd c 0x0002 r none []) ∧
    (∃ (c : Nat) (s : State) (r : List Byte) (v : DWord), s.takesCmd c 0x0004 r none []) ∧
    (∃ (c : Nat) (s : State) (r : List Byte) (g us : Nat), s.takesCmd c 0x0109 r none [] ∧ g < 240) ∧
    (∃ (c : Nat) (s : State) (r nqn array : List Byte) (pq : Bool) (k v g h v' g' h' : Nat), s.takesCmd c 0x0003 r
        none [(7, 0), (7, 1)] ∧ s.med.commissioned = false ∧ s.ubl.up = true ∧ s.ubl.peerServing = true ∧
        s.shapeOk k = true ∧ v ≤ 0xFFFF ∧ g ≤ 0xFFFF ∧ (v' = (if v = 0 then 64 else v)) ∧
        (g' = (if g = 0 then 2048 else g)) ∧ (h' = (if h = 0 then 1500 else h))) :=
  ⟨⟨0, (wAsk (w0) 0x1 ([])), (zeros 8 ++ ([])),
    ⟨by decide +kernel, by decide +kernel, fun x hx => by cases hx <;> decide +kernel, by decide +kernel⟩⟩,
   ⟨0, (wAsk (w0) 0x2 ([])), (zeros 8 ++ ([])),
    ⟨by decide +kernel, by decide +kernel, fun x hx => by cases hx <;> decide +kernel, by decide +kernel⟩⟩,
   ⟨0, (wAsk (w0) 0x4 ([])), (zeros 8 ++ ([])), 1000,
    ⟨by decide +kernel, by decide +kernel, fun x hx => by cases hx <;> decide +kernel, by decide +kernel⟩⟩,
   ⟨0, (wAsk (w0) 0x109 ([])), (zeros 8 ++ ([])), 239, 50,
    ⟨by decide +kernel, by decide +kernel, fun x hx => by cases hx <;> decide +kernel, by decide +kernel⟩,
    by decide +kernel⟩,
   by refine ⟨0,
              (wAsk ({ w0 with ubl := { w0.ubl with up := true, peerServing := true }, mlk := { w0.mlk with ports := (List.range 10).map fun p => (p, { Port.empty with state := 1, step := 4 }) } }) 0x3 ([])),
              (zeros 8 ++ ([])), [65], (zeros 8), true, 6, 0, 0, 0, _, _, _,
              ⟨by decide +kernel, by decide +kernel, fun x hx => by cases hx <;> decide +kernel, by decide +kernel⟩, ?_, ?_, ?_,
              ?_, ?_, ?_, rfl, rfl, rfl⟩ <;> decide +kernel⟩

/-- The hypotheses of MailboxVolumeCommands can be met, clause by clause. -/
theorem witness_MailboxVolumeCommands :
    (∃ (c : Nat) (s : State) (r : List Byte) (n : Nat), s.takesCmd c 0x0101 r (some (SD.ofBit (leAt r 8 1))) ([(7,
        leAt r 8 1), (2, leAt r 9 1)] ++ [(1, n)]) ∧ leAt r 8 1 ≤ 1 ∧ leAt r 10 2 = 0 ∧ leAt r 24 8 = 0 ∧
        0 < leAt r 12 8 ∧ leAt r 12 8 ≤ 2 ^ 38 ∧ (Table.find s.dp.kdoms (leAt r 9 1)).isSome = true ∧
        leAt r 20 4 = n ∧ n ≤ 2097151 ∧ s.rootUsed n = false) ∧
    (∃ (c : Nat) (s : State) (r : List Byte) (d : SD) (n : Nat) (x : RootRec), s.takesCmd c 0x0102 r (some d) [(1,
        n)] ∧ s.rootDom n = some d ∧ s.rootInfo d n = some x ∧ x.kind ≠ 1 ∧ x.deleting = false ∧
        s.rootNamed d n = false ∧ s.attached d n = false) ∧
    (∃ (c : Nat) (s : State) (r : List Byte) (d : SD) (n size : Nat) (x : RootRec) (s2 : State) (g : Nat × State),
        s.takesCmd c 0x0103 r (some d) [(1, n)] ∧ s.rootDom n = some d ∧ Table.find (s.metaOf d).roots n = some x ∧
        x.kind ≠ 1 ∧ x.deleting = false ∧ x.size < size ∧ size ≤ 2 ^ 38 ∧
        g = s.growTop d (max x.depth (depthOf size)) 4 x.depth x.top ∧
        s2 = g.2.delta d (.root n (some { x with size := size, depth := max x.depth (depthOf size), top := g.1 }))) ∧
    (∃ (c : Nat) (s : State) (r : List Byte) (d : SD) (x : RootRec) (n : Nat), s.takesCmd c 0x0104 r (some d) [(1,
        leAt r 8 4)] ∧ s.rootDom (leAt r 8 4) = some d ∧ Table.find (s.metaOf d).roots (leAt r 8 4) = some x ∧
        (n = (if leAt r 12 4 = 0 then Table.free s.fe.ns 32768 1 else leAt r 12 4)) ∧ n ≤ 32768 ∧ leAt r 16 1 ≤ 4 ∧
        leAt r 17 1 ≤ 1 ∧ leAt r 20 4 = 0 ∧ x.deleting = false ∧ ((x.kind = 1 → x.isSealed = true)) ∧
        s.rootNamed d (leAt r 8 4) = false ∧ leAt r 12 4 ≤ 32768 ∧ ((leAt r 12 4 ≠ 0 → s.ns? (leAt r 12 4) = none))) ∧
    (∃ (c : Nat) (s : State) (r : List Byte) (n : Nat) (x : Namespace), s.takesCmd c 0x0105 r (some x.sd) [(1,
        x.root)] ∧ s.ns? n = some x ∧ x.attached = []) ∧
    (∃ (c : Nat) (s : State) (r : List Byte) (n : Nat) (x : Namespace) (l : List Nat), s.takesCmd c 0x0106 r (some
        x.sd) [(1, x.root)] ∧ s.ns? n = some x ∧ cntlidsOk l = true ∧ s.replTarget x.sd x.root = false) ∧
    (∃ (c : Nat) (s : State) (r : List Byte) (n : Nat) (x : Namespace) (l : List Nat), s.takesCmd c 0x0107 r (some
        x.sd) [(1, x.root)] ∧ s.ns? n = some x ∧ cntlidsOk l = true) ∧
    (∃ (c : Nat) (s : State) (r : List Byte) (n g : Nat) (x : Namespace), s.takesCmd c 0x0108 r (some x.sd) [(1,
        x.root)] ∧ s.ns? n = some x ∧ ((g < 240 ∨ g = 0xFF))) ∧
    (∃ (c : Nat) (s : State) (r : List Byte) (d : SD) (l : List Nat) (p : Nat) (ids : List Nat) (s1 : State), l =
        snapSrc r ∧ (s.takesCmd c 0x0201 r (some d) (l.map fun x => (1, x))) ∧ l ≠ [] ∧ l.length ≤ 64 ∧
        leAt r 9 3 = 0 ∧ ((∀ x ∈ l, s.rootDom x = some d)) ∧
        ((l.any fun x => match Table.find (s.metaOf d).roots x with | some k => decide (k.kind = 1) || k.deleting | none => true)
        = false) ∧ s.takeSnap d l = some (p, ids, s1)) ∧
    (∃ (c : Nat) (s : State) (r : List Byte) (d : SD) (n : Nat) (x : RootRec), s.takesCmd c 0x0202 r (some d) [(1,
        n)] ∧ s.rootDom n = some d ∧ s.rootInfo d n = some x ∧ x.kind = 1 ∧ x.deleting = false ∧ x.isSealed = true ∧
        s.rootNamed d n = false ∧ s.attached d n = false) ∧
    (∃ (c : Nat) (s : State) (r : List Byte) (d : SD) (n k : Nat) (x : RootRec), s.takesCmd c 0x0203 r (some d) [(1,
        n)] ∧ s.rootDom n = some d ∧ Table.find (s.metaOf d).roots n = some x ∧ s.freeRoot = some k ∧ x.kind = 1 ∧
        x.deleting = false ∧ x.isSealed = true) ∧
    (∃ (c : Nat) (s : State) (r : List Byte) (d : SD) (start addr len : Nat) (l : List (Nat × RootRec)), s.takesCmd c
        0x0204 r (some d) [] ∧ (l = (s.metaOf d).roots.filter (fun x => decide (start ≤ x.1)))) ∧
    (∃ (c : Nat) (s : State) (r : List Byte) (n : Nat), s.takesCmd c 0x0101 r (some (SD.ofBit (leAt r 8 1))) ([(7,
        leAt r 8 1), (2, leAt r 9 1)] ++ []) ∧ leAt r 8 1 ≤ 1 ∧ leAt r 10 2 = 0 ∧ leAt r 24 8 = 0 ∧ 0 < leAt r 12 8 ∧
        leAt r 12 8 ≤ 2 ^ 38 ∧ (Table.find s.dp.kdoms (leAt r 9 1)).isSome = true ∧ leAt r 20 4 = 0xFFFFFFFF ∧
        s.freeRoot = some n) :=
  ⟨by refine ⟨0,
              (wAsk (w0.updDp fun p => { p with kdoms := [(0, wKdom)] }) 0x101 (leBytes 4 0 ++ leBytes 8 64 ++ leBytes 4 5 ++ zeros 8)),
              (zeros 8 ++ (leBytes 4 0 ++ leBytes 8 64 ++ leBytes 4 5 ++ zeros 8)), 5,
              ⟨by decide +kernel, by decide +kernel, fun x hx => by cases hx <;> decide +kernel, by decide +kernel⟩, ?_, ?_, ?_,
              ?_, ?_, ?_, ?_, ?_, ?_⟩ <;> decide +kernel,
   by refine ⟨0, (wAsk (w0.setMeta .a { Meta.empty with roots := [(4, wRoot)] }) 0x102 ([])), (zeros 8 ++ ([])), .a, 4, wRoot,
              ⟨by decide +kernel, by decide +kernel, fun x hx => by cases hx <;> decide +kernel, by decide +kernel⟩, ?_, ?_, ?_,
              ?_, ?_, ?_⟩ <;> decide +kernel,
   by refine ⟨0, (wAsk (w0.setMeta .a { Meta.empty with roots := [(4, { wRoot with depth := 2, size := 64 })] }) 0x103 ([])),
              (zeros 8 ++ ([])), .a, 4, 100, { wRoot with depth := 2, size := 64 }, _, _,
              ⟨by decide +kernel, by decide +kernel, fun x hx => by cases hx <;> decide +kernel, by decide +kernel⟩, ?_, ?_, ?_,
              ?_, ?_, ?_, rfl, rfl⟩ <;> decide +kernel,
   by refine ⟨0, (wAsk (w0.setMeta .a { Meta.empty with roots := [(4, wRoot)] }) 0x104 (leBytes 4 4 ++ leBytes 4 7 ++ zeros 8)),
              (zeros 8 ++ (leBytes 4 4 ++ leBytes 4 7 ++ zeros 8)), .a, wRoot, _,
              ⟨by decide +kernel, by decide +kernel, fun x hx => by cases hx <;> decide +kernel, by decide +kernel⟩, ?_, ?_,
              rfl, ?_, ?_, ?_, ?_, ?_, ?_, ?_, ?_, ?_⟩ <;> decide +kernel,
   by refine ⟨0,
              (wAsk ({ w0.setMeta .a { Meta.empty with roots := [(4, wRoot)] } with fe := { w0.fe with ns := [(7, (wNs []))] } }) 0x105 ([])),
              (zeros 8 ++ ([])), 7, (wNs []),
              ⟨by decide +kernel, by decide +kernel, fun x hx => by cases hx <;> decide +kernel, by decide +kernel⟩, ?_, ?_⟩ <;> decide +kernel,
   by refine ⟨0,
              (wAsk ({ w0.setMeta .a { Meta.empty with roots := [(4, wRoot)] } with fe := { w0.fe with ns := [(7, (wNs [1]))] } }) 0x106 ([])),
              (zeros 8 ++ ([])), 7, (wNs [1]), [1, 2],
              ⟨by decide +kernel, by decide +kernel, fun x hx => by cases hx <;> decide +kernel, by decide +kernel⟩, ?_, ?_, ?_⟩ <;> decide +kernel,
   by refine ⟨0,
              (wAsk ({ w0.setMeta .a { Meta.empty with roots := [(4, wRoot)] } with fe := { w0.fe with ns := [(7, (wNs [1]))] } }) 0x107 ([])),
              (zeros 8 ++ ([])), 7, (wNs [1]), [1, 2],
              ⟨by decide +kernel, by decide +kernel, fun x hx => by cases hx <;> decide +kernel, by decide +kernel⟩, ?_, ?_⟩ <;> decide +kernel,
   by refine ⟨0,
              (wAsk ({ w0.setMeta .a { Meta.empty with roots := [(4, wRoot)] } with fe := { w0.fe with ns := [(7, (wNs [1]))] } }) 0x108 ([])),
              (zeros 8 ++ ([])), 7, 239, (wNs [1]),
              ⟨by decide +kernel, by decide +kernel, fun x hx => by cases hx <;> decide +kernel, by decide +kernel⟩, ?_, ?_⟩ <;> decide +kernel,
   by refine ⟨0, (wAsk (w0.setMeta .a { Meta.empty with roots := [(4, wRoot)] }) 0x201 (leBytes 4 1 ++ leBytes 4 4)),
              (zeros 8 ++ (leBytes 4 1 ++ leBytes 4 4)), .a, _, _, _, _, rfl,
              ⟨by decide +kernel, by decide +kernel, fun x hx => by cases hx <;> decide +kernel, by decide +kernel⟩, ?_, ?_, ?_,
              ?_, ?_, wSome3 (by decide +kernel)⟩ <;> decide +kernel,
   by refine ⟨0,
              (wAsk (w0.setMeta .a { Meta.empty with roots := [(9, { wRoot with kind := 1, isSealed := true, parent := some 4, point := 7 })] }) 0x202 ([])),
              (zeros 8 ++ ([])), .a, 9, { wRoot with kind := 1, isSealed := true, parent := some 4, point := 7 },
              ⟨by decide +kernel, by decide +kernel, fun x hx => by cases hx <;> decide +kernel, by decide +kernel⟩, ?_, ?_, ?_,
              ?_, ?_, ?_, ?_⟩ <;> decide +kernel,
   by refine ⟨0,
              (wAsk (w0.setMeta .a { Meta.empty with roots := [(9, { wRoot with kind := 1, isSealed := true, parent := some 4, point := 7 })], pages := [(0, ⟨0, 1, []⟩)] }) 0x203 ([])),
              (zeros 8 ++ ([])), .a, 9, _, { wRoot with kind := 1, isSealed := true, parent := some 4, point := 7 },
              ⟨by decide +kernel, by decide +kernel, fun x hx => by cases hx <;> decide +kernel, by decide +kernel⟩, ?_, ?_,
              wGet (by decide +kernel), ?_, ?_, ?_⟩ <;> decide +kernel,
   ⟨0, (wAsk (w0.setMeta .a { Meta.empty with roots := [(4, wRoot)] }) 0x204 ([])), (zeros 8 ++ ([])), .a, 0, 4096,
    64, [(4, wRoot)],
    ⟨by decide +kernel, by decide +kernel, fun x hx => by cases hx <;> decide +kernel, by decide +kernel⟩,
    by decide +kernel⟩,
   by refine ⟨0,
              (wAsk (w0.updDp fun p => { p with kdoms := [(0, wKdom)] }) 0x101 (leBytes 4 0 ++ leBytes 8 64 ++ leBytes 4 0xFFFFFFFF ++ zeros 8)),
              (zeros 8 ++ (leBytes 4 0 ++ leBytes 8 64 ++ leBytes 4 0xFFFFFFFF ++ zeros 8)), _,
              ⟨by decide +kernel, by decide +kernel, fun x hx => by cases hx <;> decide +kernel, by decide +kernel⟩, ?_, ?_, ?_,
              ?_, ?_, ?_, ?_, wGet (by decide +kernel)⟩ <;> decide +kernel⟩

/-- The hypotheses of MailboxKeyCommands can be met, clause by clause. -/
theorem witness_MailboxKeyCommands :
    (∃ (c : Nat) (s : State) (r : List Byte) (k slot : Nat) (m : DMode) (s1 s4 : State), s.takesCmd c 0x0301 r none
        [(2, k)] ∧ k ≤ 255 ∧ Table.find s.dp.kdoms k = none ∧ s.needAtRest = some (slot, s1) ∧
        s1.draw.2.draw.2.loadAtRest slot s1.draw.2.draw.1 true = some s4) ∧
    (∃ (c : Nat) (s : State) (r : List Byte) (k : Nat) (x : KDom), s.takesCmd c 0x0302 r none [(2, k)] ∧
        Table.find s.dp.kdoms k = some x ∧ ((∀ d : SD, ((if s.owns d = true then s.metaOf d else s.ubl.shadow.get
        d).roots.any fun y => decide (y.2.kdom = k)) = false))) ∧
    (∃ (c : Nat) (s : State) (r : List Byte) (k : Nat) (x : KDom) (m : DMode), s.takesCmd c 0x0303 r none [(2, k)] ∧
        Table.find s.dp.kdoms k = some x) ∧
    (∃ (c : Nat) (s : State) (r : List Byte) (k slot : Nat) (x : KDom) (s1 s3 : State), s.takesCmd c 0x0304 r none
        [(2, k)] ∧ Table.find s.dp.kdoms k = some x ∧ s.needAtRest = some (slot, s1) ∧
        s1.draw.2.loadAtRest slot s1.draw.1 true = some s3) ∧
    (∃ (c : Nat) (s : State) (r : List Byte) (n : Nat), n = keyBytes (leAt r 10 1) (decide (leAt r 11 1 = 1)) ∧
        s.takesCmd c 0x0310 r none [(3, leAt r 8 2)] ∧ s.oldHeld (leAt r 8 2) = false ∧
        s.slotBars (leAt r 8 2) (leAt r 10 1) (leAt r 12 1) = none ∧ leAt r 11 1 ≤ 1 ∧ leAt r 14 2 = n + 28 ∧
        allZero (slice (fit r 108) (16 + n + 28) (92 - (n + 28))) = true) ∧
    (∃ (c : Nat) (s : State) (r : List Byte) (slot usage : Nat) (klen np : Bool), s.takesCmd c 0x0311 r none [(3,
        slot)] ∧ s.slotBars slot usage (b2n np) = none) ∧
    (∃ (c : Nat) (s : State) (r : List Byte) (slot : Nat), s.takesCmd c 0x0312 r none [(3, slot)] ∧ slot ≤ 4095 ∧
        (s.upage (slot / 16)).owner = 1) ∧
    (∃ (c : Nat) (s : State) (r : List Byte) (p o : Nat), s.takesCmd c 0x0313 r none [(4, p)] ∧ p ≤ 255 ∧
        (o = 0 ∨ o = 1 ∨ o = 3) ∧ (s.upage p).owner ≠ 2 ∧ s.pageEmpty p = true ∧
        ((s.cip.streams.any fun x => decide (x.page = p)) = false)) ∧
    (∃ (c : Nat) (s : State) (r : List Byte) (p a n b m : Nat) (i : Bool), s.takesCmd c 0x0314 r none [(4, p)] ∧
        p ≤ 255 ∧ (s.upage p).owner = 1 ∧ ringOk n = true ∧ ringOk m = true) :=
  ⟨by refine ⟨0, (wAsk w0 0x301 []), (zeros 8 ++ []), 3, _, .on, _, _,
              ⟨by decide +kernel, by decide +kernel, fun x hx => by cases hx <;> decide +kernel, by decide +kernel⟩, ?_, ?_,
              wSome (by decide +kernel), wGet (by decide +kernel)⟩ <;> decide +kernel,
   ⟨0, (wAsk (w0.updDp fun p => { p with kdoms := [(0, wKdom)] }) 0x302 ([])), (zeros 8 ++ ([])), 0, wKdom,
    ⟨by decide +kernel, by decide +kernel, fun x hx => by cases hx <;> decide +kernel, by decide +kernel⟩,
    by decide +kernel, fun d => by cases d <;> decide +kernel⟩,
   ⟨0, (wAsk (w0.updDp fun p => { p with kdoms := [(0, wKdom)] }) 0x303 ([])), (zeros 8 ++ ([])), 0, wKdom, .off,
    ⟨by decide +kernel, by decide +kernel, fun x hx => by cases hx <;> decide +kernel, by decide +kernel⟩,
    by decide +kernel⟩,
   ⟨0, (wAsk (w0.updDp fun p => { p with kdoms := [(0, wKdom)] }) 0x304 []), (zeros 8 ++ []), 0, _, wKdom, _, _,
    ⟨by decide +kernel, by decide +kernel, fun x hx => by cases hx <;> decide +kernel, by decide +kernel⟩,
    by decide +kernel, wSome (by decide +kernel), wGet (by decide +kernel)⟩,
   by refine ⟨0,
              (wAsk (w0.setPage 2 { UPage.empty with owner := 1 }) 0x310 (leBytes 2 33 ++ [1, 0, 1, 0] ++ leBytes 2 44 ++ zeros 56)),
              (zeros 8 ++ (leBytes 2 33 ++ [1, 0, 1, 0] ++ leBytes 2 44 ++ zeros 56)), _, rfl,
              ⟨by decide +kernel, by decide +kernel, fun x hx => by cases hx <;> decide +kernel, by decide +kernel⟩, ?_, ?_, ?_,
              ?_, ?_⟩ <;> decide +kernel,
   ⟨0, (wAsk (w0.setPage 2 { UPage.empty with owner := 1 }) 0x311 ([])), (zeros 8 ++ ([])), 33, 1, true, true,
    ⟨by decide +kernel, by decide +kernel, fun x hx => by cases hx <;> decide +kernel, by decide +kernel⟩,
    by decide +kernel⟩,
   by refine ⟨0, (wAsk (w0.setPage 2 { UPage.empty with owner := 1 }) 0x312 ([])), (zeros 8 ++ ([])), 33,
              ⟨by decide +kernel, by decide +kernel, fun x hx => by cases hx <;> decide +kernel, by decide +kernel⟩, ?_, ?_⟩ <;> decide +kernel,
   by refine ⟨0, (wAsk (w0) 0x313 ([])), (zeros 8 ++ ([])), 255, 3,
              ⟨by decide +kernel, by decide +kernel, fun x hx => by cases hx <;> decide +kernel, by decide +kernel⟩, ?_, ?_, ?_,
              ?_, ?_⟩ <;> decide +kernel,
   by refine ⟨0, (wAsk (w0.setPage 2 { UPage.empty with owner := 1 }) 0x314 ([])), (zeros 8 ++ ([])), 2, 4096, 16, 8192, 4096,
              true, ⟨by decide +kernel, by decide +kernel, fun x hx => by cases hx <;> decide +kernel, by decide +kernel⟩, ?_,
              ?_, ?_, ?_⟩ <;> decide +kernel⟩

/-- The hypotheses of MailboxReplicationAndModuleCommands can be met, clause by clause. -/
theorem witness_MailboxReplicationAndModuleCommands :
    (∃ (c : Nat) (s : State) (r : List Byte) (d : SD) (l : List Nat) (i qpn base len id : Nat) (src : Bool) (a :
        Attach) (s1 : State), src = true ∧ slice r 16 8 ≠ fit s.ubl.array 8 ∧
        (s.takesCmd c 0x0401 r (some d) ([(7, leAt r 8 1), (3, leAt r 12 2)] ++ l.map fun x => (1, x))) ∧
        leAt r 8 1 ≤ 1 ∧ d = SD.ofBit (leAt r 8 1) ∧ leAt r 9 1 ≤ 1 ∧ leAt r 10 1 ≤ 1 ∧ leAt r 28 4 = 0 ∧
        l = replRoots r ∧ l ≠ [] ∧ l.length ≤ 64 ∧ ((l.any fun x => (Table.find (s.metaOf d).roots x).isNone) = false)
        ∧ l.any (s.attached d) = false ∧ leAt r 12 2 ≤ 4095 ∧ (s.upage (leAt r 12 2 / 16)).owner = 3 ∧
        (s.kslot (leAt r 12 2)).state ≠ 0 ∧ (s.kslot (leAt r 12 2)).state ≠ 3 ∧ (s.kslot (leAt r 12 2)).usage = 1 ∧
        s.replQp qpn = some i ∧ id = s.freeAtt d ∧ (a =
        { source := src, sd := d, roots := l, sync := decide (leAt r 9 1 = 1), degrade := decide (leAt r 10 1 = 1), slot := leAt r 12 2, array := slice r 16 8, qp := i, set := 1, cuts := [], age := 0, mark := (s.fe.stamp.get d).toNat, interval := if leAt r 14 2 = 0 then 15625 else leAt r 14 2 * 1000, backlog := if leAt r 24 2 = 0 then 32 else leAt r 24 2, syncTo := if leAt r 26 2 = 0 then 2000 else leAt r 26 2, shipped := (s.fe.stamp.get d).toNat, durable := (s.fe.stamp.get d).toNat, acked := (0, 0), snaps := [], resync := false, msn := 0, applied := [], gather := [], word := 0, win := if src = true then (0, 0) else (base, len), detached := false })
        ∧ (s1 = ((s.updRdm fun x => { x with atts := Table.put x.atts id a }).delta d (.attach id (some a))).updQp i
        (fun q => { q with att := some id }))) ∧
    (∃ (c : Nat) (s : State) (r : List Byte) (n : Nat) (a : Attach) (s1 : State), s.takesCmd c 0x0402 r (some a.sd)
        [(6, n)] ∧ Table.find s.rdm.atts n = some a ∧ (s1 = (((s.rdm.windows.filter fun x => decide (x.2.isOpen = true
        ∧ x.2.qp = a.qp)).map Prod.fst).foldl State.closeWindow s).qpError a.qp none)) ∧
    (∃ (c : Nat) (s : State) (r : List Byte) (n : Nat) (a : Attach), s.takesCmd c 0x0403 r (some a.sd) [] ∧
        Table.find s.rdm.atts n = some a) ∧
    (∃ (c : Nat) (s : State) (r : List Byte) (qpn i base len rights k : Nat) (s1 : State), s.takesCmd c 0x0410 r none
        [] ∧ s.replQp qpn = some i ∧ s.windowOk base len rights = true ∧ s.openWindow i base len rights = some (k, s1)) ∧
    (∃ (c : Nat) (s : State) (r : List Byte) (k : Nat), s.takesCmd c 0x0411 r none [(5, bitsOf k 23 8)] ∧
        k < 2 ^ 24 ∧ (Table.find s.rdm.windows (bitsOf k 23 8)).isSome = true) ∧
    (∃ (c : Nat) (s : State) (r : List Byte) (p : Nat), s.takesCmd c 0x0501 r none [] ∧ ((p < 48 ∨ p = 0xFF))) ∧
    (∃ (c : Nat) (s : State) (r : List Byte), s.takesCmd c 0x0502 r none []) ∧
    (∃ (c : Nat) (s : State) (r : List Byte) (p : Nat), s.takesCmd c 0x0503 r none [(8, p)] ∧ p < 48 ∧
        (s.port p).state = 2) ∧
    (∃ (c : Nat) (s : State) (r : List Byte) (p : Nat), s.takesCmd c 0x0504 r none [(8, p)] ∧ p < 48 ∧
        (s.port p).state ≠ 2 ∧ (s.port p).state ≠ 3) ∧
    (∃ (c : Nat) (s : State) (r : List Byte) (d : SD) (cur addr len : Nat) (l : List (Nat × LossEnt)), s.takesCmd c
        0x0505 r (some d) [] ∧ (l = (s.metaOf d).loss.filter (fun x => decide (cur ≤ x.1)))) ∧
    (∃ (c : Nat) (s : State) (r : List Byte) (d : SD) (pq : Bool) (k g : Nat), s.takesCmd c 0x0506 r (some d) [(7,
        d.num)] ∧ s.shapeOk k = true ∧ s.recoating d = false ∧ g = ((s.metaOf d).shape.gen + 1) % 256) ∧
    (∃ (c : Nat) (s : State) (r : List Byte) (d : SD) (l : List Nat) (i qpn base len id k : Nat) (src : Bool) (a :
        Attach) (s1 s2 : State), src = false ∧ slice r 16 8 = fit s.ubl.array 8 ∧
        ((l.any fun x => match s.rootNs d x with | some (_, y) => !y.attached.isEmpty | none => true) = false) ∧
        (s.takesCmd c 0x0401 r (some d) ([(7, leAt r 8 1), (3, leAt r 12 2)] ++ l.map fun x => (1, x))) ∧
        leAt r 8 1 ≤ 1 ∧ d = SD.ofBit (leAt r 8 1) ∧ leAt r 9 1 ≤ 1 ∧ leAt r 10 1 ≤ 1 ∧ leAt r 28 4 = 0 ∧
        l = replRoots r ∧ l ≠ [] ∧ l.length ≤ 64 ∧ ((l.any fun x => (Table.find (s.metaOf d).roots x).isNone) = false)
        ∧ l.any (s.attached d) = false ∧ leAt r 12 2 ≤ 4095 ∧ (s.upage (leAt r 12 2 / 16)).owner = 3 ∧
        (s.kslot (leAt r 12 2)).state ≠ 0 ∧ (s.kslot (leAt r 12 2)).state ≠ 3 ∧ (s.kslot (leAt r 12 2)).usage = 1 ∧
        s.replQp qpn = some i ∧ id = s.freeAtt d ∧ (a =
        { source := src, sd := d, roots := l, sync := decide (leAt r 9 1 = 1), degrade := decide (leAt r 10 1 = 1), slot := leAt r 12 2, array := slice r 16 8, qp := i, set := 1, cuts := [], age := 0, mark := (s.fe.stamp.get d).toNat, interval := if leAt r 14 2 = 0 then 15625 else leAt r 14 2 * 1000, backlog := if leAt r 24 2 = 0 then 32 else leAt r 24 2, syncTo := if leAt r 26 2 = 0 then 2000 else leAt r 26 2, shipped := (s.fe.stamp.get d).toNat, durable := (s.fe.stamp.get d).toNat, acked := (0, 0), snaps := [], resync := false, msn := 0, applied := [], gather := [], word := 0, win := if src = true then (0, 0) else (base, len), detached := false })
        ∧ (s1 = ((s.updRdm fun x => { x with atts := Table.put x.atts id a }).delta d (.attach id (some a))).updQp i
        (fun q => { q with att := some id })) ∧ s.windowOk base len 15 = true ∧
        s1.openWindow i base len 15 = some (k, s2)) :=
  ⟨by refine ⟨0,
              (wAsk ({ (w0.setMeta .a { Meta.empty with roots := [(4, wRoot)] }).setPage 2 { UPage.empty with owner := 3 } |>.setSlot 33 { KSlot.empty with state := 1, usage := 1, key := zeros 32 } with rdm := { w0.rdm with qps := [(5, wQp)] } }) 0x401 (leBytes 4 (1 * 2 ^ 24) ++ leBytes 2 33 ++ zeros 2 ++ (List.replicate 8 7) ++ zeros 8 ++ leBytes 4 4)),
              (zeros 8 ++ (leBytes 4 (1 * 2 ^ 24) ++ leBytes 2 33 ++ zeros 2 ++ (List.replicate 8 7) ++ zeros 8 ++ leBytes 4 4)),
              .a, _, 5, 65541, 0, 4096, _, _, _, _, rfl, ?_,
              ⟨by decide +kernel, by decide +kernel, fun x hx => by cases hx <;> decide +kernel, by decide +kernel⟩, ?_, ?_, ?_,
              ?_, ?_, rfl, ?_, ?_, ?_, ?_, ?_, ?_, ?_, ?_, ?_, ?_, rfl, rfl, rfl⟩ <;> decide +kernel,
   ⟨0, (wAsk ({ w0 with rdm := { w0.rdm with qps := [(5, wQp)], atts := [(0, wAtt)] } }) 0x402 ([])),
    (zeros 8 ++ ([])), 0, wAtt, _,
    ⟨by decide +kernel, by decide +kernel, fun x hx => by cases hx <;> decide +kernel, by decide +kernel⟩,
    by decide +kernel, rfl⟩,
   ⟨0, (wAsk ({ w0 with rdm := { w0.rdm with qps := [(5, wQp)], atts := [(0, wAtt)] } }) 0x403 ([])),
    (zeros 8 ++ ([])), 0, wAtt,
    ⟨by decide +kernel, by decide +kernel, fun x hx => by cases hx <;> decide +kernel, by decide +kernel⟩,
    by decide +kernel⟩,
   by refine ⟨0, (wAsk ({ w0 with rdm := { w0.rdm with qps := [(5, wQp)], atts := [(0, wAtt)] } }) 0x410 []), (zeros 8 ++ []),
              65541, 5, 4096, 4096, 15, _, _,
              ⟨by decide +kernel, by decide +kernel, fun x hx => by cases hx <;> decide +kernel, by decide +kernel⟩, ?_, ?_,
              wSome (by decide +kernel)⟩ <;> decide +kernel,
   by refine ⟨0,
              (wAsk ({ w0 with rdm := { w0.rdm with qps := [(5, wQp)], windows := [(2, ⟨true, 1, 5, 0, 4096, 15⟩)] } }) 0x411 ([])),
              (zeros 8 ++ ([])), 513,
              ⟨by decide +kernel, by decide +kernel, fun x hx => by cases hx <;> decide +kernel, by decide +kernel⟩, ?_, ?_⟩ <;> decide +kernel,
   ⟨0, (wAsk ({ w0 with med := { w0.med with health := [(3, 8), (4, 9)] } }) 0x501 ([])), (zeros 8 ++ ([])), 3,
    ⟨by decide +kernel, by decide +kernel, fun x hx => by cases hx <;> decide +kernel, by decide +kernel⟩,
    by decide +kernel⟩,
   ⟨0, (wAsk ({ w0 with mlk := { w0.mlk with ports := [(3, { Port.empty with state := 2 })] } }) 0x502 ([])),
    (zeros 8 ++ ([])),
    ⟨by decide +kernel, by decide +kernel, fun x hx => by cases hx <;> decide +kernel, by decide +kernel⟩⟩,
   by refine ⟨0, (wAsk ({ w0 with mlk := { w0.mlk with ports := [(47, { Port.empty with state := 2 })] } }) 0x503 ([])),
              (zeros 8 ++ ([])), 47,
              ⟨by decide +kernel, by decide +kernel, fun x hx => by cases hx <;> decide +kernel, by decide +kernel⟩, ?_, ?_⟩ <;> decide +kernel,
   by refine ⟨0, (wAsk (w0) 0x504 ([])), (zeros 8 ++ ([])), 47,
              ⟨by decide +kernel, by decide +kernel, fun x hx => by cases hx <;> decide +kernel, by decide +kernel⟩, ?_, ?_, ?_⟩ <;> decide +kernel,
   ⟨0, (wAsk (w0) 0x505 ([])), (zeros 8 ++ ([])), .b, 0, 0, 64, _,
    ⟨by decide +kernel, by decide +kernel, fun x hx => by cases hx <;> decide +kernel, by decide +kernel⟩, rfl⟩,
   by refine ⟨0,
              (wAsk ({ w0 with mlk := { w0.mlk with ports := (List.range 10).map fun p => (p, { Port.empty with state := 2 }) } }) 0x506 ([])),
              (zeros 8 ++ ([])), .a, true, 6, _,
              ⟨by decide +kernel, by decide +kernel, fun x hx => by cases hx <;> decide +kernel, by decide +kernel⟩, ?_, ?_, rfl⟩ <;> decide +kernel,
   by refine ⟨0,
              (wAsk ((let w : State := { (w0.setMeta .a { Meta.empty with roots := [(4, wRoot)] }).setPage 2 { UPage.empty with owner := 3 } |>.setSlot 33 { KSlot.empty with state := 1, usage := 1, key := zeros 32 } with rdm := { w0.rdm with qps := [(5, wQp)] } }; { w with ubl := { w.ubl with array := List.replicate 8 7 }, fe := { w.fe with ns := [(7, wNs [])] } })) 0x401 (leBytes 4 (1 * 2 ^ 24) ++ leBytes 2 33 ++ zeros 2 ++ (List.replicate 8 7) ++ zeros 8 ++ leBytes 4 4)),
              (zeros 8 ++ (leBytes 4 (1 * 2 ^ 24) ++ leBytes 2 33 ++ zeros 2 ++ (List.replicate 8 7) ++ zeros 8 ++ leBytes 4 4)),
              .a, _, _, 65541, 0, 4096, _, _, false, _, _, _, ?_, ?_, ?_,
              ⟨by decide +kernel, by decide +kernel, fun x hx => by cases hx <;> decide +kernel, by decide +kernel⟩, ?_, ?_, ?_,
              ?_, ?_, rfl, ?_, ?_, ?_, ?_, ?_, ?_, ?_, ?_, ?_, wGet (by decide +kernel), rfl, rfl, rfl, ?_,
              wSome (by decide +kernel)⟩ <;> decide +kernel⟩

/-- The hypotheses of MailboxUpdateAndTrustCommands can be met, clauses 1, 2, 3, 4, 5, 6, 8, 9, 10. -/
theorem witness_MailboxUpdateAndTrustCommands :
    (∃ (c : Nat) (s : State) (r img : List Byte) (s1 : State), s.takesCmd c 0x0701 r none [(9, 0)] ∧
        img.length = leAt r 24 4 ∧ s.top.head = 0 ∧ s.paired = true ∧ 6 ≤ s.top.phase ∧ s.upd.act = none ∧
        (s.comp (leAt r 8 1)).state ≠ 4 ∧ leAt r 16 8 % 16 = 0 ∧ allZero (slice r 9 7) = true ∧ leAt r 28 4 = 0 ∧
        imgComp img = leAt r 8 1 ∧ img.length = hdrLen + imgLength img ∧
        (s1 = s.updUpd (fun u => { u with push := some ⟨imgComp img, c, imgVersion img, img⟩ }))) ∧
    (∃ (c : Nat) (s : State) (r peer : List Byte), s.takesCmd c 0x0702 r none []) ∧
    (∃ (c : Nat) (s : State) (r : List Byte) (x : Int), s.takesCmd c 0x0703 r none [(9, 0)] ∧
        allZero (slice r 10 6) = true ∧ (leAt r 8 1 = 1 ∨ leAt r 8 1 = 2 ∨ leAt r 8 1 = 3) ∧
        leAt r 9 1 = 1 - s.top.head ∧ s.activateBusy (leAt r 8 1) = false ∧ s.paired = true ∧ 6 ≤ s.top.phase) ∧
    (∃ (c : Nat) (s : State) (r nonce : List Byte) (addr len : Nat) (x : State) (b : List Byte × State), s.takesCmd c
        0x0801 r none [] ∧ s.dig.alarmed = false ∧ nonce.length ≤ 64 ∧ 3104 + 80 * s.dig.log.length ≤ len ∧
        (x = (s.askTrust (fit nonce 64)).updDig (fun g => { g with qseq := g.qseq + 1 })) ∧
        b = x.signBody (x.recordBody true nonce)) ∧
    (∃ (c : Nat) (s : State) (r : List Byte) (addr len : Nat), s.takesCmd c 0x0802 r none [] ∧
        s.dig.alarmed = false ∧ s.dig.recordSigned = true ∧ s.dig.record.length ≤ len) ∧
    (∃ (c : Nat) (s : State) (r : List Byte) (addr len : Nat), s.takesCmd c 0x0803 r none [] ∧ 6416 ≤ len) ∧
    (∃ (c : Nat) (s : State) (r : List Byte) (x : Int) (p : Nat) (ps : List Nat), s.takesCmd c 0x0703 r none [(9, 0)]
        ∧ allZero (slice r 10 6) = true ∧ leAt r 8 1 = 0x10 ∧ s.activateBusy 0x10 = false ∧ s.paired = true ∧
        6 ≤ s.top.phase ∧ ((if leAt r 9 1 = 0xFF then s.stagedPorts else if leAt r 9 1 ∈ s.stagedPorts then [leAt r 9
        1] else []) = p :: ps)) ∧
    (∃ (s s1 : State) (x : Int), ¬ (s.ubl.holdsPeer = true ∧ s.ubl.breakIn = true) ∧
        (s1 = (s.upd.mods.map Prod.fst).foldl (fun u p => u.settleModule p x) s)) ∧
    (∃ (s : State) (x : Int), s.ubl.holdsPeer = true ∧ s.ubl.breakIn = true) :=
  ⟨by refine ⟨0,
              (wAsk ({ w0 with ubl := { w0.ubl with peerServing := true, unmirrored := false } }) 0x701 ([2] ++ zeros 15 ++ leBytes 4 1536)),
              (zeros 8 ++ ([2] ++ zeros 15 ++ leBytes 4 1536)), ([0, 0, 0, 0, 0, 2] ++ zeros 1530), _,
              ⟨by decide +kernel, by decide +kernel, fun x hx => by cases hx <;> decide +kernel, by decide +kernel⟩, ?_, ?_, ?_,
              ?_, ?_, ?_, ?_, ?_, ?_, ?_, ?_, rfl⟩ <;> decide +kernel,
   ⟨0, (wAsk (w0) 0x702 ([])), (zeros 8 ++ ([])), (zeros 48),
    ⟨by decide +kernel, by decide +kernel, fun x hx => by cases hx <;> decide +kernel, by decide +kernel⟩⟩,
   by refine ⟨0, (wAsk ({ w0 with ubl := { w0.ubl with pairOk := true, peerServing := true } }) 0x703 ([2, 1])),
              (zeros 8 ++ ([2, 1])), 0,
              ⟨by decide +kernel, by decide +kernel, fun x hx => by cases hx <;> decide +kernel, by decide +kernel⟩, ?_, ?_, ?_,
              ?_, ?_, ?_⟩ <;> decide +kernel,
   by refine ⟨0, (wAsk (w0) 0x801 ([])), (zeros 8 ++ ([])), (zeros 64), 0, 3104, _, _,
              ⟨by decide +kernel, by decide +kernel, fun x hx => by cases hx <;> decide +kernel, by decide +kernel⟩, ?_, ?_, ?_,
              rfl, rfl⟩ <;> decide +kernel,
   by refine ⟨0, (wAsk (w0.updDig fun g => { g with recordSigned := true }) 0x802 ([])), (zeros 8 ++ ([])), 0, 0,
              ⟨by decide +kernel, by decide +kernel, fun x hx => by cases hx <;> decide +kernel, by decide +kernel⟩, ?_, ?_, ?_⟩ <;> decide +kernel,
   ⟨0, (wAsk (w0) 0x803 ([])), (zeros 8 ++ ([])), 0, 6416,
    ⟨by decide +kernel, by decide +kernel, fun x hx => by cases hx <;> decide +kernel, by decide +kernel⟩,
    by decide +kernel⟩,
   by refine ⟨0,
              (wAsk ({ w0 with ubl := { w0.ubl with peerServing := true, unmirrored := false }, upd := { w0.upd with manifest := [⟨0x10, 7, 1⟩], mods := [(2, ⟨1, 7, []⟩)] }, mlk := { w0.mlk with ports := [(2, { Port.empty with state := 2, rate := 6 })], mods := [(2, { wMod with desc := zeros 8 ++ leBytes 4 1 ++ zeros 4084 })] } }) 0x703 ([0x10, 2] ++ zeros 6)),
              (zeros 8 ++ ([0x10, 2] ++ zeros 6)), 0, 2, [],
              ⟨by decide +kernel, by decide +kernel, fun x hx => by cases hx <;> decide +kernel, by decide +kernel⟩, ?_, ?_, ?_,
              ?_, ?_, ?_⟩ <;> decide +kernel,
   ⟨w0, _, 0, by decide +kernel, rfl⟩,
   by refine ⟨{ w0 with ubl := { w0.ubl with holdsPeer := true, breakIn := true } }, 0, ?_, ?_⟩ <;> decide +kernel⟩

/-- The hypotheses of UpdateSteps can be met, clause by clause. -/
theorem witness_UpdateSteps :
    (∃ (s : State) (a : Act) (x : ModUpd), s.upd.act = some a ∧ a.comp = 0x10 ∧ a.step = 1 ∧
        Table.find s.upd.mods a.target = some x ∧ x.state = 4) ∧
    (∃ (s : State), s.actAt 2 = true) ∧
    (∃ (s : State), s.actAt 3 = true) ∧
    (∃ (s s1 s2 : State) (f : Bool), s.upd.core0 = true ∧ ((s.ubl.up = false ∨ f = true)) ∧
        s.ubl.versionRefused = false ∧ 4 ≤ s.top.phase ∧ ((s.mlk.ports.all fun x => decide (x.2.state ≠ 1)) = true) ∧
        s.dig.recordSigned = true ∧ s1 = (s.confirm 1).confirm 2 ∧
        (s2 = (if s1.upd.doorbell = true then s1.confirm 3 else s1))) ∧
    (∃ (s : State) (c : Nat), (s.comp c).state = 4) ∧
    (∃ (s s1 s2 s3 s4 s6 : State) (rom : List Byte) (cfg : Nat) (ok : Bool) (n : Nat) (bad bf : List Nat),
        s.top.phase = 0 ∧ s.upd.core0 = false ∧ s.top.failed = false ∧ s.pwr.pllHeld = false ∧
        (s1 = ((s.updDig fun g =>
        { g with ctxs := List.replicate 4 (DCtx.clear false), m := List.replicate 24 (zeros 64), counts := List.replicate 24 0, log := [] }).primerExtend
        0 rom).updDig (fun g => g.advance ok)) ∧ s1.driveComp n 1 = (s2, true) ∧ s2.driveComp n 2 = (s3, true) ∧
        s3.bringUp bad bf 1 = some s4 ∧ (s4.primerExtend 1 (s4.activePayload 1)).bringUp bad bf 2 = some s6) ∧
    (∃ (s s1 s3 s4 : State) (n : Nat) (bad bf : List Nat) (cfg : Nat) (p : List Byte), p = s.activePayload 2 ∧
        s1 = ((s.primerExtend 2 (p.take (p.length - cfg))).primerExtend 3 (p.drop (p.length - cfg))).runTerzan ∧
        ((s1.updUpd fun u => { u with core0 := true }).driveComp n 3 = (s3, true)) ∧ s3.bringUp bad bf 3 = some s4) ∧
    (∃ (s : State) (c : Nat), (s.comp c).state = 4) :=
  ⟨by refine ⟨{ w0 with upd := { w0.upd with act := some ⟨0x10, 3, 1, [], 0⟩, mods := [(3, ⟨4, 7, []⟩)] } },
              ⟨0x10, 3, 1, [], 0⟩, ⟨4, 7, []⟩, ?_, ?_, ?_, ?_, ?_⟩ <;> decide +kernel,
   ⟨{ w0 with upd := { w0.upd with act := some ⟨2, 3, 2, [], 0⟩, mods := [(3, ⟨4, 7, []⟩)] } }, by decide +kernel⟩,
   ⟨{ w0 with upd := { w0.upd with act := some ⟨2, 3, 3, [], 0⟩, mods := [(3, ⟨4, 7, []⟩)] } }, by decide +kernel⟩,
   by refine ⟨{ (w0.updComp 1 fun k => { k with state := 4, active := List.replicate 1536 3 }) with ubl := { w0.ubl with up := false }, dig := { w0.dig with recordSigned := true } },
              _, _, false, ?_, ?_, ?_, ?_, ?_, ?_, rfl, rfl⟩ <;> decide +kernel,
   ⟨(w0.updComp 1 fun k => { k with state := 4 }), 1, by decide +kernel⟩,
   by refine ⟨State.reset, _, _, _, _, _, [1], 0, true, 0, [], [], ?_, ?_, ?_, ?_, rfl, wFst (by decide +kernel),
              wFst (by decide +kernel), wGet (by decide +kernel), wGet (by decide +kernel)⟩ <;> decide +kernel,
   ⟨w0, _, _, _, 0, [], [], 0, _, rfl, rfl, wFst (by decide +kernel), wGet (by decide +kernel)⟩,
   ⟨(w0.updComp 1 fun k => { k with state := 4 }), 1, by decide +kernel⟩⟩

/-- The hypotheses of RegisterAccesses can be met, clause by clause. -/
theorem witness_RegisterAccesses :
    (∃ (r : Requester) (b : Blk) (s : State) (w : Word), s.powered .top = true ∧ s.powered b = true ∧
        s.regExists r b 0xC = true ∧ b ≠ .mbx ∧ w.toNat < 3) ∧
    (∃ (r : Requester) (b : Blk) (s : State) (w : Word), s.powered .top = true ∧ s.powered b = true ∧
        s.regExists r b 0x24 = true ∧ ((s.blk.get b).seq - BitVec.ofNat 8 w.toNat).toNat < 128) ∧
    (∃ (r : Requester) (b : Blk) (s : State) (w : Word), s.powered .top = true ∧ s.powered b = true ∧
        s.regExists r b 0x30 = true) ∧
    (∃ (r : Requester) (b : Blk) (s : State) (w : Word), s.powered .top = true ∧ s.powered b = true ∧
        s.indRead b ((s.blk.get b).indAddr.get r) = some w) ∧
    (∃ (r : Requester) (b : Blk) (s : State), s.powered .top = true ∧ s.powered b = true ∧
        s.indRead b ((s.blk.get b).indAddr.get r) = none) ∧
    (∃ (r : Requester) (b : Blk) (s : State) (l : Bool) (w : Word) (s1 : State), s.powered .top = true ∧
        s.powered b = true ∧ s.regExists r b 0x34 = true ∧ s.indWrite l b ((s.blk.get b).indAddr.get r) w = some s1) ∧
    (∃ (r : Requester) (s : State), s.powered .top = true) ∧
    (∃ (r : Requester) (s : State), s.powered .top = true) ∧
    (∃ (r : Requester) (s : State) (w : Word), s.powered .top = true ∧ bitOf w.toNat 0 = true) ∧
    (∃ (r : Requester) (b : Blk) (s : State) (l : Bool) (w : Word), s.powered .top = true ∧ s.powered b = true ∧
        s.regExists r b 0x34 = true ∧ s.indWrite l b ((s.blk.get b).indAddr.get r) w = none) :=
  ⟨by refine ⟨.cluster, .map, w0, 2, ?_, ?_, ?_, ?_, ?_⟩ <;> decide +kernel,
   by refine ⟨.cluster, .map, (((w0.raise .map 1).raise .map 2).raise .map 3), 3, ?_, ?_, ?_, ?_⟩ <;> decide +kernel,
   by refine ⟨.cluster, .map, w0, 0xFFFFFFFF, ?_, ?_, ?_⟩ <;> decide +kernel,
   by refine ⟨.head, .scr, w0, _, ?_, ?_, wGet (by decide +kernel)⟩ <;> decide +kernel,
   by refine ⟨.head, .map, (w0.updBlk .map fun k => { k with indAddr := ⟨0xFFFFFFFC, 0xFFFFFFFC⟩ }), ?_, ?_, ?_⟩ <;> decide +kernel,
   by refine ⟨.head, .scr, w0, false, 5, _, ?_, ?_, ?_, wGet (by decide +kernel)⟩ <;> decide +kernel,
   ⟨.head, w0, by decide +kernel⟩,
   ⟨.head, w0, by decide +kernel⟩,
   by refine ⟨.head, (w0.violation 0 true 5), 1, ?_, ?_⟩ <;> decide +kernel,
   by refine ⟨.head, .scr, (w0.updBlk .scr fun k => { k with indAddr := ⟨0xFFFFFFFC, 0xFFFFFFFC⟩ }), false, 0, ?_, ?_, ?_, ?_⟩ <;> decide +kernel⟩

/-- The hypotheses of EnableAndClaims can be met, clause by clause. -/
theorem witness_EnableAndClaims :
    (∃ (r : Requester) (b : Blk) (s : State), s.powered .top = true ∧ s.powered b = true ∧ s.regExists r b 4 = true ∧
        b.fixed = false ∧ (s.blk.get b).style.get r = 0 ∧ (s.blk.get b).checking = false ∧
        (s.blk.get b).draining = false ∧ (s.blk.get b).enabled = false) ∧
    (∃ (b : Blk) (s s1 : State), (s.blk.get b).checking = true ∧
        ((b.requires.any fun x => !((s.blk.get x).enabled && (s.blk.get x).enable)) = false) ∧
        s.claimBlock b = (0, s1)) ∧
    (∃ (r : Requester) (b : Blk) (s s1 : State), s.powered .top = true ∧ s.powered b = true ∧
        s.regExists r b 4 = true ∧ b.fixed = false ∧ (s.blk.get b).style.get r = 0 ∧ (s.blk.get b).checking = false ∧
        (s.blk.get b).draining = false ∧ (s.blk.get b).enabled = true ∧ ((∀ x : Blk, b ∈ x.requires →
        (s.blk.get x).enabled = false)) ∧ ((b = .map → s.map.dirtyCount = 0)) ∧
        (s1 = s.updBlk b (fun k => { k with enable := false, draining := true, refused := false, reason := 0 }))) ∧
    (∃ (b : Blk) (s : State), (s.blk.get b).draining = true ∧ s.holdsNone b = true) ∧
    (∃ (r : Requester) (n : Nat) (s : State) (w : Word), s.powered .top = true ∧ n < 8 ∧ (w = 0x8000 ∨ w = 0xC000) ∧
        (s.blk.get .top).style.get r = 0 ∧ (s.claimHolder (1 + n) = 0 ∨ s.claimHolder (1 + n) = r.code)) ∧
    (∃ (r : Requester) (n : Nat) (s : State) (w : Word), s.powered .top = true ∧ n < 8 ∧ (w = 0 ∨ w = 0x4000) ∧
        (s.blk.get .top).style.get r = 0) ∧
    (∃ (n : Nat) (s : State) (x : Timer), s.powered .top = true ∧ s.top.timers[n]? = some x ∧ x.en = true ∧
        x.count ≠ 0) ∧
    (∃ (r : Requester) (g f : Nat) (s : State), s.powered .top = true ∧ g < 4 ∧ 0 < f ∧ f ≤ 2 ∧
        (s.blk.get .top).style.get r = 0 ∧ (s.claimHolder (9 + g) = 0 ∨ s.claimHolder (9 + g) = 0x2F + f)) ∧
    (∃ (r : Requester) (s : State) (v : Nat), s.powered .top = true ∧ v < 16 ∧ (s.blk.get .top).style.get r = 0 ∧
        s.claimHolder 13 = 0) ∧
    (∃ (r : Requester) (s : State), s.powered .top = true) ∧
    (∃ (r : Requester) (l : Bool) (a : Nat) (s : State) (w : Word), s.powered .top = true ∧ a % 4 = 0) ∧
    (∃ (r : Requester) (g : Nat) (s : State), s.powered .top = true ∧ g < 4 ∧ (s.blk.get .top).style.get r = 0) ∧
    (∃ (l : Bool) (a : Nat) (s : State) (w : Word), s.powered .top = true ∧ a % 4 = 0 ∧ a < 0x100000) ∧
    (∃ (r : Requester) (l : Bool) (a : Nat) (s : State) (w : Word), s.powered .top = true) ∧
    (∃ (r : Requester) (s : State) (w : Word), s.powered .top = true ∧ (s.blk.get .top).style.get r = 0 ∧
        w.toNat < 0x8000) ∧
    (∃ (s : State) (k who : Nat), k < s.top.claims.length) :=
  ⟨by refine ⟨.head, .mlk, (w0.updBlk .mlk fun k => { k with enable := false, enabled := false }), ?_, ?_, ?_, ?_, ?_, ?_, ?_,
              ?_⟩ <;> decide +kernel,
   by refine ⟨.str,
              (w0.updBlk .str fun k => { k with enable := false, enabled := false }).updBlk .str fun k => { k with checking := true },
              _, ?_, ?_, wRest (by decide +kernel)⟩ <;> decide +kernel,
   by refine ⟨.head, .scr, w0, _, ?_, ?_, ?_, ?_, ?_, ?_, ?_, ?_, fun x => by cases x <;> decide +kernel, ?_, rfl⟩ <;> decide +kernel,
   by refine ⟨.cip, (w0.updBlk .cip fun k => { k with draining := true }), ?_, ?_⟩ <;> decide +kernel,
   by refine ⟨.head, 7, w0, 0xC000, ?_, ?_, ?_, ?_, ?_⟩ <;> decide +kernel,
   by refine ⟨.head, 7, ((w0.claim 8 2).2), 0, ?_, ?_, ?_, ?_⟩ <;> decide +kernel,
   by refine ⟨7, { w0 with top := { w0.top with timers := List.replicate 8 ⟨true, true, 7, 0, 3⟩ } }, ⟨true, true, 7, 0, 3⟩, ?_,
              ?_, ?_, ?_⟩ <;> decide +kernel,
   by refine ⟨.head, 3, 2, w0, ?_, ?_, ?_, ?_, ?_, ?_⟩ <;> decide +kernel,
   by refine ⟨.head, w0, 15, ?_, ?_, ?_, ?_⟩ <;> decide +kernel,
   ⟨.head, w0, by decide +kernel⟩,
   by refine ⟨.head, false, 0, w0, 0x7FFF, ?_, ?_⟩ <;> decide +kernel,
   by refine ⟨.head, 0, w0, ?_, ?_, ?_⟩ <;> decide +kernel,
   by refine ⟨false, 0, w0, 0, ?_, ?_, ?_⟩ <;> decide +kernel,
   ⟨.head, false, 0, w0, 0, by decide +kernel⟩,
   by refine ⟨.head, w0, 0, ?_, ?_, ?_⟩ <;> decide +kernel,
   ⟨w0, 0, 0, by decide +kernel⟩⟩

/-- The hypotheses of SnagLogCommands can be met, clause by clause. -/
theorem witness_SnagLogCommands :
    (∃ (s s1 : State) (x : Snag) (xs : List Snag), s.evr.inq = x :: xs ∧ s.evr.flushing = false ∧
        (s1 = (s.updEvr fun e => { e with inq := xs }).enterSnag x)) ∧
    (∃ (s : State) (x : Snag) (xs : List Snag), s.evr.inq = x :: xs ∧ s.evr.flushing = true) ∧
    (∃ (r : Requester) (s : State), s.evr.flushing = false) ∧
    (∃ (r : Requester) (s : State), s.evr.flushing = false ∧ s.works .evr = true ∧ s.flushPorts ≠ []) ∧
    (∃ (s : State) (l : List Nat), s.evr.flushing = true ∧ s.evr.issued = false ∧
        (l = (if s.flushRoom = true then s.flushPorts.filter fun p => s.slotsErased p s.flushPlace else []))) ∧
    (∃ (s : State), s.evr.flushing = true ∧ s.evr.issued = true ∧ s.vaultBusy .program = false) ∧
    (∃ (s : State) (g : Nat), s.evr.flushing = false ∧ s.vaultBusy .erase = false ∧ s.evr.erasing = false ∧
        ((s.evrSegs = 1 ∧ 1024 ≤ s.evr.used ∧ g = 0) ∨ (s.evrSegs ≠ 1 ∧ g = (s.evr.used / 1024 + 1) % s.evrSegs ∧
        (s.presentPorts.any fun p => decide (p % 2 = s.top.head % 2 ∧
        (s.mod? p).any (fun m => m.holds g) = true)) = true))) ∧
    (∃ (r : Requester) (s : State), s.evr.flushing = false ∧ s.works .evr = true ∧ s.flushPorts ≠ []) ∧
    (∃ (s : State), s.evr.flushing = false ∧ s.vaultBusy .erase = false ∧ s.evr.erasing = true) ∧
    (∃ (s : State) (x : Snag), s.evr.log.length < 8191 ∧ ((∀ y, s.evr.log.getLast? = some y → x.repeats y = false))) ∧
    (∃ (s : State) (x y : Snag), s.evr.log.getLast? = some y ∧ x.repeats y = true) ∧
    (∃ (s : State), s.evr.issued = true ∧ s.evr.heldClear = false) :=
  ⟨by refine ⟨{ w0 with evr := { w0.evr with inq := [⟨0, 5, 6, 16, 0x1008, 0, 0, none, 255, []⟩] } }, _,
              ⟨0, 5, 6, 16, 0x1008, 0, 0, none, 255, []⟩, [], ?_, ?_, rfl⟩ <;> decide +kernel,
   by refine ⟨{ w0 with evr := { w0.evr with flushing := true, inq := [⟨0, 5, 6, 16, 0x1008, 0, 0, none, 255, []⟩] } },
              ⟨0, 5, 6, 16, 0x1008, 0, 0, none, 255, []⟩, [], ?_, ?_⟩ <;> decide +kernel,
   ⟨.head, { w0 with evr := { w0.evr with log := [⟨4, 5, 6, 16, 0x1008, 0, 0, none, 255, []⟩] } }, by decide +kernel⟩,
   by refine ⟨.head,
              { w0 with mlk := { w0.mlk with ports := [(2, { Port.empty with state := 2 })], mods := [(2, { wMod with slots := [] })] }, evr := { w0.evr with flushNum := w0.evr.flushNum } },
              ?_, ?_, ?_⟩ <;> decide +kernel,
   by refine ⟨{ w0 with mlk := { w0.mlk with ports := [(2, { Port.empty with state := 2 })], mods := [(2, { wMod with slots := [] })] }, evr := { w0.evr with flushNum := w0.evr.flushNum, flushing := true, image := zeros 128 } },
              _, ?_, ?_, rfl⟩ <;> decide +kernel,
   by refine ⟨{ w0 with evr := { w0.evr with flushing := true, issued := true }, mlk := { w0.mlk with vaultRes := List.replicate 4 (47, .ok) } },
              ?_, ?_, ?_⟩ <;> decide +kernel,
   by refine ⟨{ w0 with mlk := { w0.mlk with ports := [(2, { Port.empty with state := 2 })], mods := [(2, { wMod with slots := [(slotKey 0 5, .torn)] })] }, evr := { w0.evr with flushNum := w0.evr.flushNum, used := 1024 } },
              0, ?_, ?_, ?_, ?_⟩ <;> decide +kernel,
   by refine ⟨.head,
              { w0 with mlk := { w0.mlk with ports := [(2, { Port.empty with state := 2 })], mods := [(2, { wMod with slots := [] })] }, evr := { w0.evr with flushNum := w0.evr.flushNum } },
              ?_, ?_, ?_⟩ <;> decide +kernel,
   by refine ⟨{ w0 with evr := { w0.evr with erasing := true } }, ?_, ?_, ?_⟩ <;> decide +kernel,
   by refine ⟨w0, ⟨0, 5, 6, 16, 0x1008, 0, 0, none, 255, []⟩, ?_, ?_⟩ <;> decide +kernel,
   by refine ⟨{ w0 with evr := { w0.evr with log := [⟨4, 5, 6, 16, 0x1008, 0, 0, none, 255, []⟩] } },
              ⟨0, 5, 6, 16, 0x1008, 0, 0, none, 255, []⟩, ⟨4, 5, 6, 16, 0x1008, 0, 0, none, 255, []⟩, ?_, ?_⟩ <;> decide +kernel,
   by refine ⟨{ w0 with evr := { w0.evr with issued := true } }, ?_, ?_⟩ <;> decide +kernel⟩

/-- The hypotheses of CapsulesAndAcceptance can be met, clause by clause. -/
theorem witness_CapsulesAndAcceptance :
    (∃ (s : State) (ok : Bool) (psn : Nat) (c : Capsule) (q : Qp) (i : Nat), (i =
        (match s.fe.queue c.q with | some x => x.qp | none => c.q.qid)) ∧ s.qp? i = some q ∧ ok = true ∧
        s.works .rdm = true ∧ s.powered .rdm = true ∧ s.ethPort q.port = true) ∧
    (∃ (s : State) (d : SD) (n : Nat) (b : List Byte) (x : Queue), (s.fetchQueue d n).bind s.fe.queue = some x ∧
        x.err = false ∧ s.works .rdm = true ∧ s.powered .rdm = true) ∧
    (∃ (s : State) (q : QId) (w : Waiting) (n : Namespace) (s1 : State), s.fe.frontWait q = some w ∧
        w.cap.origin = none ∧ s.feOpen = true ∧ s.comesFirst w = false ∧ s.fe.fenced q = false ∧ q.qid ≠ 0 ∧
        q.cntlid ≠ 0xFFFF ∧ s.admitStatus w.cap = none ∧ w.cap.op ≠ 0x84 ∧ w.cap.nsid ≠ 0xFFFFFFFF ∧
        s.attachedNs w.cap = some n ∧ s.fe.gap.get n.sd = false ∧ s.owns n.sd = true ∧ s.dataReady w = true ∧
        s.holdOf w.cap n = .go ∧ (s.takeWait w).acceptOwned w.cap n w.data = some s1) ∧
    (∃ (s : State) (i : Nat) (c : Capsule) (x : Queue) (h : Option HostCtl), s.fe.front ⟨0xFFFF, i⟩ = some c ∧
        c.op = 0x7F ∧ c.fctype = 1 ∧ s.works .fe = true ∧ s.powered .fe = true ∧
        ((s.updFe fun f => f.dropFront ⟨0xFFFF, i⟩).connect i c = .inr (x, h))) ∧
    (∃ (s : State) (q : QId) (c : Capsule), s.fe.front q = some c ∧ c.op = 0x7F ∧ c.fctype = 8 ∧ s.works .fe = true ∧
        s.powered .fe = true ∧ q.qid ≠ 0) ∧
    (∃ (s s2 : State) (k : QpKind) (p m : Nat) (l : List Nat) (i g : Nat), s.works .rdm = true ∧
        s.powered .rdm = true ∧ ((if k = .nvme then s.ctxCount true < 65024 else s.ctxCount false < 512)) ∧
        i = Table.free s.rdm.qps s.rdm.qps.length 0 ∧ g = nextGen (Table.getD s.rdm.gens i 0) ∧
        (s2 = s.makeRoom.updRdm (fun r =>
        { r with qps := Table.put r.qps i { Qp.new g k p m (s.portRate p) (if k = .scrim then ((l.take 8).zipIdx.map fun x => Sys2Proof.Machine.Path.mk x.2 x.1 true (s.portRate x.1)) else []) with used := r.uses }, uses := r.uses + 1, gens := Table.put r.gens i g, portUp := Table.put r.portUp p true }))) ∧
    (∃ (s : State) (q : QId) (w : Waiting) (st : Status), s.fe.frontWait q = some w ∧ w.cap.origin = none ∧
        s.feOpen = true ∧ s.comesFirst w = false ∧ s.fe.fenced q = false ∧ q.qid ≠ 0 ∧ q.cntlid ≠ 0xFFFF ∧
        s.admitStatus w.cap = some st) ∧
    (∃ (s : State) (q : QId) (w : Waiting), s.fe.frontWait q = some w ∧ w.cap.origin = none ∧ s.feOpen = true ∧
        s.comesFirst w = false ∧ s.fe.fenced q = false ∧ q.qid ≠ 0 ∧ q.cntlid ≠ 0xFFFF ∧ s.admitStatus w.cap = none ∧
        w.cap.op ≠ 0x84 ∧ w.cap.nsid = 0xFFFFFFFF ∧ s.spanOpen (s.spans w.cap.q.cntlid) = true) ∧
    (∃ (s : State) (q : QId) (w : Waiting) (n : Namespace), s.fe.frontWait q = some w ∧ w.cap.origin = none ∧
        s.feOpen = true ∧ s.comesFirst w = false ∧ s.fe.fenced q = false ∧ q.qid ≠ 0 ∧ q.cntlid ≠ 0xFFFF ∧
        s.admitStatus w.cap = none ∧ w.cap.op ≠ 0x84 ∧ w.cap.nsid ≠ 0xFFFFFFFF ∧ s.attachedNs w.cap = some n ∧
        s.fe.gap.get n.sd = false ∧ s.owns n.sd = false ∧ s.ubl.up = true) ∧
    (∃ (s : State) (q : QId) (w : Waiting) (n : Namespace), s.fe.frontWait q = some w ∧ w.cap.origin = none ∧
        s.feOpen = true ∧ s.comesFirst w = false ∧ s.fe.fenced q = false ∧ q.qid ≠ 0 ∧ q.cntlid ≠ 0xFFFF ∧
        s.admitStatus w.cap = none ∧ w.cap.op ≠ 0x84 ∧ w.cap.nsid ≠ 0xFFFFFFFF ∧ s.attachedNs w.cap = some n ∧
        s.fe.gap.get n.sd = false ∧ s.owns n.sd = true ∧ s.dataReady w = false) ∧
    (∃ (s : State) (q : QId) (w : Waiting), s.fe.frontWait q = some w ∧ w.cap.origin.isSome = true ∧
        s.feOpen = true ∧ s.comesFirst w = false) ∧
    (∃ (s : State) (i : Nat) (c : Capsule) (st : Status), s.fe.front ⟨0xFFFF, i⟩ = some c ∧ c.op = 0x7F ∧
        c.fctype = 1 ∧ s.works .fe = true ∧ s.powered .fe = true ∧
        ((s.updFe fun f => f.dropFront ⟨0xFFFF, i⟩).connect i c = .inl st)) ∧
    (∃ (s s2 : State) (q : QId) (c : Capsule), s.fe.front q = some c ∧ c.op = 0x7F ∧ c.fctype = 8 ∧
        s.works .fe = true ∧ s.powered .fe = true ∧ q.qid = 0 ∧
        s2 = ((s.takeAdmin q).answer c stOk 0 []).endController q.cntlid) ∧
    (∃ (s : State) (k : QpKind) (p m : Nat) (l : List Nat), s.works .rdm = true ∧ s.powered .rdm = true ∧
        ((if k = .nvme then 65024 ≤ s.ctxCount true else 512 ≤ s.ctxCount false))) :=
  ⟨by refine ⟨{ w0 with fe := { w0.fe with hosts := [(1, wHost)], queues := [⟨⟨1, 0⟩, 32, 0, 0, 5, false⟩, ⟨⟨1, 1⟩, 32, 0, 0, 6, false⟩], ns := [(7, (wNs [1]))], waiting := [], cmds := [] }, rdm := { w0.rdm with qps := [(5, wQpN), (6, wQpN)] } },
              _, 0, (wCaps ⟨1, 1⟩ 2 0 7 0 0 0 ([])), wQpN, _, rfl, ?_, rfl, ?_, ?_, ?_⟩ <;> decide +kernel,
   by refine ⟨{ w0 with fe := { w0.fe with hosts := [(1, wHost)], queues := [⟨⟨1, 0⟩, 32, 0, 0, 5, false⟩, ⟨⟨1, 1⟩, 32, 0, 0, 6, false⟩], ns := [(7, (wNs [1]))], waiting := [], cmds := [{ Cmd.new .a 3 (wCaps ⟨1, 1⟩ 2 0 7 0 0 0 ([])) with started := true }] }, rdm := { w0.rdm with qps := [(5, wQpN), (6, wQpN)] } },
              .a, 3, [1], ⟨⟨1, 1⟩, 32, 0, 0, 6, false⟩, ?_, ?_, ?_, ?_⟩ <;> decide +kernel,
   by refine ⟨{ w0.setMeta .a { Meta.empty with roots := [(4, wRoot)] } with fe := { w0.fe with hosts := [(1, wHost)], queues := [⟨⟨1, 0⟩, 32, 0, 0, 5, false⟩, ⟨⟨1, 1⟩, 32, 0, 0, 6, false⟩], ns := [(7, (wNs [1]))], waiting := [⟨(wCaps ⟨1, 1⟩ 0 0 7 0 0 0 ([])), 0, [], false⟩], cmds := [] }, rdm := { w0.rdm with qps := [(5, wQpN), (6, wQpN)] } },
              ⟨1, 1⟩, (⟨(wCaps ⟨1, 1⟩ 0 0 7 0 0 0 ([])), 0, [], false⟩ : Waiting), (wNs [1]), _, ?_, ?_, ?_, ?_, ?_, ?_, ?_, ?_,
              ?_, ?_, ?_, ?_, ?_, ?_, ?_, wGet (by decide +kernel)⟩ <;> decide +kernel,
   by refine ⟨{ w0 with fe := { w0.fe with waiting := [⟨(⟨⟨0xFFFF, 5⟩, patch (patch (patch (zeros 64) 0 [0x7F]) 4 [1]) 44 (leBytes 2 31), (patch (zeros 1024) 0 (leBytes 16 9 ++ leBytes 2 0xFFFF)), 9, none⟩ : Capsule), 0, [], false⟩] }, rdm := { w0.rdm with qps := [(5, wQpN)] } },
              5,
              (⟨⟨0xFFFF, 5⟩, patch (patch (patch (zeros 64) 0 [0x7F]) 4 [1]) 44 (leBytes 2 31), (patch (zeros 1024) 0 (leBytes 16 9 ++ leBytes 2 0xFFFF)), 9, none⟩ : Capsule),
              ⟨⟨1, 0⟩, 32, 0, 0, 5, false⟩, (HostCtl.new 9 0 false), ?_, ?_, ?_, ?_, ?_, ?_⟩ <;> decide +kernel,
   by refine ⟨{ w0 with fe := { w0.fe with hosts := [(1, wHost)], queues := [⟨⟨1, 0⟩, 32, 0, 0, 5, false⟩, ⟨⟨1, 1⟩, 32, 0, 0, 6, false⟩], ns := [(7, (wNs [1]))], waiting := [⟨(wCaps ⟨1, 1⟩ 0x7F 0 8 0 0 0 ([])), 0, [], false⟩], cmds := [] }, rdm := { w0.rdm with qps := [(5, wQpN), (6, wQpN)] } },
              ⟨1, 1⟩, (wCaps ⟨1, 1⟩ 0x7F 0 8 0 0 0 ([])), ?_, ?_, ?_, ?_, ?_, ?_⟩ <;> decide +kernel,
   by refine ⟨w0, _, .native, 0, 4096, [], _, _, ?_, ?_, ?_, rfl, rfl, rfl⟩ <;> decide +kernel,
   by refine ⟨{ w0.setMeta .a { Meta.empty with roots := [(4, wRoot)] } with fe := { w0.fe with hosts := [(1, wHost)], queues := [⟨⟨1, 0⟩, 32, 0, 0, 5, false⟩, ⟨⟨1, 1⟩, 32, 0, 0, 6, false⟩], ns := [(7, (wNs [1]))], waiting := [⟨(wCaps ⟨1, 1⟩ 2 0 99 0 0 0 ([])), 0, [], false⟩], cmds := [] }, rdm := { w0.rdm with qps := [(5, wQpN), (6, wQpN)] } },
              ⟨1, 1⟩, _, _, wGet (by decide +kernel), ?_, ?_, ?_, ?_, ?_, ?_, wGet (by decide +kernel)⟩ <;> decide +kernel,
   by refine ⟨{ w0.setMeta .a { Meta.empty with roots := [(4, wRoot)] } with fe := { w0.fe with hosts := [(1, wHost)], queues := [⟨⟨1, 0⟩, 32, 0, 0, 5, false⟩, ⟨⟨1, 1⟩, 32, 0, 0, 6, false⟩], ns := [(7, (wNs [1]))], waiting := [⟨(wCaps ⟨1, 1⟩ 0 0 0xFFFFFFFF 0 0 0 ([])), 0, [], false⟩], cmds := [] }, rdm := { w0.rdm with qps := [(5, wQpN), (6, wQpN)] } },
              ⟨1, 1⟩, _, wGet (by decide +kernel), ?_, ?_, ?_, ?_, ?_, ?_, ?_, ?_, ?_, ?_⟩ <;> decide +kernel,
   by refine ⟨{ { w0.setMeta .a { Meta.empty with roots := [(4, wRoot)] } with ubl := { w0.ubl with own := ⟨false, true⟩ } } with fe := { w0.fe with hosts := [(1, wHost)], queues := [⟨⟨1, 0⟩, 32, 0, 0, 5, false⟩, ⟨⟨1, 1⟩, 32, 0, 0, 6, false⟩], ns := [(7, (wNs [1]))], waiting := [⟨(wCaps ⟨1, 1⟩ 2 0 7 1 0 0 ([])), 0, [], false⟩], cmds := [] }, rdm := { w0.rdm with qps := [(5, wQpN), (6, wQpN)] } },
              ⟨1, 1⟩, _, _, wGet (by decide +kernel), ?_, ?_, ?_, ?_, ?_, ?_, ?_, ?_, ?_, wGet (by decide +kernel), ?_, ?_, ?_⟩ <;> decide +kernel,
   by refine ⟨{ w0.setMeta .a { Meta.empty with roots := [(4, wRoot)] } with fe := { w0.fe with hosts := [(1, wHost)], queues := [⟨⟨1, 0⟩, 32, 0, 0, 5, false⟩, ⟨⟨1, 1⟩, 32, 0, 0, 6, false⟩], ns := [(7, (wNs [1]))], waiting := [⟨(wCaps ⟨1, 1⟩ 13 0 7 0x40 0 0 ([])), 0, [], false⟩], cmds := [] }, rdm := { w0.rdm with qps := [(5, wQpN), (6, wQpN)] } },
              ⟨1, 1⟩, _, _, wGet (by decide +kernel), ?_, ?_, ?_, ?_, ?_, ?_, ?_, ?_, ?_, wGet (by decide +kernel), ?_, ?_, ?_⟩ <;> decide +kernel,
   by refine ⟨{ w0.setMeta .a { Meta.empty with roots := [(4, wRoot)] } with fe := { w0.fe with hosts := [(1, wHost)], queues := [⟨⟨1, 0⟩, 32, 0, 0, 5, false⟩, ⟨⟨1, 1⟩, 32, 0, 0, 6, false⟩], ns := [(7, (wNs [1]))], waiting := [⟨{ ((wCaps ⟨1, 1⟩ 2 0 7 0 0 0 ([]))) with origin := some 5 }, 0, [], false⟩], cmds := [] }, rdm := { w0.rdm with qps := [(5, wQpN), (6, wQpN)] } },
              ⟨1, 1⟩, _, wGet (by decide +kernel), ?_, ?_, ?_⟩ <;> decide +kernel,
   by refine ⟨{ w0 with fe := { w0.fe with waiting := [⟨(⟨⟨0xFFFF, 5⟩, patch (patch (patch (zeros 64) 0 [0x7F]) 4 [1]) 44 (leBytes 2 0), (patch (zeros 1024) 0 (leBytes 16 9 ++ leBytes 2 0xFFFF)), 9, none⟩ : Capsule), 0, [], false⟩] }, rdm := { w0.rdm with qps := [(5, wQpN)] } },
              5, _, stConnectParam, wGet (by decide +kernel), ?_, ?_, ?_, ?_, ?_⟩ <;> decide +kernel,
   by refine ⟨{ w0 with fe := { w0.fe with hosts := [(1, wHost)], queues := [⟨⟨1, 0⟩, 32, 0, 0, 5, false⟩, ⟨⟨1, 1⟩, 32, 0, 0, 6, false⟩], ns := [(7, (wNs [1]))], waiting := [⟨(wCaps ⟨1, 0⟩ 0x7F 0 8 0 0 0 ([])), 0, [], false⟩], cmds := [] }, rdm := { w0.rdm with qps := [(5, wQpN), (6, wQpN)] } },
              _, ⟨1, 0⟩, _, wGet (by decide +kernel), ?_, ?_, ?_, ?_, ?_, rfl⟩ <;> decide +kernel,
   by refine ⟨{ w0 with rdm := { w0.rdm with qps := (List.range 512).map fun i => (i, wQp) } }, .native, 3, 4096, [], ?_, ?_, ?_⟩ <;> decide +kernel⟩

/-- The hypotheses of IoCommands can be met, clause by clause. -/
theorem witness_IoCommands :
    (∃ (s : State) (d : SD) (n : Nat) (c : Cmd), s.live d n 0x01 = some c ∧ c.started = false ∧
        c.cap.inCapsule = true) ∧
    (∃ (s : State) (d : SD) (n : Nat) (c : Cmd), s.live d n 0x01 = some c ∧ c.started = false ∧
        c.cap.inCapsule = false) ∧
    (∃ (s : State) (d : SD) (n : Nat) (c : Cmd), s.live d n 0x02 = some c) ∧
    (∃ (s : State) (d : SD) (n : Nat) (c : Cmd), s.live d n 0x0C = some c) ∧
    (∃ (s : State) (d : SD) (n : Nat) (c : Cmd), s.live d n 0x05 = some c ∧ c.started = false ∧
        s.mustHold c = false ∧ c.cap.inCapsule = true) ∧
    (∃ (s : State) (d : SD) (n : Nat) (c : Cmd), s.live d n 0x00 = some c ∧ c.tags = [] ∧
        ((∀ x ∈ s.fe.cmds, c.flushes x s = true → x.safe s.noMirror = true))) ∧
    (∃ (s : State) (d : SD) (n : Nat) (c : Cmd), s.live d n 0x08 = some c ∧ c.started = false) ∧
    (∃ (s : State) (d : SD) (n : Nat) (c : Cmd) (x : Namespace), s.live d n 0x09 = some c ∧
        s.ns? c.cap.nsid = some x ∧ bitOf (c.cap.cdw 11) 2 = false) ∧
    (∃ (s : State) (d : SD) (n : Nat) (c x : Cmd), s.live d n 0x05 = some c ∧ c.started = false ∧
        s.mustHold c = false ∧ c.cap.inCapsule = false ∧ (s.startRead s.hour d n).cmd? d n = some x) ∧
    (∃ (s : State) (d : SD) (n : Nat) (c : Cmd) (x : Namespace) (nr : Nat) (l : List Byte), s.live d n 0x09 = some c
        ∧ s.ns? c.cap.nsid = some x ∧ bitOf (c.cap.cdw 11) 2 = true ∧ nr = bitsOf (c.cap.cdw 10) 7 0 + 1 ∧
        (l = (if c.cap.inCapsule = true then c.cap.data else c.host)) ∧ l.length < 16 * nr ∧ c.started = false) ∧
    (∃ (s s1 : State) (d : SD) (n : Nat) (c : Cmd) (x : Namespace) (nr : Nat) (l : List Byte), s.live d n 0x09 = some
        c ∧ s.ns? c.cap.nsid = some x ∧ bitOf (c.cap.cdw 11) 2 = true ∧ nr = bitsOf (c.cap.cdw 10) 7 0 + 1 ∧
        (l = (if c.cap.inCapsule = true then c.cap.data else c.host)) ∧ 16 * nr ≤ l.length ∧
        (((dsmRanges l nr).any fun y => decide (y.1 + y.2 > s.nsze x)) = false) ∧
        ((if c.units.isEmpty = true then s.makeUnits c x 0 (dsmUnits x.lbaf (dsmRanges l nr)) else some s) = some s1)) ∧
    (∃ (s : State) (d : SD) (n : Nat) (c : Cmd) (x : Namespace) (nr : Nat) (l : List Byte), s.live d n 0x09 = some c
        ∧ s.ns? c.cap.nsid = some x ∧ bitOf (c.cap.cdw 11) 2 = true ∧ nr = bitsOf (c.cap.cdw 10) 7 0 + 1 ∧
        (l = (if c.cap.inCapsule = true then c.cap.data else c.host)) ∧ 16 * nr ≤ l.length ∧
        (((dsmRanges l nr).any fun y => decide (y.1 + y.2 > s.nsze x)) = true)) :=
  ⟨by refine ⟨{ w0.setMeta .a { Meta.empty with roots := [(4, wRoot)] } with fe := { w0.fe with hosts := [(1, wHost)], queues := [⟨⟨1, 0⟩, 32, 0, 0, 5, false⟩, ⟨⟨1, 1⟩, 32, 0, 0, 6, false⟩], ns := [(7, (wNs [1]))], waiting := [], cmds := [{ Cmd.new .a 3 (wCaps ⟨1, 1⟩ 1 0 7 1 0 0 (zeros 512)) with started := false }] }, rdm := { w0.rdm with qps := [(5, wQpN), (6, wQpN)] } },
              .a, 3, { Cmd.new .a 3 (wCaps ⟨1, 1⟩ 1 0 7 1 0 0 (zeros 512)) with started := false }, ?_, ?_, ?_⟩ <;> decide +kernel,
   by refine ⟨{ w0.setMeta .a { Meta.empty with roots := [(4, wRoot)] } with fe := { w0.fe with hosts := [(1, wHost)], queues := [⟨⟨1, 0⟩, 32, 0, 0, 5, false⟩, ⟨⟨1, 1⟩, 32, 0, 0, 6, false⟩], ns := [(7, (wNs [1]))], waiting := [], cmds := [{ Cmd.new .a 3 (wCaps ⟨1, 1⟩ 1 0 7 0x40 0 0 (zeros 512)) with started := false }] }, rdm := { w0.rdm with qps := [(5, wQpN), (6, wQpN)] } },
              .a, 3, { Cmd.new .a 3 (wCaps ⟨1, 1⟩ 1 0 7 0x40 0 0 (zeros 512)) with started := false }, ?_, ?_, ?_⟩ <;> decide +kernel,
   ⟨{ w0.setMeta .a { Meta.empty with roots := [(4, wRoot)] } with fe := { w0.fe with hosts := [(1, wHost)], queues := [⟨⟨1, 0⟩, 32, 0, 0, 5, false⟩, ⟨⟨1, 1⟩, 32, 0, 0, 6, false⟩], ns := [(7, (wNs [1]))], waiting := [], cmds := [{ Cmd.new .a 3 (wCaps ⟨1, 1⟩ 2 0 7 0 0 0 (zeros 512)) with started := false }] }, rdm := { w0.rdm with qps := [(5, wQpN), (6, wQpN)] } },
    .a, 3, { Cmd.new .a 3 (wCaps ⟨1, 1⟩ 2 0 7 0 0 0 (zeros 512)) with started := false }, by decide +kernel⟩,
   ⟨{ w0.setMeta .a { Meta.empty with roots := [(4, wRoot)] } with fe := { w0.fe with hosts := [(1, wHost)], queues := [⟨⟨1, 0⟩, 32, 0, 0, 5, false⟩, ⟨⟨1, 1⟩, 32, 0, 0, 6, false⟩], ns := [(7, (wNs [1]))], waiting := [], cmds := [{ Cmd.new .a 3 (wCaps ⟨1, 1⟩ 12 0 7 0 0 0 (zeros 512)) with started := false }] }, rdm := { w0.rdm with qps := [(5, wQpN), (6, wQpN)] } },
    .a, 3, { Cmd.new .a 3 (wCaps ⟨1, 1⟩ 12 0 7 0 0 0 (zeros 512)) with started := false }, by decide +kernel⟩,
   by refine ⟨{ w0.setMeta .a { Meta.empty with roots := [(4, wRoot)] } with fe := { w0.fe with hosts := [(1, wHost)], queues := [⟨⟨1, 0⟩, 32, 0, 0, 5, false⟩, ⟨⟨1, 1⟩, 32, 0, 0, 6, false⟩], ns := [(7, (wNs [1]))], waiting := [], cmds := [{ Cmd.new .a 3 (wCaps ⟨1, 1⟩ 5 0 7 1 0 0 (zeros 512)) with started := false }] }, rdm := { w0.rdm with qps := [(5, wQpN), (6, wQpN)] } },
              .a, 3, { Cmd.new .a 3 (wCaps ⟨1, 1⟩ 5 0 7 1 0 0 (zeros 512)) with started := false }, ?_, ?_, ?_, ?_⟩ <;> decide +kernel,
   by refine ⟨{ w0.setMeta .a { Meta.empty with roots := [(4, wRoot)] } with fe := { w0.fe with hosts := [(1, wHost)], queues := [⟨⟨1, 0⟩, 32, 0, 0, 5, false⟩, ⟨⟨1, 1⟩, 32, 0, 0, 6, false⟩], ns := [(7, (wNs [1]))], waiting := [], cmds := [{ Cmd.new .a 3 (wCaps ⟨1, 1⟩ 0 0 7 0 0 0 (zeros 512)) with started := false }] }, rdm := { w0.rdm with qps := [(5, wQpN), (6, wQpN)] } },
              .a, 3, { Cmd.new .a 3 (wCaps ⟨1, 1⟩ 0 0 7 0 0 0 (zeros 512)) with started := false }, ?_, ?_, ?_⟩ <;> decide +kernel,
   by refine ⟨{ w0.setMeta .a { Meta.empty with roots := [(4, wRoot)] } with fe := { w0.fe with hosts := [(1, wHost)], queues := [⟨⟨1, 0⟩, 32, 0, 0, 5, false⟩, ⟨⟨1, 1⟩, 32, 0, 0, 6, false⟩], ns := [(7, (wNs [1]))], waiting := [], cmds := [{ Cmd.new .a 3 (wCaps ⟨1, 1⟩ 8 0 7 0 0 0 (zeros 512)) with started := false }] }, rdm := { w0.rdm with qps := [(5, wQpN), (6, wQpN)] } },
              .a, 3, { Cmd.new .a 3 (wCaps ⟨1, 1⟩ 8 0 7 0 0 0 (zeros 512)) with started := false }, ?_, ?_⟩ <;> decide +kernel,
   by refine ⟨{ w0.setMeta .a { Meta.empty with roots := [(4, wRoot)] } with fe := { w0.fe with hosts := [(1, wHost)], queues := [⟨⟨1, 0⟩, 32, 0, 0, 5, false⟩, ⟨⟨1, 1⟩, 32, 0, 0, 6, false⟩], ns := [(7, (wNs [1]))], waiting := [], cmds := [{ Cmd.new .a 3 (wCaps ⟨1, 1⟩ 9 0 7 0 0 0 (zeros 512)) with started := false }] }, rdm := { w0.rdm with qps := [(5, wQpN), (6, wQpN)] } },
              .a, 3, { Cmd.new .a 3 (wCaps ⟨1, 1⟩ 9 0 7 0 0 0 (zeros 512)) with started := false }, (wNs [1]), ?_, ?_, ?_⟩ <;> decide +kernel,
   by refine ⟨{ w0.setMeta .a { Meta.empty with roots := [(4, wRoot)] } with fe := { w0.fe with hosts := [(1, wHost)], queues := [⟨⟨1, 0⟩, 32, 0, 0, 5, false⟩, ⟨⟨1, 1⟩, 32, 0, 0, 6, false⟩], ns := [(7, (wNs [1]))], waiting := [], cmds := [{ Cmd.new .a 3 (wCaps ⟨1, 1⟩ 5 0 7 0x40 0 0 (zeros 512)) with started := false }] }, rdm := { w0.rdm with qps := [(5, wQpN), (6, wQpN)] } },
              .a, 3, _, _, wGet (by decide +kernel), ?_, ?_, ?_, wGet (by decide +kernel)⟩ <;> decide +kernel,
   by refine ⟨{ w0.setMeta .a { Meta.empty with roots := [(4, wRoot)] } with fe := { w0.fe with hosts := [(1, wHost)], queues := [⟨⟨1, 0⟩, 32, 0, 0, 5, false⟩, ⟨⟨1, 1⟩, 32, 0, 0, 6, false⟩], ns := [(7, (wNs [1]))], waiting := [], cmds := [{ Cmd.new .a 3 (wCaps ⟨1, 1⟩ 9 0 7 0x40 0 4 ([])) with tags := [] }] }, rdm := { w0.rdm with qps := [(5, wQpN), (6, wQpN)] } },
              .a, 3, _, _, _, _, wGet (by decide +kernel), wGet (by decide +kernel), ?_, rfl, rfl, ?_, ?_⟩ <;> decide +kernel,
   by refine ⟨{ w0.setMeta .a { Meta.empty with roots := [(4, wRoot)] } with fe := { w0.fe with hosts := [(1, wHost)], queues := [⟨⟨1, 0⟩, 32, 0, 0, 5, false⟩, ⟨⟨1, 1⟩, 32, 0, 0, 6, false⟩], ns := [(7, (wNs [1]))], waiting := [], cmds := [{ Cmd.new .a 3 (wCaps ⟨1, 1⟩ 9 0 7 1 0 4 (zeros 16)) with tags := [] }] }, rdm := { w0.rdm with qps := [(5, wQpN), (6, wQpN)] } },
              _, .a, 3, _, _, _, _, wGet (by decide +kernel), wGet (by decide +kernel), ?_, rfl, rfl, ?_, ?_,
              wGet (by decide +kernel)⟩ <;> decide +kernel,
   by refine ⟨{ w0.setMeta .a { Meta.empty with roots := [(4, wRoot)] } with fe := { w0.fe with hosts := [(1, wHost)], queues := [⟨⟨1, 0⟩, 32, 0, 0, 5, false⟩, ⟨⟨1, 1⟩, 32, 0, 0, 6, false⟩], ns := [(7, (wNs [1]))], waiting := [], cmds := [{ Cmd.new .a 3 (wCaps ⟨1, 1⟩ 9 0 7 1 0 4 ((leBytes 4 0 ++ leBytes 4 1 ++ leBytes 8 1000))) with tags := [] }] }, rdm := { w0.rdm with qps := [(5, wQpN), (6, wQpN)] } },
              .a, 3, _, _, _, _, wGet (by decide +kernel), wGet (by decide +kernel), ?_, rfl, rfl, ?_, ?_⟩ <;> decide +kernel⟩

/-- The hypotheses of FencesAndReservations can be met, clause by clause. -/
theorem witness_FencesAndReservations :
    (∃ (s s1 : State) (q : QId) (b : List Byte) (w : Waiting), s.fe.frontWait q = some w ∧ w.cap.op = 0x84 ∧
        w.cap.origin = none ∧ q.qid ≠ 0 ∧ s.fe.fenced q = false ∧ s.feOpen = true ∧ s.admitStatus w.cap = none ∧
        s.dataReady w = true ∧ s.comesFirst w = false ∧ s.fenceFails w = false ∧
        (s1 = (s.takeWait w).updFe (fun x => { x with fences := x.fences ++ [w.fence] }))) ∧
    (∃ (s : State) (q : QId) (n : Nat) (f : Fence), (s.fe.fences.find? (fun f => decide (f.cap.q = q ∧
        f.cap.cid = n)) = some f) ∧ s.fenceMet f = true) ∧
    (∃ (s : State) (q : QId) (n : Nat) (f : Fence), (s.fe.fences.find? (fun f => decide (f.cap.q = q ∧
        f.cap.cid = n)) = some f) ∧
        ((f.ents.any fun y => match s.fe.queue ⟨q.cntlid, y.1⟩ with | none => true | some x => x.err && !entryMet x.acc y.2)
        = true)) ∧
    (∃ (s s1 : State) (d : SD) (n : Nat) (c : Cmd) (e : ResvEff), s.live d n 0x0D = some c ∧
        s.resvEarlier d n c.cap.nsid = false ∧ e = (s.resvOf d c.cap.nsid).act c.cap c.resvData ∧
        e.st ≠ stResvConflict ∧ (s1 = (if e.changed = true then s.setResv d c.cap.nsid e.next else s))) ∧
    (∃ (s : State) (d : SD) (n : Nat) (c : Cmd), s.live d n 0x0E = some c) ∧
    (∃ (s s1 : State) (d : SD) (n : Nat) (c : Cmd) (e : ResvEff), s.live d n 0x11 = some c ∧
        s.resvEarlier d n c.cap.nsid = false ∧ e = (s.resvOf d c.cap.nsid).act c.cap c.resvData ∧
        e.st ≠ stResvConflict ∧ (s1 = (if e.changed = true then s.setResv d c.cap.nsid e.next else s))) ∧
    (∃ (s s1 : State) (d : SD) (n : Nat) (c : Cmd) (e : ResvEff), s.live d n 0x15 = some c ∧
        s.resvEarlier d n c.cap.nsid = false ∧ e = (s.resvOf d c.cap.nsid).act c.cap c.resvData ∧
        e.st ≠ stResvConflict ∧ (s1 = (if e.changed = true then s.setResv d c.cap.nsid e.next else s))) ∧
    (∃ (s : State) (q : QId) (b : List Byte) (w : Waiting), s.fe.frontWait q = some w ∧ w.cap.op = 0x84 ∧
        w.cap.origin = none ∧ q.qid ≠ 0 ∧ s.fe.fenced q = false ∧ s.feOpen = true ∧ s.admitStatus w.cap = none ∧
        s.dataReady w = false ∧ w.asked = false) ∧
    (∃ (s : State) (q : QId) (b : List Byte) (w : Waiting), s.fe.frontWait q = some w ∧ w.cap.op = 0x84 ∧
        w.cap.origin = none ∧ q.qid ≠ 0 ∧ s.fe.fenced q = false ∧ s.feOpen = true ∧ s.admitStatus w.cap = none ∧
        s.dataReady w = true ∧ s.comesFirst w = false ∧ s.fenceFails w = true) ∧
    (∃ (s : State) (d : SD) (n : Nat) (c : Cmd) (e : ResvEff), s.live d n 0x0D = some c ∧
        s.resvEarlier d n c.cap.nsid = false ∧ e = (s.resvOf d c.cap.nsid).act c.cap c.resvData ∧
        e.st = stResvConflict ∧ e.changed = false ∧ e.notes = []) ∧
    (∃ (s : State) (d : SD) (n : Nat) (c : Cmd) (e : ResvEff), s.live d n 0x11 = some c ∧
        s.resvEarlier d n c.cap.nsid = false ∧ e = (s.resvOf d c.cap.nsid).act c.cap c.resvData ∧
        e.st = stResvConflict ∧ e.changed = false ∧ e.notes = []) ∧
    (∃ (s : State) (d : SD) (n : Nat) (c : Cmd) (e : ResvEff), s.live d n 0x15 = some c ∧
        s.resvEarlier d n c.cap.nsid = false ∧ e = (s.resvOf d c.cap.nsid).act c.cap c.resvData ∧
        e.st = stResvConflict ∧ e.changed = false ∧ e.notes = []) ∧
    (∃ (r : Resv) (c : Capsule) (d : List Byte), bitsOf (c.cdw 10) 2 0 = 0 ∧ bitsOf (c.cdw 10) 31 30 = 0 ∧
        r.keyOf c.hostId = none ∧ r.regs.length < 1024) ∧
    (∃ (r : Resv) (c : Capsule) (d : List Byte), bitsOf (c.cdw 10) 2 0 = 0 ∧ bitOf (c.cdw 10) 3 = false ∧
        r.keyOf c.hostId = some (leAt d 0 8) ∧ r.stands = false ∧ 0 < bitsOf (c.cdw 10) 15 8 ∧
        bitsOf (c.cdw 10) 15 8 ≤ 6) ∧
    (∃ (r : Resv) (c : Capsule) (d : List Byte), bitsOf (c.cdw 10) 2 0 = 0 ∧ bitOf (c.cdw 10) 3 = false ∧
        r.keyOf c.hostId = some (leAt d 0 8) ∧ r.stands = true ∧ r.holds c.hostId = true ∧
        r.rtype = bitsOf (c.cdw 10) 15 8) :=
  ⟨by refine ⟨{ w0.setMeta .a { Meta.empty with roots := [(4, wRoot)] } with fe := { w0.fe with hosts := [(1, wHost)], queues := [⟨⟨1, 0⟩, 32, 0, 0, 5, false⟩, ⟨⟨1, 1⟩, 32, 0, 0, 6, false⟩], ns := [(7, (wNs [1]))], waiting := [⟨(wCaps ⟨1, 1⟩ 0x84 0 7 1 0 0 ([])), 0, [], false⟩], cmds := [] }, rdm := { w0.rdm with qps := [(5, wQpN), (6, wQpN)] } },
              _, ⟨1, 1⟩, [], (⟨(wCaps ⟨1, 1⟩ 0x84 0 7 1 0 0 ([])), 0, [], false⟩ : Waiting), ?_, ?_, ?_, ?_, ?_, ?_, ?_, ?_, ?_,
              ?_, rfl⟩ <;> decide +kernel,
   by refine ⟨{ w0.setMeta .a { Meta.empty with roots := [(4, wRoot)] } with fe := { w0.fe with hosts := [(1, wHost)], queues := [⟨⟨1, 0⟩, 32, 0, 0, 5, false⟩, ⟨⟨1, 1⟩, 32, 0, 0, 6, false⟩], ns := [(7, (wNs [1]))], waiting := [], cmds := [], fences := [(⟨(wCaps ⟨1, 1⟩ 0x84 0 7 1 0 0 ([])), [(1, 0)], none, false⟩ : Fence)] }, rdm := { w0.rdm with qps := [(5, wQpN), (6, wQpN)] } },
              ⟨1, 1⟩, 0, (⟨(wCaps ⟨1, 1⟩ 0x84 0 7 1 0 0 ([])), [(1, 0)], none, false⟩ : Fence), ?_, ?_⟩ <;> decide +kernel,
   by refine ⟨{ w0.setMeta .a { Meta.empty with roots := [(4, wRoot)] } with fe := { w0.fe with hosts := [(1, wHost)], queues := [⟨⟨1, 0⟩, 32, 0, 0, 5, false⟩, ⟨⟨1, 1⟩, 32, 0, 0, 6, false⟩], ns := [(7, (wNs [1]))], waiting := [], cmds := [], fences := [(⟨(wCaps ⟨1, 1⟩ 0x84 0 7 1 0 0 ([])), [(2, 5)], none, false⟩ : Fence)] }, rdm := { w0.rdm with qps := [(5, wQpN), (6, wQpN)] } },
              ⟨1, 1⟩, 0, (⟨(wCaps ⟨1, 1⟩ 0x84 0 7 1 0 0 ([])), [(2, 5)], none, false⟩ : Fence), ?_, ?_⟩ <;> decide +kernel,
   by refine ⟨{ (w0.setResv .a 7 ⟨[], none, 0, false, 0⟩) with fe := { w0.fe with hosts := [(1, wHost)], queues := [⟨⟨1, 0⟩, 32, 0, 0, 5, false⟩, ⟨⟨1, 1⟩, 32, 0, 0, 6, false⟩], ns := [(7, (wNs [1]))], waiting := [], cmds := [{ Cmd.new .a 3 (wCaps ⟨1, 1⟩ 13 0 7 1 0 0 (leBytes 8 0 ++ leBytes 8 77)) with tags := [] }] }, rdm := { w0.rdm with qps := [(5, wQpN), (6, wQpN)] } },
              _, .a, 3, { Cmd.new .a 3 (wCaps ⟨1, 1⟩ 13 0 7 1 0 0 (leBytes 8 0 ++ leBytes 8 77)) with tags := [] }, _, ?_, ?_,
              rfl, ?_, rfl⟩ <;> decide +kernel,
   ⟨{ (w0.setResv .a 7 ⟨[], none, 0, false, 0⟩) with fe := { w0.fe with hosts := [(1, wHost)], queues := [⟨⟨1, 0⟩, 32, 0, 0, 5, false⟩, ⟨⟨1, 1⟩, 32, 0, 0, 6, false⟩], ns := [(7, (wNs [1]))], waiting := [], cmds := [{ Cmd.new .a 3 (wCaps ⟨1, 1⟩ 14 0 7 1 255 0 ([])) with tags := [] }] }, rdm := { w0.rdm with qps := [(5, wQpN), (6, wQpN)] } },
    .a, 3, { Cmd.new .a 3 (wCaps ⟨1, 1⟩ 14 0 7 1 255 0 ([])) with tags := [] }, by decide +kernel⟩,
   by refine ⟨{ (w0.setResv .a 7 ⟨[⟨9, 77⟩], none, 0, false, 0⟩) with fe := { w0.fe with hosts := [(1, wHost)], queues := [⟨⟨1, 0⟩, 32, 0, 0, 5, false⟩, ⟨⟨1, 1⟩, 32, 0, 0, 6, false⟩], ns := [(7, (wNs [1]))], waiting := [], cmds := [{ Cmd.new .a 3 (wCaps ⟨1, 1⟩ 17 0 7 1 (6 * 256) 0 (leBytes 8 77 ++ leBytes 8 0)) with tags := [] }] }, rdm := { w0.rdm with qps := [(5, wQpN), (6, wQpN)] } },
              _, .a, 3, { Cmd.new .a 3 (wCaps ⟨1, 1⟩ 17 0 7 1 (6 * 256) 0 (leBytes 8 77 ++ leBytes 8 0)) with tags := [] }, _,
              ?_, ?_, rfl, ?_, rfl⟩ <;> decide +kernel,
   by refine ⟨{ (w0.setResv .a 7 ⟨[⟨9, 77⟩], some 9, 2, false, 0⟩) with fe := { w0.fe with hosts := [(1, wHost)], queues := [⟨⟨1, 0⟩, 32, 0, 0, 5, false⟩, ⟨⟨1, 1⟩, 32, 0, 0, 6, false⟩], ns := [(7, (wNs [1]))], waiting := [], cmds := [{ Cmd.new .a 3 (wCaps ⟨1, 1⟩ 21 0 7 1 (2 * 256) 0 (leBytes 8 77)) with tags := [] }] }, rdm := { w0.rdm with qps := [(5, wQpN), (6, wQpN)] } },
              _, .a, 3, { Cmd.new .a 3 (wCaps ⟨1, 1⟩ 21 0 7 1 (2 * 256) 0 (leBytes 8 77)) with tags := [] }, _, ?_, ?_, rfl, ?_,
              rfl⟩ <;> decide +kernel,
   by refine ⟨{ w0.setMeta .a { Meta.empty with roots := [(4, wRoot)] } with fe := { w0.fe with hosts := [(1, wHost)], queues := [⟨⟨1, 0⟩, 32, 0, 0, 5, false⟩, ⟨⟨1, 1⟩, 32, 0, 0, 6, false⟩], ns := [(7, (wNs [1]))], waiting := [⟨(wCaps ⟨1, 1⟩ 0x84 0 7 0x40 1 1 ([])), 0, [], false⟩], cmds := [] }, rdm := { w0.rdm with qps := [(5, wQpN), (6, wQpN)] } },
              ⟨1, 1⟩, [], _, wGet (by decide +kernel), ?_, ?_, ?_, ?_, ?_, ?_, ?_, ?_⟩ <;> decide +kernel,
   by refine ⟨{ w0.setMeta .a { Meta.empty with roots := [(4, wRoot)] } with fe := { w0.fe with hosts := [(1, wHost)], queues := [⟨⟨1, 0⟩, 32, 0, 0, 5, false⟩, ⟨⟨1, 1⟩, 32, 0, 0, 6, false⟩], ns := [(7, (wNs [1]))], waiting := [⟨(wCaps ⟨1, 1⟩ 0x84 0 7 1 0 0xFFFFFFFF ([])), 0, [], false⟩], cmds := [] }, rdm := { w0.rdm with qps := [(5, wQpN), (6, wQpN)] } },
              ⟨1, 1⟩, [], _, wGet (by decide +kernel), ?_, ?_, ?_, ?_, ?_, ?_, ?_, ?_, ?_⟩ <;> decide +kernel,
   by refine ⟨{ (w0.setResv .a 7 ⟨[], none, 0, false, 0⟩) with fe := { w0.fe with hosts := [(1, wHost)], queues := [⟨⟨1, 0⟩, 32, 0, 0, 5, false⟩, ⟨⟨1, 1⟩, 32, 0, 0, 6, false⟩], ns := [(7, (wNs [1]))], waiting := [], cmds := [{ Cmd.new .a 3 (wCaps ⟨1, 1⟩ 13 0 7 1 1 0 (leBytes 8 5 ++ leBytes 8 77)) with tags := [] }] }, rdm := { w0.rdm with qps := [(5, wQpN), (6, wQpN)] } },
              .a, 3, _, _, wGet (by decide +kernel), ?_, rfl, ?_, ?_, ?_⟩ <;> decide +kernel,
   by refine ⟨{ (w0.setResv .a 7 ⟨[], none, 0, false, 0⟩) with fe := { w0.fe with hosts := [(1, wHost)], queues := [⟨⟨1, 0⟩, 32, 0, 0, 5, false⟩, ⟨⟨1, 1⟩, 32, 0, 0, 6, false⟩], ns := [(7, (wNs [1]))], waiting := [], cmds := [{ Cmd.new .a 3 (wCaps ⟨1, 1⟩ 17 0 7 1 256 0 (leBytes 8 5)) with tags := [] }] }, rdm := { w0.rdm with qps := [(5, wQpN), (6, wQpN)] } },
              .a, 3, _, _, wGet (by decide +kernel), ?_, rfl, ?_, ?_, ?_⟩ <;> decide +kernel,
   by refine ⟨{ (w0.setResv .a 7 ⟨[], none, 0, false, 0⟩) with fe := { w0.fe with hosts := [(1, wHost)], queues := [⟨⟨1, 0⟩, 32, 0, 0, 5, false⟩, ⟨⟨1, 1⟩, 32, 0, 0, 6, false⟩], ns := [(7, (wNs [1]))], waiting := [], cmds := [{ Cmd.new .a 3 (wCaps ⟨1, 1⟩ 21 0 7 1 256 0 (leBytes 8 5)) with tags := [] }] }, rdm := { w0.rdm with qps := [(5, wQpN), (6, wQpN)] } },
              .a, 3, _, _, wGet (by decide +kernel), ?_, rfl, ?_, ?_, ?_⟩ <;> decide +kernel,
   by refine ⟨⟨[], none, 0, false, 0⟩, (wCaps ⟨1, 1⟩ 13 0 7 1 0 0 []), (leBytes 8 0 ++ leBytes 8 77), ?_, ?_, ?_, ?_⟩ <;> decide +kernel,
   by refine ⟨⟨[⟨9, 77⟩], none, 0, false, 0⟩, (wCaps ⟨1, 1⟩ 17 0 7 1 (6 * 256) 0 []), (leBytes 8 77), ?_, ?_, ?_, ?_, ?_, ?_⟩ <;> decide +kernel,
   by refine ⟨⟨[⟨9, 77⟩], some 9, 6, false, 0⟩, (wCaps ⟨1, 1⟩ 21 0 7 1 (6 * 256) 0 []), (leBytes 8 77), ?_, ?_, ?_, ?_, ?_, ?_⟩ <;> decide +kernel⟩

/-- The hypotheses of AdminCommands can be met, clauses 1, 2, 3, 4, 5, 6, 8, 9, 10, 11, 12, 13, 14, 15, 16, 17, 18, 19, 20, 21. -/
theorem witness_AdminCommands :
    (∃ (s : State) (q : QId) (c : Capsule) (h : HostCtl) (s1 : State) (p : Capsule →
        Bool), s.adminFront q 0x08 = some (c, h) ∧ h.aborts < 4 ∧ bitsOf (c.cdw 10) 15 0 ≠ 0 ∧
        (p = (fun x => decide (x.q = ⟨q.cntlid, bitsOf (c.cdw 10) 15 0⟩ ∧ x.cid = bitsOf (c.cdw 10) 31 16 ∧
        x.origin = none))) ∧ ((s.fe.fwd.find? fun f => p f.cap) = none) ∧ s.catchCmd p = some s1) ∧
    (∃ (s s1 : State) (q : QId) (c : Capsule) (h : HostCtl) (st : Status) (b : List Byte), s.adminFront q 0x02 = some
        (c, h) ∧ ((s.sanitizing = false ∨ bitsOf (c.cdw 10) 7 0 ∈ sanitizePages)) ∧
        s.logPage q.cntlid h (bitsOf (c.cdw 10) 7 0) c.nsid = some (st, b) ∧
        (s1 = s.adminDone c st 0 (if st = stOk then slice b (c.cdw 12 + 2 ^ 32 * c.cdw 13) (4 * (bitsOf (c.cdw 10) 31
        16 + 65536 * bitsOf (c.cdw 11) 15 0 + 1)) else []))) ∧
    (∃ (s : State) (q : QId) (c : Capsule) (h : HostCtl) (st : Status) (b : List Byte), s.adminFront q 0x06 = some
        (c, h) ∧ s.identify q.cntlid h (bitsOf (c.cdw 10) 7 0) c.nsid (bitsOf (c.cdw 11) 31 24) = some (st, b)) ∧
    (∃ (s : State) (q : QId) (c : Capsule) (h : HostCtl), s.adminFront q 0x09 = some (c, h) ∧
        (bitsOf (c.cdw 10) 7 0 = 0x0B ∨ bitsOf (c.cdw 10) 7 0 = 0x82)) ∧
    (∃ (s : State) (q : QId) (c : Capsule) (h : HostCtl) (v : Nat) (b : List Byte), s.adminFront q 0x0A = some (c, h)
        ∧ ((bitsOf (c.cdw 10) 7 0 = 0x83 → (s.attachedNs c).map (fun x => s.owns x.sd) ≠ some false)) ∧
        s.feature c h (bitsOf (c.cdw 10) 7 0) = some (v, b)) ∧
    (∃ (s : State) (q : QId) (c : Capsule) (h : HostCtl), s.adminFront q 0x0C = some (c, h) ∧ h.kept = [] ∧
        h.aers.length < 8) ∧
    (∃ (s : State) (q : QId) (c : Capsule) (h : HostCtl), s.adminFront q 0x18 = some (c, h)) ∧
    (∃ (s : State) (n : Nat) (h : HostCtl), Table.find s.fe.hosts n = some h ∧ h.kato ≠ 0) ∧
    (∃ (s : State) (q : QId) (c : Capsule) (h : HostCtl), s.adminFront q 0x7F = some (c, h) ∧ c.fctype = 0 ∧
        leAt c.sqe 44 4 = 0x14 ∧ ¬ (bitOf h.cc 0 = true ∧ bitOf (leAt c.sqe 48 4) 0 = false)) ∧
    (∃ (s : State) (q : QId) (c : Capsule) (h : HostCtl) (v : Nat), s.adminFront q 0x7F = some (c, h) ∧
        c.fctype = 4 ∧ h.property (leAt c.sqe 44 4) = some v) ∧
    (∃ (s : State) (q : QId) (c : Capsule) (h : HostCtl) (p : Capsule → Bool), s.adminFront q 0x08 = some (c, h) ∧
        h.aborts < 4 ∧ (p = (fun x => decide (x.q = ⟨q.cntlid, bitsOf (c.cdw 10) 15 0⟩ ∧
        x.cid = bitsOf (c.cdw 10) 31 16 ∧ x.origin = none))) ∧
        ((bitsOf (c.cdw 10) 15 0 = 0 ∨ ((s.fe.fwd.find? fun f => p f.cap) = none ∧ s.catchCmd p = none)))) ∧
    (∃ (s : State) (q : QId) (c : Capsule) (h : HostCtl) (f : Fwd) (p : Capsule →
        Bool), s.adminFront q 0x08 = some (c, h) ∧ h.aborts < 4 ∧ bitsOf (c.cdw 10) 15 0 ≠ 0 ∧
        (p = (fun x => decide (x.q = ⟨q.cntlid, bitsOf (c.cdw 10) 15 0⟩ ∧ x.cid = bitsOf (c.cdw 10) 31 16 ∧
        x.origin = none))) ∧ ((s.fe.fwd.find? fun f => p f.cap) = some f)) ∧
    (∃ (s : State) (q : QId) (c : Capsule) (h : HostCtl), s.adminFront q 0x08 = some (c, h) ∧ 4 ≤ h.aborts) ∧
    (∃ (s : State) (q : QId) (c : Capsule) (h : HostCtl), s.adminFront q 0x09 = some (c, h) ∧
        bitsOf (c.cdw 10) 7 0 = 7) ∧
    (∃ (s : State) (q : QId) (c : Capsule) (h : HostCtl), s.adminFront q 0x09 = some (c, h) ∧
        bitsOf (c.cdw 10) 7 0 = 0x0F ∧ 1000 ≤ c.cdw 11 ∧ c.cdw 11 ≤ 300000) ∧
    (∃ (s : State) (q : QId) (c : Capsule) (h : HostCtl) (x : Namespace), s.adminFront q 0x09 = some (c, h) ∧
        bitsOf (c.cdw 10) 7 0 = 0x83 ∧ s.attachedNs c = some x) ∧
    (∃ (s : State) (q : QId) (c : Capsule) (h : HostCtl) (x : Namespace), s.adminFront q 0x0A = some (c, h) ∧
        bitsOf (c.cdw 10) 7 0 = 0x83 ∧ s.attachedNs c = some x ∧ s.owns x.sd = false) ∧
    (∃ (s : State) (q : QId) (c : Capsule) (h : HostCtl) (e : AEvent) (l : List AEvent), s.adminFront q 0x0C = some
        (c, h) ∧ h.kept = e :: l) ∧
    (∃ (s s1 : State) (q : QId) (c : Capsule) (h : HostCtl) (l : List Queue), s.adminFront q 0x7F = some (c, h) ∧
        c.fctype = 0 ∧ leAt c.sqe 44 4 = 0x14 ∧ bitOf h.cc 0 = true ∧ bitOf (leAt c.sqe 48 4) 0 = false ∧
        (s1 = (s.updHost q.cntlid fun h => { h with cc := leAt c.sqe 48 4 }).adminDone c stOk 0 []) ∧
        (l = s1.fe.queues.filter (fun x => decide (x.q.cntlid = q.cntlid ∧ x.q.qid ≠ 0)))) ∧
    (∃ (s : State) (q : QId) (c : Capsule) (h : HostCtl), s.adminFront q 0x7F = some (c, h) ∧ c.fctype = 4 ∧
        h.property (leAt c.sqe 44 4) = none) :=
  ⟨by refine ⟨{ w0 with fe := { w0.fe with hosts := [(1, wHost)], queues := [⟨⟨1, 0⟩, 32, 0, 0, 5, false⟩, ⟨⟨1, 1⟩, 32, 0, 0, 6, false⟩], ns := [(7, (wNs [1]))], waiting := [⟨(wCaps ⟨1, 0⟩ 8 0 0 0 (1 + 4 * 65536) 0 ([])), 0, [], false⟩, ⟨(wCaps ⟨1, 1⟩ 2 4 7 0 0 0 ([])), 0, [], false⟩], cmds := [], fences := [⟨(wCaps ⟨1, 1⟩ 0x84 0 7 0 0 0 ([])), [], none, false⟩] }, rdm := { w0.rdm with qps := [(5, wQpN), (6, wQpN)] } },
              ⟨1, 0⟩, (wCaps ⟨1, 0⟩ 8 0 0 0 (1 + 4 * 65536) 0 ([])), wHost, _, _, ?_, ?_, ?_, rfl, ?_, wGet (by decide +kernel)⟩ <;> decide +kernel,
   by refine ⟨{ w0 with fe := { w0.fe with hosts := [(1, wHost)], queues := [⟨⟨1, 0⟩, 32, 0, 0, 5, false⟩, ⟨⟨1, 1⟩, 32, 0, 0, 6, false⟩], ns := [(7, (wNs [1]))], waiting := [⟨(wCaps ⟨1, 0⟩ 2 0 0xFFFFFFFF 0 (2 + 32768 + 127 * 65536) 0 ([])), 0, [], false⟩], cmds := [] }, rdm := { w0.rdm with qps := [(5, wQpN), (6, wQpN)] } },
              _, ⟨1, 0⟩, (wCaps ⟨1, 0⟩ 2 0 0xFFFFFFFF 0 (2 + 32768 + 127 * 65536) 0 ([])), wHost, _, _, ?_, ?_,
              wSome (by decide +kernel), rfl⟩ <;> decide +kernel,
   ⟨{ w0 with fe := { w0.fe with hosts := [(1, wHost)], queues := [⟨⟨1, 0⟩, 32, 0, 0, 5, false⟩, ⟨⟨1, 1⟩, 32, 0, 0, 6, false⟩], ns := [(7, (wNs [1]))], waiting := [⟨(wCaps ⟨1, 0⟩ 6 0 0 0 1 0 ([])), 0, [], false⟩], cmds := [] }, rdm := { w0.rdm with qps := [(5, wQpN), (6, wQpN)] } },
    ⟨1, 0⟩, (wCaps ⟨1, 0⟩ 6 0 0 0 1 0 ([])), wHost, _, _, by decide +kernel, wSome (by decide +kernel)⟩,
   by refine ⟨{ w0 with fe := { w0.fe with hosts := [(1, wHost)], queues := [⟨⟨1, 0⟩, 32, 0, 0, 5, false⟩, ⟨⟨1, 1⟩, 32, 0, 0, 6, false⟩], ns := [(7, (wNs [1]))], waiting := [⟨(wCaps ⟨1, 0⟩ 9 0 0 0 11 5 ([])), 0, [], false⟩], cmds := [] }, rdm := { w0.rdm with qps := [(5, wQpN), (6, wQpN)] } },
              ⟨1, 0⟩, (wCaps ⟨1, 0⟩ 9 0 0 0 11 5 ([])), wHost, ?_, ?_⟩ <;> decide +kernel,
   by refine ⟨{ w0 with fe := { w0.fe with hosts := [(1, wHost)], queues := [⟨⟨1, 0⟩, 32, 0, 0, 5, false⟩, ⟨⟨1, 1⟩, 32, 0, 0, 6, false⟩], ns := [(7, (wNs [1]))], waiting := [⟨(wCaps ⟨1, 0⟩ 10 0 0 0 11 0 ([])), 0, [], false⟩], cmds := [] }, rdm := { w0.rdm with qps := [(5, wQpN), (6, wQpN)] } },
              ⟨1, 0⟩, (wCaps ⟨1, 0⟩ 10 0 0 0 11 0 ([])), wHost, _, _, ?_, ?_, wSome (by decide +kernel)⟩ <;> decide +kernel,
   by refine ⟨{ w0 with fe := { w0.fe with hosts := [(1, wHost)], queues := [⟨⟨1, 0⟩, 32, 0, 0, 5, false⟩, ⟨⟨1, 1⟩, 32, 0, 0, 6, false⟩], ns := [(7, (wNs [1]))], waiting := [⟨(wCaps ⟨1, 0⟩ 12 0 0 0 0 0 ([])), 0, [], false⟩], cmds := [] }, rdm := { w0.rdm with qps := [(5, wQpN), (6, wQpN)] } },
              ⟨1, 0⟩, (wCaps ⟨1, 0⟩ 12 0 0 0 0 0 ([])), wHost, ?_, ?_, ?_⟩ <;> decide +kernel,
   ⟨{ w0 with fe := { w0.fe with hosts := [(1, wHost)], queues := [⟨⟨1, 0⟩, 32, 0, 0, 5, false⟩, ⟨⟨1, 1⟩, 32, 0, 0, 6, false⟩], ns := [(7, (wNs [1]))], waiting := [⟨(wCaps ⟨1, 0⟩ 24 0 0 0 0 0 ([])), 0, [], false⟩], cmds := [] }, rdm := { w0.rdm with qps := [(5, wQpN), (6, wQpN)] } },
    ⟨1, 0⟩, (wCaps ⟨1, 0⟩ 24 0 0 0 0 0 ([])), wHost, by decide +kernel⟩,
   by refine ⟨{ w0 with fe := { w0.fe with hosts := [(1, { HostCtl.new 9 0 false with cc := 1, kato := 5 })], queues := [⟨⟨1, 0⟩, 32, 0, 0, 5, false⟩, ⟨⟨1, 1⟩, 32, 0, 0, 6, false⟩], ns := [(7, (wNs [1]))], waiting := [], cmds := [] }, rdm := { w0.rdm with qps := [(5, wQpN), (6, wQpN)] } },
              1, { HostCtl.new 9 0 false with cc := 1, kato := 5 }, ?_, ?_⟩ <;> decide +kernel,
   by refine ⟨{ w0 with fe := { w0.fe with hosts := [(1, HostCtl.new 9 0 false)], queues := [⟨⟨1, 0⟩, 32, 0, 0, 5, false⟩, ⟨⟨1, 1⟩, 32, 0, 0, 6, false⟩], ns := [(7, (wNs [1]))], waiting := [⟨(wCaps ⟨1, 0⟩ 127 0 0 0 0 20 ([])), 0, [], false⟩], cmds := [] }, rdm := { w0.rdm with qps := [(5, wQpN), (6, wQpN)] } },
              ⟨1, 0⟩, (wCaps ⟨1, 0⟩ 127 0 0 0 0 20 ([])), (HostCtl.new 9 0 false), ?_, ?_, ?_, ?_⟩ <;> decide +kernel,
   by refine ⟨{ w0 with fe := { w0.fe with hosts := [(1, wHost)], queues := [⟨⟨1, 0⟩, 32, 0, 0, 5, false⟩, ⟨⟨1, 1⟩, 32, 0, 0, 6, false⟩], ns := [(7, (wNs [1]))], waiting := [⟨(wCaps ⟨1, 0⟩ 127 0 4 0 0 20 ([])), 0, [], false⟩], cmds := [] }, rdm := { w0.rdm with qps := [(5, wQpN), (6, wQpN)] } },
              ⟨1, 0⟩, (wCaps ⟨1, 0⟩ 127 0 4 0 0 20 ([])), wHost, 1, ?_, ?_, ?_⟩ <;> decide +kernel,
   by refine ⟨{ w0 with fe := { w0.fe with hosts := [(1, wHost)], queues := [⟨⟨1, 0⟩, 32, 0, 0, 5, false⟩, ⟨⟨1, 1⟩, 32, 0, 0, 6, false⟩], ns := [(7, (wNs [1]))], waiting := [⟨(wCaps ⟨1, 0⟩ 8 0 0 0 0 0 ([])), 0, [], false⟩], cmds := [] }, rdm := { w0.rdm with qps := [(5, wQpN), (6, wQpN)] } },
              ⟨1, 0⟩, _, _, _, wSome (by decide +kernel), ?_, rfl, ?_⟩ <;> decide +kernel,
   by refine ⟨{ w0 with fe := { w0.fe with hosts := [(1, wHost)], queues := [⟨⟨1, 0⟩, 32, 0, 0, 5, false⟩, ⟨⟨1, 1⟩, 32, 0, 0, 6, false⟩], ns := [(7, (wNs [1]))], waiting := [⟨(wCaps ⟨1, 0⟩ 8 0 0 0 (1 + 4 * 65536) 0 ([])), 0, [], false⟩], cmds := [], fwd := [(⟨9, (wCaps ⟨1, 1⟩ 2 4 7 0 0 0 ([])), .b, [], none⟩ : Fwd)] }, rdm := { w0.rdm with qps := [(5, wQpN), (6, wQpN)] } },
              ⟨1, 0⟩, _, _, (⟨9, (wCaps ⟨1, 1⟩ 2 4 7 0 0 0 ([])), .b, [], none⟩ : Fwd), _, wSome (by decide +kernel), ?_, ?_,
              rfl, ?_⟩ <;> decide +kernel,
   ⟨{ w0 with fe := { w0.fe with hosts := [(1, { wHost with aborts := 4 })], queues := [⟨⟨1, 0⟩, 32, 0, 0, 5, false⟩, ⟨⟨1, 1⟩, 32, 0, 0, 6, false⟩], ns := [(7, (wNs [1]))], waiting := [⟨(wCaps ⟨1, 0⟩ 8 0 0 0 0 0 ([])), 0, [], false⟩], cmds := [] }, rdm := { w0.rdm with qps := [(5, wQpN), (6, wQpN)] } },
    ⟨1, 0⟩, _, _, wSome (by decide +kernel), by decide +kernel⟩,
   ⟨{ w0 with fe := { w0.fe with hosts := [(1, wHost)], queues := [⟨⟨1, 0⟩, 32, 0, 0, 5, false⟩, ⟨⟨1, 1⟩, 32, 0, 0, 6, false⟩], ns := [(7, (wNs [1]))], waiting := [⟨(wCaps ⟨1, 0⟩ 9 0 0 0 7 0 ([])), 0, [], false⟩], cmds := [] }, rdm := { w0.rdm with qps := [(5, wQpN), (6, wQpN)] } },
    ⟨1, 0⟩, _, _, wSome (by decide +kernel), by decide +kernel⟩,
   by refine ⟨{ w0 with fe := { w0.fe with hosts := [(1, wHost)], queues := [⟨⟨1, 0⟩, 32, 0, 0, 5, false⟩, ⟨⟨1, 1⟩, 32, 0, 0, 6, false⟩], ns := [(7, (wNs [1]))], waiting := [⟨(wCaps ⟨1, 0⟩ 9 0 0 0 15 1000 ([])), 0, [], false⟩], cmds := [] }, rdm := { w0.rdm with qps := [(5, wQpN), (6, wQpN)] } },
              ⟨1, 0⟩, _, _, wSome (by decide +kernel), ?_, ?_, ?_⟩ <;> decide +kernel,
   ⟨{ w0 with fe := { w0.fe with hosts := [(1, wHost)], queues := [⟨⟨1, 0⟩, 32, 0, 0, 5, false⟩, ⟨⟨1, 1⟩, 32, 0, 0, 6, false⟩], ns := [(7, (wNs [1]))], waiting := [⟨(wCaps ⟨1, 0⟩ 9 0 7 0 0x83 1 ([])), 0, [], false⟩], cmds := [] }, rdm := { w0.rdm with qps := [(5, wQpN), (6, wQpN)] } },
    ⟨1, 0⟩, _, _, _, wSome (by decide +kernel), by decide +kernel, wGet (by decide +kernel)⟩,
   by refine ⟨{ { w0 with ubl := { w0.ubl with own := ⟨false, true⟩ } } with fe := { w0.fe with hosts := [(1, wHost)], queues := [⟨⟨1, 0⟩, 32, 0, 0, 5, false⟩, ⟨⟨1, 1⟩, 32, 0, 0, 6, false⟩], ns := [(7, (wNs [1]))], waiting := [⟨(wCaps ⟨1, 0⟩ 10 0 7 0 0x83 0 ([])), 0, [], false⟩], cmds := [] }, rdm := { w0.rdm with qps := [(5, wQpN), (6, wQpN)] } },
              ⟨1, 0⟩, _, _, _, wSome (by decide +kernel), ?_, wGet (by decide +kernel), ?_⟩ <;> decide +kernel,
   ⟨{ w0 with fe := { w0.fe with hosts := [(1, { wHost with kept := [⟨2, 0, 0⟩] })], queues := [⟨⟨1, 0⟩, 32, 0, 0, 5, false⟩, ⟨⟨1, 1⟩, 32, 0, 0, 6, false⟩], ns := [(7, (wNs [1]))], waiting := [⟨(wCaps ⟨1, 0⟩ 12 0 0 0 0 0 ([])), 0, [], false⟩], cmds := [] }, rdm := { w0.rdm with qps := [(5, wQpN), (6, wQpN)] } },
    ⟨1, 0⟩, _, _, ⟨2, 0, 0⟩, [], wSome (by decide +kernel), by decide +kernel⟩,
   by refine ⟨{ w0 with fe := { w0.fe with hosts := [(1, wHost)], queues := [⟨⟨1, 0⟩, 32, 0, 0, 5, false⟩, ⟨⟨1, 1⟩, 32, 0, 0, 6, false⟩], ns := [(7, (wNs [1]))], waiting := [⟨(wCaps ⟨1, 0⟩ 127 0 0 0 0 20 ([])), 0, [], false⟩], cmds := [] }, rdm := { w0.rdm with qps := [(5, wQpN), (6, wQpN)] } },
              _, ⟨1, 0⟩, _, _, _, wSome (by decide +kernel), ?_, ?_, ?_, ?_, rfl, rfl⟩ <;> decide +kernel,
   by refine ⟨{ w0 with fe := { w0.fe with hosts := [(1, wHost)], queues := [⟨⟨1, 0⟩, 32, 0, 0, 5, false⟩, ⟨⟨1, 1⟩, 32, 0, 0, 6, false⟩], ns := [(7, (wNs [1]))], waiting := [⟨(wCaps ⟨1, 0⟩ 127 0 4 0 0 0x99 ([])), 0, [], false⟩], cmds := [] }, rdm := { w0.rdm with qps := [(5, wQpN), (6, wQpN)] } },
              ⟨1, 0⟩, _, _, wSome (by decide +kernel), ?_, ?_⟩ <;> decide +kernel⟩

/-- The hypotheses of FormatAndSanitize can be met, clause by clause. -/
theorem witness_FormatAndSanitize :
    (∃ (s : State) (q : QId) (c : Capsule) (h : HostCtl) (l : List (Nat × Namespace)) (v : Nat), s.adminFront q 0x80
        = some (c, h) ∧ v = c.cdw 10 ∧ s.fe.progress = none ∧
        (l = (if c.nsid = 0xFFFFFFFF then s.nsOf q.cntlid else (s.nsOf q.cntlid).filter fun y => decide (y.1 =
        c.nsid))) ∧ l.isEmpty = false ∧ formatOk (bitsOf v 3 0) (bitsOf v 7 5) (bitsOf v 8 8) (bitsOf v 4 4) = true ∧
        bitsOf v 13 12 = 0 ∧ bitsOf v 11 9 ≤ 2 ∧ ((l.any fun y => s.readOnly y.2) = false) ∧ (¬ (bitsOf v 11 9 = 2 ∧
        ([SD.a, SD.b].any fun d => (s.seenMeta d).roots.any fun y => decide (y.2.kdom ∈ l.map (fun z => z.2.kdom) ∧
        (d, y.1) ∉ l.map fun z => (z.2.sd, z.2.root))) = true))) ∧
    (∃ (s : State) (q : QId) (c : Capsule) (h : HostCtl), s.adminFront q 0x84 = some (c, h) ∧ s.fe.progress = none ∧
        (bitsOf (c.cdw 10) 2 0 = 2 ∨ bitsOf (c.cdw 10) 2 0 = 4)) ∧
    (∃ (s s0 s1 : State) (p p1 : Progress) (bad : List Nat), s.fe.progress = some p ∧ s.phaseQuiet p bad = true ∧
        (s0 = (if p.phase = 4 then s.markBad bad else s)) ∧ s0.fe.recordPeer = false ∧
        (s0.noMirror = true ∨ s0.fe.peerDone = true) ∧ p1 =
        { p with phase := p.nextPhase, cursor := 0, prog := (Config.progress s0.draws).toNat } ∧
        (s1 = ({ s0 with draws := s0.draws + 1 } : State).updFe (fun f => { f with peerDone := false }))) ∧
    (∃ (s s0 : State) (p : Progress) (bad : List Nat), s.fe.progress = some p ∧ s.phaseQuiet p bad = true ∧
        (s0 = (if p.phase = 4 then s.markBad bad else s)) ∧ s0.fe.recordPeer = true) ∧
    (∃ (s : State) (q : QId) (c : Capsule) (h : HostCtl), s.adminFront q 0x84 = some (c, h) ∧
        s.fe.progress.isSome = true) :=
  ⟨by refine ⟨{ w0.setMeta .a { Meta.empty with roots := [(4, wRoot)] } with fe := { w0.fe with hosts := [(1, wHost)], queues := [⟨⟨1, 0⟩, 32, 0, 0, 5, false⟩, ⟨⟨1, 1⟩, 32, 0, 0, 6, false⟩], ns := [(7, (wNs [1]))], waiting := [⟨(wCaps ⟨1, 0⟩ 128 0 7 0 0 0 ([])), 0, [], false⟩], cmds := [] }, rdm := { w0.rdm with qps := [(5, wQpN), (6, wQpN)] } },
              ⟨1, 0⟩, (wCaps ⟨1, 0⟩ 128 0 7 0 0 0 ([])), wHost, _, _, ?_, rfl, ?_, rfl, ?_, ?_, ?_, ?_, ?_, ?_⟩ <;> decide +kernel,
   by refine ⟨{ w0 with fe := { w0.fe with hosts := [(1, wHost)], queues := [⟨⟨1, 0⟩, 32, 0, 0, 5, false⟩, ⟨⟨1, 1⟩, 32, 0, 0, 6, false⟩], ns := [(7, (wNs [1]))], waiting := [⟨(wCaps ⟨1, 0⟩ 132 0 0 0 2 0 ([])), 0, [], false⟩], cmds := [] }, rdm := { w0.rdm with qps := [(5, wQpN), (6, wQpN)] } },
              ⟨1, 0⟩, (wCaps ⟨1, 0⟩ 132 0 0 0 2 0 ([])), wHost, ?_, ?_, ?_⟩ <;> decide +kernel,
   by refine ⟨{ w0 with fe := { w0.fe with hosts := [(1, wHost)], queues := [⟨⟨1, 0⟩, 32, 0, 0, 5, false⟩, ⟨⟨1, 1⟩, 32, 0, 0, 6, false⟩], ns := [(7, (wNs [1]))], waiting := [], cmds := [], peerDone := true, progress := some ⟨1, 2, 1, 0, 7, 1, 0, 5, 0, 0⟩ }, rdm := { w0.rdm with qps := [(5, wQpN), (6, wQpN)] } },
              _, _, _, _, [], wGet (by decide +kernel), ?_, rfl, ?_, ?_, rfl, rfl⟩ <;> decide +kernel,
   by refine ⟨{ w0 with fe := { w0.fe with hosts := [(1, wHost)], queues := [⟨⟨1, 0⟩, 32, 0, 0, 5, false⟩, ⟨⟨1, 1⟩, 32, 0, 0, 6, false⟩], ns := [(7, (wNs [1]))], waiting := [], cmds := [], recordPeer := true, progress := some ⟨1, 2, 1, 0, 7, 1, 0, 5, 0, 0⟩ }, rdm := { w0.rdm with qps := [(5, wQpN), (6, wQpN)] } },
              _, _, [], wGet (by decide +kernel), ?_, rfl, ?_⟩ <;> decide +kernel,
   ⟨{ w0 with fe := { w0.fe with hosts := [(1, wHost)], queues := [⟨⟨1, 0⟩, 32, 0, 0, 5, false⟩, ⟨⟨1, 1⟩, 32, 0, 0, 6, false⟩], ns := [(7, (wNs [1]))], waiting := [⟨(wCaps ⟨1, 0⟩ 132 0 0 0 2 0 ([])), 0, [], false⟩], cmds := [], progress := some ⟨1, 2, 1, 0, 7, 1, 0, 5, 0, 0⟩ }, rdm := { w0.rdm with qps := [(5, wQpN), (6, wQpN)] } },
    ⟨1, 0⟩, _, _, wSome (by decide +kernel), by decide +kernel⟩⟩

/-- The hypotheses of WriteSideOfTheDatapath can be met, clause by clause. -/
theorem witness_WriteSideOfTheDatapath :
    (∃ (s s1 : State) (i : Nat) (g : Gran) (n : Namespace) (x : InFl) (b : List Byte) (bad : List Nat), s.gran? i =
        some g ∧ s.ns? g.nsid = some n ∧ s.flightOf g = some x ∧ g.bytes = none ∧ s.up .dp = true ∧
        (((s.flights g.sd g.nsid g.gran g.stamp g.unitIdx).any fun y => !y.complete) = false) ∧
        s.merged g n x = (b, bad, s1)) ∧
    (∃ (s : State) (i : Nat) (g : Gran) (b : List Byte) (k : KDom), s.gran? i = some g ∧ g.bytes = some b ∧
        Table.find s.dp.kdoms g.kdom = some k ∧ g.fp = none ∧ g.unmap = none ∧ s.up .dp = true ∧
        ((s.dp.grans.filter fun x => decide (x.2.look = .issued)).length < 512)) ∧
    (∃ (s : State) (i : Nat) (g : Gran) (f : List Byte) (l : Nat), s.gran? i = some g ∧ g.fp = some f ∧
        g.look = .issued ∧ s.dp.lookup g.kdom g.sd f = some l) ∧
    (∃ (s : State) (i : Nat) (g : Gran) (f : List Byte), s.gran? i = some g ∧ g.fp = some f ∧ g.look = .issued ∧
        s.dp.lookup g.kdom g.sd f = none) ∧
    (∃ (s : State) (i : Nat) (g : Gran) (b : List Byte), s.gran? i = some g ∧ g.bytes = some b ∧ g.result = none ∧
        g.unmap = none ∧ s.laneBusy g = false ∧ s.holdRoom = true ∧ s.up .dp = true) ∧
    (∃ (s s0 : State) (i : Nat) (g : Gran) (l : Nat) (b f : List Byte), s.gran? i = some g ∧ g.look = .hit l ∧
        g.bytes = some b ∧ g.fp = some f ∧ g.verify = none ∧ s.modeOf g.kdom = .verify ∧
        s.readLoc g.sd l = (.bytes b, s0)) ∧
    (∃ (s : State) (i : Nat) (g : Gran) (b f : List Byte) (l : Lane), s.gran? i = some g ∧ g.dec = .none ∧
        Pend.gran i ∉ s.dp.pend ∧ s.unitComplete g = true ∧ s.decideFirst g = false ∧ s.dp.pend.length < 4096 ∧
        s.up .dp = true ∧ g.unmap = none ∧ g.bytes = some b ∧ g.fp = some f ∧ g.result = some l ∧
        s.lookReady g = true ∧ g.bad = 0 ∧ allZero b = true) ∧
    (∃ (s : State) (i id : Nat) (g : Gran), s.dp.pend[i]? = some (.gran id) ∧ s.gran? id = some g ∧
        s.up .map = true ∧ s.logFull g.sd = false ∧ s.turn g = true ∧ ((∀ x, s.flightOf g = some x →
        s.readHolds g x = false)) ∧ s.pendFirst i (.gran id) = false ∧
        ((∀ r ∈ deltaRoots (s.metaOf g.sd) g.root g.stamp, s.mapReady g.sd r g.gran = true ∧
        s.mustCopy g.sd r g.gran = none))) ∧
    (∃ (s s1 s2 : State) (d : SD) (root gran : Nat) (up : Option Nat) (mpid level : Nat), s.mustCopy d root gran =
        some (up, mpid, level) ∧ s.up .map = true ∧ s.pendingWrite d root gran = true ∧ s.logFull d = false ∧
        ((s.map.en = false ∨ s.map.busy = 1 ∨ ((List.range 16).all fun i => s.map.sectorValid d mpid i) = true)) ∧
        s1 = s.copyPage d root gran ∧ (s2 = (List.range 16).foldl (fun u i => u.dirtySector d (s.metaOf d).nextMpid i
        (some (root, gran / 512))) s1)) ∧
    (∃ (s s0 s1 : State) (r : Stored) (i : Nat) (g : Gran) (l : Nat) (b f : List Byte), s.gran? i = some g ∧
        g.look = .hit l ∧ g.bytes = some b ∧ g.fp = some f ∧ g.verify = none ∧ s.modeOf g.kdom = .verify ∧
        s.readLoc g.sd l = (r, s0) ∧ r ≠ .bytes b ∧ (s1 = ((s0.updGran i fun g =>
        { g with verify := some false }).count .dpVerifyMismatch).updDp (·.dropHot g.kdom g.sd f l))) ∧
    (∃ (s : State) (i : Nat) (g : Gran), s.gran? i = some g ∧ g.dec = .none ∧ Pend.gran i ∉ s.dp.pend ∧
        s.unitComplete g = true ∧ s.decideFirst g = false ∧ s.dp.pend.length < 4096 ∧ s.up .dp = true ∧
        g.unmap.isSome = true) ∧
    (∃ (s : State) (i : Nat) (g : Gran) (b f : List Byte) (l : Lane) (loc : Nat), s.gran? i = some g ∧
        g.dec = .none ∧ Pend.gran i ∉ s.dp.pend ∧ s.unitComplete g = true ∧ s.decideFirst g = false ∧
        s.dp.pend.length < 4096 ∧ s.up .dp = true ∧ g.unmap = none ∧ g.bytes = some b ∧ g.fp = some f ∧
        g.result = some l ∧ s.lookReady g = true ∧ ((g.bad ≠ 0 ∨ allZero b = false)) ∧ g.look = .hit loc ∧
        ((s.modeOf g.kdom = .on ∨ (s.modeOf g.kdom = .verify ∧ g.verify = some true)))) ∧
    (∃ (s s1 : State) (i : Nat) (g : Gran) (b f : List Byte) (l : Lane), s.gran? i = some g ∧ g.dec = .none ∧
        Pend.gran i ∉ s.dp.pend ∧ s.unitComplete g = true ∧ s.decideFirst g = false ∧ s.dp.pend.length < 4096 ∧
        s.up .dp = true ∧ g.unmap = none ∧ g.bytes = some b ∧ g.fp = some f ∧ g.result = some l ∧
        s.lookReady g = true ∧ ((g.bad ≠ 0 ∨ allZero b = false)) ∧ ((∀ loc, g.look = .hit loc →
        s.modeOf g.kdom = .off ∨ (s.modeOf g.kdom = .verify ∧ g.verify ≠ some true))) ∧
        s.appendGran i g f b l = some s1) ∧
    (∃ (s : State) (g : Gran) (n : Namespace) (x : InFl), x.nblk = 0 ∧
        s.overlay g.sd n g.nsid g.gran g.stamp g.unitIdx = [] ∧
        ((∀ y ∈ s.flights g.sd g.nsid g.gran g.stamp g.unitIdx, s.landedOk (lbaData n.lbaf) y = true)) ∧
        MapEnt.ofWord (entryOf (s.metaOf g.sd) g.root g.gran) = .unmapped) :=
  ⟨by refine ⟨{ w0.setMeta .a { Meta.empty with roots := [(4, wRoot)] } with fe := { w0.fe with ns := [(7, (wNs [1]))], cmds := [], inflight := [wFl] }, dp := { w0.dp with kdoms := [(0, wKdom)], grans := [(5, wGran)] } },
              _, 5, wGran, (wNs [1]), wFl, _, _, ?_, ?_, ?_, ?_, ?_, ?_, wTriple _⟩ <;> decide +kernel,
   by refine ⟨{ w0.setMeta .a { Meta.empty with roots := [(4, wRoot)] } with fe := { w0.fe with ns := [(7, (wNs [1]))], cmds := [], inflight := [] }, dp := { w0.dp with kdoms := [(0, wKdom)], grans := [(5, { wGran with bytes := some ([0]) })] } },
              5, { wGran with bytes := some ([0]) }, [0], wKdom, ?_, ?_, ?_, ?_, ?_, ?_, ?_⟩ <;> decide +kernel,
   by refine ⟨{ w0.setMeta .a { Meta.empty with roots := [(4, wRoot)] } with dp := { (w0.dp.insertHot ⟨fTag (zeros 24), 99, 0, true, .a, false, 0, 0⟩ (zeros 24)).1 with grans := [(5, { wGran with fp := some (zeros 24), look := .issued })] } },
              5, { wGran with fp := some (zeros 24), look := .issued }, (zeros 24), 99, ?_, ?_, ?_, ?_⟩ <;> decide +kernel,
   by refine ⟨{ w0.setMeta .a { Meta.empty with roots := [(4, wRoot)] } with fe := { w0.fe with ns := [(7, (wNs [1]))], cmds := [], inflight := [] }, dp := { w0.dp with kdoms := [(0, wKdom)], grans := [(5, { wGran with fp := some (zeros 24), look := .issued })] } },
              5, { wGran with fp := some (zeros 24), look := .issued }, (zeros 24), ?_, ?_, ?_, ?_⟩ <;> decide +kernel,
   by refine ⟨{ w0.setMeta .a { Meta.empty with roots := [(4, wRoot)] } with fe := { w0.fe with ns := [(7, (wNs [1]))], cmds := [], inflight := [] }, dp := { w0.dp with kdoms := [(0, wKdom)], grans := [(5, { wGran with bytes := some ([0]) })] } },
              5, { wGran with bytes := some ([0]) }, [0], ?_, ?_, ?_, ?_, ?_, ?_, ?_⟩ <;> decide +kernel,
   by refine ⟨{ { w0 with map := { w0.map with live := { w0.map.live with a := { Meta.empty with roots := [(4, wRoot)], refs := [(4096 * 4096, { wRef with raw := true, size := 4096 })] } } } } with fe := { w0.fe with ns := [(7, (wNs [1]))], cmds := [], inflight := [] }, dp := { w0.dp with kdoms := [(0, { wKdom with mode := .verify })], grans := [(5, { wGran with bytes := some (zeros 4096), fp := some (zeros 24), look := .hit (4096 * 4096) })], closed := [{ wPack with seg := 1, body := zeros 4096, rct := [(0, crc64 (zeros 4096))] }] } },
              _, 5, _, (4096 * 4096), (zeros 4096), _, wGet (by decide +kernel), ?_, ?_, wGet (by decide +kernel), ?_, ?_,
              wRest (by decide +kernel)⟩ <;> decide +kernel,
   by refine ⟨{ w0.setMeta .a { Meta.empty with roots := [(4, wRoot)] } with fe := { w0.fe with ns := [(7, (wNs [1]))], cmds := [{ Cmd.new .a 3 (wCaps ⟨1, 1⟩ 1 0 7 0 0 0 ([])) with units := [{ idx := 0, slba := 0, nblk := 1, hdr := 0, slot := 0, complete := true, abandoned := false, mseq := none, acked := true, left := 1 }] }], inflight := [] }, dp := { w0.dp with kdoms := [(0, wKdom)], grans := [(5, { wGran with bytes := some ([0]), fp := some (zeros 24), result := some .noGain })] } },
              5, { wGran with bytes := some ([0]), fp := some (zeros 24), result := some .noGain }, [0], (zeros 24), .noGain,
              ?_, ?_, ?_, ?_, ?_, ?_, ?_, ?_, ?_, ?_, ?_, ?_, ?_, ?_⟩ <;> decide +kernel,
   by refine ⟨{ w0.setMeta .a { Meta.empty with roots := [(4, wRoot)] } with map := { (w0.setMeta .a { Meta.empty with roots := [(4, wRoot)] }).map with en := false }, fe := { w0.fe with ns := [(7, (wNs [1]))], cmds := [], inflight := [] }, dp := { w0.dp with kdoms := [(0, wKdom)], grans := [(5, { wGran with dec := .zero })], pend := [.gran 5] } },
              0, 5, { wGran with dec := .zero }, ?_, ?_, ?_, ?_, ?_, ?_, ?_, ?_⟩ <;> decide +kernel,
   by refine ⟨(let w : State := { w0.setMeta .a { Meta.empty with roots := [(4, { wRoot with depth := 0 })], pages := [(0, ⟨0, 2, []⟩)], nextMpid := 1 } with fe := { w0.fe with ns := [(7, (wNs [1]))], cmds := [], inflight := [] }, dp := { w0.dp with kdoms := [(0, wKdom)], grans := [(5, wGran)], pend := [.gran 5] } }; { w with map := { w.map with en := false } }),
              _, _, .a, 4, 0, none, 0, 0, ?_, ?_, ?_, ?_, ?_, rfl, rfl⟩ <;> decide +kernel,
   by refine ⟨{ w0.setMeta .a { Meta.empty with roots := [(4, wRoot)] } with fe := { w0.fe with ns := [(7, (wNs [1]))], cmds := [], inflight := [] }, dp := { w0.dp with kdoms := [(0, { wKdom with mode := .verify })], grans := [(5, { wGran with bytes := some ([0]), fp := some (zeros 24), look := .hit 99 })] } },
              _, _, _, 5, _, 99, _, _, wGet (by decide +kernel), ?_, wGet (by decide +kernel), wGet (by decide +kernel), ?_, ?_,
              wPair _, ?_, rfl⟩ <;> decide +kernel,
   by refine ⟨{ w0.setMeta .a { Meta.empty with roots := [(4, wRoot)] } with fe := { w0.fe with ns := [(7, (wNs [1]))], cmds := [{ Cmd.new .a 3 (wCaps ⟨1, 1⟩ 1 0 7 0 0 0 ([])) with units := [wUnit] }], inflight := [] }, dp := { w0.dp with kdoms := [(0, wKdom)], grans := [(5, { wGran with unmap := some 2 })] } },
              5, _, wGet (by decide +kernel), ?_, ?_, ?_, ?_, ?_, ?_, ?_⟩ <;> decide +kernel,
   by refine ⟨{ w0.setMeta .a { Meta.empty with roots := [(4, wRoot)] } with fe := { w0.fe with ns := [(7, (wNs [1]))], cmds := [{ Cmd.new .a 3 (wCaps ⟨1, 1⟩ 1 0 7 0 0 0 ([])) with units := [wUnit] }], inflight := [] }, dp := { w0.dp with kdoms := [(0, wKdom)], grans := [(5, { wGran with bytes := some ([1]), fp := some (zeros 24), look := .hit 99, result := some .noGain })] } },
              5, _, _, _, _, 99, wGet (by decide +kernel), ?_, ?_, ?_, ?_, ?_, ?_, ?_, wGet (by decide +kernel),
              wGet (by decide +kernel), wGet (by decide +kernel), ?_, ?_, ?_, ?_⟩ <;> decide +kernel,
   by refine ⟨{ w0.setMeta .a { Meta.empty with roots := [(4, wRoot)] } with fe := { w0.fe with ns := [(7, (wNs [1]))], cmds := [{ Cmd.new .a 3 (wCaps ⟨1, 1⟩ 1 0 7 0 0 0 ([])) with units := [wUnit] }], inflight := [] }, dp := { w0.dp with kdoms := [(0, wKdom)], grans := [(5, { wGran with bytes := some ([1]), fp := some (zeros 24), result := some .noGain })], packs := [wPack] } },
              _, 5, _, _, _, _, wGet (by decide +kernel), ?_, ?_, ?_, ?_, ?_, ?_, ?_, wGet (by decide +kernel),
              wGet (by decide +kernel), wGet (by decide +kernel), ?_, ?_, (by intro loc h; cases h), wGet (by decide +kernel)⟩ <;> decide +kernel,
   by refine ⟨w0, wGran, (wNs []), { wFl with nblk := 0 }, ?_, ?_, ?_, ?_⟩ <;> decide +kernel⟩

/-- The hypotheses of PacksAndTheDustSheet can be met, clause by clause. -/
theorem witness_PacksAndTheDustSheet :
    (∃ (s : State) (d : SD) (k : Nat) (c te : Bool) (p : Pack) (ps : List Pack), (s.dp.packs.filter (fun p => decide
        (p.sd = d ∧ p.kdom = k ∧ p.copy = c)) = p :: ps) ∧ ((∀ x ∈ p :: ps, x.body.length < 65536)) ∧ te = true) ∧
    (∃ (s : State) (d : SD) (k : Nat) (c : Bool) (p : Pack), (s.dp.packs.find? (fun p => decide (p.sd = d ∧
        p.kdom = k ∧ p.copy = c ∧ 4 ≤ (s.top.epoch - p.opened).toNat)) = some p)) ∧
    (∃ (s s1 : State) (p : Pack) (x : Stripe) (kd : KDom) (nonce img : List Byte), s.nextClosed = some p ∧
        s.stripe? p.sd p.stripe = some x ∧ Table.find s.dp.kdoms p.kdom = some kd ∧ s.up .cip = true ∧
        s.up .str = true ∧ s.up .mlk = true ∧ s.rowRoom p.sd p.stripe p.row = true ∧
        s.journalRoom p.sd (packJournal p kd.slot [] [] s.top.epoch) = true ∧
        (((s.programsOf p x).any fun q => decide (q ∉ x.missing) && !s.stagingRoom p.sd (x.members.getD q 0)) = false)
        ∧ (s.kslot kd.slot).state ≠ 0 ∧ (s.kslot kd.slot).state ≠ 3 ∧
        ((s.updDp fun d => { d with closed := d.closed.filter fun q => !q.same p }).packNonce kd.slot = .drawn nonce
        s1) ∧ (img = sealPack (s.kslot kd.slot).key nonce kd.slot (if p.isMeta = true then 2 else 1) p.sd p.num p.body
        (rctBytes p.rct))) ∧
    (∃ (s : State) (h : Nat) (e : Entry), Table.find s.ubl.sheet.entries h = some e ∧ s.entryFree e = true) ∧
    (∃ (s s1 : State) (d : SD) (n us : Nat) (c : Cmd) (st : Status), (s.cmd? d n).map s.fenceStatus = some c ∧
        c.status = some st ∧ c.posted = false ∧ c.tags = [] ∧ s.up .fe = true ∧ ((st = stOk →
        s.replCovers c = true)) ∧ ((s.fe.cmds.any fun x => decide (x.stamp < c.stamp) && !x.posted && overlap x c) =
        false) ∧ (s1 =
        (match c.cap.origin with | some tag => if c.out.isEmpty = true then s else s.send (.fwdData tag 0 c.out) | none => s))) ∧
    (∃ (s : State) (d : SD) (k : Nat) (c te : Bool) (p : Pack), ((s.dp.packs.filter (fun p => decide (p.sd = d ∧
        p.kdom = k ∧ p.copy = c))).find? (fun p => decide (65536 ≤ p.body.length)) = some p)) ∧
    (∃ (s : State) (p : Pack) (x : Stripe) (kd : KDom), s.nextClosed = some p ∧ s.stripe? p.sd p.stripe = some x ∧
        Table.find s.dp.kdoms p.kdom = some kd ∧ s.up .cip = true ∧ s.up .str = true ∧ s.up .mlk = true ∧
        s.rowRoom p.sd p.stripe p.row = true ∧ s.journalRoom p.sd (packJournal p kd.slot [] [] s.top.epoch) = true ∧
        (((s.programsOf p x).any fun q => decide (q ∉ x.missing) && !s.stagingRoom p.sd (x.members.getD q 0)) = false)
        ∧ ((s.kslot kd.slot).state = 0 ∨ (s.kslot kd.slot).state = 3)) :=
  ⟨by refine ⟨{ w0.setMeta .a { Meta.empty with roots := [(4, wRoot)] } with fe := { w0.fe with ns := [(7, (wNs [1]))], cmds := [], inflight := [] }, dp := { w0.dp with kdoms := [(0, wKdom)], packs := [wPack] } },
              .a, 0, false, _, wPack, [], ?_, ?_, rfl⟩ <;> decide +kernel,
   ⟨{ w0.setMeta .a { Meta.empty with roots := [(4, wRoot)] } with fe := { w0.fe with ns := [(7, (wNs [1]))], cmds := [], inflight := [] }, dp := { w0.dp with kdoms := [(0, wKdom)], packs := [wPack] } },
    .a, 0, false, wPack, by decide +kernel⟩,
   by refine ⟨(let w := wMedia (wMeta { wStripe with st := .opened }); { w with cip := { w.cip with slots := [(0, { KSlot.empty with state := 1, key := zeros 32 })] }, dp := { w.dp with closed := [{ wPack with body := [1] }], kdoms := [(0, wKdom)] } }),
              (((let w := wMedia (wMeta { wStripe with st := .opened }); { w with cip := { w.cip with slots := [(0, { KSlot.empty with state := 1, key := zeros 32 })] }, dp := { w.dp with closed := [{ wPack with body := [1] }], kdoms := [(0, wKdom)] } })).updDp fun y => { y with closed := [] }).setSlot 0 { (((let w := wMedia (wMeta { wStripe with st := .opened }); { w with cip := { w.cip with slots := [(0, { KSlot.empty with state := 1, key := zeros 32 })] }, dp := { w.dp with closed := [{ wPack with body := [1] }], kdoms := [(0, wKdom)] } })).updDp fun y => { y with closed := [] }).kslot 0 with counter := 1 },
              { wPack with body := [1] }, { wStripe with st := .opened }, wKdom, (leBytes 4 0 ++ leBytes 8 0), _, ?_, ?_, ?_,
              ?_, ?_, ?_, ?_, ?_, ?_, ?_, ?_, rfl, rfl⟩ <;> decide +kernel,
   by refine ⟨{ w0 with ubl := { w0.ubl with sheet := ⟨[(4096, wEnt)], [(8192, [0])], 65536⟩, copied := ⟨50, 50⟩ }, map := { w0.map with log := ⟨{ w0.map.log.a with epoch := 50 }, w0.map.log.b⟩ } },
              4096, wEnt, ?_, ?_⟩ <;> decide +kernel,
   by refine ⟨{ w0.setMeta .a { Meta.empty with roots := [(4, wRoot)] } with fe := { w0.fe with hosts := [(1, wHost)], queues := [⟨⟨1, 0⟩, 32, 0, 0, 5, false⟩, ⟨⟨1, 1⟩, 32, 0, 0, 6, false⟩], ns := [(7, (wNs [1]))], waiting := [], cmds := [{ Cmd.new .a 3 (wCaps ⟨1, 1⟩ 2 0 7 0 0 0 ([])) with status := some stUnrecovered }] }, rdm := { w0.rdm with qps := [(5, wQpN), (6, wQpN)] } },
              _, .a, 3, 20, { Cmd.new .a 3 (wCaps ⟨1, 1⟩ 2 0 7 0 0 0 ([])) with status := some stUnrecovered }, stUnrecovered,
              ?_, ?_, ?_, ?_, ?_, ?_, ?_, rfl⟩ <;> decide +kernel,
   ⟨{ w0.setMeta .a { Meta.empty with roots := [(4, wRoot)] } with fe := { w0.fe with ns := [(7, (wNs [1]))], cmds := [], inflight := [] }, dp := { w0.dp with kdoms := [(0, wKdom)], packs := [{ wPack with body := zeros 65536 }] } },
    .a, 0, false, false, { wPack with body := zeros 65536 }, by decide +kernel⟩,
   by refine ⟨(let w := wMedia (wMeta { wStripe with st := .opened }); { w with dp := { w.dp with closed := [{ wPack with body := [1] }], kdoms := [(0, wKdom)] } }),
              _, _, _, wGet (by decide +kernel), wGet (by decide +kernel), wGet (by decide +kernel), ?_, ?_, ?_, ?_, ?_, ?_, ?_⟩ <;> decide +kernel⟩

/-- The hypotheses of ReadSideOfTheDatapath can be met, clause by clause. -/
theorem witness_ReadSideOfTheDatapath :
    (∃ (s s1 : State) (d : SD) (m k root gran : Nat), s.wanted d m = some (root, gran) ∧ k < 16 ∧ s.up .map = true ∧
        s.map.sectorValid d m k = false ∧ s1 = (s.fillPage d m).installSector d m k (some (root, gran / 512))) ∧
    (∃ (s : State) (i : Nat) (f : Fetch) (b : List Byte), Table.find s.dp.fetches i = some f ∧ f.image = some b ∧
        f.st = none ∧ f.spec = false ∧ f.released = false ∧ f.dropped = false ∧ s.decrypting < 16 ∧ s.up .mlk = true) ∧
    (∃ (s : State) (i : Nat) (f : Fetch) (b : List Byte), Table.find s.dp.fetches i = some f ∧ f.image = some b ∧
        f.released = true ∧ f.plain = none ∧ s.up .cip = true) ∧
    (∃ (s : State) (i n g : Nat) (f : Fetch) (b rct : List Byte) (x : RGran) (w : DWord) (raw : Bool) (loc : Nat) (ch
        : Option (Bool × Nat)) (m : List Byte), Table.find s.dp.fetches i = some f ∧ f.plain = some (b, rct) ∧
        (s.dp.rgrans.find? (fun r => decide (r.sd = f.sd ∧ r.stamp = n ∧ r.gran = g)) = some x) ∧ x.entry = some w ∧
        MapEnt.ofWord w = .stored raw loc ch ∧ loc / 4096 = f.pack ∧ (n, g) ∈ f.users ∧ s.up .dp = true ∧
        ((match ch with | none => some [] | some k => (s.dp.fetches.findSome? fun y => if y.2.sd = f.sd ∧ y.2.pack = s.succPack f.sd loc k ∧ (n, g) ∈ y.2.users then y.2.plain else none).map Prod.fst)
        = some m)) ∧
    (∃ (s : State) (i : Nat) (f : Fetch), Table.find s.dp.fetches i = some f ∧ f.spec = false ∧ f.dropped = false ∧
        f.st.isSome = true ∧ f.step = 7 ∧ s.up .mlk = true) ∧
    (∃ (s : State) (i : Nat) (f : Fetch), Table.find s.dp.fetches i = some f ∧ f.spec = false ∧ f.dropped = false ∧
        f.st.isSome = true ∧ f.step < 7 ∧ s.up .mlk = true) ∧
    (∃ (s s1 s2 : State) (i : Nat) (bad : List Nat) (f : Fetch) (n pos : Nat) (x : Stripe) (b : List Byte) (gone :
        List Nat), Table.find s.dp.fetches i = some f ∧ f.spec = false ∧ f.st.isSome = true ∧ f.step = 8 ∧
        s.up .str = true ∧ s.mayIssue (.sd f.sd) = true ∧ stripeOf (s.metaOf f.sd) (f.pack / 4096) = some (n, pos, x)
        ∧ (s1 = (if pos ∈ x.missing then s.count .strDegradedReads else s)) ∧
        s1.rebuildRow f.sd n x (f.pack % 4096) pos bad = (some b, gone, s2)) ∧
    (∃ (s : State) (i : Nat) (f : Fetch), Table.find s.dp.fetches i = some f ∧ f.dropped = true ∧
        ((f.image.isSome = true ∨ f.st.isSome = true)) ∧ s.up .mlk = true) ∧
    (∃ (s s1 s2 : State) (i : Nat) (bad : List Nat) (f : Fetch) (n pos : Nat) (x : Stripe) (gone : List Nat),
        Table.find s.dp.fetches i = some f ∧ f.spec = false ∧ f.st.isSome = true ∧ f.step = 8 ∧ s.up .str = true ∧
        s.mayIssue (.sd f.sd) = true ∧ stripeOf (s.metaOf f.sd) (f.pack / 4096) = some (n, pos, x) ∧
        (s1 = (if pos ∈ x.missing then s.count .strDegradedReads else s)) ∧
        s1.rebuildRow f.sd n x (f.pack % 4096) pos bad = (none, gone, s2)) :=
  ⟨by refine ⟨(let w : State := { w0.setMeta .a { Meta.empty with roots := [(4, { wRoot with depth := 0 })], pages := [(0, ⟨0, 2, []⟩)], nextMpid := 1 } with fe := { w0.fe with ns := [(7, (wNs [1]))], cmds := [], inflight := [] }, dp := { w0.dp with kdoms := [(0, wKdom)], grans := [(5, wGran)], pend := [.gran 5] } }; { w with map := { w.map with en := true } }),
              _, .a, 0, 0, 4, _, wHead (by decide +kernel), ?_, ?_, ?_, rfl⟩ <;> decide +kernel,
   by refine ⟨{ w0.setMeta .a { Meta.empty with roots := [(4, wRoot)] } with fe := { w0.fe with ns := [(7, (wNs [1]))], cmds := [], inflight := [] }, dp := { w0.dp with kdoms := [(0, wKdom)], fetches := [(5, { wFetch with image := some [] })] } },
              5, { wFetch with image := some [] }, [], ?_, ?_, ?_, ?_, ?_, ?_, ?_, ?_⟩ <;> decide +kernel,
   by refine ⟨{ w0.setMeta .a { Meta.empty with roots := [(4, wRoot)] } with fe := { w0.fe with ns := [(7, (wNs [1]))], cmds := [], inflight := [] }, dp := { w0.dp with kdoms := [(0, wKdom)], fetches := [(5, { wFetch with image := some [], released := true })] } },
              5, { wFetch with image := some [], released := true }, [], ?_, ?_, ?_, ?_, ?_⟩ <;> decide +kernel,
   by refine ⟨{ w0.setMeta .a { Meta.empty with roots := [(4, wRoot)] } with fe := { w0.fe with ns := [(7, (wNs [1]))], cmds := [], inflight := [] }, dp := { w0.dp with kdoms := [(0, wKdom)], fetches := [(5, { wFetch with image := some [], released := true, plain := some ([], []) })], rgrans := [{ sd := .a, stamp := 3, gran := 0, root := 4, entry := some (BitVec.ofNat 64 (2 * 2 ^ 61 + 8192 * 4096)), guess := none, laid := [] }] } },
              5, 3, 0, { wFetch with image := some [], released := true, plain := some ([], []) }, [], [],
              { sd := .a, stamp := 3, gran := 0, root := 4, entry := some (BitVec.ofNat 64 (2 * 2 ^ 61 + 8192 * 4096)), guess := none, laid := [] },
              (BitVec.ofNat 64 (2 * 2 ^ 61 + 8192 * 4096)), false, (8192 * 4096), none, [], ?_, ?_, ?_, ?_, ?_, ?_, ?_, ?_, ?_⟩ <;> decide +kernel,
   by refine ⟨{ w0.setMeta .a { Meta.empty with roots := [(4, wRoot)] } with fe := { w0.fe with ns := [(7, (wNs [1]))], cmds := [], inflight := [] }, dp := { w0.dp with kdoms := [(0, wKdom)], fetches := [(5, { wFetch with step := 7, st := some .uncorrectable })] } },
              5, { wFetch with step := 7, st := some .uncorrectable }, ?_, ?_, ?_, ?_, ?_, ?_⟩ <;> decide +kernel,
   by refine ⟨{ w0.setMeta .a { Meta.empty with roots := [(4, wRoot)] } with fe := { w0.fe with ns := [(7, (wNs [1]))], cmds := [], inflight := [] }, dp := { w0.dp with kdoms := [(0, wKdom)], fetches := [(5, { wFetch with step := 6, st := some .uncorrectable })] } },
              5, { wFetch with step := 6, st := some .uncorrectable }, ?_, ?_, ?_, ?_, ?_, ?_⟩ <;> decide +kernel,
   by refine ⟨(let w := wMedia (wMeta wStripe); { w with med := { w.med with subs := [⟨.a, 2, 3, 70, [(0, [5])]⟩, ⟨.a, 3, 4, 70, [(0, [5])]⟩] }, dp := { w.dp with fetches := [(5, { wFetch with pack := 4096, step := 8, released := true, st := some .uncorrectable })] } }),
              _, _, 5, [], _, _, _, _, _, _, wGet (by decide +kernel), ?_, ?_, ?_, ?_, ?_, wSome3 (by decide +kernel), rfl,
              wTripleSome (by decide +kernel)⟩ <;> decide +kernel,
   by refine ⟨{ w0.setMeta .a { Meta.empty with roots := [(4, wRoot)] } with fe := { w0.fe with ns := [(7, (wNs [1]))], cmds := [], inflight := [] }, dp := { w0.dp with kdoms := [(0, wKdom)], fetches := [(5, { wFetch with dropped := true, image := some [] })] } },
              5, _, wGet (by decide +kernel), ?_, ?_, ?_⟩ <;> decide +kernel,
   by refine ⟨(let w := wMedia (wMeta wStripe); { w with med := { w.med with subs := [⟨.a, 2, 3, 70, [(0, [5])]⟩, ⟨.a, 3, 4, 70, [(0, [5])]⟩] }, dp := { w.dp with fetches := [(5, { wFetch with pack := 4096, step := 8, released := true, st := some .uncorrectable })] } }),
              _, _, 5, [1, 2], _, _, _, _, _, wGet (by decide +kernel), ?_, ?_, ?_, ?_, ?_, wSome3 (by decide +kernel), rfl,
              wTriple1 (by decide +kernel)⟩ <;> decide +kernel⟩

/-- The hypotheses of ModuleCommands can be met, clause by clause. -/
theorem witness_ModuleCommands :
    (∃ (s : State) (p : Nat) (src : MSrc) (m : Module) (h : Nat) (c : MCmd) (bits : Nat) (unc : Bool) (b : List Byte)
        (x : Dom), s.mod? p = some m ∧ s.modCmd p src .read = some (h, c) ∧ moduleCheck m h c = .ok ∧
        Table.find m.tags c.pseg = some x ∧ Table.find m.slots (slotKey c.pseg c.pidx) = some (.image b)) ∧
    (∃ (s : State) (p : Nat) (src : MSrc) (m : Module) (h : Nat) (c : MCmd) (tp : Int), s.mod? p = some m ∧
        s.modCmd p src .program = some (h, c) ∧ moduleCheck m h c = .ok) ∧
    (∃ (s : State) (p : Nat) (src : MSrc) (m : Module) (h : Nat) (c : MCmd) (tp : Int), s.mod? p = some m ∧
        s.modCmd p src .erase = some (h, c) ∧ moduleCheck m h c = .ok) ∧
    (∃ (s : State) (p : Nat) (src : MSrc) (m : Module) (h : Nat) (c : MCmd) (lo hi : Int), s.mod? p = some m ∧
        s.modCmd p src .fold = some (h, c) ∧ moduleCheck m h c = .ok) ∧
    (∃ (s : State) (p : Nat) (src : MSrc) (m : Module) (h : Nat) (c : MCmd) (d : SD), s.mod? p = some m ∧
        s.modCmd p src .fence = some (h, c) ∧ moduleCheck m h c = .ok ∧ c.dom = .sd d ∧ ¬(c.oepoch = m.oepoch.get d ∧
        m.oport.get d = some h)) ∧
    (∃ (s : State) (p : Nat) (src : MSrc) (m : Module) (h : Nat) (c : MCmd), s.mod? p = some m ∧
        s.modCmd p src .descr = some (h, c) ∧ moduleCheck m h c = .ok) ∧
    (∃ (s : State) (p : Nat) (src : MSrc) (m : Module) (h : Nat) (c : MCmd) (a b x : Int), s.mod? p = some m ∧
        s.modCmd p src .temp = some (h, c) ∧ moduleCheck m h c = .ok) ∧
    (∃ (s : State) (p : Nat) (src : MSrc) (m : Module) (h : Nat) (c : MCmd), s.mod? p = some m ∧
        s.modCmd p src .admin = some (h, c) ∧ moduleCheck m h c = .ok ∧ m.split = none ∧
        4 * (c.pseg + c.tpseg) ≤ m.units) ∧
    (∃ (s : State) (i : Nat) (o : Out) (r : MRes), s.mlk.out[i]? = some o ∧ o.res = some r) ∧
    (∃ (s : State) (i : Nat) (o : Out), s.mlk.out[i]? = some o ∧ o.loc = false ∧ o.queue.isSome = true) ∧
    (∃ (s : State) (p : Nat) (src : MSrc) (m : Module) (h : Nat) (c : MCmd) (bits : Nat) (unc : Bool) (x : Dom),
        s.mod? p = some m ∧ s.modCmd p src .read = some (h, c) ∧ moduleCheck m h c = .ok ∧
        Table.find m.tags c.pseg = some x ∧ Table.find m.slots (slotKey c.pseg c.pidx) = some .torn) ∧
    (∃ (s : State) (p : Nat) (src : MSrc) (m : Module) (h : Nat) (c : MCmd) (bits : Nat) (unc : Bool), s.mod? p =
        some m ∧ s.modCmd p src .read = some (h, c) ∧ moduleCheck m h c = .ok ∧
        ((Table.find m.tags c.pseg = none ∨ Table.find m.slots (slotKey c.pseg c.pidx) = none))) ∧
    (∃ (s : State) (p : Nat) (src : MSrc) (m : Module) (h : Nat) (c : MCmd) (tp : Int), s.mod? p = some m ∧
        s.modCmd p src .program = some (h, c) ∧ moduleCheck m h c = .ok) ∧
    (∃ (s : State) (p : Nat) (src : MSrc) (m : Module) (h : Nat) (c : MCmd) (tp : Int), s.mod? p = some m ∧
        s.modCmd p src .erase = some (h, c) ∧ moduleCheck m h c = .ok) ∧
    (∃ (s : State) (p : Nat) (src : MSrc) (m : Module) (h : Nat) (c : MCmd) (lo hi : Int) (k : Nat) (l : List (Nat ×
        SlotSt)), s.mod? p = some m ∧ s.modCmd p src .fold = some (h, c) ∧ moduleCheck m h c = .ok ∧
        (((m.slotsOf c.pseg).any fun x => decide (x.1 = k)) = true) ∧
        (l = (m.slotsOf c.pseg).filter (fun x => decide (x.1 < k)))) ∧
    (∃ (s : State) (p : Nat) (src : MSrc) (m : Module) (h : Nat) (c : MCmd) (d : SD) (l : List (Nat × Nat)), s.mod? p
        = some m ∧ s.modCmd p src .fence = some (h, c) ∧ moduleCheck m h c = .ok ∧ c.dom = .sd d ∧
        c.oepoch = m.oepoch.get d ∧ m.oport.get d = some h) ∧
    (∃ (s : State) (p : Nat) (src : MSrc) (m : Module) (h : Nat) (c : MCmd), s.mod? p = some m ∧
        s.modCmd p src .admin = some (h, c) ∧ moduleCheck m h c = .ok ∧ m.split = none ∧
        m.units < 4 * (c.pseg + c.tpseg)) ∧
    (∃ (s : State) (p : Nat) (src : MSrc) (m : Module) (h : Nat) (c : MCmd) (x : Nat × Nat), s.mod? p = some m ∧
        s.modCmd p src .admin = some (h, c) ∧ moduleCheck m h c = .ok ∧ m.split = some x) ∧
    (∃ (s : State) (p : Nat) (src : MSrc) (op : MOp) (f : Module → Nat → MCmd →
        Module × MRes) (m : Module) (h : Nat) (c : MCmd), s.mod? p = some m ∧ s.modCmd p src op = some (h, c) ∧
        moduleCheck m h c ≠ .ok) :=
  ⟨by refine ⟨{ w0 with mlk := { w0.mlk with ports := [(2, { Port.empty with state := 2, rate := 6 })], mods := [(2, { wMod with desc := zeros 8 ++ leBytes 4 0 ++ leBytes 4 20000 ++ leBytes 4 4096 ++ leBytes 4 4096 ++ zeros 4072, oepoch := ⟨1, 0⟩, oport := ⟨some 0, none⟩, tags := [(70, .sd .a)], slots := [(slotKey 70 0, .image [5])], split := some (64, 2048) })], out := [⟨{ MCmd.mk0 2 .read (.sd .a) .erase with oepoch := 1, pseg := 70 }, none, false, some 0⟩] } },
              2, (.own 0), _, _, _, 3, false, [5], _, wGet (by decide +kernel), wSome (by decide +kernel), ?_,
              wGet (by decide +kernel), ?_⟩ <;> decide +kernel,
   ⟨{ w0 with mlk := { w0.mlk with ports := [(2, { Port.empty with state := 2, rate := 6 })], mods := [(2, { wMod with desc := zeros 8 ++ leBytes 4 0 ++ leBytes 4 20000 ++ leBytes 4 4096 ++ leBytes 4 4096 ++ zeros 4072, oepoch := ⟨1, 0⟩, oport := ⟨some 0, none⟩, tags := [(70, .sd .a)], slots := [(slotKey 70 0, .image [5])], split := some (64, 2048) })], out := [⟨{ MCmd.mk0 2 .program (.sd .a) .erase with oepoch := 1, pseg := 70, pidx := 1, image := List.replicate imageLen 0, len := imageLen }, none, false, some 0⟩] } },
    2, (.own 0), _, _, _, 40, wGet (by decide +kernel), wSome (by decide +kernel), by decide +kernel⟩,
   ⟨{ w0 with mlk := { w0.mlk with ports := [(2, { Port.empty with state := 2, rate := 6 })], mods := [(2, { wMod with desc := zeros 8 ++ leBytes 4 0 ++ leBytes 4 20000 ++ leBytes 4 4096 ++ leBytes 4 4096 ++ zeros 4072, oepoch := ⟨1, 0⟩, oport := ⟨some 0, none⟩, tags := [(70, .sd .a)], slots := [(slotKey 70 0, .image [5])], split := some (64, 2048) })], out := [⟨{ MCmd.mk0 2 .erase (.sd .a) .erase with oepoch := 1, pseg := 70 }, none, false, some 0⟩] } },
    2, (.own 0), _, _, _, 40, wGet (by decide +kernel), wSome (by decide +kernel), by decide +kernel⟩,
   ⟨{ w0 with mlk := { w0.mlk with ports := [(2, { Port.empty with state := 2, rate := 6 })], mods := [(2, { wMod with desc := zeros 8 ++ leBytes 4 0 ++ leBytes 4 20000 ++ leBytes 4 4096 ++ leBytes 4 4096 ++ zeros 4072, oepoch := ⟨1, 0⟩, oport := ⟨some 0, none⟩, tags := [(70, .sd .a)], slots := [(slotKey 70 0, .image [5])], split := some (64, 2048) })], out := [⟨{ MCmd.mk0 2 .fold (.sd .a) .erase with oepoch := 1, pseg := 70, tpseg := 2200, finish := true }, none, false, some 0⟩] } },
    2, (.own 0), _, _, _, 0, 5, wGet (by decide +kernel), wSome (by decide +kernel), by decide +kernel⟩,
   by refine ⟨{ w0 with mlk := { w0.mlk with ports := [(2, { Port.empty with state := 2, rate := 6 })], mods := [(2, { wMod with desc := zeros 8 ++ leBytes 4 0 ++ leBytes 4 20000 ++ leBytes 4 4096 ++ leBytes 4 4096 ++ zeros 4072, oepoch := ⟨0, 0⟩, oport := ⟨some 0, none⟩, tags := [(70, .sd .a)], slots := [(slotKey 70 0, .image [5])], split := some (64, 2048) })], out := [⟨{ MCmd.mk0 2 .fence (.sd .a) .erase with oepoch := 1 }, none, false, some 0⟩] } },
              2, (.own 0), _, _, _, .a, wGet (by decide +kernel), wSome (by decide +kernel), ?_, ?_, ?_⟩ <;> decide +kernel,
   ⟨{ w0 with mlk := { w0.mlk with ports := [(2, { Port.empty with state := 2, rate := 6 })], mods := [(2, { wMod with desc := zeros 8 ++ leBytes 4 0 ++ leBytes 4 20000 ++ leBytes 4 4096 ++ leBytes 4 4096 ++ zeros 4072, oepoch := ⟨1, 0⟩, oport := ⟨some 0, none⟩, tags := [(70, .sd .a)], slots := [(slotKey 70 0, .image [5])], split := some (64, 2048) })], out := [⟨{ MCmd.mk0 2 .descr (.sd .a) .descr with oepoch := 1 }, none, false, some 0⟩] } },
    2, (.own 0), _, _, _, wGet (by decide +kernel), wSome (by decide +kernel), by decide +kernel⟩,
   ⟨{ w0 with mlk := { w0.mlk with ports := [(2, { Port.empty with state := 2, rate := 6 })], mods := [(2, { wMod with desc := zeros 8 ++ leBytes 4 0 ++ leBytes 4 20000 ++ leBytes 4 4096 ++ leBytes 4 4096 ++ zeros 4072, oepoch := ⟨1, 0⟩, oport := ⟨some 0, none⟩, tags := [(70, .sd .a)], slots := [(slotKey 70 0, .image [5])], split := some (64, 2048) })], out := [⟨{ MCmd.mk0 2 .temp (.sd .a) .temp with oepoch := 1 }, none, false, some 0⟩] } },
    2, (.own 0), _, _, _, 40, -3, 50, wGet (by decide +kernel), wSome (by decide +kernel), by decide +kernel⟩,
   by refine ⟨{ w0 with mlk := { w0.mlk with ports := [(2, { Port.empty with state := 2, rate := 6 })], mods := [(2, { wMod with desc := zeros 8 ++ leBytes 4 0 ++ leBytes 4 20000 ++ leBytes 4 4096 ++ leBytes 4 4096 ++ zeros 4072, oepoch := ⟨1, 0⟩, oport := ⟨some 0, none⟩, tags := [(70, .sd .a)], slots := [(slotKey 70 0, .image [5])], split := none })], out := [⟨{ MCmd.mk0 2 .admin (.sd .a) .admin with oepoch := 1, pseg := 64, tpseg := 64 }, none, false, some 0⟩] } },
              2, (.own 0), _, _, _, wGet (by decide +kernel), wSome (by decide +kernel), ?_, ?_, ?_⟩ <;> decide +kernel,
   ⟨{ w0 with mlk := { w0.mlk with out := [⟨MCmd.mk0 2 .temp (.sd .a) .temp, some ⟨.ok, 5, []⟩, false, some 0⟩] } },
    0, _, ⟨.ok, 5, []⟩, wGet (by decide +kernel), by decide +kernel⟩,
   by refine ⟨{ w0 with mlk := { w0.mlk with out := [⟨MCmd.mk0 2 .temp (.sd .a) .temp, none, false, some 0⟩] } }, 0, _,
              wGet (by decide +kernel), ?_, ?_⟩ <;> decide +kernel,
   by refine ⟨{ w0 with mlk := { w0.mlk with ports := [(2, { Port.empty with state := 2, rate := 6 })], mods := [(2, { wMod with desc := zeros 8 ++ leBytes 4 0 ++ leBytes 4 20000 ++ leBytes 4 4096 ++ leBytes 4 4096 ++ zeros 4072, oepoch := ⟨1, 0⟩, oport := ⟨some 0, none⟩, tags := [(70, .sd .a)], slots := [(slotKey 70 0, .torn)], split := some (64, 2048) })], out := [⟨{ MCmd.mk0 2 .read (.sd .a) .erase with oepoch := 1, pseg := 70 }, none, false, some 0⟩] } },
              2, (.own 0), _, _, _, 3, false, _, wGet (by decide +kernel), wSome (by decide +kernel), ?_,
              wGet (by decide +kernel), ?_⟩ <;> decide +kernel,
   by refine ⟨{ w0 with mlk := { w0.mlk with ports := [(2, { Port.empty with state := 2, rate := 6 })], mods := [(2, { wMod with desc := zeros 8 ++ leBytes 4 0 ++ leBytes 4 20000 ++ leBytes 4 4096 ++ leBytes 4 4096 ++ zeros 4072, oepoch := ⟨1, 0⟩, oport := ⟨some 0, none⟩, tags := [(70, .sd .a)], slots := [(slotKey 70 0, .image [5])], split := some (64, 2048) })], out := [⟨{ MCmd.mk0 2 .read (.sd .a) .erase with oepoch := 1, pseg := 71 }, none, false, some 0⟩] } },
              2, (.own 0), _, _, _, 3, false, wGet (by decide +kernel), wSome (by decide +kernel), ?_, ?_⟩ <;> decide +kernel,
   ⟨{ w0 with mlk := { w0.mlk with ports := [(2, { Port.empty with state := 2, rate := 6 })], mods := [(2, { wMod with desc := zeros 8 ++ leBytes 4 0 ++ leBytes 4 20000 ++ leBytes 4 4096 ++ leBytes 4 4096 ++ zeros 4072, oepoch := ⟨1, 0⟩, oport := ⟨some 0, none⟩, tags := [(70, .sd .a)], slots := [(slotKey 70 0, .image [5])], split := some (64, 2048) })], out := [⟨{ MCmd.mk0 2 .program (.sd .a) .erase with oepoch := 1, pseg := 70, pidx := 1, image := List.replicate imageLen 0, len := imageLen }, none, false, some 0⟩] } },
    2, (.own 0), _, _, _, 40, wGet (by decide +kernel), wSome (by decide +kernel), by decide +kernel⟩,
   ⟨{ w0 with mlk := { w0.mlk with ports := [(2, { Port.empty with state := 2, rate := 6 })], mods := [(2, { wMod with desc := zeros 8 ++ leBytes 4 0 ++ leBytes 4 20000 ++ leBytes 4 4096 ++ leBytes 4 4096 ++ zeros 4072, oepoch := ⟨1, 0⟩, oport := ⟨some 0, none⟩, tags := [(70, .sd .a)], slots := [(slotKey 70 0, .image [5])], split := some (64, 2048) })], out := [⟨{ MCmd.mk0 2 .erase (.sd .a) .erase with oepoch := 1, pseg := 70 }, none, false, some 0⟩] } },
    2, (.own 0), _, _, _, 40, wGet (by decide +kernel), wSome (by decide +kernel), by decide +kernel⟩,
   by refine ⟨{ w0 with mlk := { w0.mlk with ports := [(2, { Port.empty with state := 2, rate := 6 })], mods := [(2, { wMod with desc := zeros 8 ++ leBytes 4 0 ++ leBytes 4 20000 ++ leBytes 4 4096 ++ leBytes 4 4096 ++ zeros 4072, oepoch := ⟨1, 0⟩, oport := ⟨some 0, none⟩, tags := [(70, .sd .a)], slots := [(slotKey 70 0, .image [5])], split := some (64, 2048) })], out := [⟨{ MCmd.mk0 2 .fold (.sd .a) .erase with oepoch := 1, pseg := 70, tpseg := 2200, finish := true }, none, false, some 0⟩] } },
              2, (.own 0), _, _, _, 0, 5, 0, _, wGet (by decide +kernel), wSome (by decide +kernel), ?_, ?_, rfl⟩ <;> decide +kernel,
   by refine ⟨{ w0 with mlk := { w0.mlk with ports := [(2, { Port.empty with state := 2, rate := 6 })], mods := [(2, { wMod with desc := zeros 8 ++ leBytes 4 0 ++ leBytes 4 20000 ++ leBytes 4 4096 ++ leBytes 4 4096 ++ zeros 4072, oepoch := ⟨1, 0⟩, oport := ⟨some 0, none⟩, tags := [(70, .sd .a)], slots := [(slotKey 70 0, .image [5])], split := some (64, 2048) })], out := [⟨{ MCmd.mk0 2 .fence (.sd .a) .erase with oepoch := 1 }, none, false, some 0⟩] } },
              2, (.own 0), _, _, _, .a, [], wGet (by decide +kernel), wSome (by decide +kernel), ?_, ?_, ?_, ?_⟩ <;> decide +kernel,
   by refine ⟨{ w0 with mlk := { w0.mlk with ports := [(2, { Port.empty with state := 2, rate := 6 })], mods := [(2, { wMod with desc := zeros 8 ++ leBytes 4 0 ++ leBytes 4 20000 ++ leBytes 4 4096 ++ leBytes 4 4096 ++ zeros 4072, oepoch := ⟨1, 0⟩, oport := ⟨some 0, none⟩, tags := [(70, .sd .a)], slots := [(slotKey 70 0, .image [5])], split := none })], out := [⟨{ MCmd.mk0 2 .admin (.sd .a) .admin with oepoch := 1, pseg := 4000, tpseg := 6000 }, none, false, some 0⟩] } },
              2, (.own 0), _, _, _, wGet (by decide +kernel), wSome (by decide +kernel), ?_, ?_, ?_⟩ <;> decide +kernel,
   ⟨{ w0 with mlk := { w0.mlk with ports := [(2, { Port.empty with state := 2, rate := 6 })], mods := [(2, { wMod with desc := zeros 8 ++ leBytes 4 0 ++ leBytes 4 20000 ++ leBytes 4 4096 ++ leBytes 4 4096 ++ zeros 4072, oepoch := ⟨1, 0⟩, oport := ⟨some 0, none⟩, tags := [(70, .sd .a)], slots := [(slotKey 70 0, .image [5])], split := some (64, 2048) })], out := [⟨{ MCmd.mk0 2 .admin (.sd .a) .admin with oepoch := 1, pseg := 64, tpseg := 64 }, none, false, some 0⟩] } },
    2, (.own 0), _, _, _, _, wGet (by decide +kernel), wSome (by decide +kernel), by decide +kernel,
    wGet (by decide +kernel)⟩,
   ⟨{ w0 with mlk := { w0.mlk with ports := [(2, { Port.empty with state := 2, rate := 6 })], mods := [(2, { wMod with desc := zeros 8 ++ leBytes 4 0 ++ leBytes 4 20000 ++ leBytes 4 4096 ++ leBytes 4 4096 ++ zeros 4072, oepoch := ⟨1, 0⟩, oport := ⟨some 0, none⟩, tags := [(70, .sd .a)], slots := [(slotKey 70 0, .image [5])], split := some (64, 2048) })], out := [⟨{ MCmd.mk0 2 .read (.sd .a) .erase with oepoch := 1, pseg := 19999 }, none, false, some 0⟩] } },
    2, (.own 0), .read, (fun m _ _ => (m, ⟨.ok, 0, []⟩)), _, _, _, wGet (by decide +kernel),
    wSome (by decide +kernel), by decide +kernel⟩⟩

/-- The hypotheses of ModuleAdmission can be met, clause by clause. -/
theorem witness_ModuleAdmission :
    (∃ (s s1 : State) (p r w : Nat) (m : Module), p < 48 ∧ (s.port p).state = 1 ∧ (s.port p).power = true ∧
        (s.port p).step ≤ 1 ∧ s.up .mlk = true ∧ s.mod? p = some m ∧
        (s1 = ((s.updPort p fun x => { x with rate := r, width := w, step := 2, descrFails := 0 }).updMed fun m =>
        { m with temps := Table.del m.temps p }))) ∧
    (∃ (s : State) (p : Nat) (m : Module), (s.port p).state = 1 ∧ s.up .mlk = true ∧ s.mod? p = some m ∧
        (s.port p).step = 2) ∧
    (∃ (s : State) (p : Nat), (s.port p).state = 1 ∧ (s.port p).step ≤ 1) ∧
    (∃ (s : State) (p : Nat), (s.port p).state = 3) ∧
    (∃ (s : State) (p : Nat), (s.port p).state ≠ 3) ∧
    (∃ (s : State) (p c : Nat), ((s.port p).state = 1 ∨ (s.port p).state = 2) ∧ (c = 2 ∨ c = 3)) ∧
    (∃ (s : State) (p : Nat), ((s.port p).state = 1 ∨ (s.port p).state = 2) ∧ (s.port p).rate ≠ 0) ∧
    (∃ (s s1 : State) (p r w : Nat), ((s.port p).state = 1 ∨ (s.port p).state = 2) ∧ (s.port p).rate ≠ 0 ∧
        (s1 = (s.updPort p fun x => { x with rate := r, width := w }).count .mlkRetrains)) ∧
    (∃ (s s1 : State) (p r w : Nat) (m : Module), p < 48 ∧ (s.port p).state = 1 ∧ (s.port p).power = true ∧
        (s.port p).step ≤ 1 ∧ s.up .mlk = true ∧ (s1 = (((s.updMlk fun x =>
        { x with mods := Table.put x.mods p m }).updPort p fun x =>
        { x with rate := r, width := w, step := 2, descrFails := 0 }).updMed fun m =>
        { m with temps := Table.del m.temps p }))) ∧
    (∃ (s : State) (p : Nat) (m : Module) (x : Serial), (s.port p).state = 1 ∧ s.up .mlk = true ∧ s.mod? p = some m ∧
        (s.port p).step = 4 ∧ (s.med.serials.find? (fun y => decide (y.serial = m.serial)) = some x)) ∧
    (∃ (s : State) (p : Nat) (m : Module), (s.port p).state = 1 ∧ s.up .mlk = true ∧ s.mod? p = some m ∧
        (s.port p).step = 4 ∧ (s.med.serials.find? (fun y => decide (y.serial = m.serial)) = none) ∧
        s.med.commissioned = true ∧ s.owns .a = true) ∧
    (∃ (s : State) (p : Nat) (m : Module), (s.port p).state = 1 ∧ s.up .mlk = true ∧ s.mod? p = some m ∧
        (s.port p).step = 5) ∧
    (∃ (s s0 s1 : State) (p : Nat) (m : Module), (s.port p).state = 1 ∧ s.up .mlk = true ∧ s.mod? p = some m ∧
        (s.port p).step = 6 ∧ (s0 = s.extendModule p m.desc (slice m.desc 1184 16) ((s.med.serials.find? (fun y =>
        decide (y.serial = m.serial))).bind (·.image))) ∧ (s1 = (if s0.markedErase p = true then s0.eraseMarked p else
        s0))) ∧
    (∃ (s : State) (p : Nat) (x : ModUpd), (((s.port p).state = 1 ∨ (s.port p).state = 5)) ∧
        Table.find s.upd.mods p = some x ∧ ((x.state = 4 ∨ x.state = 5))) ∧
    (∃ (s : State) (p : Nat), (s.port p).state = 3) ∧
    (∃ (s : State) (p : Nat), (s.port p).state = 2 ∧ (3 ≤ ((s.port p).timeouts.filter fun t => decide
        (s.pwr.rtc.toNat - t ≤ 1000000)).length)) :=
  ⟨by refine ⟨{ w0 with mlk := { w0.mlk with ports := [(47, { Port.empty with state := 1, step := 1, power := true })], mods := [(47, wMod)] } },
              _, 47, 6, 2, _, ?_, ?_, ?_, ?_, ?_, wGet (by decide +kernel), rfl⟩ <;> decide +kernel,
   by refine ⟨{ w0 with mlk := { w0.mlk with ports := [(47, { Port.empty with state := 1, step := 2 })], mods := [(47, wMod)] } },
              47, wMod, ?_, ?_, ?_, ?_⟩ <;> decide +kernel,
   by refine ⟨{ w0 with mlk := { w0.mlk with ports := [(47, { Port.empty with state := 1, step := 0 })], mods := [(47, wMod)] } },
              47, ?_, ?_⟩ <;> decide +kernel,
   ⟨{ w0 with mlk := { w0.mlk with ports := [(47, { Port.empty with state := 3, step := 0 })], mods := [(47, wMod)] } },
    47, by decide +kernel⟩,
   ⟨{ w0 with mlk := { w0.mlk with ports := [(47, { Port.empty with state := 2, step := 0 })], mods := [(47, wMod)] } },
    47, by decide +kernel⟩,
   by refine ⟨{ w0 with mlk := { w0.mlk with ports := [(47, { Port.empty with state := 2, step := 0 })], mods := [(47, wMod)] } },
              47, 2, ?_, ?_⟩ <;> decide +kernel,
   by refine ⟨{ w0 with mlk := { w0.mlk with ports := [(47, { Port.empty with state := 2, step := 0, rate := 5 })], mods := [(47, wMod)] } },
              47, ?_, ?_⟩ <;> decide +kernel,
   by refine ⟨{ w0 with mlk := { w0.mlk with ports := [(47, { Port.empty with state := 2, step := 0, rate := 5 })], mods := [(47, wMod)] } },
              _, 47, 0, 0, ?_, ?_, rfl⟩ <;> decide +kernel,
   by refine ⟨{ w0 with mlk := { w0.mlk with ports := [(47, { Port.empty with state := 1, step := 1, power := true })], mods := [(47, wMod)] } },
              _, 47, 6, 2, wMod, ?_, ?_, ?_, ?_, ?_, rfl⟩ <;> decide +kernel,
   by refine ⟨{ w0 with mlk := { w0.mlk with ports := [(47, { Port.empty with state := 1, step := 4 })], mods := [(47, wMod)] }, med := { w0.med with serials := [⟨wMod.serial, 64, 2048, false, none⟩] } },
              47, _, _, ?_, ?_, wGet (by decide +kernel), ?_, wGet (by decide +kernel)⟩ <;> decide +kernel,
   by refine ⟨{ w0 with mlk := { w0.mlk with ports := [(47, { Port.empty with state := 1, step := 4 })], mods := [(47, wMod)] }, med := { w0.med with commissioned := true } },
              47, _, ?_, ?_, wGet (by decide +kernel), ?_, ?_, ?_, ?_⟩ <;> decide +kernel,
   by refine ⟨{ w0 with mlk := { w0.mlk with ports := [(47, { Port.empty with state := 1, step := 5 })], mods := [(47, wMod)] } },
              47, _, ?_, ?_, wGet (by decide +kernel), ?_⟩ <;> decide +kernel,
   by refine ⟨{ w0 with mlk := { w0.mlk with ports := [(47, { Port.empty with state := 1, step := 6 })], mods := [(47, wMod)] } },
              _, _, 47, _, ?_, ?_, wGet (by decide +kernel), ?_, rfl, rfl⟩ <;> decide +kernel,
   by refine ⟨{ w0 with mlk := { w0.mlk with ports := [(47, { Port.empty with state := 1, step := 6 })], mods := [(47, wMod)] }, upd := { w0.upd with mods := [(47, ⟨4, 7, []⟩)] } },
              47, _, ?_, wGet (by decide +kernel), ?_⟩ <;> decide +kernel,
   ⟨{ w0 with mlk := { w0.mlk with ports := [(47, { Port.empty with state := 3, step := 0 })], mods := [(47, wMod)] } },
    47, by decide +kernel⟩,
   by refine ⟨{ w0 with mlk := { w0.mlk with ports := [(47, { Port.empty with state := 2, step := 0, timeouts := [0, 0, 0] })], mods := [(47, wMod)] } },
              47, ?_, ?_⟩ <;> decide +kernel⟩

/-- The hypotheses of MediaManagement can be met, clause by clause. -/
theorem witness_MediaManagement :
    (∃ (s : State) (i : Nat) (ok : Bool) (temp : Int) (x : Sub), s.med.subs[i]? = some x ∧
        ((s.mlk.out.any fun o => decide (o.cmd.port = x.port ∧ o.cmd.pseg = x.pseg ∧ o.cmd.op = .program)) = false) ∧
        s.up .med = true ∧ s.subGone x = false ∧ (s.port x.port).state ≠ 1 ∧ (s.port x.port).state ≠ 3 ∧
        (s.port x.port).state ≠ 4) ∧
    (∃ (s : State) (i : Nat) (ok : Bool) (temp : Int) (x : Sub), s.med.subs[i]? = some x ∧
        ((s.mlk.out.any fun o => decide (o.cmd.port = x.port ∧ o.cmd.pseg = x.pseg ∧ o.cmd.op = .program)) = false) ∧
        s.up .med = true ∧ s.subGone x = false ∧ (s.port x.port).state = 4) ∧
    (∃ (s : State) (d : SD) (n : Nat) (x : Stripe) (todo : List (Nat × Nat)), s.owns d = true ∧ s.up .med = true ∧
        s.up .mlk = true ∧ s.trowelNext d = some (n, x) ∧ (todo = x.members.zipIdx.filter (fun m => !s.inFinish d
        m.1)) ∧ ((s.metaOf d).liveBytes x * 100 / x.capacity < s.foldMin ∨ (todo.all fun m => (s.segOf d m.1).any fun
        e => decide (s.freeCount e.port true > 0)) = false)) ∧
    (∃ (s : State) (d : SD) (n : Nat) (x : Stripe) (todo : List (Nat × Nat)), s.owns d = true ∧ s.up .med = true ∧
        s.up .mlk = true ∧ s.trowelNext d = some (n, x) ∧ (todo = x.members.zipIdx.filter (fun m => !s.inFinish d
        m.1)) ∧ s.foldMin ≤ (s.metaOf d).liveBytes x * 100 / x.capacity ∧
        ((todo.all fun m => (s.segOf d m.1).any fun e => decide (s.freeCount e.port true > 0)) = true)) ∧
    (∃ (s : State) (i : Nat) (f : Folding) (rep : List Byte) (x : Stripe) (e : SegEnt), s.med.folds[i]? = some f ∧
        f.report = some rep ∧ s.stripe? f.sd f.stripe = some x ∧ s.segOf f.sd (x.members.getD f.pos 0) = some e) ∧
    (∃ (s : State) (d : SD) (n : Nat), (s.metaOf d).gc.x = 0 ∧ s.owns d = true ∧ s.up .med = true ∧
        s.logFull d = false ∧ s.queued d = some n) ∧
    (∃ (s : State) (d : SD) (n : Nat), (s.metaOf d).gc.x = 0 ∧ s.owns d = true ∧ s.up .med = true ∧
        s.logFull d = false ∧ s.queued d = none ∧ s.bestScored d = some n) ∧
    (∃ (s : State) (d : SD) (x : Stripe), (s.metaOf d).gc.x ≠ 0 ∧ s.owns d = true ∧ s.up .med = true ∧
        s.up .cip = true ∧ s.logFull d = false ∧ s.stripe? d ((s.metaOf d).gc.x - 1) = some x ∧
        s.nextCopy d x ((s.metaOf d).gc.y * 4096 + (s.metaOf d).gc.z) = none ∧ s.nextCopy d x 0 = none) ∧
    (∃ (s s1 s2 : State) (d : SD) (x : Stripe) (p l : Nat) (r : RefRec), (s.metaOf d).gc.x ≠ 0 ∧ s.owns d = true ∧
        s.up .med = true ∧ s.up .cip = true ∧ s.logFull d = false ∧ s.stripe? d ((s.metaOf d).gc.x - 1) = some x ∧
        s.nextCopy d x ((s.metaOf d).gc.y * 4096 + (s.metaOf d).gc.z) = some (p, l, r) ∧
        ((s.needsPack d r.ddom r.size = false ∨ s.med.gcSpent < s.cfg.medCredit.value.toNat)) ∧
        s.copyGran d ((s.metaOf d).gc.x - 1) l r = some s1 ∧
        (s2 = (((s1.updMed fun m => { m with gcSpent := m.gcSpent + (s1.copyPacks d - s.copyPacks d) }).count
        .medGcPacks (s1.copyPacks d - s.copyPacks d)).delta d (.cursor 1 ⟨(s.metaOf d).gc.x, (p + 1) / 4096, (p + 1) %
        4096⟩)))) ∧
    (∃ (s s1 s3 : State) (i : Nat) (c : Copied) (rx : RefRec), s.med.copied[i]? = some c ∧
        (((s.refOf c.sd c.dst).all fun r => decide (r.st ≠ .live)) = false) ∧ s.refOf c.sd c.src = some rx ∧
        s.copyClosed c.sd c.dst = true ∧ s.up .map = true ∧ s.logFull c.sd = false ∧
        (s1 = (if s.fullNow c.sd (fullKey rx.ddom rx.fp) = some c.src then (s.updDp (·.moveHot rx.ddom c.sd rx.fp
        c.src c.dst)).delta c.sd (.full (fullKey rx.ddom rx.fp) (some c.dst)) else s.updDp (·.moveHot rx.ddom c.sd
        rx.fp c.src c.dst))) ∧ (s3 = (Table.getD (s1.metaOf c.sd).backlog (Loc.ofNum c.src).seg []).foldl (fun s b =>
        if b.loc = c.src then s.evbHold (s.relocateOne c.sd c.src c.dst b) else s) s1) ∧
        (((s3.refOf c.sd c.src).any fun r => decide (r.count = 0) || r.sat) = true)) ∧
    (∃ (s : State) (d : SD) (n : Nat) (x : Stripe), s.stripe? d n = some x ∧ x.st ≠ .freed ∧ s.owns d = true ∧
        s.up .med = true ∧ s.freeable d n x = true) ∧
    (∃ (s : State) (p g : Nat) (r : PSegRec), s.psegOf p g = some r ∧ ((r.st = .pendingErase ∨ (r.st = .erasing ∧
        (s.mlk.out.any fun o => decide (o.cmd.op = .erase ∧ o.cmd.port = p ∧ o.cmd.pseg = g)) = false))) ∧
        s.owns r.sd = true ∧ s.present p = true ∧ s.up .med = true ∧ s.up .mlk = true ∧
        s.eraseTurn (psegKey p g) = true ∧ ((s.mlk.out.any fun o => o.res.isNone && decide (o.cmd.port = p ∧
        o.cmd.pseg = g ∧ o.cmd.op ≠ .descr ∧ o.cmd.op ≠ .temp ∧ o.cmd.op ≠ .admin ∧ o.cmd.op ≠ .fence)) = false) ∧
        r.changed ≤ s.map.ckpt.get r.sd ∧ Table.getD s.med.pins (psegKey p g) 0 = 0) ∧
    (∃ (s : State) (p g : Nat) (r : PSegRec), s.psegOf p g = some r ∧ ((r.st = .pendingErase ∨ (r.st = .erasing ∧
        (s.mlk.out.any fun o => decide (o.cmd.op = .erase ∧ o.cmd.port = p ∧ o.cmd.pseg = g)) = false))) ∧
        s.owns r.sd = true ∧ s.present p = true ∧ s.up .med = true ∧ s.up .mlk = true ∧
        s.eraseTurn (psegKey p g) = true ∧ ((s.mlk.out.any fun o => o.res.isNone && decide (o.cmd.port = p ∧
        o.cmd.pseg = g ∧ o.cmd.op ≠ .descr ∧ o.cmd.op ≠ .temp ∧ o.cmd.op ≠ .admin ∧ o.cmd.op ≠ .fence)) = false) ∧
        ((s.map.ckpt.get r.sd < r.changed ∨ Table.getD s.med.pins (psegKey p g) 0 ≠ 0)) ∧ psegKey p g ∉ s.med.deferred) ∧
    (∃ (s : State) (d : SD) (fi me : Bool), s.owns d = true ∧ s.up .med = true) ∧
    (∃ (s : State) (p : Nat) (fi : Bool) (m : Module) (l : List (Nat × PSegRec)) (k : Nat × PSegRec) (hi lo n pos :
        Nat) (x : Stripe), s.mod? p = some m ∧ l = s.segsOn p fi ∧ (hi = l.foldl (fun n x => max n x.2.erases) 0) ∧
        (lo = l.foldl (fun n x => min n x.2.erases) hi) ∧ k ∈ l ∧ k.2.st = .allocated ∧
        ((∀ x ∈ l, x.2.st = .allocated → x = k ∨ k.2.erases < x.2.erases)) ∧
        stripeOf (s.metaOf k.2.sd) k.2.seg = some (n, pos, x) ∧ s.owns k.2.sd = true ∧ s.present p = true ∧
        s.up .med = true ∧ (hi - lo) * 20 ≤ m.endurance fi) ∧
    (∃ (s : State) (p : Nat) (fi : Bool) (m : Module) (l : List (Nat × PSegRec)) (k : Nat × PSegRec) (hi lo n pos :
        Nat) (x : Stripe), s.mod? p = some m ∧ l = s.segsOn p fi ∧ (hi = l.foldl (fun n x => max n x.2.erases) 0) ∧
        (lo = l.foldl (fun n x => min n x.2.erases) hi) ∧ k ∈ l ∧ k.2.st = .allocated ∧
        ((∀ x ∈ l, x.2.st = .allocated → x = k ∨ k.2.erases < x.2.erases)) ∧
        stripeOf (s.metaOf k.2.sd) k.2.seg = some (n, pos, x) ∧ s.owns k.2.sd = true ∧ s.present p = true ∧
        s.up .med = true ∧ m.endurance fi < (hi - lo) * 20 ∧ x.st = .closed ∧
        ((∀ a, Table.find s.med.wearAt p = some a → a + 3600000000 ≤ s.pwr.rtc.toNat))) ∧
    (∃ (s : State) (p g : Nat) (r : PSegRec) (m : Module), s.psegOf p g = some r ∧ s.mod? p = some m ∧
        r.st = .allocated ∧ s.owns r.sd = true ∧ s.up .med = true ∧
        (m.readLimit r.finish ≤ Table.getD s.med.reads (psegKey p g) 0 ∨ (∃ card, s.cardOf p = some card ∧
        r.empty = false ∧ boundsAt card 4 (segAge s.hour r) = 3))) ∧
    (∃ (s : State) (p : Nat), s.present p = true ∧ s.up .med = true ∧ s.up .mlk = true ∧
        ((s.mlk.out.any fun o => decide (o.cmd.port = p ∧ o.cmd.op = .temp)) = false)) ∧
    (∃ (s : State) (p code : Nat), (p, code) ∉ s.med.health ∧ s.healthOk p code true = true) ∧
    (∃ (s : State) (p code : Nat), (p, code) ∈ s.med.health ∧ s.healthOk p code false = true) ∧
    (∃ (s : State) (p : Nat) (temp : Int) (m : Module), (s.port p).state = 3 ∧ s.mod? p = some m ∧ s.up .med = true) ∧
    (∃ (s : State) (d : SD) (x : Stripe), (s.metaOf d).gc.x ≠ 0 ∧ s.owns d = true ∧ s.up .med = true ∧
        s.up .cip = true ∧ s.logFull d = false ∧ s.stripe? d ((s.metaOf d).gc.x - 1) = some x ∧
        s.nextCopy d x ((s.metaOf d).gc.y * 4096 + (s.metaOf d).gc.z) = none ∧ (s.nextCopy d x 0).isSome = true) ∧
    (∃ (s s1 s2 : State) (d : SD) (x : Stripe) (p l : Nat) (r : RefRec), (s.metaOf d).gc.x ≠ 0 ∧ s.owns d = true ∧
        s.up .med = true ∧ s.up .cip = true ∧ s.logFull d = false ∧ s.stripe? d ((s.metaOf d).gc.x - 1) = some x ∧
        s.nextCopy d x ((s.metaOf d).gc.y * 4096 + (s.metaOf d).gc.z) = some (p, l, r) ∧
        s.needsPack d r.ddom r.size = true ∧ s.cfg.medCredit.value.toNat ≤ s.med.gcSpent ∧ s.urgent d = true ∧
        s.copyGran d ((s.metaOf d).gc.x - 1) l r = some s1 ∧
        (s2 = (((s1.updMed fun m => { m with gcSpent := m.gcSpent + (s1.copyPacks d - s.copyPacks d) }).count
        .medGcPacks (s1.copyPacks d - s.copyPacks d)).delta d (.cursor 1 ⟨(s.metaOf d).gc.x, (p + 1) / 4096, (p + 1) %
        4096⟩)))) ∧
    (∃ (s : State) (d : SD), (s.metaOf d).gc.x ≠ 0 ∧ s.owns d = true ∧ s.up .med = true ∧ s.up .cip = true ∧
        s.logFull d = false ∧ s.stripe? d ((s.metaOf d).gc.x - 1) = none) ∧
    (∃ (s s1 s3 : State) (i : Nat) (c : Copied) (rx : RefRec), s.med.copied[i]? = some c ∧
        (((s.refOf c.sd c.dst).all fun r => decide (r.st ≠ .live)) = false) ∧ s.refOf c.sd c.src = some rx ∧
        s.copyClosed c.sd c.dst = true ∧ s.up .map = true ∧ s.logFull c.sd = false ∧
        (s1 = (if s.fullNow c.sd (fullKey rx.ddom rx.fp) = some c.src then (s.updDp (·.moveHot rx.ddom c.sd rx.fp
        c.src c.dst)).delta c.sd (.full (fullKey rx.ddom rx.fp) (some c.dst)) else s.updDp (·.moveHot rx.ddom c.sd
        rx.fp c.src c.dst))) ∧ (s3 = (Table.getD (s1.metaOf c.sd).backlog (Loc.ofNum c.src).seg []).foldl (fun s b =>
        if b.loc = c.src then s.evbHold (s.relocateOne c.sd c.src c.dst b) else s) s1) ∧
        (((s3.refOf c.sd c.src).any fun r => decide (r.count = 0) || r.sat) = false)) ∧
    (∃ (s : State) (i : Nat) (c : Copied), s.med.copied[i]? = some c ∧
        (((s.refOf c.sd c.dst).all fun r => decide (r.st ≠ .live)) = false) ∧ s.refOf c.sd c.src = none) ∧
    (∃ (s : State) (i : Nat) (c : Copied), s.med.copied[i]? = some c ∧
        (((s.refOf c.sd c.dst).all fun r => decide (r.st ≠ .live)) = true)) :=
  ⟨by refine ⟨(let w := wMedia (wMeta wStripe); { w with med := { w.med with subs := [⟨.a, 1, 2, 70, []⟩] } }), 0, true, 30,
              ⟨.a, 1, 2, 70, []⟩, ?_, ?_, ?_, ?_, ?_, ?_, ?_⟩ <;> decide +kernel,
   by refine ⟨(let w := wMedia (wMeta wStripe); { w with med := { w.med with subs := [⟨.a, 1, 2, 70, []⟩] }, mlk := { w.mlk with ports := Table.put w.mlk.ports 2 { Port.empty with state := 4 } } }),
              0, true, 30, ⟨.a, 1, 2, 70, []⟩, ?_, ?_, ?_, ?_, ?_⟩ <;> decide +kernel,
   by refine ⟨(let w := wMedia (wMeta wStripe); { w with cfg := { w.cfg with medGc := { value := 0x3C08, near := none, far := none } } }),
              .a, 1, wStripe, _, ?_, ?_, ?_, ?_, rfl, ?_⟩ <;> decide +kernel,
   by refine ⟨(let w := wMedia (wMeta wStripe); { w with cfg := { w.cfg with medGc := { value := 8, near := none, far := none } }, med := { w.med with pseg := w.med.pseg ++ ([2, 3, 4].flatMap fun p => (List.range 3).map fun i => (psegKey p (3000 + i), { PSegRec.fresh true with st := .free })) } }),
              .a, 1, wStripe, _, ?_, ?_, ?_, ?_, rfl, ?_, ?_⟩ <;> decide +kernel,
   by refine ⟨(let w := wMedia (wMeta wStripe); { w with med := { w.med with folds := [⟨.a, 1, 0, 2, 70, 3000, 0, some [20, 30]⟩] } }),
              0, ⟨.a, 1, 0, 2, 70, 3000, 0, some [20, 30]⟩, [20, 30], wStripe, ⟨none, 2, 70⟩, ?_, ?_, ?_, ?_⟩ <;> decide +kernel,
   by refine ⟨(let w := wMedia (wMeta wStripe); { w with med := { w.med with victims := [{ sd := .a, stripe := 1, prio := 1, recoat := false, stage := 0 }] } }),
              .a, 1, ?_, ?_, ?_, ?_, ?_⟩ <;> decide +kernel,
   by refine ⟨(wMedia (wMeta { wStripe with finish := true })), .a, 1, ?_, ?_, ?_, ?_, ?_, ?_⟩ <;> decide +kernel,
   by refine ⟨(let w := wMedia { wMeta { wStripe with finish := true } with gc := ⟨2, 0, 0⟩ }; { w with med := { w.med with victims := [{ sd := .a, stripe := 1, prio := 4, recoat := false, stage := 1 }] } }),
              .a, { wStripe with finish := true }, ?_, ?_, ?_, ?_, ?_, ?_, ?_, ?_⟩ <;> decide +kernel,
   by refine ⟨(let w : State := (let w : State := (let w := wMedia { wMeta { wStripe with finish := true } with gc := ⟨2, 0, 0⟩, refs := [(4096 * 4096, { wRef with raw := true })] }; { w with med := { w.med with victims := [{ sd := .a, stripe := 1, prio := 4, recoat := false, stage := 1 }] }, mlk := { w.mlk with mods := [2, 3, 4, 5].map fun p => (p, { wMod with desc := zeros 4096, slots := [(slotKey 70 0, .image [5])] }) } }); { w with ubl := { w.ubl with breakIn := true } }); { w with cfg := { w0.cfg with medGc := { value := 0, near := none, far := none }, medCredit := { value := 5, near := none, far := none } } }),
              _, _, .a, _, _, _, _, ?_, ?_, ?_, ?_, ?_, wGet (by decide +kernel), wSome3 (by decide +kernel), ?_,
              wGet (by decide +kernel), rfl⟩ <;> decide +kernel,
   by refine ⟨(let w := wMedia { wMeta { wStripe with finish := true } with refs := [(4096 * 4096, { wRef with count := 0 }), (8192 * 4096, wRef)] }; { w with med := { w.med with copied := [⟨.a, 4096 * 4096, 8192 * 4096, 1, false⟩] } }),
              _, _, 0, ⟨.a, 4096 * 4096, 8192 * 4096, 1, false⟩, { wRef with count := 0 }, ?_, ?_, ?_, ?_, ?_, ?_, rfl, rfl, ?_⟩ <;> decide +kernel,
   by refine ⟨(let w := wMedia (wMeta wStripe); { w with med := { w.med with victims := [{ sd := .a, stripe := 1, prio := 1, recoat := false, stage := 2 }] } }),
              .a, 1, wStripe, ?_, ?_, ?_, ?_, ?_⟩ <;> decide +kernel,
   by refine ⟨(let w := wMedia (wMeta wStripe); { w with med := { w.med with pseg := [(psegKey 2 70, { wPSeg with st := .pendingErase })] } }),
              2, 70, { wPSeg with st := .pendingErase }, ?_, ?_, ?_, ?_, ?_, ?_, ?_, ?_, ?_, ?_⟩ <;> decide +kernel,
   by refine ⟨(let w := wMedia (wMeta wStripe); { w with med := { w.med with pseg := [(psegKey 2 70, { wPSeg with st := .pendingErase })], pins := [(psegKey 2 70, 1)] } }),
              2, 70, { wPSeg with st := .pendingErase }, ?_, ?_, ?_, ?_, ?_, ?_, ?_, ?_, ?_, ?_⟩ <;> decide +kernel,
   by refine ⟨(wMedia (wMeta wStripe)), .a, false, false, ?_, ?_⟩ <;> decide +kernel,
   by refine ⟨(wMedia (wMeta wStripe)), 2, false, _, _, (70, { wPSeg with seg := 1 }), _, _, _, _, _, wGet (by decide +kernel),
              rfl, rfl, rfl, ?_, ?_, ?_, wSome3 (by decide +kernel), ?_, ?_, ?_, ?_⟩ <;> decide +kernel,
   by refine ⟨(let w := wMedia (wMeta wStripe); { w with med := { w.med with pseg := [(psegKey 2 69, { wPSeg with st := .free, erases := 200 }), (psegKey 2 70, { wPSeg with seg := 1 })] }, pwr := { w.pwr with rtc := 5000000000 } }),
              2, false, _, _, (70, { wPSeg with seg := 1 }), _, _, _, _, _, wGet (by decide +kernel), rfl, rfl, rfl, ?_, ?_, ?_,
              wSome3 (by decide +kernel), ?_, ?_, ?_, ?_, ?_, ?_⟩ <;> decide +kernel,
   by refine ⟨(wMedia (wMeta wStripe)), 2, 70, wPSeg, { wMod with desc := zeros 4096 }, ?_, ?_, ?_, ?_, ?_, ?_⟩ <;> decide +kernel,
   by refine ⟨(wMedia (wMeta wStripe)), 2, ?_, ?_, ?_, ?_⟩ <;> decide +kernel,
   by refine ⟨(let w := wMedia (wMeta wStripe); { w with med := { w.med with stats := [(2, ⟨[], [0, 0, 0, 0, 0], [], none⟩)] } }),
              2, 4, ?_, ?_⟩ <;> decide +kernel,
   by refine ⟨(let w := wMedia (wMeta wStripe); { w with med := { w.med with health := [(2, 3)] } }), 2, 3, ?_, ?_⟩ <;> decide +kernel,
   by refine ⟨(let w := wMedia (wMeta wStripe); { w with mlk := { w.mlk with ports := Table.put w.mlk.ports 2 { Port.empty with state := 3 } } }),
              2, 30, _, ?_, wGet (by decide +kernel), ?_⟩ <;> decide +kernel,
   by refine ⟨(let w := wMedia { wMeta { wStripe with finish := true } with gc := ⟨2, 1000, 0⟩, refs := [(4096 * 4096, { wRef with raw := true })] }; { w with med := { w.med with victims := [{ sd := .a, stripe := 1, prio := 4, recoat := false, stage := 1 }] }, mlk := { w.mlk with mods := [2, 3, 4, 5].map fun p => (p, { wMod with desc := zeros 4096, slots := [(slotKey 70 0, .image [5])] }) } }),
              .a, _, ?_, ?_, ?_, ?_, ?_, wGet (by decide +kernel), ?_, ?_⟩ <;> decide +kernel,
   by refine ⟨(let w : State := (let w : State := (let w := wMedia { wMeta { wStripe with finish := true } with gc := ⟨2, 0, 0⟩, refs := [(4096 * 4096, { wRef with raw := true })] }; { w with med := { w.med with victims := [{ sd := .a, stripe := 1, prio := 4, recoat := false, stage := 1 }] }, mlk := { w.mlk with mods := [2, 3, 4, 5].map fun p => (p, { wMod with desc := zeros 4096, slots := [(slotKey 70 0, .image [5])] }) } }); { w with ubl := { w.ubl with breakIn := true } }); { w with cfg := { w0.cfg with medGc := { value := 8, near := none, far := none }, medCredit := { value := 0, near := none, far := none } } }),
              _, _, .a, _, _, _, _, ?_, ?_, ?_, ?_, ?_, wGet (by decide +kernel), wSome3 (by decide +kernel), ?_, ?_, ?_,
              wGet (by decide +kernel), rfl⟩ <;> decide +kernel,
   by refine ⟨(let w := wMedia { wMeta { wStripe with finish := true } with gc := ⟨9, 0, 0⟩ }; { w with med := { w.med with victims := [] }, mlk := { w.mlk with mods := [2, 3, 4, 5].map fun p => (p, { wMod with desc := zeros 4096, slots := [(slotKey 70 0, .image [5])] }) } }),
              .a, ?_, ?_, ?_, ?_, ?_, ?_⟩ <;> decide +kernel,
   by refine ⟨(let w := wMedia { wMeta { wStripe with finish := true } with refs := [(4096 * 4096, { wRef with count := 1 }), (8192 * 4096, wRef)] }; { w with med := { w.med with copied := [⟨.a, 4096 * 4096, 8192 * 4096, 1, false⟩] } }),
              _, _, 0, _, _, wGet (by decide +kernel), ?_, wGet (by decide +kernel), ?_, ?_, ?_, rfl, rfl, ?_⟩ <;> decide +kernel,
   by refine ⟨(let w := wMedia { wMeta { wStripe with finish := true } with refs := [(8192 * 4096, wRef)] }; { w with med := { w.med with copied := [⟨.a, 4096 * 4096, 8192 * 4096, 1, false⟩] } }),
              0, _, wGet (by decide +kernel), ?_, ?_⟩ <;> decide +kernel,
   ⟨(let w := wMedia { wMeta { wStripe with finish := true } with refs := [(4096 * 4096, { wRef with count := 1 })] }; { w with med := { w.med with copied := [⟨.a, 4096 * 4096, 8192 * 4096, 1, false⟩] } }),
    0, _, wGet (by decide +kernel), by decide +kernel⟩⟩

/-- The hypotheses of RebuildAndRecoat can be met, clause by clause. -/
theorem witness_RebuildAndRecoat :
    (∃ (s s1 : State) (d : SD) (bad : List Nat) (ok : Bool) (temp : Int) (cur : Option (Nat × Stripe × Nat × Nat)) (n
        : Nat) (x : Stripe) (pos at0 row : Nat) (tgt : Nat × Nat), s.owns d = true ∧ s.up .str = true ∧
        s.up .med = true ∧ s.logFull d = false ∧ ((s.rebuildUrgent d = true ∨ s.med.rebuildSpent < bitsOf
        s.cfg.strRebuild.value.toNat 11 0)) ∧ s.mayIssue (.sd d) = true ∧
        ((if (s.metaOf d).rebuild.x = 0 then none else (s.stripe? d ((s.metaOf d).rebuild.x - 1)).bind fun y => if
        s.rebuildable d ((s.metaOf d).rebuild.x - 1) y = true ∧
        (s.metaOf d).rebuild.y ∈ y.missing then some ((s.metaOf d).rebuild.x - 1, y, (s.metaOf d).rebuild.y, (s.metaOf
        d).rebuild.z) else none) = cur) ∧ ((cur <|> (s.rebuildNext d).bind fun z => z.2.missing.head?.map fun pos =>
        (z.1, z.2, pos, 0)) = some (n, x, pos, at0)) ∧ (row = (if (s.rebuildTarget d (x.members.getD pos 0)).isSome =
        true then at0 else 0)) ∧ (s.rebuildTarget d (x.members.getD pos 0) <|> s.otherSeg d x (x.finish ||
        s.partFolded d n x)) = some tgt ∧ s1 = s.allocSeg d (x.members.getD pos 0) tgt.1 tgt.2 ∧ x.rows ≤ row) ∧
    (∃ (s s1 s2 s3 : State) (d : SD) (bad : List Nat) (ok : Bool) (temp : Int) (cur : Option (Nat × Stripe × Nat ×
        Nat)) (n : Nat) (x : Stripe) (pos at0 row : Nat) (tgt : Nat × Nat) (c : MCmd) (img : List Byte) (gone : List
        Nat), s.owns d = true ∧ s.up .str = true ∧ s.up .med = true ∧ s.logFull d = false ∧
        ((s.rebuildUrgent d = true ∨ s.med.rebuildSpent < bitsOf s.cfg.strRebuild.value.toNat 11 0)) ∧
        s.mayIssue (.sd d) = true ∧ ((if (s.metaOf d).rebuild.x = 0 then none else (s.stripe? d ((s.metaOf
        d).rebuild.x - 1)).bind fun y => if s.rebuildable d ((s.metaOf d).rebuild.x - 1) y = true ∧
        (s.metaOf d).rebuild.y ∈ y.missing then some ((s.metaOf d).rebuild.x - 1, y, (s.metaOf d).rebuild.y, (s.metaOf
        d).rebuild.z) else none) = cur) ∧ ((cur <|> (s.rebuildNext d).bind fun z => z.2.missing.head?.map fun pos =>
        (z.1, z.2, pos, 0)) = some (n, x, pos, at0)) ∧ (row = (if (s.rebuildTarget d (x.members.getD pos 0)).isSome =
        true then at0 else 0)) ∧ (s.rebuildTarget d (x.members.getD pos 0) <|> s.otherSeg d x (x.finish ||
        s.partFolded d n x)) = some tgt ∧ s1 = s.allocSeg d (x.members.getD pos 0) tgt.1 tgt.2 ∧
        s1.targetCheck d tgt.1 tgt.2 (x.finish || s.partFolded d n x) row = (c, .ok) ∧ row < x.rows ∧ ok = true ∧
        s1.rebuildRow d n x row pos bad = (some img, gone, s2) ∧
        (s3 = (((s2.writeSlot d tgt.1 tgt.2 row img temp).count .strPacksRebuilt).updMed fun m =>
        { m with rebuildSpent := m.rebuildSpent + 1 }))) ∧
    (∃ (s : State) (d : SD) (bad : List Nat) (ok : Bool) (temp : Int), s.rebuildUrgent d = false ∧
        bitsOf s.cfg.strRebuild.value.toNat 11 0 ≤ s.med.rebuildSpent) ∧
    (∃ (s : State) (d : SD) (n : Nat), (s.metaOf d).recoat.x = 1 ∧ s.owns d = true ∧ s.up .med = true ∧
        s.up .cip = true ∧ s.logFull d = false ∧ s.urgent d = false ∧ s.rebuildUrgent d = false ∧
        bitsOf s.cfg.strRecoat.value.toNat 11 0 ≠ 0 ∧ s.recoatNext d = some n) ∧
    (∃ (s : State) (d : SD), s.recoating d = true ∧ s.owns d = true ∧ (s.metaOf d).shapeNext = none ∧
        ((∀ x ∈ (s.metaOf d).stripes, x.2.st = .freed ∨ x.2.gen = (s.metaOf d).shape.gen))) ∧
    (∃ (s s0 : State) (d : SD) (n row : Nat) (temp : Int) (x : Stripe) (imgs : List Regen), s.stripe? d n = some x ∧
        s.rowOpen d n row = true ∧ ((∀ r ∈ s.str.journal.get d, s.rowOpen d r.stripe r.row = true →
        n < r.stripe ∨ (n = r.stripe ∧ row ≤ r.row))) ∧ s.owns d = true ∧ s.up .str = true ∧ s.up .med = true ∧
        s.rowImages d n x row = (imgs, s0) ∧ .mismatch ∉ imgs) ∧
    (∃ (s s1 s2 : State) (d : SD) (bad : List Nat) (ok : Bool) (temp : Int) (cur : Option (Nat × Stripe × Nat × Nat))
        (n : Nat) (x : Stripe) (pos at0 row : Nat) (tgt : Nat × Nat) (c : MCmd) (gone : List Nat), s.owns d = true ∧
        s.up .str = true ∧ s.up .med = true ∧ s.logFull d = false ∧
        ((s.rebuildUrgent d = true ∨ s.med.rebuildSpent < bitsOf s.cfg.strRebuild.value.toNat 11 0)) ∧
        s.mayIssue (.sd d) = true ∧ ((if (s.metaOf d).rebuild.x = 0 then none else (s.stripe? d ((s.metaOf
        d).rebuild.x - 1)).bind fun y => if s.rebuildable d ((s.metaOf d).rebuild.x - 1) y = true ∧
        (s.metaOf d).rebuild.y ∈ y.missing then some ((s.metaOf d).rebuild.x - 1, y, (s.metaOf d).rebuild.y, (s.metaOf
        d).rebuild.z) else none) = cur) ∧ ((cur <|> (s.rebuildNext d).bind fun z => z.2.missing.head?.map fun pos =>
        (z.1, z.2, pos, 0)) = some (n, x, pos, at0)) ∧ (row = (if (s.rebuildTarget d (x.members.getD pos 0)).isSome =
        true then at0 else 0)) ∧ (s.rebuildTarget d (x.members.getD pos 0) <|> s.otherSeg d x (x.finish ||
        s.partFolded d n x)) = some tgt ∧ s1 = s.allocSeg d (x.members.getD pos 0) tgt.1 tgt.2 ∧
        s1.targetCheck d tgt.1 tgt.2 (x.finish || s.partFolded d n x) row = (c, .ok) ∧ row < x.rows ∧ ok = true ∧
        s1.rebuildRow d n x row pos bad = (none, gone, s2)) ∧
    (∃ (s s1 : State) (d : SD) (bad : List Nat) (ok : Bool) (temp : Int) (cur : Option (Nat × Stripe × Nat × Nat)) (n
        : Nat) (x : Stripe) (pos at0 row : Nat) (tgt : Nat × Nat) (c : MCmd) (st : MSt), s.owns d = true ∧
        s.up .str = true ∧ s.up .med = true ∧ s.logFull d = false ∧
        ((s.rebuildUrgent d = true ∨ s.med.rebuildSpent < bitsOf s.cfg.strRebuild.value.toNat 11 0)) ∧
        s.mayIssue (.sd d) = true ∧ ((if (s.metaOf d).rebuild.x = 0 then none else (s.stripe? d ((s.metaOf
        d).rebuild.x - 1)).bind fun y => if s.rebuildable d ((s.metaOf d).rebuild.x - 1) y = true ∧
        (s.metaOf d).rebuild.y ∈ y.missing then some ((s.metaOf d).rebuild.x - 1, y, (s.metaOf d).rebuild.y, (s.metaOf
        d).rebuild.z) else none) = cur) ∧ ((cur <|> (s.rebuildNext d).bind fun z => z.2.missing.head?.map fun pos =>
        (z.1, z.2, pos, 0)) = some (n, x, pos, at0)) ∧ (row = (if (s.rebuildTarget d (x.members.getD pos 0)).isSome =
        true then at0 else 0)) ∧ (s.rebuildTarget d (x.members.getD pos 0) <|> s.otherSeg d x (x.finish ||
        s.partFolded d n x)) = some tgt ∧ s1 = s.allocSeg d (x.members.getD pos 0) tgt.1 tgt.2 ∧
        s1.targetCheck d tgt.1 tgt.2 (x.finish || s.partFolded d n x) row = (c, st) ∧ row < x.rows ∧ st.cls ≠ .owner ∧
        ((ok = false ∨ st ≠ .ok))) ∧
    (∃ (s s1 : State) (d : SD) (bad : List Nat) (ok : Bool) (temp : Int) (cur : Option (Nat × Stripe × Nat × Nat)) (n
        : Nat) (x : Stripe) (pos at0 row : Nat) (tgt : Nat × Nat) (c : MCmd) (st : MSt), s.owns d = true ∧
        s.up .str = true ∧ s.up .med = true ∧ s.logFull d = false ∧
        ((s.rebuildUrgent d = true ∨ s.med.rebuildSpent < bitsOf s.cfg.strRebuild.value.toNat 11 0)) ∧
        s.mayIssue (.sd d) = true ∧ ((if (s.metaOf d).rebuild.x = 0 then none else (s.stripe? d ((s.metaOf
        d).rebuild.x - 1)).bind fun y => if s.rebuildable d ((s.metaOf d).rebuild.x - 1) y = true ∧
        (s.metaOf d).rebuild.y ∈ y.missing then some ((s.metaOf d).rebuild.x - 1, y, (s.metaOf d).rebuild.y, (s.metaOf
        d).rebuild.z) else none) = cur) ∧ ((cur <|> (s.rebuildNext d).bind fun z => z.2.missing.head?.map fun pos =>
        (z.1, z.2, pos, 0)) = some (n, x, pos, at0)) ∧ (row = (if (s.rebuildTarget d (x.members.getD pos 0)).isSome =
        true then at0 else 0)) ∧ (s.rebuildTarget d (x.members.getD pos 0) <|> s.otherSeg d x (x.finish ||
        s.partFolded d n x)) = some tgt ∧ s1 = s.allocSeg d (x.members.getD pos 0) tgt.1 tgt.2 ∧
        s1.targetCheck d tgt.1 tgt.2 (x.finish || s.partFolded d n x) row = (c, st) ∧ row < x.rows ∧ st.cls = .owner) ∧
    (∃ (s : State) (d : SD) (x : Stripe), 2 ≤ (s.metaOf d).recoat.x ∧ s.owns d = true ∧ s.up .med = true ∧
        s.up .cip = true ∧ s.logFull d = false ∧ s.urgent d = false ∧ s.rebuildUrgent d = false ∧
        bitsOf s.cfg.strRecoat.value.toNat 11 0 ≠ 0 ∧ s.stripe? d ((s.metaOf d).recoat.x - 2) = some x ∧
        s.nextCopy d x ((s.metaOf d).recoat.y * 4096 + (s.metaOf d).recoat.z) = none) ∧
    (∃ (s s1 : State) (d : SD) (x : Stripe) (p l : Nat) (r : RefRec), 2 ≤ (s.metaOf d).recoat.x ∧ s.owns d = true ∧
        s.up .med = true ∧ s.up .cip = true ∧ s.logFull d = false ∧ s.urgent d = false ∧ s.rebuildUrgent d = false ∧
        bitsOf s.cfg.strRecoat.value.toNat 11 0 ≠ 0 ∧ s.stripe? d ((s.metaOf d).recoat.x - 2) = some x ∧
        s.nextCopy d x ((s.metaOf d).recoat.y * 4096 + (s.metaOf d).recoat.z) = some (p, l, r) ∧
        ((s.needsPack d r.ddom r.size = false ∨ s.med.recoatSpent < bitsOf s.cfg.strRecoat.value.toNat 11 0)) ∧
        s.copyGran d ((s.metaOf d).recoat.x - 2) l r = some s1) ∧
    (∃ (s s0 s2 : State) (d : SD) (n row : Nat) (temp : Int) (x : Stripe) (imgs : List Regen) (bad : List Nat),
        s.stripe? d n = some x ∧ s.rowOpen d n row = true ∧
        ((∀ r ∈ s.str.journal.get d, s.rowOpen d r.stripe r.row = true → n < r.stripe ∨ (n = r.stripe ∧
        row ≤ r.row))) ∧ s.owns d = true ∧ s.up .str = true ∧ s.up .med = true ∧ s.rowImages d n x row = (imgs, s0) ∧
        (bad = (imgs.zipIdx).filterMap (fun y => if y.1 = .mismatch then some y.2 else none)) ∧ bad ≠ [] ∧
        s2 = s0.replayData d n x row imgs bad temp) :=
  ⟨by refine ⟨(let w := wMedia { wMeta { wStripe with missing := [0], rows := 0 } with nextMpid := 1 }; { w with med := { w.med with pseg := w.med.pseg ++ [(psegKey 5 80, { wPSeg with seg := 1 })] } }),
              _, .a, [], false, 30, none, 1, { wStripe with missing := [0], rows := 0 }, 0, 0, _, (5, 80), ?_, ?_, ?_, ?_, ?_,
              ?_, ?_, ?_, rfl, ?_, rfl, ?_⟩ <;> decide +kernel,
   by refine ⟨(let w := wMedia (wMeta { wStripe with missing := [0] }); { w with med := { w.med with subs := [⟨.a, 2, 3, 70, [(0, [5])]⟩, ⟨.a, 3, 4, 70, [(0, [5])]⟩], pseg := w.med.pseg ++ [(psegKey 5 80, { wPSeg with seg := 1 })] }, mlk := { w.mlk with mods := [2, 3, 4, 5].map fun p => (p, { wMod with desc := zeros 8 ++ leBytes 4 0 ++ leBytes 4 20000 ++ leBytes 4 4096 ++ leBytes 4 4096 ++ zeros 4072, oepoch := ⟨0, 0⟩, oport := ⟨some 0, none⟩, split := some (64, 2048) }) } }),
              _, _, _, .a, [], true, 30, none, 1, { wStripe with missing := [0] }, 0, 0, _, _, _, _, _, ?_, ?_, ?_, ?_, ?_, ?_,
              ?_, ?_, rfl, wGet (by decide +kernel), rfl, wFst (by decide +kernel), ?_, ?_, wTripleSome (by decide +kernel), rfl⟩ <;> decide +kernel,
   by refine ⟨(let w := wMedia (wMeta wStripe); { w with cfg := { w.cfg with strRebuild := { value := 0, near := none, far := none } } }),
              .a, [], true, 30, ?_, ?_⟩ <;> decide +kernel,
   by refine ⟨(let w := wMedia { wMeta { wStripe with finish := true, gen := 1 } with recoat := ⟨1, 0, 0⟩ }; { w with cfg := { w.cfg with strRecoat := { value := 4, near := none, far := none }, medGc := { value := 0, near := none, far := none } } }),
              .a, 1, ?_, ?_, ?_, ?_, ?_, ?_, ?_, ?_, ?_⟩ <;> decide +kernel,
   by refine ⟨(wMedia { wMeta wStripe with recoat := ⟨1, 0, 0⟩ }), .a, ?_, ?_, ?_, ?_⟩ <;> decide +kernel,
   by refine ⟨(let w := wMedia (wMeta wStripe); { w with ubl := { w.ubl with unmirrored := true }, str := { w.str with journal := { w.str.journal with a := [{ typ := 1, chainOut := false, stripe := 1, row := 0, didx := 0, slot := 0, nonce := [], tag := [], srcs := [], epoch := 100, body := [], pos := 0 }] } } }),
              _, .a, 1, 0, 30, _, _, wGet (by decide +kernel), ?_, ?_, ?_, ?_, ?_, wPair _, ?_⟩ <;> decide +kernel,
   by refine ⟨(let w := wMedia (wMeta { wStripe with missing := [0] }); { w with med := { w.med with subs := [⟨.a, 2, 3, 70, [(0, [5])]⟩, ⟨.a, 3, 4, 70, [(0, [5])]⟩], pseg := w.med.pseg ++ [(psegKey 5 80, { wPSeg with seg := 1 })] }, mlk := { w.mlk with mods := [2, 3, 4, 5].map fun p => (p, { wMod with desc := zeros 8 ++ leBytes 4 0 ++ leBytes 4 20000 ++ leBytes 4 4096 ++ leBytes 4 4096 ++ zeros 4072, oepoch := ⟨0, 0⟩, oport := ⟨some 0, none⟩, split := some (64, 2048) }) } }),
              _, _, .a, [1, 2], true, 30, none, 1, { wStripe with missing := [0] }, 0, 0, _, _, _, _, ?_, ?_, ?_, ?_, ?_, ?_,
              ?_, ?_, rfl, wGet (by decide +kernel), rfl, wFst (by decide +kernel), ?_, ?_, wTriple1 (by decide +kernel)⟩ <;> decide +kernel,
   by refine ⟨(let w := wMedia (wMeta { wStripe with missing := [0] }); { w with med := { w.med with subs := [⟨.a, 2, 3, 70, [(0, [5])]⟩, ⟨.a, 3, 4, 70, [(0, [5])]⟩], pseg := w.med.pseg ++ [(psegKey 5 80, { wPSeg with seg := 1 })] }, mlk := { w.mlk with mods := [2, 3, 4, 5].map fun p => (p, { wMod with desc := zeros 8 ++ leBytes 4 0 ++ leBytes 4 20000 ++ leBytes 4 4096 ++ leBytes 4 4096 ++ zeros 4072, oepoch := ⟨0, 0⟩, oport := ⟨some 0, none⟩, split := some (64, 2048) }) } }),
              _, .a, [], false, 30, none, 1, { wStripe with missing := [0] }, 0, 0, _, _, _, _, ?_, ?_, ?_, ?_, ?_, ?_, ?_, ?_,
              rfl, wGet (by decide +kernel), rfl, wPair _, ?_, ?_, ?_⟩ <;> decide +kernel,
   by refine ⟨(let w := wMedia (wMeta { wStripe with missing := [0] }); { w with med := { w.med with subs := [⟨.a, 2, 3, 70, [(0, [5])]⟩, ⟨.a, 3, 4, 70, [(0, [5])]⟩], pseg := w.med.pseg ++ [(psegKey 5 80, { wPSeg with seg := 1 })] }, mlk := { w.mlk with mods := [2, 3, 4, 5].map fun p => (p, { wMod with desc := zeros 8 ++ leBytes 4 0 ++ leBytes 4 20000 ++ leBytes 4 4096 ++ leBytes 4 4096 ++ zeros 4072, oepoch := ⟨5, 0⟩, oport := ⟨some 0, none⟩, split := some (64, 2048) }) } }),
              _, .a, [], true, 30, none, 1, { wStripe with missing := [0] }, 0, 0, _, _, _, _, ?_, ?_, ?_, ?_, ?_, ?_, ?_, ?_,
              rfl, wGet (by decide +kernel), rfl, wPair _, ?_, ?_⟩ <;> decide +kernel,
   by refine ⟨(let w : State := (let w : State := (let w := wMedia { wMeta { wStripe with finish := true } with recoat := ⟨3, 0, 0⟩, refs := [] }; { w with med := { w.med with victims := [{ sd := .a, stripe := 1, prio := 0, recoat := false, stage := 1 }] }, mlk := { w.mlk with mods := [2, 3, 4, 5].map fun p => (p, { wMod with desc := zeros 4096, slots := [(slotKey 70 0, .image [5])] }) } }); { w with ubl := { w.ubl with breakIn := true } }); { w with cfg := { w0.cfg with strRecoat := { value := 4, near := none, far := none }, medGc := { value := 0, near := none, far := none } } }),
              .a, _, ?_, ?_, ?_, ?_, ?_, ?_, ?_, ?_, wGet (by decide +kernel), ?_⟩ <;> decide +kernel,
   by refine ⟨(let w : State := (let w : State := (let w := wMedia { wMeta { wStripe with finish := true } with recoat := ⟨3, 0, 0⟩, refs := [(4096 * 4096, { wRef with raw := true })] }; { w with med := { w.med with victims := [{ sd := .a, stripe := 1, prio := 0, recoat := false, stage := 1 }] }, mlk := { w.mlk with mods := [2, 3, 4, 5].map fun p => (p, { wMod with desc := zeros 4096, slots := [(slotKey 70 0, .image [5])] }) } }); { w with ubl := { w.ubl with breakIn := true } }); { w with cfg := { w0.cfg with strRecoat := { value := 4, near := none, far := none }, medGc := { value := 0, near := none, far := none } } }),
              _, .a, _, _, _, _, ?_, ?_, ?_, ?_, ?_, ?_, ?_, ?_, wGet (by decide +kernel), wSome3 (by decide +kernel), ?_,
              wGet (by decide +kernel)⟩ <;> decide +kernel,
   by refine ⟨((let w := wMedia (wMeta wStripe); { w with ubl := { w.ubl with unmirrored := true }, str := { w.str with journal := { w.str.journal with a := [{ typ := 1, chainOut := false, stripe := 1, row := 0, didx := 0, slot := 0, nonce := [], tag := [], srcs := [⟨3, 0⟩], epoch := 100, body := [], pos := 0 }] } } })).setSlot 0 { KSlot.empty with state := 1, key := [] },
              _, _, .a, 1, 0, 30, _, _, _, wGet (by decide +kernel), ?_, ?_, ?_, ?_, ?_, wPair _, rfl, ?_, rfl⟩ <;> decide +kernel⟩

/-- The hypotheses of CommitEpoch can be met, clauses 1, 2, 3, 4, 6, 7. -/
theorem witness_CommitEpoch :
    (∃ (s : State), s.top.running = true ∧ s.pwr.current ≠ 3 ∧ s.pwr.pllHeld = false) ∧
    (∃ (s : State), s.top.running = false) ∧
    (∃ (s : State) (d : SD) (w : EpochWait) (ws : List EpochWait), s.ubl.waits.get d = w :: ws ∧ s.owns d = true ∧
        w.sent = true) ∧
    (∃ (s s1 : State) (d : SD) (g : List Byte) (w : EpochWait) (ws : List EpochWait), s.ubl.waits.get d = w :: ws ∧
        s.owns d = true ∧ w.sent = true ∧ w.digest ≠ g ∧ w.mismatches < 2 ∧
        s1 = ((((s.heard 0 1).count .ublMirrorMismatch).raise .ubl 0).snag 13 0x1005 (some d) 0xFF (leBytes 1
        (w.mismatches + 1)))) ∧
    (∃ (s s1 : State) (d : SD) (g : List Byte) (w : EpochWait) (ws : List EpochWait), s.ubl.waits.get d = w :: ws ∧
        s.owns d = true ∧ w.sent = true ∧ w.digest ≠ g ∧ 2 ≤ w.mismatches ∧ w.retrains < 2 ∧
        s1 = ((((s.heard 0 1).count .ublMirrorMismatch).raise .ubl 0).snag 13 0x1005 (some d) 0xFF (leBytes 1
        (w.mismatches + 1)))) ∧
    (∃ (s s1 : State) (d : SD) (g : List Byte) (w : EpochWait) (ws : List EpochWait), s.ubl.waits.get d = w :: ws ∧
        s.owns d = true ∧ w.sent = true ∧ w.digest ≠ g ∧ 2 ≤ w.mismatches ∧ 2 ≤ w.retrains ∧
        s1 = ((((s.heard 0 1).count .ublMirrorMismatch).raise .ubl 0).snag 13 0x1005 (some d) 0xFF (leBytes 1
        (w.mismatches + 1)))) :=
  ⟨by refine ⟨{ w0 with ubl := { w0.ubl with own := ⟨false, false⟩ }, dp := { w0.dp with kdoms := [(0, wKdom)] } }, ?_, ?_, ?_⟩ <;> decide +kernel,
   ⟨{ w0 with top := { w0.top with running := false } }, by decide +kernel⟩,
   by refine ⟨{ w0 with ubl := { w0.ubl with waits := ⟨[⟨⟨99, 0, []⟩, 7, [1], 0, 0, true⟩], []⟩ } }, .a,
              ⟨⟨99, 0, []⟩, 7, [1], 0, 0, true⟩, [], ?_, ?_, ?_⟩ <;> decide +kernel,
   by refine ⟨{ w0 with ubl := { w0.ubl with waits := ⟨[⟨⟨99, 0, []⟩, 7, [1], 0, 0, true⟩], []⟩ } }, _, .a, [2],
              ⟨⟨99, 0, []⟩, 7, [1], 0, 0, true⟩, [], ?_, ?_, ?_, ?_, ?_, rfl⟩ <;> decide +kernel,
   by refine ⟨{ w0 with ubl := { w0.ubl with waits := ⟨[⟨w0.map.log.a, 0, [1], 2, 0, true⟩], []⟩ } }, _, .a, [],
              ⟨w0.map.log.a, 0, [1], 2, 0, true⟩, [], ?_, ?_, ?_, ?_, ?_, ?_, rfl⟩ <;> decide +kernel,
   by refine ⟨{ w0 with ubl := { w0.ubl with waits := ⟨[⟨w0.map.log.a, 0, [1], 2, 2, true⟩], []⟩ } }, _, .a, [],
              ⟨w0.map.log.a, 0, [1], 2, 2, true⟩, [], ?_, ?_, ?_, ?_, ?_, ?_, rfl⟩ <;> decide +kernel⟩

/-- The hypotheses of MirrorAndForwarding can be met, clause by clause. -/
theorem witness_MirrorAndForwarding :
    (∃ (s : State) (f : MFrame), f.release = false ∧ s.owns f.sd = false ∧ s.ubl.up = true ∧
        f.mseq = (s.ubl.rx.get f.sd).mseq + 1) ∧
    (∃ (s : State) (f : MFrame) (k : DWord), f.release = false ∧ s.owns f.sd = false ∧ s.ubl.up = true ∧ f.check ≠ k) ∧
    (∃ (s : State) (f : MFrame), f.release = true ∧ s.owns f.sd = false ∧ s.ubl.up = true ∧
        f.mseq = (s.ubl.rx.get f.sd).mseq + 1) ∧
    (∃ (s : State) (d : SD) (q : Word), s.ubl.up = true) ∧
    (∃ (s : State) (d : SD) (e : DWord) (o : Word) (p : List Delta) (last : Option (Nat × Word)), s.owns d = false ∧
        s.ubl.up = true ∧ (s.ubl.erx.get d).log = none) ∧
    (∃ (s : State) (d : SD) (m : Meta) (e : DWord), s.owns d = false ∧ s.ubl.up = true) ∧
    (∃ (s : State) (q : Half), s.ubl.up = true) ∧
    (∃ (s : State) (q : Half) (l : List Flit), s.ubl.up = true ∧ l = replayFlits (s.heard 0 1).link.replay q ∧ l ≠ []) ∧
    (∃ (s : State) (d : SD) (q : Word), s.ubl.up = true) ∧
    (∃ (s s1 s2 s3 : State) (g lanes : Nat), ((s.ubl.retrainDue = true ∨ (s.link.replay.any fun f => decide (16 ≤
        f.replays)) = true)) ∧ s.powered .ubl = true ∧ (lanes = (if 3 ≤ g then 2 else if g = 2 then 1 else 0)) ∧
        (s1 = (s.retrained.updUbl fun u =>
        { u with lanes := lanes, retrainDue := false, up := u.up && decide (lanes ≠ 0) })) ∧
        s2 = (s1.count .ublRetrains).raise .ubl 3 ∧ (s3 = (if lanes = 1 then s2.raise .ubl 2 else s2))) ∧
    (∃ (s s1 s2 s3 : State) (g lanes : Nat), s.ubl.retrainDue = false ∧
        ((s.link.replay.any fun f => decide (16 ≤ f.replays)) = false) ∧ s.ubl.lanes = 0 ∧ s.powered .ubl = true ∧
        (lanes = (if 3 ≤ g then 2 else if g = 2 then 1 else 0)) ∧
        (s1 = (s.retrained.updUbl fun u => { u with lanes := lanes, retrainDue := false, up := u.up && decide (lanes ≠ 0) }))
        ∧ s2 = s1 ∧ (s3 = (if lanes = 1 then s2.raise .ubl 2 else s2))) ∧
    (∃ (s s1 : State), s.ubl.up = true ∧ (s1 = (s.updUbl fun u => { u with up := false, lanes := 0 }))) ∧
    (∃ (s : State), s.ubl.up = false ∧ s.ubl.lost = false) ∧
    (∃ (s : State) (h l v : Nat) (a c : List Byte), s.ubl.lanes ≠ 0 ∧ h % 2 = s.top.head) ∧
    (∃ (s : State) (h l v : Nat) (a c : List Byte), s.ubl.lanes ≠ 0 ∧ h % 2 ≠ s.top.head ∧ (((a ≠ [] ∧
        s.ubl.array ≠ [] ∧ a ≠ s.ubl.array) ∨ l < s.ubl.levelMin ∨ s.ubl.level < l))) ∧
    (∃ (s s1 s3 : State) (h l v : Nat) (a c : List Byte), s.ubl.lanes ≠ 0 ∧ h % 2 ≠ s.top.head ∧
        ((a = [] ∨ s.ubl.array = [] ∨ a = s.ubl.array)) ∧ s.ubl.levelMin ≤ l ∧ l ≤ s.ubl.level ∧ s.ubl.up = false ∧
        (s1 = (s.retrained.updUbl fun u =>
        { u with up := true, lost := false, versionRefused := false, peerLevel := l, peerVersion := v, peerServing := true, array := if u.array.isEmpty = true then a else u.array }))
        ∧ s3 = (((s1.sendRaw (.hello s1.top.head s1.ubl.level s1.ubl.version s1.ubl.array)).extendHello h l v a
        c).resendPeer)) ∧
    (∃ (s : State) (g : Nat) (c : Capsule), s.ubl.up = true) ∧
    (∃ (s : State) (g : Nat) (b : List Byte) (c : Cmd), (s.fe.cmds.find? (fun c => decide (c.cap.origin = some g)) =
        some c)) ∧
    (∃ (s : State) (g off : Nat) (b : List Byte), (s.fe.cmds.find? (fun c => decide (c.cap.origin = some g)) = none)) ∧
    (∃ (s : State) (g : Nat) (st : Status) (dw : Nat) (f : Fwd), (s.fe.fwd.find? (fun f => decide (f.tag = g)) = some
        f) ∧ ((∀ c ∈ s.fe.cmds, g ∉ c.tags))) ∧
    (∃ (s : State) (g : Nat), ((s.heard 3 1).catchCmd (fun c => decide (c.origin = some g)) = none)) ∧
    (∃ (s s2 : State) (g : Nat) (f : Fwd) (q : QId) (cid : Nat) (caught : Bool), (s.fe.fwd.find? (fun f => decide
        (f.tag = g)) = some f) ∧ f.abort = some (q, cid) ∧ (s2 = (((s.heard 3 1).updFe fun x =>
        { x with fwd := x.fwd.map fun y => if y.tag = g then { y with abort := none } else y }).updHost q.cntlid fun h
        => { h with aborts := h.aborts - 1 }))) ∧
    (∃ (s : State) (f : MFrame), f.release = false ∧ s.owns f.sd = false ∧ s.ubl.up = true ∧
        f.mseq ≠ (s.ubl.rx.get f.sd).mseq + 1 ∧ ((s.ubl.rx.get f.sd).mseq - f.mseq).toNat < 2 ^ 31) ∧
    (∃ (s : State) (d : SD) (e : DWord) (o : Word) (p : List Delta) (last : Option (Nat × Word)) (l : DLog), s.owns d
        = false ∧ s.ubl.up = true ∧ (s.ubl.erx.get d).log = some l ∧ l.epoch = e ∧ l.oepoch = o ∧
        (s.ubl.erx.get d).fin = none) ∧
    (∃ (s s1 : State) (h l v : Nat) (a c : List Byte), s.ubl.lanes ≠ 0 ∧ h % 2 ≠ s.top.head ∧
        ((a = [] ∨ s.ubl.array = [] ∨ a = s.ubl.array)) ∧ s.ubl.levelMin ≤ l ∧ l ≤ s.ubl.level ∧ s.ubl.up = true ∧
        (s1 = ((s.heard 0 1).updUbl fun u =>
        { u with up := true, lost := false, versionRefused := false, peerLevel := l, peerVersion := v, peerServing := true, array := if u.array.isEmpty = true then a else u.array }))) ∧
    (∃ (s : State) (g : Nat) (st : Status) (dw : Nat) (f : Fwd) (c : Cmd), (s.fe.fwd.find? (fun f => decide (f.tag =
        g)) = some f) ∧ c ∈ s.fe.cmds ∧ g ∈ c.tags) ∧
    (∃ (s s1 : State) (g : Nat), ((s.heard 3 1).catchCmd (fun c => decide (c.origin = some g)) = some s1)) :=
  ⟨by refine ⟨{ w0 with ubl := { w0.ubl with own := ⟨true, false⟩ } }, ⟨false, .b, 100, 1, 8388608, [5], none⟩, ?_, ?_, ?_, ?_⟩ <;> decide +kernel,
   by refine ⟨{ w0 with ubl := { w0.ubl with own := ⟨true, false⟩ } }, ⟨false, .b, 100, 1, 8388608, [5], none⟩,
              ((⟨false, .b, 100, 1, 8388608, [5], none⟩ : MFrame).check + 1), ?_, ?_, ?_, ?_⟩ <;> decide +kernel,
   by refine ⟨{ w0 with ubl := { w0.ubl with own := ⟨true, false⟩ } }, ⟨true, .b, 100, 1, 8388608, leBytes 8 5, none⟩, ?_, ?_,
              ?_, ?_⟩ <;> decide +kernel,
   ⟨{ w0 with ubl := { w0.ubl with own := ⟨true, false⟩ } }, .a, 5, by decide +kernel⟩,
   by refine ⟨{ w0 with ubl := { w0.ubl with own := ⟨true, false⟩ } }, .b, 9, 1, [], none, ?_, ?_, ?_⟩ <;> decide +kernel,
   by refine ⟨{ w0 with ubl := { w0.ubl with own := ⟨true, false⟩ } }, .b, Meta.empty, 9, ?_, ?_⟩ <;> decide +kernel,
   ⟨w0, 9, by decide +kernel⟩,
   ⟨(let w : State := w0; { w with link := { w.link with replay := [⟨8, 0⟩, ⟨9, 0⟩, ⟨10, 0⟩], again := 3 } }), 9, _,
    by decide +kernel, rfl,
    by
    show replayFlits (List.drop (Config.linkAck _ % 1) [⟨8, 0⟩, ⟨9, 0⟩, ⟨10, 0⟩]) 9 ≠ []
    rw [Nat.mod_one]
    decide⟩,
   ⟨w0, .a, 9, by decide +kernel⟩,
   by refine ⟨{ w0 with ubl := { w0.ubl with up := false, lanes := 2, retrainDue := true } }, _, _, _, 3, _, ?_, ?_, rfl, rfl,
              rfl, rfl⟩ <;> decide +kernel,
   by refine ⟨{ w0 with ubl := { w0.ubl with up := false, lanes := 0 } }, _, _, _, 3, _, ?_, ?_, ?_, ?_, rfl, rfl, rfl, rfl⟩ <;> decide +kernel,
   ⟨w0, _, by decide +kernel, rfl⟩,
   by refine ⟨{ w0 with ubl := { w0.ubl with up := false } }, ?_, ?_⟩ <;> decide +kernel,
   by refine ⟨{ w0 with ubl := { w0.ubl with lanes := 2 } }, 0, 1, 1, [], [], ?_, ?_⟩ <;> decide +kernel,
   by refine ⟨{ w0 with ubl := { w0.ubl with lanes := 2 } }, 1, 1000, 1, [], [], ?_, ?_, ?_⟩ <;> decide +kernel,
   by refine ⟨{ w0 with ubl := { w0.ubl with up := false, lanes := 2 } }, _, _, 1, w0.ubl.level, 1, [], [], ?_, ?_, ?_, ?_, ?_,
              ?_, rfl, rfl⟩ <;> decide +kernel,
   ⟨w0, 3, (wCaps ⟨9, 1⟩ 2 5 7 0 0 0 []), by decide +kernel⟩,
   ⟨{ w0 with fe := { w0.fe with cmds := [Cmd.new .a 3 { (wCaps ⟨9, 1⟩ 2 5 7 0 0 0 []) with origin := some 3 }] } },
    3, [1], (Cmd.new .a 3 { (wCaps ⟨9, 1⟩ 2 5 7 0 0 0 []) with origin := some 3 }), by decide +kernel⟩,
   ⟨{ w0 with fe := { w0.fe with fwd := [⟨3, wCaps ⟨9, 1⟩ 2 5 7 0 0 0 [], .b, [1], none⟩] } }, 3, 0, [2],
    by decide +kernel⟩,
   by refine ⟨{ w0 with fe := { w0.fe with fwd := [⟨3, wCaps ⟨9, 1⟩ 2 5 7 0 0 0 [], .b, [1], none⟩] } }, 3, stOk, 0,
              ⟨3, wCaps ⟨9, 1⟩ 2 5 7 0 0 0 [], .b, [1], none⟩, ?_, ?_⟩ <;> decide +kernel,
   ⟨w0, 3, by decide +kernel⟩,
   by refine ⟨{ w0 with fe := { w0.fe with fwd := [⟨3, wCaps ⟨9, 1⟩ 2 5 7 0 0 0 [], .b, [1], some (⟨9, 0⟩, 4)⟩] } }, _, 3,
              ⟨3, wCaps ⟨9, 1⟩ 2 5 7 0 0 0 [], .b, [1], some (⟨9, 0⟩, 4)⟩, ⟨9, 0⟩, 4, false, ?_, ?_, rfl⟩ <;> decide +kernel,
   by refine ⟨{ w0 with ubl := { w0.ubl with own := ⟨true, false⟩ } }, ⟨false, .b, 100, 0, 8388608, [5], none⟩, ?_, ?_, ?_, ?_,
              ?_⟩ <;> decide +kernel,
   by refine ⟨{ w0 with ubl := { w0.ubl with own := ⟨true, false⟩, erx := ⟨⟨none, none⟩, ⟨some ⟨9, 1, []⟩, none⟩⟩ } }, .b, 9, 1,
              [], none, _, ?_, ?_, wGet (by decide +kernel), ?_, ?_, ?_⟩ <;> decide +kernel,
   by refine ⟨{ w0 with ubl := { w0.ubl with lanes := 2 } }, _, 1, w0.ubl.level, 1, [], [], ?_, ?_, ?_, ?_, ?_, ?_, rfl⟩ <;> decide +kernel,
   by refine ⟨{ w0 with fe := { w0.fe with fwd := [⟨3, (wCaps ⟨9, 1⟩ 2 5 7 0 0 0 []), .b, [], none⟩], cmds := [{ Cmd.new .a 3 (wCaps ⟨1, 1⟩ 0 5 0 0 0 0 []) with tags := [3] }] } },
              3, stOk, 0, ⟨3, (wCaps ⟨9, 1⟩ 2 5 7 0 0 0 []), .b, [], none⟩,
              { Cmd.new .a 3 (wCaps ⟨1, 1⟩ 0 5 0 0 0 0 []) with tags := [3] }, ?_, ?_, ?_⟩ <;> decide +kernel,
   ⟨{ w0 with fe := { w0.fe with fences := [⟨{ (wCaps ⟨9, 1⟩ 2 5 7 0 0 0 []) with origin := some 3 }, [], none, false⟩] } },
    _, 3, wGet (by decide +kernel)⟩⟩

/-- The hypotheses of HeartbeatsAndDeclaration can be met, clauses 1, 2, 3, 4, 5, 6, 7, 8, 9, 10, 11, 12, 13, 14, 15, 16, 17, 20, 21, 22, 23, 24, 25. -/
theorem witness_HeartbeatsAndDeclaration :
    (∃ (s s0 s1 : State) (path : HbPath) (b : List Byte) (h : HbSt) (q : Half), b.length = 24 ∧ leAt b 0 1 = 0x48 ∧
        crcOk b 16 = true ∧ s.powered .ubl = true ∧ ((path = .link → s.ubl.up = true)) ∧
        leAt b 1 1 % 2 ≠ s.top.head % 2 ∧ (h = (match path with | .link => s.ubl.hbLink | .pair => s.ubl.hbPair)) ∧
        q = BitVec.ofNat 16 (leAt b 2 2) ∧ (q - h.hseqRx).toNat ≠ 0 ∧ (q - h.hseqRx).toNat < 2 ^ 15 ∧
        (s0 = (if path = .link then s.heard 0 1 else s)) ∧ (s1 = (s0.updUbl fun u =>
        { u with hbLink := if path = .link then { h with hseqRx := q, seen := true } else u.hbLink, hbPair := if path = .pair then { h with hseqRx := q, seen := true } else u.hbPair, peerState := bitsOf (leAt b 1 1) 3 1, peerOepoch := ⟨BitVec.ofNat 32 (leAt b 4 4), BitVec.ofNat 32 (leAt b 8 4)⟩, oepoch := ⟨if u.oepoch.a < BitVec.ofNat 32 (leAt b 4 4) then BitVec.ofNat 32 (leAt b 4 4) else u.oepoch.a, if u.oepoch.b < BitVec.ofNat 32 (leAt b 8 4) then BitVec.ofNat 32 (leAt b 8 4) else u.oepoch.b⟩ }))) ∧
    (∃ (s : State) (path : HbPath) (b : List Byte), ((b.length ≠ 24 ∨ leAt b 0 1 ≠ 0x48 ∨ crcOk b 16 = false))) ∧
    (∃ (s : State) (path : HbPath) (b : List Byte), b.length = 24 ∧ leAt b 0 1 = 0x48 ∧ crcOk b 16 = true ∧
        s.powered .ubl = true ∧ ((path = .link → s.ubl.up = true)) ∧ leAt b 1 1 % 2 = s.top.head % 2) ∧
    (∃ (s s1 : State), s.powered .ubl = true ∧ ((s.ubl.hbLink.tick.misses < 3 ∨ s.ubl.hbPair.tick.misses < 3)) ∧
        (s1 = ((s.updUbl fun u =>
        { u with hbLink := s.ubl.hbLink.tick, hbPair := s.ubl.hbPair.tick, pairOk := s.ubl.hbPair.seen }).count
        .ublHbMisses (b2n (!s.ubl.hbLink.seen) + b2n (!s.ubl.hbPair.seen))).beat)) ∧
    (∃ (s s1 : State), s.powered .ubl = true ∧ 3 ≤ s.ubl.hbLink.tick.misses ∧ 3 ≤ s.ubl.hbPair.tick.misses ∧
        (s1 = ((s.updUbl fun u =>
        { u with hbLink := s.ubl.hbLink.tick, hbPair := s.ubl.hbPair.tick, pairOk := s.ubl.hbPair.seen }).count
        .ublHbMisses (b2n (!s.ubl.hbLink.seen) + b2n (!s.ubl.hbPair.seen))).beat)) ∧
    (∃ (s : State), s.powered .ubl = true) ∧
    (∃ (s : State), s.ubl.delay = true ∧ s.ubl.breakIn = false) ∧
    (∃ (s : State), s.ubl.delay = true ∧ s.ubl.breakIn = true) ∧
    (∃ (s : State) (d : SD) (x : Takeover) (level : Bool) (gap : Nat), (s.ubl.takeover.find? (fun y => decide (y.sd =
        d)) = some x) ∧ x.step = 1 ∧ s.ubl.breakIn = false) ∧
    (∃ (s : State) (d : SD) (x : Takeover) (level : Bool) (gap : Nat), (s.ubl.takeover.find? (fun y => decide (y.sd =
        d)) = some x) ∧ x.step = 2 ∧ s.ubl.breakIn = false) ∧
    (∃ (s : State) (d : SD) (x : Takeover) (level : Bool) (gap : Nat), (s.ubl.takeover.find? (fun y => decide (y.sd =
        d)) = some x) ∧ x.step = 3 ∧ s.ubl.breakIn = false) ∧
    (∃ (s : State) (d : SD) (x : Takeover) (level : Bool) (gap : Nat), (s.ubl.takeover.find? (fun y => decide (y.sd =
        d)) = some x) ∧ x.step = 5 ∧ s.ubl.breakIn = false) ∧
    (∃ (s : State) (d : SD) (x : Takeover) (level : Bool) (gap : Nat), (s.ubl.takeover.find? (fun y => decide (y.sd =
        d)) = some x) ∧ x.step = 7 ∧ s.ubl.breakIn = false) ∧
    (∃ (s : State) (d : SD), ((s.ubl.takeover.any fun x => decide (x.sd = d ∧ x.step = 2)) = true)) ∧
    (∃ (s : State) (d : SD), s.top.head = 1 ∧ s.ubl.battenOut.get d = true) ∧
    (∃ (s : State) (d : SD) (level : Bool), ((level = false ∨ s.top.head ≠ 1 ∨ s.ubl.battenOut.get d = false))) ∧
    (∃ (s s1 s2 : State), s.ubl.breakIn = false ∧ (s1 = ((s.updMlk fun m =>
        { m with out := m.out.map fun o => if o.res.isNone = true then { o with res := some fencedRes, loc := true } else o, late := m.late ++ submitted m.out }).count
        .mlkFenced (s.mlk.out.filter fun o => o.res.isNone).length)) ∧
        (s2 = (s1.updUbl fun u => { u with breakIn := true, breakOut := false, battenOut := ⟨false, false⟩ }).raise
        .ubl 6) ∧ ((s2.ubl.expectBreak = true ∨ s2.upd.core0 = false ∨ s2.powered .ubl = false))) ∧
    (∃ (s s1 s2 s3 : State), s.ubl.up = true ∧ s.ubl.unmirrored = true ∧ s.ubl.filling = 0 ∧ s.owned ≠ [] ∧
        s.ubl.breakOut = false ∧ (s1 = s.owned.foldl (fun s d => s.send (.shadow d (s.metaOf d) (s.ubl.copied.get d)))
        s) ∧ (s2 = (s1.updUbl fun u => { u with filling := 1, tx := ⟨⟨0, [], []⟩, ⟨0, [], []⟩⟩ })) ∧
        (s3 = s2.owned.foldl (fun s d => (s.refill d).askAcks d) s2)) ∧
    (∃ (s : State) (c : Nat) (r : List Byte), s.takesCmd c 0x0602 r none [] ∧ s.ubl.up = true) ∧
    (∃ (s s1 : State) (d : SD) (x : Takeover) (level : Bool) (gap : Nat), (s.ubl.takeover.find? (fun y => decide
        (y.sd = d)) = some x) ∧ x.step = 4 ∧ s.ubl.breakIn = false ∧
        ((s.ubl.expectUnits.get d = none ∨ x.rehearsal = false ∨ ∃ k hi, s.ubl.expectUnits.get d = some (k, hi) ∧
        (s.unitsAbove d (s.copiedMeta d)).length = k ∧ ((s.unitsAbove d (s.copiedMeta d)).getLast?.map (·.stamp)).getD
        0 = hi)) ∧ s1 = s.installDomain d (s.copiedMeta d)) ∧
    (∃ (s : State) (d : SD) (x : Takeover) (level : Bool) (gap k hi : Nat), (s.ubl.takeover.find? (fun y => decide
        (y.sd = d)) = some x) ∧ x.step = 4 ∧ s.ubl.breakIn = false ∧ x.rehearsal = true ∧
        s.ubl.expectUnits.get d = some (k, hi) ∧ (((s.unitsAbove d (s.copiedMeta d)).length ≠ k ∨ ((s.unitsAbove d
        (s.copiedMeta d)).getLast?.map (·.stamp)).getD 0 ≠ hi))) ∧
    (∃ (s s1 : State) (d : SD) (x : Takeover) (level : Bool) (gap : Nat) (ok : Bool), (s.ubl.takeover.find? (fun y =>
        decide (y.sd = d)) = some x) ∧ x.step = 6 ∧ s.ubl.breakIn = false ∧
        (s.reenterAll (s.metaOf d).todoGran (fun s e i => s.mirrorSlot e i) (s.unitsAbove d (s.metaOf d)) = (s1, ok))) ∧
    (∃ (s s1 s2 s3 : State), s.ubl.breakIn = false ∧ (s1 = ((s.updMlk fun m =>
        { m with out := m.out.map fun o => if o.res.isNone = true then { o with res := some fencedRes, loc := true } else o, late := m.late ++ submitted m.out }).count
        .mlkFenced (s.mlk.out.filter fun o => o.res.isNone).length)) ∧
        (s2 = (s1.updUbl fun u => { u with breakIn := true, breakOut := false, battenOut := ⟨false, false⟩ }).raise
        .ubl 6) ∧ s2.ubl.expectBreak = false ∧ s2.upd.core0 = true ∧ s2.powered .ubl = true ∧
        s3 = s2.owned.foldl State.leaveDomain (s2.snag 13 0x100C).portsDown) :=
  ⟨by refine ⟨w0, _, _, .pair,
              (let b : List Byte := [0x48, 3] ++ leBytes 2 5 ++ leBytes 4 1 ++ leBytes 4 2 ++ leBytes 4 100; b ++ leBytes 8 (crc64 b).toNat),
              _, _, ?_, ?_, ?_, ?_, ?_, ?_, rfl, rfl, ?_, ?_, rfl, rfl⟩ <;> decide +kernel,
   ⟨w0, .link, [], by decide +kernel⟩,
   by refine ⟨w0, .link,
              (let b : List Byte := [0x48, 2] ++ leBytes 2 5 ++ leBytes 4 1 ++ leBytes 4 2 ++ leBytes 4 100; b ++ leBytes 8 (crc64 b).toNat),
              ?_, ?_, ?_, ?_, ?_, ?_⟩ <;> decide +kernel,
   by refine ⟨w0, _, ?_, ?_, rfl⟩ <;> decide +kernel,
   by refine ⟨{ w0 with ubl := { w0.ubl with hbLink := { w0.ubl.hbLink with misses := 2 }, hbPair := { w0.ubl.hbPair with misses := 2 } } },
              _, ?_, ?_, ?_, rfl⟩ <;> decide +kernel,
   ⟨w0, by decide +kernel⟩,
   by refine ⟨{ w0 with ubl := { w0.ubl with delay := true } }, ?_, ?_⟩ <;> decide +kernel,
   by refine ⟨{ w0 with ubl := { w0.ubl with delay := true, breakIn := true } }, ?_, ?_⟩ <;> decide +kernel,
   by refine ⟨{ w0 with ubl := { w0.ubl with takeover := [⟨.b, 1, false, false⟩], own := ⟨true, false⟩ } }, .b,
              ⟨.b, 1, false, false⟩, true, 0, ?_, ?_, ?_⟩ <;> decide +kernel,
   by refine ⟨{ w0 with ubl := { w0.ubl with takeover := [⟨.b, 2, false, false⟩], own := ⟨true, false⟩ } }, .b,
              ⟨.b, 2, false, false⟩, false, 0, ?_, ?_, ?_⟩ <;> decide +kernel,
   by refine ⟨{ w0 with ubl := { w0.ubl with takeover := [⟨.b, 3, false, false⟩], own := ⟨true, false⟩ } }, .b,
              ⟨.b, 3, false, false⟩, false, 0, ?_, ?_, ?_⟩ <;> decide +kernel,
   by refine ⟨{ w0 with ubl := { w0.ubl with takeover := [⟨.b, 5, false, false⟩], own := ⟨true, false⟩ } }, .b,
              ⟨.b, 5, false, false⟩, false, 0, ?_, ?_, ?_⟩ <;> decide +kernel,
   by refine ⟨{ w0 with ubl := { w0.ubl with takeover := [⟨.b, 7, false, false⟩], own := ⟨true, false⟩ } }, .b,
              ⟨.b, 7, false, false⟩, false, 9, ?_, ?_, ?_⟩ <;> decide +kernel,
   ⟨{ w0 with ubl := { w0.ubl with takeover := [⟨.b, 2, false, false⟩], own := ⟨true, false⟩ } }, .b,
    by decide +kernel⟩,
   by refine ⟨{ w0 with top := { w0.top with head := 1 } }, .b, ?_, ?_⟩ <;> decide +kernel,
   ⟨w0, .b, false, by decide +kernel⟩,
   by refine ⟨(let w : State := { w0 with ubl := { w0.ubl with expectBreak := true } }; { w with mlk := { w.mlk with out := [⟨MCmd.mk0 2 .temp (.sd .a) .temp, none, false, none⟩] } }),
              _, _, ?_, rfl, rfl, ?_⟩ <;> decide +kernel,
   by refine ⟨{ w0 with ubl := { w0.ubl with unmirrored := true, own := ⟨true, false⟩ } }, _, _, _, ?_, ?_, ?_, ?_, ?_, rfl,
              rfl, rfl⟩ <;> decide +kernel,
   ⟨(wAsk w0 0x0602 []), 0, (zeros 8),
    ⟨by decide +kernel, by decide +kernel, fun x hx => by cases hx <;> decide +kernel, by decide +kernel⟩,
    by decide +kernel⟩,
   by refine ⟨{ w0 with ubl := { w0.ubl with takeover := [⟨.b, 4, false, false⟩], own := ⟨true, false⟩ } }, _, .b, _, false, 0,
              wGet (by decide +kernel), ?_, ?_, Or.inl (by decide +kernel), rfl⟩ <;> decide +kernel,
   by refine ⟨{ w0 with ubl := { w0.ubl with takeover := [⟨.b, 4, true, false⟩], own := ⟨true, false⟩, expectUnits := ⟨none, some (1, 5)⟩ } },
              .b, _, false, 0, 1, 5, wGet (by decide +kernel), ?_, ?_, ?_, ?_, ?_⟩ <;> decide +kernel,
   by refine ⟨{ w0 with ubl := { w0.ubl with takeover := [⟨.b, 6, false, false⟩], own := ⟨true, false⟩ } }, _, .b, _, false, 0,
              _, wGet (by decide +kernel), ?_, ?_, wPair _⟩ <;> decide +kernel,
   by refine ⟨w0, _, _, _, ?_, rfl, rfl, ?_, ?_, ?_, rfl⟩ <;> decide +kernel⟩

/-- The hypotheses of HandoverAndRehearsal can be met, clause by clause. -/
theorem witness_HandoverAndRehearsal :
    (∃ (s : State) (c : Nat) (r : List Byte) (d : SD) (level : Bool), s.ubl.handover = none ∧
        s.takesCmd c 0x0601 r (some (SD.ofBit (leAt r 8 1))) [(7, leAt r 8 1)] ∧ leAt r 8 1 ≤ 1 ∧ s.paired = true ∧
        s.ubl.takeover = []) ∧
    (∃ (s : State) (h : Handover) (c : Option Nat) (level : Bool), s.ubl.handover = some h ∧ h.giver = true) ∧
    (∃ (s : State) (h : Handover) (c : Option Nat) (level : Bool), s.ubl.handover = some h ∧ h.giver = false) ∧
    (∃ (s : State) (h : Handover), s.ubl.handover = some h ∧ h.giver = true ∧ h.step ≤ 1) ∧
    (∃ (s : State), s.top.head = 0 ∧ s.cfg.ublRehearse.value ≠ 0 ∧ s.ubl.nextRehearse ≤ s.pwr.rtc.toNat ∧
        s.paired = true ∧ s.rehearsalBusy = true) ∧
    (∃ (s s1 : State), s.top.head = 0 ∧ s.cfg.ublRehearse.value ≠ 0 ∧ s.ubl.nextRehearse ≤ s.pwr.rtc.toNat ∧
        s.paired = true ∧ s.rehearsalBusy = false ∧ (s1 = (s.updUbl fun u =>
        { u with nextRehearse := s.pwr.rtc.toNat + s.cfg.ublRehearse.value.toNat * 3600000000, rehearseG := 1 - u.rehearseG }))) ∧
    (∃ (s : State) (k : Nat) (d : SD) (b : List Byte), s.ubl.up = false) ∧
    (∃ (s s1 : State) (d : SD) (b : List Byte), s.ubl.up = true ∧
        s1 = (s.heard 4 (flitsOf (32 + b.length))).wakeEvent 3) ∧
    (∃ (s s1 : State) (d : SD) (b : List Byte) (h : Handover), s.ubl.up = true ∧
        s1 = (s.heard 4 (flitsOf (32 + b.length))).wakeEvent 3 ∧ s1.ubl.handover = some h ∧ h.sd = d ∧ h.giver = false) ∧
    (∃ (s : State) (h : Handover), h.step = 3 ∧ s.ubl.waits.get h.sd = []) ∧
    (∃ (s : State) (h : Handover), h.step = 2 ∧ s.ubl.breakIn = false) ∧
    (∃ (s s1 : State) (d : SD) (b : List Byte), s.ubl.up = true ∧
        s1 = (s.heard 4 (flitsOf (32 + b.length))).wakeEvent 3) ∧
    (∃ (s s1 : State) (d : SD) (b : List Byte), s.ubl.up = true ∧
        s1 = (s.heard 4 (flitsOf (32 + b.length))).wakeEvent 3) ∧
    (∃ (s s1 : State) (d : SD) (b : List Byte), s.ubl.up = true ∧
        s1 = (s.heard 4 (flitsOf (32 + b.length))).wakeEvent 3) ∧
    (∃ (s s1 : State) (d : SD) (b : List Byte), s.ubl.up = true ∧
        s1 = (s.heard 4 (flitsOf (32 + b.length))).wakeEvent 3) ∧
    (∃ (s s1 : State) (d : SD) (b : List Byte), s.ubl.up = true ∧
        s1 = (s.heard 4 (flitsOf (32 + b.length))).wakeEvent 3) ∧
    (∃ (s s1 : State) (d : SD) (b : List Byte), s.ubl.up = true ∧
        s1 = (s.heard 4 (flitsOf (32 + b.length))).wakeEvent 3) ∧
    (∃ (s s1 : State) (d : SD) (b : List Byte), s.ubl.up = true ∧
        s1 = (s.heard 4 (flitsOf (32 + b.length))).wakeEvent 3) ∧
    (∃ (s s1 : State) (d : SD) (b : List Byte), s.ubl.up = true ∧
        s1 = (s.heard 4 (flitsOf (32 + b.length))).wakeEvent 3) ∧
    (∃ (s s1 : State) (d : SD) (b : List Byte), s.ubl.up = true ∧
        s1 = (s.heard 4 (flitsOf (32 + b.length))).wakeEvent 3) ∧
    (∃ (s s1 : State) (d : SD) (b : List Byte), s.ubl.up = true ∧
        s1 = (s.heard 4 (flitsOf (32 + b.length))).wakeEvent 3) ∧
    (∃ (s s1 : State) (d : SD) (b : List Byte), s.ubl.up = true ∧
        s1 = (s.heard 4 (flitsOf (32 + b.length))).wakeEvent 3) ∧
    (∃ (s s1 : State) (d : SD) (b : List Byte), s.ubl.up = true ∧
        s1 = (s.heard 4 (flitsOf (32 + b.length))).wakeEvent 3) ∧
    (∃ (s s1 : State) (d : SD) (b : List Byte), s.ubl.up = true ∧
        s1 = (s.heard 4 (flitsOf (32 + b.length))).wakeEvent 3) ∧
    (∃ (s s1 : State) (d : SD) (b : List Byte), s.ubl.up = true ∧
        s1 = (s.heard 4 (flitsOf (32 + b.length))).wakeEvent 3) ∧
    (∃ (s s1 : State) (d : SD) (b : List Byte), s.ubl.up = true ∧
        s1 = (s.heard 4 (flitsOf (32 + b.length))).wakeEvent 3) ∧
    (∃ (s s1 : State) (d : SD) (b : List Byte), s.ubl.up = true ∧
        s1 = (s.heard 4 (flitsOf (32 + b.length))).wakeEvent 3) ∧
    (∃ (s s1 : State) (d : SD) (b : List Byte), s.ubl.up = true ∧
        s1 = (s.heard 4 (flitsOf (32 + b.length))).wakeEvent 3) ∧
    (∃ (s s1 : State) (d : SD) (b : List Byte), s.ubl.up = true ∧
        s1 = (s.heard 4 (flitsOf (32 + b.length))).wakeEvent 3) :=
  ⟨by refine ⟨(wAsk ({ w0 with ubl := { w0.ubl with peerServing := true, unmirrored := false } }) 0x0601 [1]), 0,
              (zeros 8 ++ [1]), .a, false, ?_,
              ⟨by decide +kernel, by decide +kernel, fun x hx => by cases hx <;> decide +kernel, by decide +kernel⟩, ?_, ?_, ?_⟩ <;> decide +kernel,
   by refine ⟨{ w0 with ubl := { w0.ubl with handover := some ⟨.b, true, 3, 0, none⟩ } }, ⟨.b, true, 3, 0, none⟩, none, false,
              ?_, ?_⟩ <;> decide +kernel,
   by refine ⟨{ w0 with ubl := { w0.ubl with handover := some ⟨.b, false, 2, 0, none⟩ } }, ⟨.b, false, 2, 0, none⟩, none, false,
              ?_, ?_⟩ <;> decide +kernel,
   by refine ⟨{ w0 with ubl := { w0.ubl with handover := some ⟨.b, true, 1, 0, none⟩ } }, ⟨.b, true, 1, 0, none⟩, ?_, ?_, ?_⟩ <;> decide +kernel,
   by refine ⟨{ { w0 with ubl := { w0.ubl with peerServing := true, unmirrored := false, handover := some ⟨.b, true, 1, 0, none⟩ } } with cfg := { w0.cfg with ublRehearse := { value := 24, near := none, far := none } }, upd := { w0.upd with push := none, act := none } },
              ?_, ?_, ?_, ?_, ?_⟩ <;> decide +kernel,
   by refine ⟨{ { w0 with ubl := { w0.ubl with peerServing := true, unmirrored := false, rehearseG := 1 } } with cfg := { w0.cfg with ublRehearse := { value := 24, near := none, far := none } }, upd := { w0.upd with push := none, act := none } },
              _, ?_, ?_, ?_, ?_, ?_, rfl⟩ <;> decide +kernel,
   ⟨{ w0 with ubl := { w0.ubl with up := false } }, 4, .a, [], by decide +kernel⟩,
   ⟨w0, _, .b, [], by decide +kernel, rfl⟩,
   by refine ⟨{ w0 with ubl := { w0.ubl with handover := some ⟨.b, false, 0, 0, none⟩ } }, _, .b, (leBytes 8 77),
              ⟨.b, false, 0, 0, none⟩, ?_, rfl, ?_, ?_, ?_⟩ <;> decide +kernel,
   by refine ⟨w0, ⟨.a, true, 3, 0, none⟩, ?_, ?_⟩ <;> decide +kernel,
   by refine ⟨w0, ⟨.a, false, 2, 0, none⟩, ?_, ?_⟩ <;> decide +kernel,
   ⟨w0, _, .a, [], by decide +kernel, rfl⟩,
   ⟨w0, _, .a, [], by decide +kernel, rfl⟩,
   ⟨w0, _, .a, [], by decide +kernel, rfl⟩,
   ⟨w0, _, .a, [], by decide +kernel, rfl⟩,
   ⟨w0, _, .a, [], by decide +kernel, rfl⟩,
   ⟨w0, _, .a, [], by decide +kernel, rfl⟩,
   ⟨w0, _, .a, [], by decide +kernel, rfl⟩,
   ⟨w0, _, .a, [], by decide +kernel, rfl⟩,
   ⟨w0, _, .a, [], by decide +kernel, rfl⟩,
   ⟨w0, _, .a, [], by decide +kernel, rfl⟩,
   ⟨w0, _, .a, [], by decide +kernel, rfl⟩,
   ⟨w0, _, .a, [], by decide +kernel, rfl⟩,
   ⟨w0, _, .a, [], by decide +kernel, rfl⟩,
   ⟨w0, _, .a, [], by decide +kernel, rfl⟩,
   ⟨w0, _, .a, [], by decide +kernel, rfl⟩,
   ⟨w0, _, .a, [], by decide +kernel, rfl⟩,
   ⟨w0, _, .a, [], by decide +kernel, rfl⟩,
   ⟨w0, _, .a, [], by decide +kernel, rfl⟩⟩

/-- The hypotheses of MailboxChannels can be met, clauses 1, 2, 3, 4, 5, 6, 7, 8, 9, 10. -/
theorem witness_MailboxChannels :
    (∃ (s s1 : State) (r : Requester) (c : Nat) (w : Word), c < 63 ∧ s.powered .top = true ∧ s.powered .mbx = true ∧
        s.regExists r .mbx (0x40000 + 0x1000 * c + 8) = true ∧ s.takes .mbx = true ∧ (s.chan c).state = 0 ∧
        w.toNat % 256 = (s.chan c).expected ∧ (s1 = s.updChan c (fun x =>
        { (x.setBank (w.toNat % 256) []) with taken := BitVec.ofNat 8 (w.toNat % 256), state := 1, op := (s.chan c).opcode.toNat, cur := fit (s.chan c).req (s.chan c).len, ready := (if (s.chan c).opcode.toNat ∉ mailOps then some rsnUnsupported else if (s.chan c).len < 8 ∨ (s.chan c).len > 1792 then some rsnRange else none).map fun rsn => bankBytes rsn (s.chan c).opcode.toNat (ridOf (fit (s.chan c).req (s.chan c).len)) [] }))) ∧
    (∃ (s : State) (r : Requester) (c : Nat) (w : Word), c ≤ 63 ∧ s.powered .top = true ∧ s.powered .mbx = true ∧
        s.regExists r .mbx (0x40000 + 0x1000 * c + 8) = true ∧
        ((c = 63 ∨ s.takes .mbx = false ∨ (s.chan c).state ≠ 0 ∨ w.toNat % 256 ≠ (s.chan c).expected))) ∧
    (∃ (s s0 s1 : State) (c : Nat) (b : List Byte), s0 = s.endWait c ∧ c < 63 ∧ (s0.chan c).ready = some b ∧
        (s0.chan c).state = 1 ∧ s0.works .mbx = true ∧ (s1 = (s0.updChan c fun x =>
        { (x.setBank x.taken.toNat b) with rseq := x.taken, state := 2, ready := none }))) ∧
    (∃ (s : State) (r : Requester) (c : Nat) (w : Word), c < 63 ∧ s.powered .top = true ∧ s.powered .mbx = true ∧
        s.regExists r .mbx (0x40000 + 0x1000 * c + 0x24) = true ∧ (s.chan c).state = 2 ∧
        w.toNat % 256 = (s.chan c).rseq.toNat) ∧
    (∃ (s : State) (code : Nat) (raised : Bool) (sd : Option SD) (port : Nat) (arg : List Byte), s.works .mbx = true) ∧
    (∃ (s : State) (code : Nat) (raised : Bool) (sd : Option SD) (port : Nat) (arg : List Byte), s.works .mbx = true
        ∧ 64 ≤ (s.mbx.prod + 128 - s.mbx.cons) % 128 ∧ s.mbx.lost ≠ BitVec.allOnes 32) ∧
    (∃ (s : State) (r : Requester) (w : Word), s.powered .top = true ∧ s.powered .mbx = true ∧
        s.regExists r .mbx 0x7F024 = true ∧ (s.mbx.prod + 128 - w.toNat % 128) % 128 ≤ (s.mbx.prod + 128 - s.mbx.cons)
        % 128) ∧
    (∃ (s : State) (r : Requester) (w : Word), s.powered .top = true ∧ s.powered .mbx = true ∧
        s.regExists r .mbx 0x7F024 = true ∧ (s.mbx.prod + 128 - s.mbx.cons) % 128 < (s.mbx.prod + 128 - w.toNat % 128)
        % 128) ∧
    (∃ (s : State) (r : Requester) (c : Nat) (w : Word), c < 63 ∧ s.powered .top = true ∧ s.powered .mbx = true ∧
        s.regExists r .mbx (0x40000 + 0x1000 * c + 0x24) = true ∧ (s.chan c).state = 0 ∧
        w.toNat % 256 = (s.chan c).rseq.toNat) ∧
    (∃ (s : State) (r : Requester) (c : Nat) (w : Word), c < 63 ∧ s.powered .top = true ∧ s.powered .mbx = true ∧
        s.regExists r .mbx (0x40000 + 0x1000 * c + 0x24) = true ∧
        (((s.chan c).state = 1 ∨ (s.chan c).state = 3 ∨ w.toNat % 256 ≠ (s.chan c).rseq.toNat))) :=
  ⟨by refine ⟨{ w0 with mbx := { w0.mbx with chans := [(3, { Chan.reset with opcode := 1, len := 8, req := zeros 8 })] } }, _,
              .head, 3, 1, ?_, ?_, ?_, ?_, ?_, ?_, ?_, rfl⟩ <;> decide +kernel,
   by refine ⟨{ w0 with mbx := { w0.mbx with chans := [(3, { Chan.reset with state := 1 })] } }, .head, 3, 1, ?_, ?_, ?_, ?_, ?_⟩ <;> decide +kernel,
   by refine ⟨{ w0 with mbx := { w0.mbx with chans := [(3, { Chan.reset with state := 1, taken := 1, ready := some [5] })] } },
              _, _, 3, [5], rfl, ?_, ?_, ?_, ?_, rfl⟩ <;> decide +kernel,
   by refine ⟨{ w0 with mbx := { w0.mbx with chans := [(3, { Chan.reset with state := 2, rseq := 1 })] } }, .head, 3, 1, ?_, ?_,
              ?_, ?_, ?_, ?_⟩ <;> decide +kernel,
   ⟨w0, 0x100, true, none, 3, [], by decide +kernel⟩,
   by refine ⟨{ w0 with mbx := { w0.mbx with prod := 70, cons := 6 } }, 0x100, true, none, 3, [], ?_, ?_, ?_⟩ <;> decide +kernel,
   by refine ⟨{ w0 with mbx := { w0.mbx with prod := 70, cons := 6 } }, .head, 9, ?_, ?_, ?_, ?_⟩ <;> decide +kernel,
   by refine ⟨{ w0 with mbx := { w0.mbx with prod := 70, cons := 6 } }, .head, 71, ?_, ?_, ?_, ?_⟩ <;> decide +kernel,
   by refine ⟨w0, .head, 0, 0, ?_, ?_, ?_, ?_, ?_, ?_⟩ <;> decide +kernel,
   by refine ⟨(wAsk w0 1 []), .head, 0, 0, ?_, ?_, ?_, ?_, ?_⟩ <;> decide +kernel⟩

/-- The hypotheses of RdmaPackets can be met, clauses 1, 3, 4, 5, 6, 7, 8, 9, 10, 11, 12, 13, 14, 15, 16, 17, 18, 19, 20. -/
theorem witness_RdmaPackets :
    (∃ (s : State) (p : Pkt), s.rdmOn = false) ∧
    (∃ (s s0 : State) (p : Pkt) (q : Qp), s.rdmOn = true ∧ s.ethPort p.port = true ∧ s0 = s.wakeP1.trace p.header ∧
        s0.qp? (qpnIdx p.qpn) = some q ∧ q.gen ≠ qpnGen p.qpn) ∧
    (∃ (s s0 : State) (p : Pkt) (q : Qp), s.rdmOn = true ∧ s.ethPort p.port = true ∧ s0 = s.wakeP1.trace p.header ∧
        s0.qp? (qpnIdx p.qpn) = some q ∧ q.gen = qpnGen p.qpn ∧ q.err = false ∧ q.onChip = true ∧ q.fetching = false ∧
        q.parked = []) ∧
    (∃ (s s1 : State) (i : Nat) (q : Qp), s.qp? i = some q ∧ q.fetching = true ∧
        (s1 = s.makeRoom.updQp i (fun q => { q with onChip := true, fetching := false, parked := [] }))) ∧
    (∃ (s s2 : State) (i : Nat) (cause : Option WcSt) (q : Qp) (ws : List Wc), s.qp? i = some q ∧ q.err = false ∧
        (ws = (q.wrs.zipIdx.map fun w => Wc.mk false w.1.psn (if w.2 = 0 then cause.getD .flushed else .flushed))) ∧
        (s2 = ((((s.updQp i fun q =>
        { q with err := true, comps := q.comps ++ ws ++ List.replicate q.recvs (Wc.mk true 0 .flushed), wrs := [], recvs := 0, parked := [], fetching := false, tmsgs := [], twait := [] }).count
        .rdmErrDropped q.parked.length).count .rdmQpErrors).raise .rdm 1))) ∧
    (∃ (s : State) (i : Nat) (q : Qp) (psn : Nat) (persist : Bool) (m : Word) (rest : List RWait), s.qp? i = some q ∧
        q.err = false ∧ q.rwaits = ⟨psn, persist, m, none⟩ :: rest ∧ ((persist = true →
        s.mirrored (s.qpSd i) m = true))) ∧
    (∃ (s : State) (i : Nat) (q : Qp) (psn : Nat) (m : Word) (rest : List RWait), s.qp? i = some q ∧
        q.rwaits = ⟨psn, true, m, none⟩ :: rest ∧ s.mirrored (s.qpSd i) m = false) ∧
    (∃ (s : State) (i : Nat) (q : Qp) (psn : Nat) (b : Bool) (m : Word) (o : Nat) (x : List Byte) (rest : List
        RWait), s.qp? i = some q ∧ q.err = false ∧ q.rwaits = ⟨psn, b, m, some (o, x)⟩ :: rest) ∧
    (∃ (s : State) (n psn port k : Nat), s.rdmOn = true ∧ s.ethPort port = true) ∧
    (∃ (s : State) (i path : Nat) (q : Qp), s.qp? i = some q) ∧
    (∃ (s : State) (i path : Nat) (q : Qp), s.qp? i = some q) ∧
    (∃ (s : State) (i : Nat) (q : Qp) (w : Wr), s.qp? i = some q ∧ q.err = false ∧
        (q.wrs.find? (fun w => decide (w.op ≠ .scrim)) = some w) ∧ q.retries < q.retryMax) ∧
    (∃ (s : State) (i : Nat) (q : Qp) (w : Wr), s.qp? i = some q ∧ q.err = false ∧
        (q.wrs.find? (fun w => decide (w.op ≠ .scrim)) = some w) ∧ q.retryMax ≤ q.retries) ∧
    (∃ (s s1 : State) (port : Nat), (s1 = s.updRdm (fun r => { r with portUp := Table.put r.portUp port false }))) ∧
    (∃ (s s0 : State) (p : Pkt) (q : Qp), s.rdmOn = true ∧ s.ethPort p.port = true ∧ s0 = s.wakeP1.trace p.header ∧
        s0.qp? (qpnIdx p.qpn) = some q ∧ q.gen = qpnGen p.qpn ∧ q.err = true) ∧
    (∃ (s s0 s1 : State) (p : Pkt) (q : Qp), s.rdmOn = true ∧ s.ethPort p.port = true ∧
        s0 = s.wakeP1.trace p.header ∧ s0.qp? (qpnIdx p.qpn) = some q ∧ q.gen = qpnGen p.qpn ∧ q.err = false ∧
        ¬(q.onChip = true ∧ q.fetching = false ∧ q.parked = []) ∧
        (s1 = (if q.onChip = true then s0 else s0.count .rdmCtxMiss)) ∧ s0.parkedIn (p.port / 8) < 240 ∧
        q.parked.length < 32 ∧ ((q.onChip = true ∨ q.fetching = true ∨ s0.fetchesIn (p.port / 8) < 64))) ∧
    (∃ (s s0 s1 : State) (p : Pkt) (q : Qp), s.rdmOn = true ∧ s.ethPort p.port = true ∧
        s0 = s.wakeP1.trace p.header ∧ s0.qp? (qpnIdx p.qpn) = some q ∧ q.gen = qpnGen p.qpn ∧ q.err = false ∧
        ¬(q.onChip = true ∧ q.fetching = false ∧ q.parked = []) ∧
        (s1 = (if q.onChip = true then s0 else s0.count .rdmCtxMiss)) ∧
        ((240 ≤ s0.parkedIn (p.port / 8) ∨ 32 ≤ q.parked.length ∨ (q.onChip = false ∧ q.fetching = false ∧
        64 ≤ s0.fetchesIn (p.port / 8))))) ∧
    (∃ (s : State) (i : Nat) (q : Qp) (w : Wr), s.qp? i = some q ∧ q.err = false ∧
        (q.wrs.find? (fun w => decide (w.op ≠ .scrim)) = some w) ∧ q.rnrs < q.rnrMax) ∧
    (∃ (s : State) (i : Nat) (q : Qp) (w : Wr), s.qp? i = some q ∧ q.err = false ∧
        (q.wrs.find? (fun w => decide (w.op ≠ .scrim)) = some w) ∧ q.rnrMax ≤ q.rnrs) :=
  ⟨⟨{ w0 with pwr := { w0.pwr with current := 3 } }, ⟨65541, 0, 0, .ack⟩, by decide +kernel⟩,
   by refine ⟨{ w0 with rdm := { w0.rdm with qps := [(5, { wQp with gen := 2 })] } }, _, ⟨65541, 0, 0, .ack⟩,
              { wQp with gen := 2 }, ?_, ?_, rfl, ?_, ?_⟩ <;> decide +kernel,
   by refine ⟨{ w0 with rdm := { w0.rdm with qps := [(5, { wQp with gen := 1 })] } }, _, ⟨65541, 0, 0, .ack⟩, wQp, ?_, ?_, rfl,
              ?_, ?_, ?_, ?_, ?_, ?_⟩ <;> decide +kernel,
   by refine ⟨{ w0 with rdm := { w0.rdm with qps := [(5, { wQp with onChip := false, fetching := true })] } }, _, 5,
              { wQp with onChip := false, fetching := true }, ?_, ?_, rfl⟩ <;> decide +kernel,
   by refine ⟨{ w0 with rdm := { w0.rdm with qps := [(5, { wQp with wrs := [⟨3, .write⟩], recvs := 2 })] } }, _, 5, none,
              { wQp with wrs := [⟨3, .write⟩], recvs := 2 }, _, ?_, ?_, rfl, rfl⟩ <;> decide +kernel,
   by refine ⟨{ w0 with rdm := { w0.rdm with qps := [(5, { wQp with rwaits := [⟨3, true, 0, none⟩] })] } }, 5,
              { wQp with rwaits := [⟨3, true, 0, none⟩] }, 3, true, 0, [], ?_, ?_, ?_, ?_⟩ <;> decide +kernel,
   by refine ⟨(let w : State := { w0 with rdm := { w0.rdm with qps := [(5, { wQp with rwaits := [⟨3, true, 5, none⟩] })] } }; { w with ubl := { w.ubl with tx := ⟨{ w.ubl.tx.a with unacked := [⟨false, .a, 0, 1, 0, [], none⟩] }, w.ubl.tx.b⟩ } }),
              5, { wQp with rwaits := [⟨3, true, 5, none⟩] }, 3, 5, [], ?_, ?_, ?_⟩ <;> decide +kernel,
   by refine ⟨{ w0 with rdm := { w0.rdm with qps := [(5, { wQp with rwaits := [⟨3, false, 0, some (8, zeros 8)⟩] })] } }, 5,
              { wQp with rwaits := [⟨3, false, 0, some (8, zeros 8)⟩] }, 3, false, 0, 8, (zeros 8), [], ?_, ?_, ?_⟩ <;> decide +kernel,
   by refine ⟨w0, 65541, 0, 0, 7, ?_, ?_⟩ <;> decide +kernel,
   ⟨{ w0 with rdm := { w0.rdm with qps := [(5, { wQp with rate := 800000000000 })] } }, 5, 0,
    { wQp with rate := 800000000000 }, by decide +kernel⟩,
   ⟨{ w0 with rdm := { w0.rdm with qps := [(5, { wQp with rate := 1000000000 })] } }, 5, 0,
    { wQp with rate := 1000000000 }, by decide +kernel⟩,
   by refine ⟨{ w0 with rdm := { w0.rdm with qps := [(5, { wQp with wrs := [⟨3, .write⟩] })] } }, 5,
              { wQp with wrs := [⟨3, .write⟩] }, ⟨3, .write⟩, ?_, ?_, ?_, ?_⟩ <;> decide +kernel,
   by refine ⟨{ w0 with rdm := { w0.rdm with qps := [(5, { wQp with wrs := [⟨3, .write⟩], retries := 7 })] } }, 5,
              { wQp with wrs := [⟨3, .write⟩], retries := 7 }, ⟨3, .write⟩, ?_, ?_, ?_, ?_⟩ <;> decide +kernel,
   ⟨{ w0 with rdm := { w0.rdm with qps := [(5, { wQp with port := 1 })] } }, _, 0, rfl⟩,
   by refine ⟨{ w0 with rdm := { w0.rdm with qps := [(5, { wQp with err := true })] } }, _, ⟨65541, 0, 0, .ack⟩, _, ?_, ?_, rfl,
              wGet (by decide +kernel), ?_, ?_⟩ <;> decide +kernel,
   by refine ⟨{ w0 with rdm := { w0.rdm with qps := [(5, { wQp with onChip := false })] } }, _, _, ⟨65541, 0, 0, .ack⟩, _, ?_,
              ?_, rfl, wGet (by decide +kernel), ?_, ?_, ?_, rfl, ?_, ?_, ?_⟩ <;> decide +kernel,
   by refine ⟨{ w0 with rdm := { w0.rdm with qps := [(5, { wQp with parked := List.replicate 32 ⟨65541, 0, 0, .ack⟩ })] } }, _,
              _, ⟨65541, 0, 0, .ack⟩, _, ?_, ?_, rfl, wGet (by decide +kernel), ?_, ?_, ?_, rfl, ?_⟩ <;> decide +kernel,
   by refine ⟨{ w0 with rdm := { w0.rdm with qps := [(5, { wQp with wrs := [⟨3, .write⟩] })] } }, 5,
              { wQp with wrs := [⟨3, .write⟩] }, ⟨3, .write⟩, ?_, ?_, ?_, ?_⟩ <;> decide +kernel,
   by refine ⟨{ w0 with rdm := { w0.rdm with qps := [(5, { wQp with wrs := [⟨3, .write⟩], rnrs := 7 })] } }, 5,
              { wQp with wrs := [⟨3, .write⟩], rnrs := 7 }, ⟨3, .write⟩, ?_, ?_, ?_, ?_⟩ <;> decide +kernel⟩

/-- The hypotheses of ScrimMode can be met, clause by clause. -/
theorem witness_ScrimMode :
    (∃ (s : State) (n psn port : Nat) (x : Sxh) (b : List Byte), s.rdmOn = true ∧ s.ethPort port = true) ∧
    (∃ (s : State) (i msn : Nat) (q : Qp) (m : RMsg), s.qp? i = some q ∧ q.err = false ∧
        Table.find q.rmsgs msn = some m ∧ m.complete = false ∧ m.bitmap = 2 ^ (m.npktM1 + 1) - 1) ∧
    (∃ (s : State) (i msn : Nat) (q : Qp), s.qp? i = some q ∧ q.err = false ∧
        ((q.tmsgs.any fun m => decide (m.msn = msn)) = true)) ∧
    (∃ (s : State) (i msn bitmap : Nat) (q : Qp) (m : TMsg), s.qp? i = some q ∧ q.err = false ∧
        (q.tmsgs.find? (fun m => m.msn = msn) = some m)) ∧
    (∃ (s : State) (i msn : Nat) (q : Qp) (m : TMsg), s.qp? i = some q ∧
        (q.tmsgs.find? (fun m => decide (m.msn = msn)) = some m) ∧ m.timeouts < 6) ∧
    (∃ (s : State) (i msn : Nat) (q : Qp) (m : TMsg), s.qp? i = some q ∧
        (q.tmsgs.find? (fun m => m.msn = msn) = some m) ∧ 6 ≤ m.timeouts) ∧
    (∃ (s s1 : State) (i p : Nat) (q q1 : Qp), s.qp? i = some q ∧ q.kind = .scrim ∧ q.err = false ∧
        ((q.paths.any fun x => decide (x.idx = p) && x.up) = true) ∧
        (q1 = { q with paths := q.paths.map fun x => if x.idx = p then { x with up := false } else x }) ∧
        (s1 = (s.updQp i fun _ => q1).raise .rdm 3) ∧ ((q1.paths.any fun x => x.up) = true)) ∧
    (∃ (s s1 : State) (i p : Nat) (q q1 : Qp), s.qp? i = some q ∧ q.kind = .scrim ∧ q.err = false ∧
        ((q.paths.any fun x => decide (x.idx = p) && x.up) = true) ∧
        (q1 = { q with paths := q.paths.map fun x => if x.idx = p then { x with up := false } else x }) ∧
        (s1 = (s.updQp i fun _ => q1).raise .rdm 3) ∧ ((q1.paths.any fun x => x.up) = false)) :=
  ⟨by refine ⟨w0, 65541, 0, 0, ⟨0, 0, 0, 0, false, 0, 0⟩, [], ?_, ?_⟩ <;> decide +kernel,
   by refine ⟨{ w0 with rdm := { w0.rdm with qps := [(5, { wQp with kind := .scrim, rmsgs := [(0, ⟨0, 0, 0, 1, false⟩)] })] } },
              5, 0, { wQp with kind := .scrim, rmsgs := [(0, ⟨0, 0, 0, 1, false⟩)] }, ⟨0, 0, 0, 1, false⟩, ?_, ?_, ?_, ?_, ?_⟩ <;> decide +kernel,
   by refine ⟨{ w0 with rdm := { w0.rdm with qps := [(5, { wQp with kind := .scrim, paths := [⟨0, 0, true, 1⟩, ⟨1, 8, true, 1⟩], tmsgs := [⟨7, 2, 0, [0, 0, 0], []⟩] })] } },
              5, 7,
              { wQp with kind := .scrim, paths := [⟨0, 0, true, 1⟩, ⟨1, 8, true, 1⟩], tmsgs := [⟨7, 2, 0, [0, 0, 0], []⟩] }, ?_,
              ?_, ?_⟩ <;> decide +kernel,
   by refine ⟨{ w0 with rdm := { w0.rdm with qps := [(5, { wQp with kind := .scrim, paths := [⟨0, 0, true, 1⟩, ⟨1, 8, true, 1⟩], tmsgs := [⟨7, 2, 0, [0, 0, 0], []⟩] })] } },
              5, 7, 5,
              { wQp with kind := .scrim, paths := [⟨0, 0, true, 1⟩, ⟨1, 8, true, 1⟩], tmsgs := [⟨7, 2, 0, [0, 0, 0], []⟩] },
              ⟨7, 2, 0, [0, 0, 0], []⟩, ?_, ?_, ?_⟩ <;> decide +kernel,
   by refine ⟨{ w0 with rdm := { w0.rdm with qps := [(5, { wQp with kind := .scrim, paths := [⟨0, 0, true, 1⟩, ⟨1, 8, true, 1⟩], tmsgs := [⟨7, 2, 5, [0, 0, 0], []⟩] })] } },
              5, 7,
              { wQp with kind := .scrim, paths := [⟨0, 0, true, 1⟩, ⟨1, 8, true, 1⟩], tmsgs := [⟨7, 2, 5, [0, 0, 0], []⟩] },
              ⟨7, 2, 5, [0, 0, 0], []⟩, ?_, ?_, ?_⟩ <;> decide +kernel,
   by refine ⟨{ w0 with rdm := { w0.rdm with qps := [(5, { wQp with kind := .scrim, paths := [⟨0, 0, true, 1⟩, ⟨1, 8, true, 1⟩], tmsgs := [⟨7, 2, 6, [0, 0, 0], []⟩] })] } },
              5, 7,
              { wQp with kind := .scrim, paths := [⟨0, 0, true, 1⟩, ⟨1, 8, true, 1⟩], tmsgs := [⟨7, 2, 6, [0, 0, 0], []⟩] },
              ⟨7, 2, 6, [0, 0, 0], []⟩, ?_, ?_, ?_⟩ <;> decide +kernel,
   by refine ⟨{ w0 with rdm := { w0.rdm with qps := [(5, { wQp with kind := .scrim, paths := [⟨0, 0, true, 1⟩, ⟨1, 8, true, 1⟩] })] } },
              _, 5, 0, { wQp with kind := .scrim, paths := [⟨0, 0, true, 1⟩, ⟨1, 8, true, 1⟩] }, _, ?_, ?_, ?_, ?_, rfl, rfl, ?_⟩ <;> decide +kernel,
   by refine ⟨{ w0 with rdm := { w0.rdm with qps := [(5, { wQp with kind := .scrim, paths := [⟨0, 0, true, 1⟩] })] } }, _, 5, 0,
              _, _, wGet (by decide +kernel), ?_, ?_, ?_, rfl, rfl, ?_⟩ <;> decide +kernel⟩

/-- The hypotheses of Replication can be met, clause by clause. -/
theorem witness_Replication :
    (∃ (s : State) (id : Nat) (a : Attach) (p : Nat) (ids : List Nat) (s1 : State), Table.find s.rdm.atts id = some a
        ∧ a.source = true ∧ a.detached = false ∧ s.owns a.sd = true ∧ s.top.running = true ∧
        (s.fe.stamp.get a.sd).toNat = a.mark ∧ ((if a.sync = true then 15625 else a.interval) ≤ a.age) ∧
        s.takeSnap a.sd a.roots = some (p, ids, s1)) ∧
    (∃ (s : State) (id : Nat) (a : Attach), Table.find s.rdm.atts id = some a ∧ a.sync = false ∧ a.age < a.interval) ∧
    (∃ (s : State) (id : Nat) (a : Attach) (m cut : Nat) (q : Qp) (s0 s1 s2 : State) (rs : List Rec), Table.find
        s.rdm.atts id = some a ∧ a.source = true ∧ a.detached = false ∧ s.owns a.sd = true ∧ s.qp? a.qp = some q ∧
        q.err = false ∧ (a.cuts.find? (fun c => decide (c.2 > a.shipped)) = some (m, cut)) ∧
        s.setSealed a cut = true ∧ ((if a.resync = true then s.resyncRecs a m cut else (s.entryRecs m ((s.replEntries
        a).filter fun x => decide (x.1.stamp < cut)), s)) = (rs, s0)) ∧
        s0.sendMsgs id (packRecs [] (rs ++ [⟨4, true, 0, 0, cut, 0, m, []⟩])) = some s1 ∧ s2 = s1.sendFlush id cut) ∧
    (∃ (s s1 : State) (id : Nat) (a : Attach) (w : Window) (v p : Nat) (ids : List Nat), Table.find s.rdm.atts id =
        some a ∧ a.source = false ∧ a.detached = false ∧ s.owns a.sd = true ∧ s.attWindow a = some w ∧
        v = leNat (s.rdm.landing.readN w.base 8) ∧ v ≠ a.word ∧ s.takeSnap a.sd a.roots = some (p, ids, s1)) ∧
    (∃ (s : State) (id msn : Nat) (src wire : List Byte) (a : Attach), Table.find s.rdm.atts id = some a ∧
        a.source = false ∧ a.detached = false ∧ s.owns a.sd = true ∧
        (((s.kslot a.slot).state = 0 ∨ (s.kslot a.slot).state = 3))) ∧
    (∃ (s : State) (id msn : Nat) (src wire : List Byte) (pt : Option (List Byte)) (a : Attach), Table.find
        s.rdm.atts id = some a ∧ a.source = false ∧ a.detached = false ∧ s.owns a.sd = true ∧
        (s.kslot a.slot).state ≠ 0 ∧ (s.kslot a.slot).state ≠ 3 ∧
        (pt = (if wire.length < 32 ∨ (s.kslot a.slot).usage ≠ 1 then none else gcmDec (s.kslot a.slot).key (slice wire
        (wire.length - 32) 12) (replAad id msn src) (wire.take (wire.length - 32)) (slice wire (wire.length - 32 + 16)
        16))) ∧ pt = none) ∧
    (∃ (s : State) (id : Nat) (a : Attach), Table.find s.rdm.atts id = some a ∧ a.source = true ∧
        a.detached = false ∧ a.sync = true ∧ a.degrade = true ∧
        ((s.fe.cmds.any fun c => decide (c.status = some stOk) && !c.posted && decide (c.sd = a.sd) && decide
        (a.durable < c.stamp) && !s.replCovers c) = true)) ∧
    (∃ (s : State) (id : Nat) (a : Attach), Table.find s.rdm.atts id = some a ∧
        s.replHeld a < s.ubl.sheet.size * 4096 * a.backlog / 256) ∧
    (∃ (s : State) (id : Nat) (a : Attach) (p : Nat) (ids : List Nat) (s1 : State), Table.find s.rdm.atts id = some a
        ∧ a.source = true ∧ a.detached = false ∧ a.sync = false ∧ a.resync = false ∧ s.owns a.sd = true ∧
        s.ubl.sheet.size * 4096 * a.backlog / 256 ≤ s.replHeld a ∧ s.takeSnap a.sd a.roots = some (p, ids, s1)) ∧
    (∃ (s s1 : State) (id : Nat) (a : Attach) (q : Qp) (e : Entry) (x : Namespace) (y : Nat), Table.find s.rdm.atts
        id = some a ∧ a.source = true ∧ a.detached = false ∧ s.owns a.sd = true ∧ s.qp? a.qp = some q ∧
        q.err = false ∧ (a.cuts.find? (fun c => decide (c.2 > a.shipped)) = none) ∧ a.sync = true ∧
        (((s.replEntries a).filter fun x => decide (x.1.stamp < s.replLimit a)).getLast? = some (e, x, y)) ∧
        (s.sendMsgs id (packRecs [] (s.entryRecs a.set ((s.replEntries a).filter fun x => decide (x.1.stamp <
        s.replLimit a)))) = some s1)) ∧
    (∃ (s s1 : State) (id msn : Nat) (src wire : List Byte) (pt : Option (List Byte)) (b : List Byte) (a a1 : Attach)
        (rs : List Rec), Table.find s.rdm.atts id = some a ∧ a.source = false ∧ a.detached = false ∧
        s.owns a.sd = true ∧ (s.kslot a.slot).state ≠ 0 ∧ (s.kslot a.slot).state ≠ 3 ∧
        (pt = (if wire.length < 32 ∨ (s.kslot a.slot).usage ≠ 1 then none else gcmDec (s.kslot a.slot).key (slice wire
        (wire.length - 32) 12) (replAad id msn src) (wire.take (wire.length - 32)) (slice wire (wire.length - 32 + 16)
        16))) ∧ pt = some b ∧ (recsOf (fun i => ((a.roots[i]?).bind (s.rootNs a.sd)).map fun x => lbaData x.2.lbaf)
        (b.length / 32 + 2) b = some rs) ∧ (s.count .cipMsgDone).takeRecs a rs = some (a1, s1)) :=
  ⟨by refine ⟨(let w : State := w0.setMeta .a { Meta.empty with roots := [(4, wRoot)] }; { w with cip := { w.cip with slots := [(33, { KSlot.empty with state := 1, usage := 1, klen := true, key := zeros 32 })] }, ubl := { w.ubl with sheet := { w.ubl.sheet with size := 100 } }, fe := { w.fe with ns := [(7, wNs [1])] }, rdm := { w.rdm with atts := [(1, { wAtt with age := 15625, mark := (w0.fe.stamp.get .a).toNat })], qps := [(5, { wQp with kind := .native, gen := 1 })] } }),
              1, { wAtt with age := 15625, mark := (w0.fe.stamp.get .a).toNat }, _, _, _, ?_, ?_, ?_, ?_, ?_, ?_, ?_,
              wSome3 (by decide +kernel)⟩ <;> decide +kernel,
   by refine ⟨(let w : State := w0.setMeta .a { Meta.empty with roots := [(4, wRoot)] }; { w with cip := { w.cip with slots := [(33, { KSlot.empty with state := 1, usage := 1, klen := true, key := zeros 32 })] }, ubl := { w.ubl with sheet := { w.ubl.sheet with size := 100 } }, fe := { w.fe with ns := [(7, wNs [1])] }, rdm := { w.rdm with atts := [(1, { wAtt with age := 0 })], qps := [(5, { wQp with kind := .native, gen := 1 })] } }),
              1, { wAtt with age := 0 }, ?_, ?_, ?_⟩ <;> decide +kernel,
   by refine ⟨(let w : State := w0.setMeta .a { Meta.empty with roots := [(4, wRoot)] }; { w with cip := { w.cip with slots := [(33, { KSlot.empty with state := 1, usage := 1, klen := true, key := zeros 32 })] }, ubl := { w.ubl with sheet := { w.ubl.sheet with size := 100 } }, fe := { w.fe with ns := [(7, wNs [1])] }, rdm := { w.rdm with atts := [(1, { wAtt with cuts := [(1, 9)] })], qps := [(5, { wQp with kind := .native, gen := 1 })] } }),
              1, { wAtt with cuts := [(1, 9)] }, _, 9, { wQp with kind := .native }, _, _, _, _, ?_, ?_, ?_, ?_, ?_, ?_,
              wTail (by decide +kernel), ?_, wPair _, wGet (by decide +kernel), rfl⟩ <;> decide +kernel,
   by refine ⟨(let w : State := w0.setMeta .a { Meta.empty with roots := [(4, wRoot)] }; { w with cip := { w.cip with slots := [(33, { KSlot.empty with state := 1, usage := 1, klen := true, key := zeros 32 })] }, ubl := { w.ubl with sheet := { w.ubl.sheet with size := 100 } }, fe := { w.fe with ns := [(7, wNs [1])] }, rdm := { w.rdm with atts := [(1, { wAtt with source := false, word := 9 })], qps := [(5, { wQp with kind := .native, gen := 1 })], windows := [(0, ⟨true, 1, 5, 0, 64, 15⟩)] } }),
              _, 1, { wAtt with source := false, word := 9 }, ⟨true, 1, 5, 0, 64, 15⟩, _, _, _, ?_, ?_, ?_, ?_, ?_, rfl, ?_,
              wSome3 (by decide +kernel)⟩ <;> decide +kernel,
   by refine ⟨(let w : State := w0.setMeta .a { Meta.empty with roots := [(4, wRoot)] }; { w with cip := { w.cip with slots := [(33, { KSlot.empty with state := 1, usage := 1, klen := true, key := zeros 32 })] }, ubl := { w.ubl with sheet := { w.ubl.sheet with size := 100 } }, fe := { w.fe with ns := [(7, wNs [1])] }, rdm := { w.rdm with atts := [(1, { wAtt with source := false, slot := 34 })], qps := [(5, { wQp with kind := .native, gen := 1 })] } }),
              1, 0, [], [], { wAtt with source := false, slot := 34 }, ?_, ?_, ?_, ?_, ?_⟩ <;> decide +kernel,
   by refine ⟨(let w : State := w0.setMeta .a { Meta.empty with roots := [(4, wRoot)] }; { w with cip := { w.cip with slots := [(33, { KSlot.empty with state := 1, usage := 1, klen := true, key := zeros 32 })] }, ubl := { w.ubl with sheet := { w.ubl.sheet with size := 100 } }, fe := { w.fe with ns := [(7, wNs [1])] }, rdm := { w.rdm with atts := [(1, { wAtt with source := false, slot := 33 })], qps := [(5, { wQp with kind := .native, gen := 1 })] } }),
              1, 0, [], [], _, { wAtt with source := false, slot := 33 }, ?_, ?_, ?_, ?_, ?_, ?_, rfl, ?_⟩ <;> decide +kernel,
   by refine ⟨(let w : State := (let w : State := w0.setMeta .a { Meta.empty with roots := [(4, wRoot)] }; { w with cip := { w.cip with slots := [(33, { KSlot.empty with state := 1, usage := 1, klen := true, key := zeros 32 })] }, ubl := { w.ubl with sheet := { w.ubl.sheet with size := 100 } }, fe := { w.fe with ns := [(7, wNs [1])] }, rdm := { w.rdm with atts := [(1, { wAtt with sync := true, degrade := true })], qps := [(5, { wQp with kind := .native, gen := 1 })] } }); { w with fe := { w.fe with cmds := [{ Cmd.new .a 9 (wCaps ⟨9, 1⟩ 1 5 7 0 0 0 []) with status := some stOk }] } }),
              1, { wAtt with sync := true, degrade := true }, ?_, ?_, ?_, ?_, ?_, ?_⟩ <;> decide +kernel,
   by refine ⟨(let w : State := w0.setMeta .a { Meta.empty with roots := [(4, wRoot)] }; { w with cip := { w.cip with slots := [(33, { KSlot.empty with state := 1, usage := 1, klen := true, key := zeros 32 })] }, ubl := { w.ubl with sheet := { w.ubl.sheet with size := 100 } }, fe := { w.fe with ns := [(7, wNs [1])] }, rdm := { w.rdm with atts := [(1, { wAtt with age := 0 })], qps := [(5, { wQp with kind := .native, gen := 1 })] } }),
              1, { wAtt with age := 0 }, ?_, ?_⟩ <;> decide +kernel,
   by refine ⟨(let w : State := w0.setMeta .a { Meta.empty with roots := [(4, wRoot)] }; { w with cip := { w.cip with slots := [(33, { KSlot.empty with state := 1, usage := 1, klen := true, key := zeros 32 })] }, ubl := { w.ubl with sheet := { w.ubl.sheet with size := 100 } }, fe := { w.fe with ns := [(7, wNs [1])] }, rdm := { w.rdm with atts := [(1, { wAtt with backlog := 0 })], qps := [(5, { wQp with kind := .native, gen := 1 })] } }),
              1, { wAtt with backlog := 0 }, _, _, _, ?_, ?_, ?_, ?_, ?_, ?_, ?_, wSome3 (by decide +kernel)⟩ <;> decide +kernel,
   by refine ⟨(let w : State := (let w : State := w0.setMeta .a { Meta.empty with roots := [(4, wRoot)] }; { w with cip := { w.cip with slots := [(33, { KSlot.empty with state := 1, usage := 1, klen := true, key := zeros 32 })] }, ubl := { w.ubl with sheet := { w.ubl.sheet with size := 100 } }, fe := { w.fe with ns := [(7, wNs [1])] }, rdm := { w.rdm with atts := [(1, { wAtt with sync := true, slot := 33 })], qps := [(5, { wQp with kind := .native, gen := 1 })] } }); { w with ubl := { w.ubl with sheet := { w.ubl.sheet with entries := [(4096, { wEnt with stamp := 10 })] } } }),
              _, 1, _, _, { wEnt with stamp := 10 }, (wNs [1]), 0, wGet (by decide +kernel), ?_, ?_, ?_,
              wGet (by decide +kernel), ?_, ?_, ?_, ?_, wGet (by decide +kernel)⟩ <;> decide +kernel,
   by refine ⟨(let w : State := w0.setMeta .a { Meta.empty with roots := [(4, wRoot)] }; { w with cip := { w.cip with slots := [(33, { KSlot.empty with state := 1, usage := 1, klen := true, key := zeros 32 })] }, ubl := { w.ubl with sheet := { w.ubl.sheet with size := 100 } }, fe := { w.fe with ns := [(7, wNs [1])] }, rdm := { w.rdm with atts := [(1, { wAtt with source := false, slot := 33 })], qps := [(5, { wQp with kind := .native, gen := 1 })] } }),
              _, 1, 0, [], (wWire (zeros 32) (replAad 1 0 [])), _, [], _, _, _, wGet (by decide +kernel), ?_, ?_, ?_, ?_, ?_,
              rfl,
              (if_neg (not_or.2 ⟨(wOpens (zeros 32) (replAad 1 0 []) (by decide +kernel)).1, by decide +kernel⟩)).trans (wOpens (zeros 32) (replAad 1 0 []) (by decide +kernel)).2,
              wGet (by decide +kernel), wSome (by decide +kernel)⟩ <;> decide +kernel⟩

/-- The hypotheses of StepRunsTheFrontCommand can be met. -/
theorem witness_StepRunsTheFrontCommand :
    ∃ (c : Instr) (s : State) (rest : List Instr), s.pending = c :: rest :=
  ⟨.breakDeasserted, { w0 with pending := [.breakDeasserted] }, [], by decide +kernel⟩

/-- The hypotheses of EmptyQueueLetsACyclePass can be met, clauses 1, 2, 3, 4, 5, 6. -/
theorem witness_EmptyQueueLetsACyclePass :
    (∃ (s : State), s.pending = []) ∧
    (∃ (s : State), s.pending = [] ∧ s.ubl.up = false ∧ s.cip.streams = []) ∧
    (∃ (s : State) (k : Nat) (x : Timer), s.top.timers[k]? = some x ∧ x.en = true ∧ 1 < x.count) ∧
    (∃ (s : State) (k : Nat) (x : Timer), s.top.timers[k]? = some x ∧ x.en = true ∧ x.count = 1) ∧
    (∃ (s : State), s.powered .ubl = true ∧ s.ubl.up = true) ∧
    (∃ (s : State), s.cip.streams ≠ []) :=
  ⟨⟨w0, by decide +kernel⟩,
   by refine ⟨{ w0 with ubl := { w0.ubl with up := false } }, ?_, ?_, ?_⟩ <;> decide +kernel,
   by refine ⟨{ w0 with top := { w0.top with timers := List.replicate 8 ⟨true, true, 7, 0, 3⟩ } }, 7, ⟨true, true, 7, 0, 3⟩, ?_,
              ?_, ?_⟩ <;> decide +kernel,
   by refine ⟨{ w0 with top := { w0.top with timers := List.replicate 8 ⟨true, true, 7, 0, 1⟩ } }, 7, ⟨true, true, 7, 0, 1⟩, ?_,
              ?_, ?_⟩ <;> decide +kernel,
   by refine ⟨w0, ?_, ?_⟩ <;> decide +kernel,
   ⟨(w0.updCip fun c => { c with streams := [wStream] }), by decide +kernel⟩⟩

/-- The hypotheses of EveryStepKeepsTheMemoriesCanonical can be met. -/
theorem witness_EveryStepKeepsTheMemoriesCanonical :
    ∃ (s t : State), s.memOk ∧ step s = .next t :=
  ⟨w0, (nextOr w0 (step w0)), fun m hm => by revert hm; revert m; decide +kernel, rfl⟩

/-- The hypotheses of TheQueueIsServedFirstInFirstOut can be met, clause by clause. -/
theorem witness_TheQueueIsServedFirstInFirstOut :
    (∃ (c : Instr) (s t : State), exec c s = .next t) ∧
    (∃ (c : Instr) (rest : List Instr) (s t : State), s.pending = c :: rest ∧ step s = .next t) :=
  ⟨⟨.breakDeasserted, w0, (nextOr w0 (exec .breakDeasserted w0)), rfl⟩,
   ⟨.breakDeasserted, [.faultTone], { w0 with pending := [.breakDeasserted, .faultTone] },
    (nextOr w0 (step { w0 with pending := [.breakDeasserted, .faultTone] })), by decide +kernel, rfl⟩⟩

/-- The hypotheses of TheQueueStaysWellFormed can be met. -/
theorem witness_TheQueueStaysWellFormed :
    ∃ (s t : State), s.queueOk ∧ step s = .next t :=
  ⟨{ w0 with pending := [.breakDeasserted, .faultTone] },
   (nextOr w0 (step { w0 with pending := [.breakDeasserted, .faultTone] })),
   fun c hc => by revert hc; revert c; decide, rfl⟩

/-- The hypotheses of ASealedPackOpens can be met. -/
theorem witness_ASealedPackOpens :
    ∃ (s : State) (d : SD) (pack slot kind : Nat) (nonce body rct : List Byte), slot < 4096 ∧
      (((s.kslot slot).state = 1 ∨ (s.kslot slot).state = 2)) ∧ (s.kslot slot).key.length = 32 ∧ nonce.length = 12 ∧
      body.length = 65536 ∧ rct.length = 256 :=
  by refine ⟨(w0.setSlot 4095 { KSlot.empty with state := 1, key := zeros 32 }), .a, 8192, 4095, 0, (zeros 12), (zeros 65536),
             (zeros 256), ?_, ?_, ?_, ?_, List.length_replicate, ?_⟩ <;> decide +kernel

/-- The hypotheses of OneLostSlotIsRecovered can be met, clause by clause. -/
theorem witness_OneLostSlotIsRecovered :
    (∃ (imgs : List (List Byte)) (x : Nat) (q : Option (List Byte)) (d : List Byte), ((∀ i ∈ imgs, i.length =
        imageLen)) ∧ imgs[x]? = some d) ∧
    (∃ (imgs : List (List Byte)) (x : Nat) (d : List Byte), imgs.length ≤ 22 ∧ ((∀ i ∈ imgs, i.length = imageLen)) ∧
        imgs[x]? = some d) :=
  ⟨⟨(List.replicate 2 (zeros imageLen)), 1, none, (zeros imageLen),
    fun i hi => by rw [List.eq_of_mem_replicate hi]; exact List.length_replicate, rfl⟩,
   ⟨(List.replicate 22 (zeros imageLen)), 21, (zeros imageLen), by decide +kernel,
    fun i hi => by rw [List.eq_of_mem_replicate hi]; exact List.length_replicate, rfl⟩⟩

/-- The hypotheses of TwoLostSlotsAreRecovered can be met. -/
theorem witness_TwoLostSlotsAreRecovered :
    ∃ (imgs : List (List Byte)) (x y : Nat) (d : List Byte), imgs.length ≤ 22 ∧
      ((∀ i ∈ imgs, i.length = imageLen)) ∧ x ≠ y ∧ y < imgs.length ∧ imgs[x]? = some d :=
  by refine ⟨(List.replicate 22 (zeros imageLen)), 21, 0, (zeros imageLen), ?_,
             fun i hi => by rw [List.eq_of_mem_replicate hi]; exact List.length_replicate, ?_, ?_, rfl⟩ <;> decide +kernel

/-- The hypotheses of RawGranulesAreChecked can be met. -/
theorem witness_RawGranulesAreChecked :
    ∃ (off : Nat) (body rct more : List Byte), 4096 ≤ (body.drop (16 * off) ++ more).length :=
  ⟨0, (zeros 4096), [], [], by simp [zeros]⟩

/-- The hypotheses of TheMeasurementLogKeepsTheFirstExtends can be met, clauses 1, 2, 3. -/
theorem witness_TheMeasurementLogKeepsTheFirstExtends :
    (∃ (s : State) (i : Nat) (input : List Byte) (ev subj : Nat) (u : Bool), s.dig.log.length < 1024) ∧
    (∃ (s : State) (i : Nat) (input : List Byte) (ev subj : Nat) (u : Bool), 1024 ≤ s.dig.log.length) ∧
    (∃ (s : State) (i : Nat) (input : List Byte) (ev subj : Nat) (u : Bool) (m : List Byte) (n : BitVec 32),
        s.dig.m[i]? = some m ∧ s.dig.counts[i]? = some n ∧ n ≠ BitVec.allOnes 32) :=
  ⟨⟨w0, 0, (zeros 72), 0, 0, false, by decide⟩,
   ⟨(w0.updDig fun g => { g with log := List.replicate 1024 ⟨0, 0, 0, false, []⟩ }), 0, (zeros 72), 0, 0, false,
    by decide +kernel⟩,
   by refine ⟨w0, 23, (zeros 72), 0, 0, false, (zeros 64), 0, ?_, ?_, ?_⟩ <;> decide +kernel⟩

/-- The hypotheses of WindowsRefuseWhatTheyDoNotAllow can be met, clauses 2, 3, 4, 5. -/
theorem witness_WindowsRefuseWhatTheyDoNotAllow :
    (∃ (s : State) (i psn k off : Nat) (data : List Byte), s.windowCheck i k 0 off data.length = none) ∧
    (∃ (s : State) (i psn k off len : Nat), s.windowCheck i k 1 off len = none) ∧
    (∃ (s : State) (i psn k off len : Nat) (p : Bool), s.windowCheck i k 3 off len = none) ∧
    (∃ (s : State) (i psn k off : Nat) (data : List Byte), s.windowCheck i k 2 off 8 = none) :=
  ⟨⟨w0, 5, 0, 0, 0, [1], by decide +kernel⟩,
   ⟨w0, 5, 0, 0, 0, 1, by decide +kernel⟩,
   ⟨w0, 5, 0, 0, 0, 1, false, by decide +kernel⟩,
   ⟨w0, 5, 0, 0, 0, [1], by decide +kernel⟩⟩

/-- The hypotheses of MailboxRepetitionOwnershipAndConcurrency can be met, clause by clause. -/
theorem witness_MailboxRepetitionOwnershipAndConcurrency :
    (∃ (s : State) (c n : Nat) (r : List Byte) (x : RidRec), s.asked c 0x0105 = some r ∧ ridOf r ≠ 0 ∧
        s.recorded (ridOf r) = some x ∧ x.op = 0x0105 ∧ x.params = paramDigest r) ∧
    (∃ (s : State) (c n : Nat) (r : List Byte) (x : RidRec), s.asked c 0x0105 = some r ∧ ridOf r ≠ 0 ∧
        s.recorded (ridOf r) = some x ∧ ((x.op ≠ 0x0105 ∨ x.params ≠ paramDigest r))) ∧
    (∃ (s : State) (c n : Nat) (r : List Byte) (x : Namespace), s.asked c 0x0105 = some r ∧ ridOf r = 0 ∧
        s.ns? n = some x ∧ s.inGap x.sd = false ∧ 6 ≤ s.top.phase ∧ s.owns x.sd = false) ∧
    (∃ (s : State) (c n : Nat) (r : List Byte) (x : Namespace), s.asked c 0x0105 = some r ∧ ridOf r = 0 ∧
        s.ns? n = some x ∧ s.inGap x.sd = false ∧ 6 ≤ s.top.phase ∧ s.owns x.sd = true ∧ (1, x.root) ∈ s.mbx.running) ∧
    (∃ (s : State) (c n : Nat) (r : List Byte) (x : Namespace), s.asked c 0x0105 = some r ∧ ridOf r = 0 ∧
        s.ns? n = some x ∧ s.inGap x.sd = true) :=
  ⟨by refine ⟨(wReq ({ w0 with mbx := { w0.mbx with rids := [⟨5, none, 0x0105, [0, 0], paramDigest (leBytes 8 5)⟩] } }) 0x0105 (leBytes 8 5)),
              0, 7, (leBytes 8 5), ⟨5, none, 0x0105, [0, 0], paramDigest (leBytes 8 5)⟩, ?_, ?_, ?_, ?_, ?_⟩ <;> decide +kernel,
   by refine ⟨(wReq ({ w0 with mbx := { w0.mbx with rids := [⟨5, none, 0x0101, [0, 0], paramDigest (leBytes 8 5)⟩] } }) 0x0105 (leBytes 8 5)),
              0, 7, (leBytes 8 5), ⟨5, none, 0x0101, [0, 0], paramDigest (leBytes 8 5)⟩, ?_, ?_, ?_, ?_⟩ <;> decide +kernel,
   by refine ⟨(wReq ({ w0 with fe := { w0.fe with ns := [(7, wNs [])] }, ubl := { w0.ubl with own := ⟨false, true⟩ } }) 0x0105 (leBytes 8 0)),
              0, 7, (leBytes 8 0), (wNs []), ?_, ?_, ?_, ?_, ?_, ?_⟩ <;> decide +kernel,
   by refine ⟨(wReq ({ w0 with fe := { w0.fe with ns := [(7, wNs [])] }, mbx := { w0.mbx with running := [(1, 4)] } }) 0x0105 (leBytes 8 0)),
              0, 7, (leBytes 8 0), (wNs []), ?_, ?_, ?_, ?_, ?_, ?_, ?_⟩ <;> decide +kernel,
   by refine ⟨(wReq ({ w0 with fe := { w0.fe with ns := [(7, wNs [])], gap := ⟨true, false⟩ } }) 0x0105 (leBytes 8 0)), 0, 7,
              (leBytes 8 0), (wNs []), ?_, ?_, ?_, ?_⟩ <;> decide +kernel⟩

/-- The hypotheses of EventsStayUntilAcknowledged can be met, clauses 1. -/
theorem witness_EventsStayUntilAcknowledged :
    ∃ (k : BlkSt) (bit : Nat), ((k.raise bit).seq = k.seq + 1 ∧ (∃ e ∈ (k.raise bit).events, e.bit = bit ∧
      e.seq = k.seq + 1 ∧ e.aged = false) ∧ ∀ e ∈ k.events, e.bit ≠ bit) :=
  ⟨(BlkSt.reset true), 3, by decide +kernel⟩

/-- The hypotheses of HitsStayInTheirDomains can be met. -/
theorem witness_HitsStayInTheirDomains :
    ∃ (p : DpState) (ddom : Nat) (d : SD) (fp : List Byte) (l : Nat), p.lookup ddom d fp = some l :=
  ⟨{ w0.dp with hot := [(0, [⟨fTag (zeros 24), 77, 3, true, .a, true, 5, 0⟩])] }, 3, .a, (zeros 24), 77,
   by decide +kernel⟩

/-- The hypotheses of LandingReadsBack can be met, clause by clause. -/
theorem witness_LandingReadsBack :
    (∃ (m : Memory) (off : Nat) (b : List Byte) (a : Nat), m.wf = true) ∧
    (∃ (m : Memory) (off : Nat) (b : List Byte), m.wf = true) :=
  ⟨⟨[], 0, [1], 0, by decide +kernel⟩,
   ⟨[], 0, [1], by decide +kernel⟩⟩

/-- The hypotheses of RatesStayWithinTheirBounds can be met, clause by clause. -/
theorem witness_RatesStayWithinTheirBounds :
    (∃ (s : State) (i path : Nat) (q : Qp), s.qp? i = some q) ∧
    (∃ (s : State) (i path : Nat) (q : Qp), s.qp? i = some q) :=
  ⟨⟨{ w0 with rdm := { w0.rdm with qps := [(5, wQp)] } }, 5, 0, wQp, by decide +kernel⟩,
   ⟨{ w0 with rdm := { w0.rdm with qps := [(5, wQp)] } }, 5, 0, wQp, by decide +kernel⟩⟩

end Sys2Proof.Machine.Tests
end

section
/-!
PROOFS. Rules the proofs about the architecture share: how a command completes in a known state, what the small updates
change and nothing else, and what noting a frame of the peer leaves alone.
-/

namespace Sys2Proof.Machine

/-! ### Completing -/

/-- A command completes in exactly the state it answers. -/
theorem Done.eq {c : Instr} {s t : State} (hexec : exec c s = .next t) : Done c s fun u => u = t :=
  ⟨t, hexec, rfl⟩

/-- A command that answers `u` completes with what holds of `u`, however `u` is written. -/
theorem Done.of_next {c : Instr} {s u t : State} {post : State → Prop} (hexec : exec c s = .next u) (heq : u = t)
    (hpost : post t) : Done c s post :=
  ⟨t, heq ▸ hexec, hpost⟩

/-! ### Parts that change -/

theorem State.updBlk_only (s : State) (b : Blk) (f : BlkSt → BlkSt) : Only [.blk] s (s.updBlk b f) := by
  intro p hp
  cases p <;> simp_all [Part.same]

theorem State.updTop_only (s : State) (f : TopState → TopState) : Only [.top] s (s.updTop f) := by
  intro p hp
  cases p <;> simp_all [Part.same]

theorem State.updDig_only (s : State) (f : DigState → DigState) : Only [.dig] s (s.updDig f) := by
  intro p hp
  cases p <;> simp_all [Part.same]

theorem State.violation_only (s : State) (source : Nat) (write : Bool) (offset : Nat) :
    Only [.top] s (s.violation source write offset) := by
  intro p hp
  cases p <;> simp_all [Part.same]

/-! ### Folds -/

/-- A fold keeps what is read of a state where each of its steps keeps it. -/
theorem foldl_reads {σ α β : Type} (read : σ → β) (f : σ → α → σ) (h : ∀ x a, read (f x a) = read x) (l : List α)
    (x : σ) : read (l.foldl f x) = read x :=
  foldl_ind (fun y => read y = read x) l f x rfl fun y a hy => (h y a).trans hy

/-! ### Noting a frame of the peer (R308) -/

@[simp] theorem State.heard_ubl (s : State) (c n : Nat) : (s.heard c n).ubl = s.ubl := by
  unfold State.heard; split <;> rfl

@[simp] theorem State.heard_fe (s : State) (c n : Nat) : (s.heard c n).fe = s.fe := by
  unfold State.heard; split <;> rfl

@[simp] theorem State.heard_owns (s : State) (c n : Nat) (d : SD) : (s.heard c n).owns d = s.owns d := by
  unfold State.owns; rw [State.heard_ubl]

end Sys2Proof.Machine
end

section
/-!
PROOFS. Register accesses (R344 to R359): a write of a plain register reaches its block, and what the rows of the
common registers then do.
-/

namespace Sys2Proof.Machine

theorem Blk.num_lt (b : Blk) : b.num < 15 := by cases b <;> decide

theorem blkOf_regAddr (b : Blk) {off : Nat} (h : off < 2 ^ 20) : blkOf (regAddr b 0 off) = some b := by
  have hq : regAddr b 0 off / 2 ^ 20 = b.num := by unfold regAddr; omega
  unfold blkOf
  rw [hq]
  cases b <;> rfl

theorem aliasOf_own (b : Blk) {off : Nat} (h : off < 0x40000) : aliasOf b off = (0, off) := by
  unfold aliasOf
  split
  · rfl
  · rw [Nat.div_eq_of_lt h, Nat.mod_eq_of_lt h]

/-- A write of a plain register that exists reaches the block (R344, R352). -/
theorem State.regWrite_plain {s : State} {r : Requester} {b : Blk} {off : Nat} (late : Bool) (w : Word)
    (htop : s.powered .top = true) (hb : s.powered b = true) (hoff : off < 0x40000)
    (hex : s.regExists r b off = true) (hctl : ctlMask b off = none) :
    s.regWrite r late (regAddr b 0 off) w = s.plainWrite r late b off w := by
  have hnum := b.num_lt
  have hmod : regAddr b 0 off % 2 ^ 20 = off := by unfold regAddr; omega
  have hlt : regAddr b 0 off < 0x02000000 := by unfold regAddr; omega
  have hchan : ¬ (b = .mbx ∧ off ≥ 0x40000) := by omega
  unfold State.regWrite
  rw [blkOf_regAddr b (by omega)]
  simp only [htop, hmod, hb, hex, hchan, aliasOf_own b hoff, hctl]
  have h1 : ¬ (0x02000000 ≤ regAddr b 0 off ∧ regAddr b 0 off < 0x02001500) := by omega
  have h2 : ¬ (0x02010000 ≤ regAddr b 0 off ∧ regAddr b 0 off < 0x02010040) := by omega
  simp [h1, h2]

/-- The offsets of ATOMIC_MODE, STATUS_ACK, IND_ADDR and IND_DATA name no control register. -/
theorem ctlMask_common (b : Blk) {off : Nat} (h : off = 0xC ∨ off = 0x24 ∨ off = 0x30 ∨ off = 0x34) :
    ctlMask b off = none := by
  rcases h with rfl | rfl | rfl | rfl <;> cases b <;> rfl

theorem State.regWrite_style {s : State} {r : Requester} {b : Blk} {w : Word} (htop : s.powered .top = true)
    (hb : s.powered b = true) (hex : s.regExists r b 0xC = true) (hm : b ≠ .mbx) (hw : w.toNat < 3) :
    s.regWrite r false (regAddr b 0 0xC) w = s.updBlk b fun k => { k with style := k.style.set r w.toNat } := by
  have hfour : w.toNat % 4 = w.toNat := Nat.mod_eq_of_lt (by omega)
  have hrest : bitsOf w.toNat 15 2 = 0 := by simp only [bitsOf, Nat.shiftRight_eq_div_pow]; omega
  have hthree : w.toNat ≠ 3 := by omega
  refine (State.regWrite_plain false w htop hb (by decide) hex (ctlMask_common b (by decide))).trans ?_
  show s.writeStyle r b w = _
  simp [State.writeStyle, hfour, hrest, hm, hthree]

theorem State.regWrite_ack {s : State} {r : Requester} {b : Blk} {w : Word} (htop : s.powered .top = true)
    (hb : s.powered b = true) (hex : s.regExists r b 0x24 = true)
    (hack : ((s.blk.get b).seq - BitVec.ofNat 8 w.toNat).toNat < 128) :
    s.regWrite r false (regAddr b 0 0x24) w = s.updBlk b fun k => k.ack (BitVec.ofNat 8 w.toNat) := by
  refine (State.regWrite_plain false w htop hb (by decide) hex (ctlMask_common b (by decide))).trans ?_
  show s.writeAck r b w = _
  exact if_pos (decide_eq_true hack)

theorem State.regWrite_indAddr {s : State} {r : Requester} {b : Blk} {w : Word} (htop : s.powered .top = true)
    (hb : s.powered b = true) (hex : s.regExists r b 0x30 = true) :
    s.regWrite r false (regAddr b 0 0x30) w = s.updBlk b fun k => { k with indAddr := k.indAddr.set r (w.toNat / 4 * 4) } :=
  State.regWrite_plain false w htop hb (by decide) hex (ctlMask_common b (by decide))

theorem State.regWrite_indData {s : State} {r : Requester} {b : Blk} {l : Bool} {w : Word} (htop : s.powered .top = true)
    (hb : s.powered b = true) (hex : s.regExists r b 0x34 = true) :
    s.regWrite r l (regAddr b 0 0x34) w = s.writeInd r l b w :=
  State.regWrite_plain l w htop hb (by decide) hex (ctlMask_common b (by decide))

theorem State.regWrite_violClear {s : State} {r : Requester} {w : Word} (htop : s.powered .top = true)
    (hbit : bitOf w.toNat 0 = true) :
    s.regWrite r false 0x218 w = s.updTop fun x => { x with violations := 0, violLast := 0 } := by
  have hex : s.regExists r .top 0x218 = true := by
    simp [State.regExists, aliasOf, State.readCommon, State.readOwn, State.readTop]
  exact (State.regWrite_plain (b := .top) false w htop htop (by decide) hex rfl).trans (if_pos hbit)

/-! ### The window of the indirect spaces (R357, R358) -/

theorem execIndDataRead_powered {s : State} (r : Requester) {b : Blk} (htop : s.powered .top = true)
    (hb : s.powered b = true) : execIndDataRead r b s = .next (s.readInd r b) := by
  simp [execIndDataRead, htop, hb]

theorem State.readInd_some {s : State} {r : Requester} {b : Blk} {w : Word}
    (h : s.indRead b ((s.blk.get b).indAddr.get r) = some w) :
    s.readInd r b = ((s.answerRead r w).indReadEffect b ((s.blk.get b).indAddr.get r)).advanceInd r b := by
  simp [State.readInd, h]

theorem State.readInd_none {s : State} {r : Requester} {b : Blk}
    (h : s.indRead b ((s.blk.get b).indAddr.get r) = none) :
    s.readInd r b = ((s.answerRead r 0).violation (violSource r) false (b.num * 2 ^ 20 + 0x34)).advanceInd r b := by
  simp [State.readInd, h]

theorem State.writeInd_some {s s1 : State} {r : Requester} {l : Bool} {b : Blk} {w : Word}
    (h : s.indWrite l b ((s.blk.get b).indAddr.get r) w = some s1) : s.writeInd r l b w = s1.advanceInd r b := by
  simp [State.writeInd, h]

theorem State.writeInd_none {s : State} {r : Requester} {l : Bool} {b : Blk} {w : Word}
    (h : s.indWrite l b ((s.blk.get b).indAddr.get r) w = none) :
    s.writeInd r l b w = (s.violation (violSource r) true (b.num * 2 ^ 20 + 0x34)).advanceInd r b := by
  simp [State.writeInd, h]

/-- A violation and the address of a window moving on touch TOP and the common registers. -/
theorem State.violation_advanceInd_only (s : State) (source : Nat) (write : Bool) (offset : Nat) (r : Requester) (b : Blk) :
    Only [.blk, .top] s ((s.violation source write offset).advanceInd r b) :=
  ((s.violation_only source write offset).mono (by decide)).trans ((State.updBlk_only _ b _).mono (by decide))

/-- Settles O17: each row's write reaches its register, each read answers and latches as the row says. -/
theorem registerAccesses : Obligations.RegisterAccesses := by
  unfold Obligations.RegisterAccesses
  refine ⟨?style, ?ack, ?indAddr, ?read, ?readNone, ?write, ?epoch, ?bootCount, ?clear, ?writeNone⟩
  case style =>
    intro r b s w htop hb hex hm hw
    exact .of_next rfl (State.regWrite_style htop hb hex hm hw) ⟨rfl, s.updBlk_only b _⟩
  case ack =>
    intro r b s w htop hb hex hack
    refine .of_next rfl (State.regWrite_ack htop hb hex hack) ⟨rfl, ?_, s.updBlk_only b _⟩
    simp [State.updBlk, BlkSt.ack]
  case indAddr =>
    intro r b s w htop hb hex
    exact .of_next rfl (State.regWrite_indAddr htop hb hex) ⟨rfl, s.updBlk_only b _⟩
  case read =>
    intro r b s w htop hb hread
    exact .of_next (execIndDataRead_powered r htop hb) (State.readInd_some hread) rfl
  case readNone =>
    intro r b s htop hb hread
    refine .of_next (execIndDataRead_powered r htop hb) (State.readInd_none hread) ⟨rfl, ?_, ?_⟩
    · simp [State.advanceInd, State.violation, State.answerRead]
    · exact ((s.updTop_only _).mono (by decide)).trans ((s.answerRead r 0).violation_advanceInd_only _ _ _ r b)
  case write =>
    intro r b s l w s1 htop hb hex hwrite
    exact .of_next rfl ((State.regWrite_indData htop hb hex).trans (State.writeInd_some hwrite)) rfl
  case epoch =>
    intro r s htop
    refine .of_next rfl (by rw [htop]; rfl) ⟨rfl, by simp [State.answerRead], ?_⟩
    exact (s.updTop_only _).trans (State.updTop_only _ _)
  case bootCount =>
    intro r s htop
    refine .of_next rfl (by rw [htop]; rfl) ⟨rfl, by simp [State.answerRead], ?_⟩
    exact ((s.updTop_only _).mono (by decide)).trans ((State.updDig_only _ _).mono (by decide))
  case clear =>
    intro r s w htop hbit
    exact .of_next rfl (State.regWrite_violClear htop hbit) ⟨rfl, s.updTop_only _⟩
  case writeNone =>
    intro r b s l w htop hb hex hwrite
    exact .of_next rfl ((State.regWrite_indData htop hb hex).trans (State.writeInd_none hwrite))
      ⟨rfl, s.violation_advanceInd_only _ _ _ r b⟩

end Sys2Proof.Machine
end

section
/-!
PROOFS. The front end: acceptance of capsules and the start of the I/O commands.
-/

namespace Sys2Proof.Machine

/-- The front capsule of an open queue of this head goes to acceptance, where nothing holds it (R48, R43). -/
theorem execAccept_own {s : State} {q : QId} {w : Waiting} (hw : s.fe.frontWait q = some w) (horig : w.cap.origin = none)
    (hopen : s.feOpen = true) (hfirst : s.comesFirst w = false) (hfence : s.fe.fenced q = false) (hqid : q.qid ≠ 0)
    (hcnt : q.cntlid ≠ 0xFFFF) : execAccept q s = .next (s.intoFe w) := by
  simp [execAccept, hw, horig, hopen, hfirst, hfence, hqid, hcnt]

/-- A front capsule whose checks pass, that is no fence and names one attached namespace outside a gap, goes by its
owner (R40). -/
theorem State.intoFe_attached {s : State} {w : Waiting} {n : Namespace} (hst : s.admitStatus w.cap = none)
    (hop : w.cap.op ≠ 0x84) (hall : w.cap.nsid ≠ 0xFFFFFFFF) (hns : s.attachedNs w.cap = some n)
    (hgap : s.fe.gap.get n.sd = false) :
    s.intoFe w = if !s.owns n.sd then (if s.ubl.up then (s.takeWait w).forward w.cap n.sd else s)
      else if !s.dataReady w then s.fetchCap w else s.stampWait w n := by
  simp [State.intoFe, hst, hop, hall, hns, hgap]

/-- All contexts of a kind are in use (R254). -/
theorem execRdmaCmConnectRequest_full {s : State} {k : QpKind} (p m : Nat) (l : List Nat) (hworks : s.works .rdm = true)
    (hpow : s.powered .rdm = true) (hfull : if k = .nvme then 65024 ≤ s.ctxCount true else 512 ≤ s.ctxCount false) :
    execRdmaCmConnectRequest k p m l s = .next (s.tx (.cmReject 0x06)) := by
  have full : (if k = .nvme then decide (s.ctxCount true ≥ 65024) else decide (s.ctxCount false ≥ 512)) = true := by
    split <;> simp_all
  unfold execRdmaCmConnectRequest
  rw [if_neg (by simp [hworks, hpow]), if_pos full]

/-- Settles O20: each case of acceptance is one path through the checks of `execAccept` and `State.intoFe`; the other rows
decide in one step. -/
theorem capsulesAndAcceptance : Obligations.CapsulesAndAcceptance := by
  unfold Obligations.CapsulesAndAcceptance
  refine ⟨?capsule, ?readData, ?accept, ?connect, ?disconnect, ?context, ?refused, ?span, ?forward, ?fetch, ?forwarded,
    ?connectRefused, ?disconnectAll, ?noContext⟩
  case capsule =>
    intro s ok psn c q i hi hq hok hworks hpow hport
    subst hi hok
    refine Done.eq (?_ : execCapsuleReceived true psn c s = _)
    cases hx : s.fe.queue c.q with
    | none =>
      have hqp : s.qp? c.q.qid = some q := by rw [hx] at hq; exact hq
      simp [execCapsuleReceived, hx, hqp, hworks, hpow, hport]
    | some x =>
      have hqp : s.qp? x.qp = some q := by rw [hx] at hq; exact hq
      simp [execCapsuleReceived, hx, hqp, hworks, hpow, hport]
  case readData =>
    intro s d n b x hx herr hworks hpow
    refine Done.eq (?_ : execRdmaReadResponse true true d n b s = _)
    simp [execRdmaReadResponse, hx, herr, hworks, hpow]
  case accept =>
    intro s q w n s1 hw horig hopen hfirst hfence hqid hcnt hst hop hall hns hgap hown hready hhold hgo
    refine Done.eq ((execAccept_own hw horig hopen hfirst hfence hqid hcnt).trans (congrArg Host.Outcome.next ?_))
    simp [State.intoFe_attached hst hop hall hns hgap, hown, hready, State.stampWait, hhold, hgo]
  case connect =>
    intro s i c x h hc hop hfc hworks hpow hconn
    refine Done.eq (?_ : execConnect i s = _)
    simp only [execConnect, hc]
    rewrite [if_neg (by simp [hop, hfc, hworks, hpow]), hconn]
    rfl
  case disconnect =>
    intro s q c hc hop hfc hworks hpow hq
    refine Done.eq (?_ : execDisconnect q s = _)
    simp only [execDisconnect, hc]
    rw [if_neg (by simp [hop, hfc, hworks, hpow]), if_neg hq]
  case context =>
    intro s s2 k p m l i g hworks hpow hroom hi hg h2
    subst hi hg h2
    refine Done.eq (?_ : execRdmaCmConnectRequest k p m l s = _)
    have room : (if k = .nvme then decide (s.ctxCount true ≥ 65024) else decide (s.ctxCount false ≥ 512)) = false := by
      split at hroom <;> simp_all
    unfold execRdmaCmConnectRequest
    rw [if_neg (by simp [hworks, hpow]), room]
    rfl
  case refused =>
    intro s q w st hw horig hopen hfirst hfence hqid hcnt hst
    refine Done.eq ((execAccept_own hw horig hopen hfirst hfence hqid hcnt).trans (congrArg Host.Outcome.next ?_))
    simp [State.intoFe, hst]
  case span =>
    intro s q w hw horig hopen hfirst hfence hqid hcnt hst hop hall hspan
    refine Done.eq ((execAccept_own hw horig hopen hfirst hfence hqid hcnt).trans (congrArg Host.Outcome.next ?_))
    simp [State.intoFe, hst, hop, hall, hspan]
  case forward =>
    intro s q w n hw horig hopen hfirst hfence hqid hcnt hst hop hall hns hgap hown hup
    refine Done.eq ((execAccept_own hw horig hopen hfirst hfence hqid hcnt).trans (congrArg Host.Outcome.next ?_))
    simp [State.intoFe_attached hst hop hall hns hgap, hown, hup]
  case fetch =>
    intro s q w n hw horig hopen hfirst hfence hqid hcnt hst hop hall hns hgap hown hready
    refine Done.eq ((execAccept_own hw horig hopen hfirst hfence hqid hcnt).trans (congrArg Host.Outcome.next ?_))
    simp [State.intoFe_attached hst hop hall hns hgap, hown, hready]
  case forwarded =>
    intro s q w hw horig hopen hfirst
    refine Done.eq (?_ : execAccept q s = _)
    simp only [execAccept, hw]
    rw [if_neg (by simp [hopen, hfirst]), if_pos horig]
  case connectRefused =>
    intro s i c st hc hop hfc hworks hpow hconn
    refine Done.eq (?_ : execConnect i s = _)
    simp only [execConnect, hc]
    rw [if_neg (by simp [hop, hfc, hworks, hpow]), hconn]
  case disconnectAll =>
    intro s s2 q c hc hop hfc hworks hpow hq h2
    subst h2
    refine Done.eq (?_ : execDisconnect q s = _)
    simp only [execDisconnect, hc]
    rw [if_neg (by simp [hop, hfc, hworks, hpow]), if_pos hq]
  case noContext =>
    intro s k p m l hworks hpow hfull
    exact Done.eq (execRdmaCmConnectRequest_full p m l hworks hpow hfull)

/-- Settles O21: an accepted command whose status is open starts the work of its opcode. -/
theorem ioCommands : Obligations.IoCommands := by
  unfold Obligations.IoCommands
  refine ⟨?writeHere, ?writeFetch, ?read, ?verify, ?compare, ?flush, ?zeroes, ?dsmNone, ?compareFetch, ?dsmFetch,
    ?dsmLand, ?dsmBad⟩
  case writeHere =>
    intro s d n c hc hst hin
    refine Done.eq (?_ : execWrite d n s = _)
    simp [execWrite, hc, hst, hin]
  case writeFetch =>
    intro s d n c hc hst hin
    refine Done.eq (?_ : execWrite d n s = _)
    simp [execWrite, hc, hst, hin]
  case read =>
    intro s d n c hc
    refine Done.eq (?_ : execRead d n s = _)
    simp [execRead, hc]
  case verify =>
    intro s d n c hc
    refine Done.eq (?_ : execVerify d n s = _)
    simp [execVerify, hc]
  case compare =>
    intro s d n c hc hst hhold hin
    refine Done.eq (?_ : execCompare d n s = _)
    simp [execCompare, hc, hst, hhold, hin]
  case flush =>
    intro s d n c hc htags hsafe
    refine Done.eq (?_ : execFlush d n s = _)
    have all : (s.fe.cmds.all fun x => !c.flushes x s || x.safe s.noMirror) = true := by
      rw [List.all_eq_true]
      intro x hx
      cases hf : c.flushes x s
      · rfl
      · simpa using hsafe x hx hf
    simp only [execFlush, hc, htags, all]
    rfl
  case zeroes =>
    intro s d n c hc hst
    refine Done.eq (?_ : execWriteZeroes d n s = _)
    simp [execWriteZeroes, hc, hst]
  case dsmNone =>
    intro s d n c x hc hx had
    refine Done.eq (?_ : execDatasetManagement d n s = _)
    simp [execDatasetManagement, hc, hx, had]
  case compareFetch =>
    intro s d n c x hc hst hhold hin hx
    refine Done.eq (?_ : execCompare d n s = _)
    simp [execCompare, hc, hst, hhold, hin, hx]
  case dsmFetch =>
    intro s d n c x nr l hc hx had hnr hl hlen hst
    subst hnr hl
    refine Done.eq (?_ : execDatasetManagement d n s = _)
    simp only [execDatasetManagement, hc, hx]
    rw [if_neg (by simp [had]), if_pos hlen, hst]
    rfl
  case dsmLand =>
    intro s s1 d n c x nr l hc hx had hnr hl hlen hbad hmade
    subst hnr hl
    refine Done.eq (?_ : execDatasetManagement d n s = _)
    simp only [execDatasetManagement, hc, hx]
    rw [if_neg (by simp [had]), if_neg (Nat.not_lt.mpr hlen), if_neg (Bool.not_eq_true _ ▸ hbad), hmade]
  case dsmBad =>
    intro s d n c x nr l hc hx had hnr hl hlen hbad
    subst hnr hl
    refine Done.eq (?_ : execDatasetManagement d n s = _)
    simp only [execDatasetManagement, hc, hx]
    rw [if_neg (by simp [had]), if_neg (Nat.not_lt.mpr hlen), if_pos hbad]

end Sys2Proof.Machine
end

section
/-!
PROOFS. Packs, the dust sheet and completions.
-/

namespace Sys2Proof.Machine

/-- The checks before a pack is sealed pass where the blocks are up and the row, the journal and the staging have room. -/
theorem packEncrypt_checks {s : State} {p : Pack} {x : Stripe} {kd : KDom} (hcip : s.up .cip = true) (hstr : s.up .str = true)
    (hmlk : s.up .mlk = true) (hrow : s.rowRoom p.sd p.stripe p.row = true)
    (hjournal : s.journalRoom p.sd (packJournal p kd.slot [] [] s.top.epoch) = true)
    (hstage : ((s.programsOf p x).any fun q => decide (q ∉ x.missing) && !s.stagingRoom p.sd (x.members.getD q 0)) = false) :
    ¬ (!s.up .cip ∨ !s.up .str ∨ !s.up .mlk ∨ !s.rowRoom p.sd p.stripe p.row ∨
      !s.journalRoom p.sd (packJournal p kd.slot [] [] s.top.epoch) ∨
      (s.programsOf p x).any (fun q => q ∉ x.missing ∧ !s.stagingRoom p.sd (x.members.getD q 0))) := by
  have room : ((s.programsOf p x).any fun q => decide (q ∉ x.missing ∧ !s.stagingRoom p.sd (x.members.getD q 0))) = false := by
    simpa using hstage
  simp only [hcip, hstr, hmlk, hrow, hjournal, room]
  decide

/-- Settles O26: where the premises of a case hold, the checks of its row pass. -/
theorem packsAndTheDustSheet : Obligations.PacksAndTheDustSheet := by
  unfold Obligations.PacksAndTheDustSheet
  refine ⟨?terzan, ?aged, ?sealed, ?release, ?posted, ?full, ?zeroized⟩
  case terzan =>
    intro s d k c te p ps hmine hroom hte
    refine Done.eq (?_ : execPackClose d k c te s = _)
    have none : (p :: ps).find? (fun p => decide (p.body.length ≥ 65536)) = none := by
      rw [List.find?_eq_none]
      intro x hx
      simpa using hroom x hx
    simp only [execPackClose, hmine, none, hte, if_true]
  case aged =>
    intro s d k c p hp
    refine Done.eq (?_ : execPackAgeClose d k c s = _)
    simp only [execPackAgeClose, ge_iff_le, hp]
  case sealed =>
    intro s s1 p x kd nonce img hnext hx hkd hcip hstr hmlk hrow hjour hstage hst0 hst3 hnonce himg
    subst himg
    refine Done.eq (?_ : execPackEncrypt s = _)
    simp only [execPackEncrypt, hnext, hx, hkd]
    rw [if_neg (packEncrypt_checks hcip hstr hmlk hrow hjour hstage), if_neg (by simp [hst0, hst3]), hnonce]
  case release =>
    intro s h e he hfree
    refine Done.eq (?_ : execDustSheetRelease h s = _)
    simp only [execDustSheetRelease, he, hfree, if_true]
    rfl
  case posted =>
    intro s s1 d n us c st hc hst hposted htags hfe hrepl hlow h1
    subst h1
    refine Done.eq (?_ : execCompletionPosted d n us s = _)
    simp only [execCompletionPosted, hc, hst]
    rewrite [if_neg (by simp [hposted, htags, hfe, hlow]; exact hrepl)]
    rfl
  case full =>
    intro s d k c te p hp
    refine Done.eq (?_ : execPackClose d k c te s = _)
    simp only [execPackClose, ge_iff_le, hp]
  case zeroized =>
    intro s p x kd hnext hx hkd hcip hstr hmlk hrow hjour hstage hst
    refine Done.eq (?_ : execPackEncrypt s = _)
    simp only [execPackEncrypt, hnext, hx, hkd]
    rw [if_neg (packEncrypt_checks hcip hstr hmlk hrow hjour hstage), if_pos hst]

end Sys2Proof.Machine
end

section
/-!
PROOFS. The commit epoch (R32 to R37, R315): what a boundary writes, and the answer to the digest of its copy.
-/

namespace Sys2Proof.Machine

/-! ### What a boundary leaves alone -/

@[simp] theorem State.sealLog_top (s : State) (d : SD) : (s.sealLog d).top = s.top := by
  unfold State.sealLog
  dsimp only
  repeat' split
  all_goals simp

@[simp] theorem State.openLog_top (s : State) (d : SD) : (s.openLog d).top = s.top := by
  unfold State.openLog
  split <;> simp

@[simp] theorem State.holdWrites_top (s : State) (d : SD) : (s.holdWrites d).top = s.top := rfl

/-- The boundary begins the next epoch (R32). -/
theorem State.turnEpoch_epoch (s : State) : s.turnEpoch.top.epoch = s.top.epoch + 1 := by
  have hold : ∀ (l : List SD) (u : State), (l.foldl State.holdWrites u).top = u.top :=
    foldl_reads State.top _ State.holdWrites_top
  have opened : ∀ (l : List SD) (u : State), (l.foldl State.openLog u).top = u.top :=
    foldl_reads State.top _ State.openLog_top
  unfold State.turnEpoch
  dsimp only
  split
  · rw [State.raise_top, State.count_top, hold, opened]
  · rw [hold, opened]

/-- What the configuration of a boundary writes before its own changes: common registers and the buffered registers. -/
theorem State.applyConfig_dp (s : State) (e : Half) : (s.applyConfig e).dp = s.dp := by
  have noted : ∀ (u : State) (b : Blk),
      (if s.cfgDue b then u.updBlk b fun k => { k with appliedAt := e } else u).dp = u.dp := fun u b => by
    split <;> simp
  unfold State.applyConfig
  dsimp only
  exact foldl_reads State.dp _ noted _ _

@[simp] theorem State.applySels_dp (s : State) : s.applySels.dp = s.dp := by
  unfold State.applySels
  dsimp only
  split <;> simp

theorem State.applySels_med (s : State) : s.applySels.med = { s.med with sels := Table.mapV Cfg.boundary s.med.sels } := by
  unfold State.applySels
  dsimp only
  split <;> simp

theorem State.boundaryConfig_spent (s : State) :
    s.boundaryConfig.med.gcSpent = 0 ∧ s.boundaryConfig.med.recoatSpent = 0 ∧ s.boundaryConfig.med.rebuildSpent = 0 := by
  unfold State.boundaryConfig
  dsimp only
  rw [State.applySels_med]
  exact ⟨rfl, rfl, rfl⟩

theorem State.boundaryConfig_kdoms (s : State) : s.boundaryConfig.dp.kdoms =
    Table.mapV (fun x => { x with mode := x.modeNext.getD x.mode, modeNext := none }) s.dp.kdoms := by
  have ended : ∀ u : State, (Blk.all.foldl (fun s b => s.updBlk b fun k => { k with waits := false }) u).dp = u.dp :=
    foldl_reads State.dp _ (fun u b => u.updBlk_dp b _) _
  unfold State.boundaryConfig
  dsimp only
  rw [State.applySels_dp, State.updMed_dp, State.updDp_dp, ended, State.applyConfig_dp]

/-- Settles O32: the boundary by its four parts, a digest by whether it matches and how often it has not. -/
theorem commitEpoch : Obligations.CommitEpoch := by
  unfold Obligations.CommitEpoch
  refine ⟨?boundary, ?stopped, ?copied, ?mismatch, ?values, ?retrain, ?lost⟩
  case boundary =>
    intro s hrun hpwr hpll
    refine Done.eq (?_ : execEpochBoundary s = _)
    simp [execEpochBoundary, hrun, hpwr, hpll]
  case stopped =>
    intro s hrun
    refine Done.eq (?_ : execEpochBoundary s = _)
    simp [execEpochBoundary, hrun]
  case copied =>
    intro s d w ws hw how hsent
    refine Done.eq (?_ : execEpochAck d _ _ s = _)
    simp [execEpochAck, hw, how, hsent]
  case mismatch =>
    intro s s1 d g w ws hw how hsent hne hn hs1
    subst hs1
    have below : w.mismatches + 1 < 3 := by omega
    refine Done.eq (?_ : execEpochAck d _ g s = _)
    simp [execEpochAck, hw, how, hsent, hne, below]
  case values =>
    intro s
    obtain ⟨gc, recoat, rebuild⟩ := s.boundaryConfig_spent
    exact ⟨s.turnEpoch_epoch, gc, recoat, rebuild, s.boundaryConfig_kdoms⟩
  case retrain =>
    intro s s1 d g w ws hw how hsent hne hn hr hs1
    subst hs1
    have third : ¬ w.mismatches + 1 < 3 := by omega
    refine Done.eq (?_ : execEpochAck d _ g s = _)
    simp [execEpochAck, hw, how, hsent, hne, third, hr]
  case lost =>
    intro s s1 d g w ws hw how hsent hne hn hr hs1
    subst hs1
    have third : ¬ w.mismatches + 1 < 3 := by omega
    refine Done.eq (?_ : execEpochAck d _ g s = _)
    simp [execEpochAck, hw, how, hsent, hne, third, Nat.not_lt.mpr hr]

end Sys2Proof.Machine
end

section
/-!
PROOFS. Frames of the Ubius link (R307 to R317, R324).
-/

namespace Sys2Proof.Machine

/-- A frame in order whose CHECK passes is written and counts. -/
theorem State.receiveFrame_next {s : State} {f : MFrame} (g : State → State) (hown : s.owns f.sd = false)
    (hup : s.ubl.up = true) (hseq : f.mseq = (s.ubl.rx.get f.sd).mseq + 1) :
    s.receiveFrame f f.check g = (g s).frameTaken f f.check := by
  simp [State.receiveFrame, hown, hup, hseq]

theorem State.receiveFrame_bad {s : State} {f : MFrame} {k : DWord} (g : State → State) (hown : s.owns f.sd = false)
    (hup : s.ubl.up = true) (hk : f.check ≠ k) : s.receiveFrame f k g = s.send (.mirrorNak f.sd f.mseq) := by
  simp [State.receiveFrame, hown, hup, hk]

theorem State.receiveFrame_again {s : State} {f : MFrame} (g : State → State) (hown : s.owns f.sd = false)
    (hup : s.ubl.up = true) (hseq : f.mseq ≠ (s.ubl.rx.get f.sd).mseq + 1)
    (hold : ((s.ubl.rx.get f.sd).mseq - f.mseq).toNat < 2 ^ 31) :
    s.receiveFrame f f.check g = s.send (.mirrorAck f.sd (s.ubl.rx.get f.sd).mseq) := by
  unfold State.receiveFrame
  rw [if_neg (by simp [hown, hup]), if_neg (by simp), if_neg hseq, if_pos hold]

/-- A HELLO of this array at a level both heads run is not refused. -/
theorem hello_agrees {s : State} {l : Nat} {a : List Byte} (ha : a = [] ∨ s.ubl.array = [] ∨ a = s.ubl.array)
    (hmin : s.ubl.levelMin ≤ l) (hmax : l ≤ s.ubl.level) :
    ¬ ((!a.isEmpty ∧ !s.ubl.array.isEmpty ∧ a ≠ s.ubl.array) ∨ l < s.ubl.levelMin ∨ l > s.ubl.level) := by
  rintro (⟨hne, hours, hother⟩ | hlow | hhigh)
  · rcases ha with rfl | harr | rfl
    · simp at hne
    · simp [harr] at hours
    · exact hother rfl
  · omega
  · omega

/-- Settles O33: every frame is noted by the flit layer, which leaves the front end and the link state alone, so the
checks of its row read the state it came to. -/
theorem mirrorAndForwarding : Obligations.MirrorAndForwarding := by
  unfold Obligations.MirrorAndForwarding
  refine ⟨?taken, ?bad, ?release, ?ack, ?log, ?shadow, ?flitError, ?flitNak, ?mirrorNak, ?again, ?train, ?down, ?lost,
    ?clash, ?refuse, ?hello, ?fwd, ?fwdData, ?fwdDataPeer, ?cpl, ?abort, ?abortRsp, ?old, ?logPart, ?helloUp, ?cplPart,
    ?abortCaught⟩
  case taken =>
    intro s f hrel hown hup hseq
    refine Done.eq (?_ : execMirrorFrame f f.check s = _)
    simp [execMirrorFrame, hrel, State.receiveFrame_next, hown, hup, hseq]
  case bad =>
    intro s f k hrel hown hup hk
    refine Done.eq (?_ : execMirrorFrame f k s = _)
    simp [execMirrorFrame, hrel, State.receiveFrame_bad, hown, hup, hk]
  case release =>
    intro s f hrel hown hup hseq
    refine Done.eq (?_ : execReleaseFrame f f.check s = _)
    simp [execReleaseFrame, hrel, State.receiveFrame_next, hown, hup, hseq]
  case ack =>
    intro s d q hup
    refine Done.eq (?_ : execMirrorAck d q s = _)
    unfold execMirrorAck
    rewrite [if_neg (by simp [hup])]
    rfl
  case log =>
    intro s d e o p last hown hup hlog
    refine Done.eq (?_ : execEpochFrame d (.log e o p last) s = _)
    simp [execEpochFrame, hown, hup, hlog]
  case shadow =>
    intro s d m e hown hup
    refine Done.eq (?_ : execEpochFrame d (.shadow m e) s = _)
    simp [execEpochFrame, hown, hup]
  case flitError =>
    intro s q hup
    refine Done.eq (?_ : execFlitError q s = _)
    simp [execFlitError, hup]
  case flitNak =>
    intro s q l hup hl hne
    subst hl
    refine Done.eq (?_ : execNak (.flit q) s = _)
    simp [execNak, hup, hne]
  case mirrorNak =>
    intro s d q hup
    refine Done.eq (?_ : execNak (.mirror d q) s = _)
    simp [execNak, hup]
  case again =>
    intro s s1 s2 s3 g lanes hagain hpow hlanes h1 h2 h3
    subst hlanes h1 h2 h3
    refine Done.eq (?_ : execLinkRetrain g s = _)
    have due : (s.ubl.retrainDue || s.link.replay.any fun f => decide (f.replays ≥ 16)) = true := by
      simpa using hagain
    unfold execLinkRetrain
    rw [due, if_neg (by simp [hpow])]
    simp only [ge_iff_le, Bool.not_eq_true', if_true]
  case train =>
    intro s s1 s2 s3 g lanes hdue hrep hl hpow hlanes h1 h2 h3
    subst hlanes h1 h2 h3
    refine Done.eq (?_ : execLinkRetrain g s = _)
    have due : (s.ubl.retrainDue || s.link.replay.any fun f => decide (f.replays ≥ 16)) = false := by
      simpa [hdue] using hrep
    unfold execLinkRetrain
    rw [due, if_neg (by simp [hpow, hl])]
    simp only [ge_iff_le, Bool.not_eq_true', Bool.false_eq_true, if_false]
  case down =>
    intro s s1 hup h1
    subst h1
    refine Done.eq (?_ : execUbiusLinkDown s = _)
    simp [execUbiusLinkDown, hup]
  case lost =>
    intro s hup hlost
    refine Done.eq (?_ : execLinkLost s = _)
    simp [execLinkLost, hup, hlost]
  case clash =>
    intro s h l v a c hl hh
    refine .of_next (show execHello h l v a c s = _ by simp [execHello, hl, hh]) rfl ⟨rfl, ?_, ?_⟩
    · simp [State.refuseHello]
    · exact State.raise_raisedBy_of _ _ _ _ rfl
  case refuse =>
    intro s h l v a c hl hh hbad
    refine Done.eq (?_ : execHello h l v a c s = _)
    simp [execHello, hl, hh, hbad]
  case hello =>
    intro s s1 s3 h l v a c hl hh ha hmin hmax hup h1 h3
    subst h1 h3
    refine Done.eq (?_ : execHello h l v a c s = _)
    unfold execHello
    rw [if_neg hl, if_neg hh, if_neg (hello_agrees ha hmin hmax)]
    simp [hup]
  case fwd =>
    intro s g c hup
    refine Done.eq (?_ : execForwardCmd g c s = _)
    simp [execForwardCmd, hup]
  case fwdData =>
    intro s g b c hc
    refine Done.eq (?_ : execForwardData g _ b s = _)
    simp [execForwardData, hc]
  case fwdDataPeer =>
    intro s g off b hc
    refine Done.eq (?_ : execForwardData g _ b s = _)
    simp [execForwardData, hc]
  case cpl =>
    intro s g st dw f hf hno
    refine Done.eq (?_ : execForwardCpl g st dw s = _)
    simp only [execForwardCpl, State.heard_fe, hf, State.updFe_fe]
    exact if_neg (by simpa using hno)
  case abort =>
    intro s g hc
    refine Done.eq (?_ : execForwardAbort g s = _)
    simp [execForwardAbort, hc]
  case abortRsp =>
    intro s s2 g f q cid caught hf hab h2
    subst h2
    refine Done.eq (?_ : execForwardAbortRsp g caught s = _)
    simp [execForwardAbortRsp, hf, hab]
  case old =>
    intro s f hrel hown hup hseq hlow
    refine Done.eq (?_ : execMirrorFrame f f.check s = _)
    unfold execMirrorFrame
    rw [if_neg (by simp [hrel]), State.receiveFrame_again _ (by simpa) (by simpa) (by simpa) (by simpa), State.heard_ubl]
  case logPart =>
    intro s d e o p last l hown hup hlog he ho hfin
    refine Done.eq (?_ : execEpochFrame d (.log e o p last) s = _)
    simp [execEpochFrame, hown, hup, hlog, he, ho, hfin]
  case helloUp =>
    intro s s1 h l v a c hl hh ha hmin hmax hup h1
    subst h1
    refine Done.eq (?_ : execHello h l v a c s = _)
    unfold execHello
    rw [if_neg hl, if_neg hh, if_neg (hello_agrees ha hmin hmax)]
    simp [hup]
  case cplPart =>
    intro s g st dw f c hf hc hg
    refine Done.eq (?_ : execForwardCpl g st dw s = _)
    simp only [execForwardCpl, State.heard_fe, hf, State.updFe_fe]
    exact if_pos (by simpa using ⟨c, hc, hg⟩)
  case abortCaught =>
    intro s s1 g hc
    refine Done.eq (?_ : execForwardAbort g s = _)
    simp [execForwardAbort, hc]

end Sys2Proof.Machine
end

section
/-!
PROOFS. What it means that a command goes on, and the rules the laws of the commands share.
-/

namespace Sys2Proof.Machine

/-! ### Going on

A command goes on where it answers a next state in which the queue stays and canonical memories stay canonical. Every
lemma below follows the branches of one command: each ends in a next state made by shared operations, whose frame laws
(Laws/Frame1 to Frame4) it cites. -/

/-- A command's outcome is a next state that holds the queue and the byte memories. -/
def GoesOn (s : State) (r : Res) : Prop := ∃ t, r = .next t ∧ Held s t

theorem goesOn_next {s t : State} : GoesOn s (.next t) ↔ Held s t := by simp [GoesOn]

theorem GoesOn.of_held {s t : State} (h : Held s t) : GoesOn s (.next t) := goesOn_next.mpr h

theorem GoesOn.of_kept {s t : State} (h : t.kept = s.kept) : GoesOn s (.next t) := .of_held (held_of_kept h)

/-- What goes on holds what it answers. -/
theorem GoesOn.held {s t : State} {r : Res} (h : GoesOn s r) (hr : r = .next t) : Held s t := by
  subst hr
  exact goesOn_next.mp h

/-! ### Choices and folds -/

/-- A choice between two states keeps what both keep. -/
theorem ite_kept {p : Prop} [Decidable p] {s a b : State} (ha : a.kept = s.kept) (hb : b.kept = s.kept) :
    (if p then a else b).kept = s.kept := by
  split <;> assumption

/-- A choice between two states holds what both hold. -/
theorem ite_held {p : Prop} [Decidable p] {s a b : State} (ha : Held s a) (hb : Held s b) :
    Held s (if p then a else b) := by
  split <;> assumption

/-- A choice between two answers keeps what both keep. -/
theorem ite_st_kept {p : Prop} [Decidable p] {s : State} {a b : Ans} (ha : a.st.kept = s.kept) (hb : b.st.kept = s.kept) :
    (if p then a else b).st.kept = s.kept := by
  split <;> assumption

/-- A fold holds what each of its steps holds. -/
theorem foldl_held {α : Type} (l : List α) (f : State → α → State) (h : ∀ s a, Held s (f s a)) (s : State) :
    Held s (l.foldl f s) :=
  foldl_ind (Held s) l f s (held_of_kept rfl) fun x a hx => hx.trans (h x a)

/-- A change of UBL that leaves the mirror alone keeps it. -/
theorem updUbl_kept_of {s : State} {f : UblState → UblState} (h : (f s.ubl).mirror = s.ubl.mirror) :
    (s.updUbl f).kept = s.kept := by
  simp [State.kept, State.updUbl, h]

/-! ### Mailbox and reservation commands -/

/-- A choice between two next states is a next state. -/
theorem ite_next {p : Prop} [Decidable p] {a b : Res} (ha : ∃ t, a = .next t) (hb : ∃ t, b = .next t) :
    ∃ t, (if p then a else b) = .next t := by
  split <;> assumption

/-- A mailbox command answers a next state, whatever its body (R373, R375, R376). -/
theorem State.runCmd_next (s : State) (c op : Nat) (changes : Bool) (names : State → List Byte → Except Nat Names)
    (f : State → List Byte → Ans) : ∃ t, s.runCmd c op changes names f = .next t := by
  unfold State.runCmd
  cases s.asked c op with
  | none => exact ⟨_, rfl⟩
  | some r =>
    dsimp only
    cases (if changes = true ∧ ridOf r ≠ 0 then s.recorded (ridOf r) else none) with
    | some x => dsimp only; split <;> exact ⟨_, rfl⟩
    | none =>
      dsimp only
      cases names s r with
      | error e => exact ⟨_, rfl⟩
      | ok n =>
        dsimp only
        refine ite_next ⟨_, rfl⟩ (ite_next ⟨_, rfl⟩ (ite_next ⟨_, rfl⟩ ?_))
        cases f s r <;> exact ⟨_, rfl⟩

/-- A mailbox command goes on where its body keeps the state. -/
theorem GoesOn.runCmd {s : State} {c op : Nat} {changes : Bool} {names : State → List Byte → Except Nat Names}
    {f : State → List Byte → Ans} (hf : ∀ u r, (f u r).st.kept = u.kept) :
    GoesOn s (s.runCmd c op changes names f) := by
  obtain ⟨t, ht⟩ := s.runCmd_next c op changes names f
  exact ⟨t, ht, held_of_kept (State.runCmd_kept s c op changes names f hf t ht)⟩

/-- A reservation command answers a next state (R269). -/
theorem State.resvRun_next (s : State) (sd : SD) (stamp op : Nat) : ∃ t, s.resvRun sd stamp op = .next t := by
  unfold State.resvRun
  cases s.live sd stamp op with
  | none => exact ⟨_, rfl⟩
  | some c => dsimp only; split <;> exact ⟨_, rfl⟩

theorem GoesOn.resvRun (s : State) (sd : SD) (stamp op : Nat) : GoesOn s (s.resvRun sd stamp op) := by
  obtain ⟨t, ht⟩ := s.resvRun_next sd stamp op
  exact ⟨t, ht, held_of_kept (State.resvRun_kept s sd stamp op t ht)⟩

end Sys2Proof.Machine
end

section
/-!
PROOFS. Screed, the cipher engine, the datapath and the map cache go on.
-/

namespace Sys2Proof.Machine

/-! ### Screed, the capture buffer and the trace -/

theorem execScreedTick_goesOn (temps : List (Nat × Int)) (late : Bool) (s : State) :
    GoesOn s (execScreedTick temps late s) := by
  unfold execScreedTick
  grind [GoesOn.of_kept, State.kept, foldl_kept, State.applyLoop_kept, State.evalLoop_kept, State.fillTokens_kept,
    State.missLoop_kept]

theorem execLoopDeadlineMiss_goesOn (s : State) : GoesOn s (execLoopDeadlineMiss s) := by
  unfold execLoopDeadlineMiss
  grind [GoesOn.of_kept, State.kept, foldl_kept, State.missLoop_kept]

theorem execCaptureStart_goesOn (r : Requester) (loop : Nat) (s : State) : GoesOn s (execCaptureStart r loop s) := by
  unfold execCaptureStart
  grind [GoesOn.of_kept, State.kept, State.claim_kept2, State.raise_kept, State.violation_kept]

theorem execCaptureStop_goesOn (r : Requester) (loop : Nat) (s : State) : GoesOn s (execCaptureStop r loop s) := by
  unfold execCaptureStop
  grind [GoesOn.of_kept, State.kept, State.release_kept, State.violation_kept]

theorem execCaptureFull_goesOn (s : State) : GoesOn s (execCaptureFull s) := by
  unfold execCaptureFull
  grind [GoesOn.of_kept, State.kept, State.raise_kept, State.release_kept]

theorem execTraceStart_goesOn (r : Requester) (s : State) : GoesOn s (execTraceStart r s) := by
  unfold execTraceStart
  grind [GoesOn.of_kept, State.kept, State.claim_kept2, State.violation_kept]

theorem execTraceStop_goesOn (r : Requester) (s : State) : GoesOn s (execTraceStop r s) := by
  unfold execTraceStop
  grind [GoesOn.of_kept, State.release_kept, State.violation_kept]

theorem execTraceFull_goesOn (s : State) : GoesOn s (execTraceFull s) := by
  unfold execTraceFull
  grind [GoesOn.of_kept, State.release_kept]

/-! ### The cipher engine -/

theorem execOffloadMessage_goesOn (p : Nat) (desc : List Byte) (src : Option (List Byte)) (aad tag : List Byte)
    (run : OffRun) (s : State) : GoesOn s (execOffloadMessage p desc src aad tag run s) := by
  unfold execOffloadMessage
  grind [GoesOn.of_kept, State.endStreams_kept, State.fetched_kept2, State.msgEnded_kept, State.postEnded_kept,
    State.setPage_kept, State.updCip_kept]

theorem execZeroizeDone_goesOn (slot : Nat) (s : State) : GoesOn s (execZeroizeDone slot s) := by
  unfold execZeroizeDone
  grind [GoesOn.of_kept, State.pageRaise_kept, State.setSlot_kept, State.updCip_kept]

theorem execNonceSafe_goesOn (slot : Nat) (s : State) : GoesOn s (execNonceSafe slot s) := by
  unfold execNonceSafe
  grind [GoesOn.of_kept, State.setSlot_kept]

theorem execPgSqTail_goesOn (p : Nat) (v : Word) (s : State) : GoesOn s (execPgSqTail p v s) := by
  unfold execPgSqTail
  grind [GoesOn.of_kept, State.setPage_kept, State.violation_kept]

theorem execPgCqHead_goesOn (p : Nat) (v : Word) (s : State) : GoesOn s (execPgCqHead p v s) := by
  unfold execPgCqHead
  grind [GoesOn.of_kept, State.postHeld_kept, State.setPage_kept, State.violation_kept]

theorem execPgStatusAck_goesOn (p : Nat) (v : Word) (s : State) : GoesOn s (execPgStatusAck p v s) := by
  unfold execPgStatusAck
  grind [GoesOn.of_kept, State.setPage_kept, State.violation_kept]

theorem execPgZeroize_goesOn (p : Nat) (v : Word) (s : State) : GoesOn s (execPgZeroize p v s) := by
  unfold execPgZeroize
  grind [GoesOn.of_kept, foldl_kept, State.violation_kept, State.zeroize_kept]

/-! ### The datapath -/

theorem execMerge_goesOn (id : Nat) (s : State) : GoesOn s (execMerge id s) := by
  unfold execMerge
  grind [GoesOn.of_kept, State.merged_kept2, State.updDp_kept, State.updGran_kept]

theorem execFingerprint_goesOn (id : Nat) (s : State) : GoesOn s (execFingerprint id s) := by
  unfold execFingerprint
  grind [GoesOn.of_kept, State.updGran_kept]

theorem execLookupResult_goesOn (id : Nat) (s : State) : GoesOn s (execLookupResult id s) := by
  unfold execLookupResult
  grind [GoesOn.of_kept, State.updGran_kept]

theorem execLaneResult_goesOn (id : Nat) (s : State) : GoesOn s (execLaneResult id s) := by
  unfold execLaneResult
  grind [GoesOn.of_kept, State.count_kept, State.landHeld_kept, State.updGran_kept]

theorem execVerifyCompare_goesOn (id : Nat) (s : State) : GoesOn s (execVerifyCompare id s) := by
  unfold execVerifyCompare
  grind [GoesOn.of_kept, State.count_kept, State.readLoc_kept2, State.snag_kept, State.updDp_kept, State.updGran_kept]

theorem execPackerDecision_goesOn (id : Nat) (s : State) : GoesOn s (execPackerDecision id s) := by
  have append : ∀ g fp b l, (((s.appendGran id g fp b l).map (·.toPend id)).getD s).kept = s.kept := by
    intro g fp b l
    cases h : s.appendGran id g fp b l with
    | none => rfl
    | some t => exact (State.toPend_kept t id).trans (State.appendGran_kept _ _ _ _ _ _ _ h)
  unfold execPackerDecision
  repeat' split
  all_goals refine GoesOn.of_kept ?_
  all_goals grind [State.count_kept, State.toPend_kept, State.updDp_kept, State.updGran_kept]

theorem execDeltaRecorded_goesOn (i : Nat) (s : State) : GoesOn s (execDeltaRecorded i s) := by
  unfold execDeltaRecorded
  grind [GoesOn.of_kept, State.evbHold_kept, State.recordGran_kept]

theorem execPageCopy_goesOn (d : SD) (root gran : Nat) (s : State) : GoesOn s (execPageCopy d root gran s) := by
  unfold execPageCopy
  grind [GoesOn.of_kept, foldl_kept, State.copyPage_kept, State.dirtySector_kept, State.evbHold_kept]

theorem execPackClose_goesOn (d : SD) (kdom : Nat) (copy terzan : Bool) (s : State) :
    GoesOn s (execPackClose d kdom copy terzan s) := by
  unfold execPackClose
  grind [GoesOn.of_kept, State.closePack_kept]

theorem execPackAgeClose_goesOn (d : SD) (kdom : Nat) (copy : Bool) (s : State) :
    GoesOn s (execPackAgeClose d kdom copy s) := by
  unfold execPackAgeClose
  grind [GoesOn.of_kept, State.closePack_kept]

theorem execPackEncrypt_goesOn (s : State) : GoesOn s (execPackEncrypt s) := by
  unfold execPackEncrypt
  grind [GoesOn.of_kept, State.count_kept, State.dropPack_kept, State.packNonce_kept, State.protect_kept, State.raise_kept,
    State.updDp_kept]

theorem execDustSheetRelease_goesOn (hdr : Nat) (s : State) : GoesOn s (execDustSheetRelease hdr s) := by
  unfold execDustSheetRelease
  grind [GoesOn.of_kept, State.releaseEntry_kept]

theorem execCompletionPosted_goesOn (sd : SD) (stamp us : Nat) (s : State) :
    GoesOn s (execCompletionPosted sd stamp us s) := by
  unfold execCompletionPosted
  grind [GoesOn.of_kept, State.addLatency_kept, State.answer_kept, State.dropCmd_kept, State.send_kept, State.updCmd_kept]

theorem execSectorInstall_goesOn (d : SD) (mpid sector : Nat) (s : State) :
    GoesOn s (execSectorInstall d mpid sector s) := by
  unfold execSectorInstall
  grind [GoesOn.of_kept, foldl_kept, State.evbHold_kept, State.fillPage_kept, State.installSector_kept,
    State.resolveGran_kept]

theorem execPackRelease_goesOn (id : Nat) (s : State) : GoesOn s (execPackRelease id s) := by
  unfold execPackRelease
  grind [GoesOn.of_kept, State.count_kept, State.freeFetch_kept, State.nextRead_kept, State.unpin_kept, State.updFetch_kept]

theorem execPackOpen_goesOn (id : Nat) (s : State) : GoesOn s (execPackOpen id s) := by
  unfold execPackOpen
  grind [GoesOn.of_kept, State.count_kept, State.failFetch_kept, State.ladderDone_kept, State.pin_kept, State.raise_kept,
    State.updFetch_kept]

theorem execDecode_goesOn (id stamp gran : Nat) (s : State) : GoesOn s (execDecode id stamp gran s) := by
  unfold execDecode
  dsimp only
  repeat' split
  all_goals refine GoesOn.of_kept ?_
  all_goals grind [State.gotGran_kept, State.granuleBad_kept, State.leaveAll_kept]

theorem execReadRetry_goesOn (id : Nat) (s : State) : GoesOn s (execReadRetry id s) := by
  unfold execReadRetry
  grind [GoesOn.of_kept, State.issueRead_kept, State.ladderFailed_kept, State.updFetch_kept]

theorem execDegradedRead_goesOn (id : Nat) (bad : List Nat) (s : State) : GoesOn s (execDegradedRead id bad s) := by
  unfold execDegradedRead
  grind [GoesOn.of_kept, State.count_kept, State.failFetch_kept, State.loseGone_kept, State.nextRead_kept,
    State.rebuildRow_kept2, State.unpin_kept, State.updFetch_kept]

/-! ### The map cache and metadata -/

theorem execInvalidate_goesOn (r : Requester) (s : State) : GoesOn s (execInvalidate r s) := by
  unfold execInvalidate
  grind [GoesOn.of_kept, State.mapOp_kept, State.updMap_kept]

theorem execMapFlush_goesOn (r : Requester) (s : State) : GoesOn s (execMapFlush r s) := by
  unfold execMapFlush
  grind [GoesOn.of_kept, State.mapOp_kept, State.updMap_kept]

theorem execMapDisable_goesOn (r : Requester) (s : State) : GoesOn s (execMapDisable r s) := by
  unfold execMapDisable
  grind [GoesOn.of_kept, State.mapOp_kept, State.raise_kept, State.updMap_kept]

theorem execMapEnable_goesOn (r : Requester) (s : State) : GoesOn s (execMapEnable r s) := by
  unfold execMapEnable
  grind [GoesOn.of_kept, State.mapOp_kept, State.raise_kept, State.updMap_kept]

theorem execWriteback_goesOn (r : Requester) (s : State) : GoesOn s (execWriteback r s) := by
  unfold execWriteback
  grind [GoesOn.of_kept, State.mapOp_kept, State.raise_kept, State.updMap_kept]

theorem execInvalidateDone_goesOn (s : State) : GoesOn s (execInvalidateDone s) := by
  unfold execInvalidateDone
  grind [GoesOn.of_kept, State.raise_kept, State.updMap_kept]

theorem execFlushComplete_goesOn (s : State) : GoesOn s (execFlushComplete s) := by
  unfold execFlushComplete
  grind [GoesOn.of_kept, State.raise_kept, State.updMap_kept]

theorem execEvictionWritebackAck_goesOn (s : State) : GoesOn s (execEvictionWritebackAck s) := by
  unfold execEvictionWritebackAck
  grind [GoesOn.of_kept, State.updMap_kept]

theorem execSnapshotSealed_goesOn (d : SD) (root : Nat) (s : State) : GoesOn s (execSnapshotSealed d root s) :=
  .of_kept (ite_kept (State.sealRoot_kept ..) rfl)

theorem execPageFree_goesOn (d : SD) (mpid : Nat) (s : State) : GoesOn s (execPageFree d mpid s) := by
  unfold execPageFree
  grind [GoesOn.of_kept, foldl_kept, State.delta_kept, State.dropChild_kept, State.dropRoot_kept, State.leaveTiers_kept,
    State.subRef_kept]

theorem execSecondCoatExamine_goesOn (d : SD) (s : State) : GoesOn s (execSecondCoatExamine d s) := by
  unfold execSecondCoatExamine
  grind [GoesOn.of_kept, State.coatVerify_kept2, State.delta_kept, State.updDp_kept]

theorem execRelink_goesOn (i : Nat) (s : State) : GoesOn s (execRelink i s) := by
  unfold execRelink
  grind [GoesOn.of_kept, State.evbHold_kept, State.relink_kept]

theorem execHotIndexReload_goesOn (d : SD) (ddom : Nat) (fp : List Byte) (s : State) :
    GoesOn s (execHotIndexReload d ddom fp s) := by
  unfold execHotIndexReload
  grind [GoesOn.of_kept, State.updDp_kept]

theorem execFullIndexDeltaApply_goesOn (s : State) : GoesOn s (execFullIndexDeltaApply s) := by
  unfold execFullIndexDeltaApply
  grind [GoesOn.of_kept, State.setMeta_kept, State.updDp_kept]

theorem execCheckpoint_goesOn (d : SD) (n : Nat) (s : State) : GoesOn s (execCheckpoint d n s) := by
  unfold execCheckpoint
  grind [GoesOn.of_kept, State.ckptGo_kept]

end Sys2Proof.Machine
end

section
/-!
PROOFS. The media link, the front end, media management and rebuild go on.
-/

namespace Sys2Proof.Machine

/-! ### The media link -/

theorem execMediaRawRead_goesOn (port : Nat) (src : MSrc) (bits : Nat) (unc : Bool) (s : State) :
    GoesOn s (execMediaRawRead port src bits unc s) := by
  unfold execMediaRawRead
  grind [GoesOn.of_kept, State.kept, State.modRun_kept]

theorem execMediaRawProgram_goesOn (port : Nat) (src : MSrc) (st : MSt) (temp : Int) (s : State) :
    GoesOn s (execMediaRawProgram port src st temp s) := by
  unfold execMediaRawProgram
  grind [GoesOn.of_kept, State.modRun_kept]

theorem execMediaErase_goesOn (port : Nat) (src : MSrc) (ok : Bool) (temp : Int) (s : State) :
    GoesOn s (execMediaErase port src ok temp s) := by
  unfold execMediaErase
  grind [GoesOn.of_kept, State.modRun_kept]

theorem execMediaFold_goesOn (port : Nat) (src : MSrc) (tmin tmax : Int) (fail : Option Nat) (s : State) :
    GoesOn s (execMediaFold port src tmin tmax fail s) := by
  unfold execMediaFold
  grind [GoesOn.of_kept, State.modRun_kept]

theorem execOwnerFence_goesOn (port : Nat) (src : MSrc) (stopped : List (Nat × Nat)) (s : State) :
    GoesOn s (execOwnerFence port src stopped s) := by
  unfold execOwnerFence
  grind [GoesOn.of_kept, State.modAnswer_kept, State.updMlk_kept, State.updMod_kept]

theorem execMediaDescriptorRead_goesOn (port : Nat) (src : MSrc) (ok : Bool) (s : State) :
    GoesOn s (execMediaDescriptorRead port src ok s) := by
  unfold execMediaDescriptorRead
  grind [GoesOn.of_kept, State.modRun_kept]

theorem execMediaTemperature_goesOn (port : Nat) (src : MSrc) (hi lo ctl : Int) (s : State) :
    GoesOn s (execMediaTemperature port src hi lo ctl s) := by
  unfold execMediaTemperature
  grind [GoesOn.of_kept, State.modRun_kept]

theorem execLayerSplit_goesOn (port : Nat) (src : MSrc) (s : State) : GoesOn s (execLayerSplit port src s) := by
  unfold execLayerSplit
  grind [GoesOn.of_kept, State.modRun_kept]

theorem execAdmission_goesOn (port : Nat) (s : State) : GoesOn s (execAdmission port s) := by
  unfold execAdmission
  grind [GoesOn.of_kept, foldl_kept, State.admitStep_kept, State.eraseMarked_kept, State.extendModule_kept,
    State.fence_kept, State.issue_kept, State.loadCard_kept, State.refuse_kept]

theorem execLinkUp_goesOn (port rate width : Nat) (new : Option Module) (s : State) :
    GoesOn s (execLinkUp port rate width new s) := by
  unfold execLinkUp
  grind [GoesOn.of_kept, State.raise_kept, State.updMed_kept, State.updMlk_kept, State.updPort_kept]

theorem execAdmissionTimeout_goesOn (port : Nat) (s : State) : GoesOn s (execAdmissionTimeout port s) := by
  unfold execAdmissionTimeout
  grind [GoesOn.of_kept, State.refuse_kept]

theorem execAbsentTimeout_goesOn (port : Nat) (s : State) : GoesOn s (execAbsentTimeout port s) := by
  unfold execAbsentTimeout
  grind [GoesOn.of_kept, State.failModule_kept]

theorem execPresenceDrop_goesOn (port : Nat) (s : State) : GoesOn s (execPresenceDrop port s) := by
  unfold execPresenceDrop
  grind [GoesOn.of_kept, State.failModule_kept, State.updMlk_kept, State.updPort_kept]

theorem execModuleFailed_goesOn (port cause : Nat) (s : State) : GoesOn s (execModuleFailed port cause s) := by
  unfold execModuleFailed
  grind [GoesOn.of_kept, State.failModule_kept]

theorem execMediaLinkDown_goesOn (port : Nat) (back : Option (Nat × Nat)) (s : State) :
    GoesOn s (execMediaLinkDown port back s) := by
  unfold execMediaLinkDown
  grind [GoesOn.of_kept, State.count_kept, State.failModule_kept, State.raise_kept, State.updPort_kept]

theorem execMediaCommandCompletion_goesOn (i : Nat) (s : State) : GoesOn s (execMediaCommandCompletion i s) := by
  unfold execMediaCommandCompletion
  grind [GoesOn.of_kept, State.complete_kept, State.submitNext_kept, State.updMlk_kept]

theorem execCommandTimeout_goesOn (i : Nat) (s : State) : GoesOn s (execCommandTimeout i s) := by
  unfold execCommandTimeout
  grind [GoesOn.of_kept, State.complete_kept, State.submitNext_kept, State.updMlk_kept]

/-! ### The front end -/

theorem execCapsuleReceived_goesOn (icrcOk : Bool) (psn : Nat) (c : Capsule) (s : State) :
    GoesOn s (execCapsuleReceived icrcOk psn c s) := by
  unfold execCapsuleReceived
  grind [goesOn_next, held_of_kept, State.rxPkt_held]

theorem execRdmaReadResponse_goesOn (icrcOk psnOk : Bool) (sd : SD) (stamp : Nat) (data : List Byte) (s : State) :
    GoesOn s (execRdmaReadResponse icrcOk psnOk sd stamp data s) := by
  unfold execRdmaReadResponse
  grind [GoesOn.of_kept, State.dataArrived_kept]

theorem execAccept_goesOn (q : QId) (s : State) : GoesOn s (execAccept q s) := by
  unfold execAccept
  grind [GoesOn.of_kept, State.admitFwd_kept, State.intoFe_kept]

theorem execWrite_goesOn (sd : SD) (stamp : Nat) (s : State) : GoesOn s (execWrite sd stamp s) := by
  unfold execWrite
  grind [GoesOn.of_kept, State.feed_kept, State.fetchHost_kept, State.updCmd_kept]

theorem execRead_goesOn (sd : SD) (stamp : Nat) (s : State) : GoesOn s (execRead sd stamp s) := by
  unfold execRead
  grind [GoesOn.of_kept, State.startRead_kept]

theorem execCompare_goesOn (sd : SD) (stamp : Nat) (s : State) : GoesOn s (execCompare sd stamp s) := by
  unfold execCompare
  grind [GoesOn.of_kept, State.fetchHost_kept, State.startRead_kept]

theorem execVerify_goesOn (sd : SD) (stamp : Nat) (s : State) : GoesOn s (execVerify sd stamp s) := by
  unfold execVerify
  grind [GoesOn.of_kept, State.startRead_kept]

theorem execFlush_goesOn (sd : SD) (stamp : Nat) (s : State) : GoesOn s (execFlush sd stamp s) := by
  unfold execFlush
  grind [GoesOn.of_kept, State.result_kept]

theorem execWriteZeroes_goesOn (sd : SD) (stamp : Nat) (s : State) : GoesOn s (execWriteZeroes sd stamp s) := by
  unfold execWriteZeroes
  grind [GoesOn.of_kept, State.landUnits_kept, State.updCmd_kept]

theorem execDatasetManagement_goesOn (sd : SD) (stamp : Nat) (s : State) : GoesOn s (execDatasetManagement sd stamp s) := by
  unfold execDatasetManagement
  grind [GoesOn.of_kept, State.abandon_kept, State.fetchHost_kept, State.landUnits_kept, State.makeUnits_kept,
    State.result_kept, State.updCmd_kept]

theorem execOrderingFence_goesOn (q : QId) (data : List Byte) (s : State) : GoesOn s (execOrderingFence q data s) := by
  unfold execOrderingFence
  grind [GoesOn.of_kept, State.capArrived_kept, State.failFront_kept, State.fencePoint_kept, State.fetchCap_kept,
    State.takeWait_kept, State.updFe_kept]

theorem execFencePointReached_goesOn (q : QId) (cid : Nat) (s : State) : GoesOn s (execFencePointReached q cid s) := by
  unfold execFencePointReached
  grind [GoesOn.of_kept, State.fencePoint_kept]

theorem execFenceSourceLost_goesOn (q : QId) (cid : Nat) (s : State) : GoesOn s (execFenceSourceLost q cid s) := by
  unfold execFenceSourceLost
  grind [GoesOn.of_kept, State.answer_kept, State.raise_kept, State.updFe_kept]

theorem execReservationRegister_goesOn (sd : SD) (stamp : Nat) (s : State) :
    GoesOn s (execReservationRegister sd stamp s) :=
  .resvRun s sd stamp _

theorem execReservationReport_goesOn (sd : SD) (stamp : Nat) (s : State) : GoesOn s (execReservationReport sd stamp s) := by
  unfold execReservationReport
  grind [GoesOn.of_kept, State.result_kept, State.updCmd_kept]

theorem execReservationAcquire_goesOn (sd : SD) (stamp : Nat) (s : State) :
    GoesOn s (execReservationAcquire sd stamp s) :=
  .resvRun s sd stamp _

theorem execReservationRelease_goesOn (sd : SD) (stamp : Nat) (s : State) :
    GoesOn s (execReservationRelease sd stamp s) :=
  .resvRun s sd stamp _

theorem execAbort_goesOn (q : QId) (s : State) : GoesOn s (execAbort q s) := by
  unfold execAbort
  grind [GoesOn.of_kept, State.abortDone_kept, State.adminDone_kept, State.catchCmd_kept, State.send_kept,
    State.takeAdmin_kept, State.updFe_kept, State.updHost_kept]

theorem execGetLogPage_goesOn (q : QId) (s : State) : GoesOn s (execGetLogPage q s) := by
  unfold execGetLogPage
  grind [GoesOn.of_kept, State.adminDone_kept, State.updHost_kept]

theorem execIdentify_goesOn (q : QId) (s : State) : GoesOn s (execIdentify q s) := by
  unfold execIdentify
  grind [GoesOn.of_kept, State.adminDone_kept]

theorem execSetFeatures_goesOn (q : QId) (s : State) : GoesOn s (execSetFeatures q s) := by
  unfold execSetFeatures
  grind [GoesOn.of_kept, State.adminDone_kept, State.forward_kept, State.setResv_kept, State.takeAdmin_kept,
    State.updHost_kept]

theorem execGetFeatures_goesOn (q : QId) (s : State) : GoesOn s (execGetFeatures q s) := by
  unfold execGetFeatures
  grind [GoesOn.of_kept, State.adminDone_kept, State.forward_kept, State.takeAdmin_kept]

theorem execAsynchronousEventRequest_goesOn (q : QId) (s : State) : GoesOn s (execAsynchronousEventRequest q s) := by
  unfold execAsynchronousEventRequest
  grind [GoesOn.of_kept, State.adminDone_kept, State.takeAdmin_kept, State.updHost_kept]

theorem execAsynchronousEvent_goesOn (cntlid : Nat) (e : AEvent) (s : State) :
    GoesOn s (execAsynchronousEvent cntlid e s) :=
  .of_kept (State.asyncTo_kept ..)

theorem execKeepAlive_goesOn (q : QId) (s : State) : GoesOn s (execKeepAlive q s) := by
  unfold execKeepAlive
  grind [GoesOn.of_kept, State.adminDone_kept]

theorem execKeepAliveTimeout_goesOn (cntlid : Nat) (s : State) : GoesOn s (execKeepAliveTimeout cntlid s) := by
  unfold execKeepAliveTimeout
  grind [GoesOn.of_kept, State.endController_kept]

theorem execConnect_goesOn (qp : Nat) (s : State) : GoesOn s (execConnect qp s) := by
  unfold execConnect
  grind [GoesOn.of_kept, State.respond_kept, State.updFe_kept, State.updQp_kept]

theorem execPropertySet_goesOn (q : QId) (s : State) : GoesOn s (execPropertySet q s) := by
  unfold execPropertySet
  grind [GoesOn.of_kept, foldl_kept, State.adminDone_kept, State.qpError_kept, State.updFe_kept, State.updHost_kept]

theorem execPropertyGet_goesOn (q : QId) (s : State) : GoesOn s (execPropertyGet q s) := by
  unfold execPropertyGet
  grind [GoesOn.of_kept, State.adminDone_kept]

theorem execDisconnect_goesOn (q : QId) (s : State) : GoesOn s (execDisconnect q s) := by
  unfold execDisconnect
  grind [GoesOn.of_kept, foldl_kept, State.answer_kept, State.endController_kept, State.endQueue_kept, State.takeAdmin_kept]

theorem execRdmaCmConnectRequest_goesOn (kind : QpKind) (port mtu : Nat) (paths : List Nat) (s : State) :
    GoesOn s (execRdmaCmConnectRequest kind port mtu paths s) := by
  unfold execRdmaCmConnectRequest
  grind [goesOn_next, Held, memOk_iff, State.updRdm, State.kept, State.makeRoom_kept, State.reattach_held, State.tx_kept]

/-! ### Format and Sanitize -/

theorem execFormatNvm_goesOn (q : QId) (s : State) : GoesOn s (execFormatNvm q s) := by
  unfold execFormatNvm
  grind [GoesOn.of_kept, State.adminDone_kept, State.openRecord_kept, State.takeAdmin_kept]

theorem execSanitize_goesOn (q : QId) (s : State) : GoesOn s (execSanitize q s) := by
  unfold execSanitize
  grind [GoesOn.of_kept, State.adminDone_kept, State.openRecord_kept, State.updFe_kept]

theorem execFormatPhaseDone_goesOn (bad : List Nat) (s : State) : GoesOn s (execFormatPhaseDone bad s) := by
  unfold execFormatPhaseDone
  grind [GoesOn.of_kept, State.kept, State.closeRecord_kept, State.markBad_kept, State.phaseWork_kept,
    State.setProgress_kept, State.tellDone_kept, State.tellPeer_kept, State.updFe_kept]

/-! ### Media management -/

theorem execSubstitution_goesOn (i : Nat) (ok : Bool) (temp : Int) (s : State) :
    GoesOn s (execSubstitution i ok temp s) := by
  unfold execSubstitution
  grind [GoesOn.of_kept, State.subFails_kept, State.substitute_kept]

theorem execModuleReturn_goesOn (port : Nat) (temp : Int) (s : State) : GoesOn s (execModuleReturn port temp s) := by
  unfold execModuleReturn
  grind [GoesOn.of_kept, State.returned_kept, State.updPort_kept]

theorem execTrowelPass_goesOn (d : SD) (s : State) : GoesOn s (execTrowelPass d s) := by
  unfold execTrowelPass
  grind [GoesOn.of_kept, foldl_kept, State.foldFallback_kept, State.foldMember_kept, getD_kept]

theorem execFoldComplete_goesOn (i : Nat) (s : State) : GoesOn s (execFoldComplete i s) := by
  unfold execFoldComplete
  grind [GoesOn.of_kept, State.count_kept, State.delta_kept, State.finishStripe_kept, State.noteHour_kept,
    State.setPSeg_kept, State.updMed_kept]

theorem execGcVictim_goesOn (d : SD) (s : State) : GoesOn s (execGcVictim d s) := by
  unfold execGcVictim
  grind [GoesOn.of_kept, State.delta_kept, State.noteHour_kept, State.updVictim_kept, State.victim_kept]

theorem execGcCopy_goesOn (d : SD) (s : State) : GoesOn s (execGcCopy d s) := by
  unfold execGcCopy
  grind [GoesOn.of_kept, State.copyGran_kept, State.count_kept, State.delta_kept, State.raise_kept, State.updMed_kept,
    State.updVictim_kept]

theorem execRelocation_goesOn (i : Nat) (s : State) : GoesOn s (execRelocation i s) := by
  unfold execRelocation
  grind [GoesOn.of_kept, foldl_kept, State.delta_kept, State.evbHold_kept, State.relocateEnd_kept, State.relocateOne_kept,
    State.updDp_kept, State.updMed_kept, State.updVictim_kept]

theorem execStripeFreed_goesOn (d : SD) (n : Nat) (s : State) : GoesOn s (execStripeFreed d n s) := by
  unfold execStripeFreed
  grind [GoesOn.of_kept, State.count_kept, State.formAll_kept, State.freeStripe_kept]

theorem execEraseIssue_goesOn (port pseg : Nat) (s : State) : GoesOn s (execEraseIssue port pseg s) := by
  unfold execEraseIssue
  grind [GoesOn.of_kept, State.count_kept, State.eraseCursor_kept, State.issue_kept, State.setPSeg_kept, State.updMed_kept]

theorem execStripeFormation_goesOn (d : SD) (finish isMeta : Bool) (s : State) :
    GoesOn s (execStripeFormation d finish isMeta s) := by
  unfold execStripeFormation
  grind [GoesOn.of_kept, State.formStripe_kept, State.promote_kept]

theorem execWearLevelling_goesOn (port : Nat) (finish : Bool) (s : State) : GoesOn s (execWearLevelling port finish s) := by
  unfold execWearLevelling
  grind [GoesOn.of_kept, State.updMed_kept, State.victim_kept]

theorem execRefreshQueued_goesOn (port pseg : Nat) (s : State) : GoesOn s (execRefreshQueued port pseg s) := by
  unfold execRefreshQueued
  grind [GoesOn.of_kept, State.noteHour_kept, State.refresh_kept]

theorem execTemperaturePoll_goesOn (port : Nat) (s : State) : GoesOn s (execTemperaturePoll port s) := by
  unfold execTemperaturePoll
  grind [GoesOn.of_kept, State.issue_kept]

theorem execHealthEvent_goesOn (port code : Nat) (raised : Bool) (s : State) :
    GoesOn s (execHealthEvent port code raised s) := by
  unfold execHealthEvent
  grind [GoesOn.of_kept, State.asyncAll_kept, State.notify_kept, State.raise_kept, State.updFe_kept, State.updMed_kept]

/-! ### Rebuild and recoat -/

theorem execRebuildSlot_goesOn (d : SD) (bad : List Nat) (ok : Bool) (temp : Int) (s : State) :
    GoesOn s (execRebuildSlot d bad ok temp s) := by
  unfold execRebuildSlot
  dsimp only
  repeat' split
  all_goals refine GoesOn.of_kept ?_
  all_goals grind [State.allocSeg_kept, State.count_kept, State.delta_kept, State.loseGone_kept, State.ownerReject_kept,
    State.rebuildRow_kept, State.rebuilt_kept, State.retire_kept, State.updMed_kept, State.writeSlot_kept]

theorem execRecoatCopy_goesOn (d : SD) (s : State) : GoesOn s (execRecoatCopy d s) := by
  unfold execRecoatCopy
  grind [GoesOn.of_kept, State.copyGran_kept, State.count_kept, State.delta_kept, State.recoatTake_kept, State.updMed_kept,
    State.updVictim_kept]

theorem execRecoatComplete_goesOn (d : SD) (s : State) : GoesOn s (execRecoatComplete d s) := by
  unfold execRecoatComplete
  grind [GoesOn.of_kept, State.delta_kept, State.notify_kept, State.raise_kept]

theorem execJournalReplay_goesOn (d : SD) (n row : Nat) (temp : Int) (s : State) :
    GoesOn s (execJournalReplay d n row temp s) := by
  unfold execJournalReplay
  grind [GoesOn.of_kept, State.count_kept, State.journal_kept, State.loseRow_kept, State.replayData_kept,
    State.replayParity_kept, State.rowImages_kept2]

end Sys2Proof.Machine
end

section
/-!
PROOFS. The commit epoch, RDMA, the Ubius link, the peer and replication go on.
-/

namespace Sys2Proof.Machine

/-! ### The commit epoch -/

theorem execEpochBoundary_goesOn (s : State) : GoesOn s (execEpochBoundary s) := by
  unfold execEpochBoundary
  grind [GoesOn.of_kept, State.ageAttach_kept, State.boundaryArray_kept, State.boundaryConfig_kept,
    State.handoverBoundary_kept, State.turnEpoch_kept]

theorem execEpochAck_goesOn (d : SD) (epoch : DWord) (digest : List Byte) (s : State) :
    GoesOn s (execEpochAck d epoch digest s) := by
  unfold execEpochAck
  grind [GoesOn.of_kept, State.updUbl, State.kept, State.count_kept, State.epochCopied_kept, State.heard_kept,
    State.loseLink_kept, State.raise_kept, State.send_kept, State.snag_kept]

/-! ### RDMA -/

theorem execRdmaPacket_goesOn (icrcOk : Bool) (p : Pkt) (s : State) : GoesOn s (execRdmaPacket icrcOk p s) := by
  unfold execRdmaPacket
  grind [goesOn_next, held_of_kept, State.rxPkt_held]

theorem execContextInstalled_goesOn (i : Nat) (s : State) : GoesOn s (execContextInstalled i s) := by
  have take : ∀ (u : State) (p : Pkt), Held u (match u.qp? i with | some x => u.handlePkt i x p | none => u) := by
    intro u p
    split
    · exact State.handlePkt_held ..
    · exact held_of_kept rfl
  unfold execContextInstalled
  split
  · exact GoesOn.of_kept rfl
  · split
    · exact GoesOn.of_kept rfl
    · refine goesOn_next.mpr (Held.trans (held_of_kept ?_) (foldl_held _ _ take _))
      grind [State.makeRoom_kept, State.updQp_kept]

theorem execQpError_goesOn (i : Nat) (cause : Option WcSt) (s : State) : GoesOn s (execQpError i cause s) :=
  .of_kept (State.qpError_kept ..)

theorem execRdmaFlush_goesOn (i : Nat) (s : State) : GoesOn s (execRdmaFlush i s) := by
  unfold execRdmaFlush
  grind [GoesOn.of_kept, State.tx_kept, State.updQp_kept]

theorem execRdmaAtomicWrite_goesOn (i : Nat) (s : State) : GoesOn s (execRdmaAtomicWrite i s) := by
  unfold execRdmaAtomicWrite
  grind [goesOn_next, Held, memOk_iff, State.kept, State.place_held, State.tx_kept, State.updQp_kept]

theorem execSendWithInvalidate_goesOn (icrcOk : Bool) (qpn psn port rkey : Nat) (s : State) :
    GoesOn s (execSendWithInvalidate icrcOk qpn psn port rkey s) := by
  unfold execSendWithInvalidate
  grind [goesOn_next, held_of_kept, State.rxPkt_held]

theorem execCnp_goesOn (i path : Nat) (s : State) : GoesOn s (execCnp i path s) := by
  unfold execCnp
  grind [GoesOn.of_kept, State.count_kept, State.updQp_kept]

theorem execRateRaise_goesOn (i path : Nat) (s : State) : GoesOn s (execRateRaise i path s) := by
  unfold execRateRaise
  grind [GoesOn.of_kept, State.updQp_kept]

theorem execScrimPacket_goesOn (icrcOk : Bool) (qpn psn port : Nat) (x : Sxh) (data : List Byte) (s : State) :
    GoesOn s (execScrimPacket icrcOk qpn psn port x data s) := by
  unfold execScrimPacket
  grind [goesOn_next, held_of_kept, State.rxPkt_held]

theorem execScrimComplete_goesOn (i msn : Nat) (s : State) : GoesOn s (execScrimComplete i msn s) := by
  unfold execScrimComplete
  grind [GoesOn.of_kept, State.tx_kept, State.updQp_kept]

theorem execScrimAck_goesOn (i msn : Nat) (s : State) : GoesOn s (execScrimAck i msn s) := by
  unfold execScrimAck
  grind [GoesOn.of_kept, State.count_kept, State.pumpAll_kept, State.updQp_kept]

theorem execScrimNak_goesOn (i msn bitmap : Nat) (s : State) : GoesOn s (execScrimNak i msn bitmap s) := by
  unfold execScrimNak
  grind [GoesOn.of_kept, State.count_kept, State.resend_kept]

theorem execScrimTimeout_goesOn (i msn : Nat) (s : State) : GoesOn s (execScrimTimeout i msn s) := by
  unfold execScrimTimeout
  grind [GoesOn.of_kept, State.qpError_kept, State.resend_kept, State.updQp_kept]

theorem execPathDown_goesOn (i path : Nat) (s : State) : GoesOn s (execPathDown i path s) :=
  .of_kept (State.dropPath_kept ..)

theorem execPortLinkDown_goesOn (port : Nat) (s : State) : GoesOn s (execPortLinkDown port s) := by
  unfold execPortLinkDown
  grind [GoesOn.of_kept, State.updRdm, State.kept, foldl_kept, State.dropPath_kept, State.qpError_kept]

theorem execLocalAckTimeout_goesOn (i : Nat) (rnr : Bool) (s : State) : GoesOn s (execLocalAckTimeout i rnr s) := by
  unfold execLocalAckTimeout
  grind [GoesOn.of_kept, State.retry_kept]

/-! ### The Ubius link -/

theorem State.receiveFrame_held (s : State) (f : MFrame) (check : DWord) (g : State → State)
    (hg : ∀ x, Held x (g x)) : Held s (s.receiveFrame f check g) := by
  unfold State.receiveFrame
  have taken : Held s ((g s).frameTaken f check) := (hg s).trans (held_of_kept (State.frameTaken_kept ..))
  have nak := held_of_kept (State.send_kept s (.mirrorNak f.sd f.mseq))
  have ack := held_of_kept (State.send_kept s (.mirrorAck f.sd (s.ubl.rx.get f.sd).mseq))
  have same : Held s s := held_of_kept rfl
  exact ite_held same (ite_held nak (ite_held taken (ite_held ack same)))

theorem execMirrorFrame_goesOn (f : MFrame) (check : DWord) (s : State) : GoesOn s (execMirrorFrame f check s) := by
  unfold execMirrorFrame
  split
  · exact GoesOn.of_kept rfl
  · have heard := held_of_kept (State.heard_kept s 1 (flitsOf (64 + f.data.length)))
    have received := State.receiveFrame_held (s.heard 1 (flitsOf (64 + f.data.length))) f check (fun u => u.mirrorWrite f)
      fun u => State.mirrorWrite_held u f
    exact goesOn_next.mpr ((heard.trans received).trans (held_of_kept (State.tryAck_kept ..)))

theorem execReleaseFrame_goesOn (f : MFrame) (check : DWord) (s : State) : GoesOn s (execReleaseFrame f check s) := by
  unfold execReleaseFrame
  grind [GoesOn.of_kept, State.updUbl, State.kept, State.heard_kept, State.receiveFrame_kept, State.tryAck_kept]

theorem execMirrorAck_goesOn (d : SD) (mseq : Word) (s : State) : GoesOn s (execMirrorAck d mseq s) := by
  unfold execMirrorAck
  grind [GoesOn.of_kept, State.updUbl, State.kept, State.heard_kept, State.settleAll_kept, State.updFe_kept]

theorem execEpochFrame_goesOn (d : SD) (x : EFrame) (s : State) : GoesOn s (execEpochFrame d x s) := by
  unfold execEpochFrame
  grind [GoesOn.of_kept, State.updUbl, State.kept, State.foldShadow_kept, State.heard_kept, State.tryAck_kept]

theorem execFlitError_goesOn (fseq : Half) (s : State) : GoesOn s (execFlitError fseq s) := by
  unfold execFlitError
  grind [GoesOn.of_kept, State.kept, State.send_kept]

theorem execNak_goesOn (n : Nak) (s : State) : GoesOn s (execNak n s) := by
  unfold execNak
  grind [GoesOn.of_kept, State.kept, foldl_kept, State.count_kept, State.heard_kept, State.send_kept]

theorem execLinkRetrain_goesOn (groups : Nat) (s : State) : GoesOn s (execLinkRetrain groups s) := by
  have told : ∀ u : State, u.kept = s.kept → ((u.count .ublRetrains).raise .ubl 3).kept = s.kept := fun u h => by
    rw [State.raise_kept, State.count_kept, h]
  have narrow : ∀ u : State, u.kept = s.kept → (u.raise .ubl 2).kept = s.kept := fun u h => by
    rw [State.raise_kept, h]
  unfold execLinkRetrain
  extract_lets again lanes s1 s2 s3
  have h1 : s1.kept = s.kept := (updUbl_kept_of rfl).trans (State.retrained_kept s)
  have h3 : s3.kept = s.kept := ite_kept (narrow _ (ite_kept (told _ h1) h1)) (ite_kept (told _ h1) h1)
  split
  · exact GoesOn.of_kept rfl
  · exact GoesOn.of_kept (ite_kept ((State.sendRaw_kept ..).trans h3) (ite_kept ((State.resendPeer_kept s3).trans h3) h3))

theorem execUbiusLinkDown_goesOn (s : State) : GoesOn s (execUbiusLinkDown s) := by
  unfold execUbiusLinkDown
  grind [GoesOn.of_kept, State.updUbl, State.kept, foldl_kept, State.holdWrites_kept, State.raise_kept]

theorem execLinkLost_goesOn (s : State) : GoesOn s (execLinkLost s) := by
  unfold execLinkLost
  grind [GoesOn.of_kept, State.loseLink_kept]

theorem execHello_goesOn (head level version : Nat) (array cert : List Byte) (s : State) :
    GoesOn s (execHello head level version array cert s) := by
  unfold execHello
  grind [GoesOn.of_kept, State.updUbl, State.kept, foldl_kept, State.actHello_kept, State.extendHello_kept,
    State.freeHold_kept, State.heard_kept, State.refuseHello_kept, State.resendPeer_kept, State.retrained_kept,
    State.sendRaw_kept]

theorem execForwardCmd_goesOn (tag : Nat) (c : Capsule) (s : State) : GoesOn s (execForwardCmd tag c s) := by
  unfold execForwardCmd
  grind [GoesOn.of_kept, State.heard_kept, State.updFe_kept]

theorem execForwardData_goesOn (tag off : Nat) (b : List Byte) (s : State) : GoesOn s (execForwardData tag off b s) := by
  unfold execForwardData
  grind [GoesOn.of_kept, State.feed_kept, State.heard_kept, State.updFe_kept]

theorem execForwardCpl_goesOn (tag : Nat) (st : Status) (dw0 : Nat) (s : State) :
    GoesOn s (execForwardCpl tag st dw0 s) := by
  unfold execForwardCpl
  grind [GoesOn.of_kept, State.answer_kept, State.heard_kept, State.updFe_kept]

theorem execForwardAbort_goesOn (tag : Nat) (s : State) : GoesOn s (execForwardAbort tag s) := by
  unfold execForwardAbort
  grind [GoesOn.of_kept, State.catchCmd_kept, State.heard_kept, State.send_kept]

theorem execForwardAbortRsp_goesOn (tag : Nat) (caught : Bool) (s : State) :
    GoesOn s (execForwardAbortRsp tag caught s) := by
  unfold execForwardAbortRsp
  grind [GoesOn.of_kept, State.count_kept, State.heard_kept, State.respond_kept, State.updFe_kept, State.updHost_kept]

/-! ### The peer -/

theorem execHeartbeat_goesOn (path : HbPath) (b : List Byte) (s : State) : GoesOn s (execHeartbeat path b s) := by
  unfold execHeartbeat
  grind [GoesOn.of_kept, State.updUbl, State.kept, State.faultReported_kept, State.heard_kept, State.raise_kept]

theorem execFaultTone_goesOn (s : State) : GoesOn s (execFaultTone s) :=
  .of_kept (ite_kept (State.faultReported_kept ..) rfl)

theorem execHeartbeatPeriod_goesOn (s : State) : GoesOn s (execHeartbeatPeriod s) := by
  unfold execHeartbeatPeriod
  grind [GoesOn.of_kept, State.updUbl, State.kept, State.beat_kept, State.count_kept, State.declare_kept]

theorem execDeclarationDelay_goesOn (s : State) : GoesOn s (execDeclarationDelay s) := by
  unfold execDeclarationDelay
  grind [GoesOn.of_kept, State.updUbl, State.kept, State.actDeclared_kept]

theorem execTakeover.install_kept (s : State) (d : SD) (t : Takeover) (m : Meta) :
    (execTakeover.install d s t m).kept = s.kept := by
  unfold execTakeover.install
  grind [State.installDomain_kept, State.setTake_kept, State.updStr, State.kept]

theorem execTakeover_goesOn (d : SD) (level : Bool) (gap : Nat) (s : State) : GoesOn s (execTakeover d level gap s) := by
  unfold execTakeover
  dsimp only
  repeat' split
  all_goals refine GoesOn.of_kept ?_
  all_goals grind [State.fenceAll_kept, State.failRehearsal_kept, State.finishTakeover_kept, State.recoverSteps_kept,
    State.reenterAll_kept2, State.seeBatten_kept, State.seize_kept, State.setTake_kept, State.kept, State.updUbl,
    execTakeover.install_kept]

theorem execBattenStuck_goesOn (d : SD) (s : State) : GoesOn s (execBattenStuck d s) := by
  unfold execBattenStuck
  grind [GoesOn.of_kept, State.raise_kept, State.seeBatten_kept]

theorem execBattenRecheck_goesOn (d : SD) (level : Bool) (s : State) : GoesOn s (execBattenRecheck d level s) := by
  unfold execBattenRecheck
  grind [GoesOn.of_kept, State.updUbl, State.kept, State.seeBatten_kept]

theorem execBreakAsserted_goesOn (s : State) : GoesOn s (execBreakAsserted s) := by
  unfold execBreakAsserted
  grind [GoesOn.of_kept, State.updUbl, State.kept, foldl_kept, State.count_kept, State.leaveDomain_kept,
    State.portsDown_kept, State.raise_kept, State.requestState_kept, State.sayState_kept, State.snag_kept,
    State.updMlk_kept]

theorem execBreakDeasserted_goesOn (s : State) : GoesOn s (execBreakDeasserted s) := by
  unfold execBreakDeasserted
  grind [GoesOn.of_kept, State.updUbl, State.kept]

theorem execBreakExpectationExpiry_goesOn (s : State) : GoesOn s (execBreakExpectationExpiry s) := by
  unfold execBreakExpectationExpiry
  grind [GoesOn.of_kept, State.updUbl, State.kept]

theorem execFill_goesOn (s : State) : GoesOn s (execFill s) := by
  unfold execFill
  grind [GoesOn.of_kept, State.updUbl, State.kept, foldl_kept, State.askAcks_kept, State.refill_kept, State.send_kept]

theorem execBreakRelease_goesOn (c : Nat) (s : State) : GoesOn s (execBreakRelease c s) := by
  unfold execBreakRelease
  refine GoesOn.runCmd fun u r => ?_
  grind [Ans.st, Ans.no, State.updPwr_kept, State.kept, State.updUbl]

theorem execDomainHandover_goesOn (chan : Option Nat) (d : SD) (level : Bool) (s : State) :
    GoesOn s (execDomainHandover chan d level s) := by
  unfold execDomainHandover
  split
  · refine GoesOn.of_kept ?_
    grind [State.giveStep_kept, State.takeStep_kept]
  · cases chan with
    | none => exact GoesOn.of_kept rfl
    | some c =>
      refine GoesOn.runCmd fun u r => ?_
      grind [Ans.st, Ans.no, State.beginHandover_kept]

theorem execHandoverAbortTimeout_goesOn (s : State) : GoesOn s (execHandoverAbortTimeout s) := by
  unfold execHandoverAbortTimeout
  grind [GoesOn.of_kept, State.abortHandover_kept, State.sayState_kept]

theorem execRehearsal_goesOn (s : State) : GoesOn s (execRehearsal s) := by
  unfold execRehearsal
  grind [GoesOn.of_kept, State.updUbl, State.kept, State.count_kept, State.giveRehearsal_kept, State.tell_kept]

theorem execMessageFrame_goesOn (kind : Nat) (d : SD) (b : List Byte) (s : State) :
    GoesOn s (execMessageFrame kind d b s) := by
  unfold execMessageFrame
  grind [GoesOn.of_kept, State.updUbl, State.kept, foldl_kept, State.actEnd_kept, State.actGive_kept, State.actMoved_kept,
    State.actStep_kept, State.activateModule_kept, State.beginHandover_kept, State.breakOff_kept, State.commission_kept,
    State.endGap_kept, State.fenceAll_kept, State.giveRehearsal_kept, State.handoverDone_kept, State.heard_kept,
    State.holdPeer_kept, State.leaveDomain_kept, State.peerPhase_kept, State.pushArrived_kept, State.pushReply_kept,
    State.raise_kept, State.removeKdom_kept, State.resendPeer_kept, State.restartNotice_kept, State.resvEvent_kept,
    State.revertModule_kept, State.sayState_kept, State.seize_kept, State.stagedModule_kept, State.startGap_kept,
    State.takeKdom_kept, State.updFe_kept, State.updMed_kept, State.updPwr_kept, State.wakeEvent_kept]

/-! ### Replication -/

theorem execConsistencySetCut_goesOn (id : Nat) (s : State) : GoesOn s (execConsistencySetCut id s) := by
  unfold execConsistencySetCut
  grind [GoesOn.of_kept, State.takeSnap_kept, State.updAtt_kept]

theorem execResync_goesOn (id : Nat) (s : State) : GoesOn s (execResync id s) := by
  unfold execResync
  grind [GoesOn.of_kept, State.notify_kept, State.raise_kept, State.takeSnap_kept, State.updAtt_kept]

theorem execConsistencySetShip_goesOn (id : Nat) (s : State) : GoesOn s (execConsistencySetShip id s) := by
  unfold execConsistencySetShip
  dsimp only
  repeat' split
  all_goals refine GoesOn.of_kept ?_
  all_goals grind [State.postWr_kept, State.resyncRecs_kept2, State.sendCtl_kept, State.sendFlush_kept,
    State.sendMsgs_kept, State.updAtt_kept]

theorem execReplSyncTimeout_goesOn (id : Nat) (s : State) : GoesOn s (execReplSyncTimeout id s) := by
  unfold execReplSyncTimeout
  grind [GoesOn.of_kept, State.notify_kept, State.raise_kept, State.updAtt_kept]

theorem execReplicationMessage_goesOn (id msn : Nat) (src wire : List Byte) (s : State) :
    GoesOn s (execReplicationMessage id msn src wire s) := by
  unfold execReplicationMessage
  dsimp only
  repeat' split
  all_goals refine GoesOn.of_kept ?_
  all_goals grind [State.count_kept, State.notify_kept, State.raise_kept, State.takeRecs_kept, State.updAtt_kept]

theorem execControlWordChange_goesOn (id : Nat) (s : State) : GoesOn s (execControlWordChange id s) := by
  unfold execControlWordChange
  dsimp only
  repeat' split
  all_goals refine GoesOn.of_kept ?_
  all_goals grind [foldl_kept, State.deleteRoot_kept, State.takeSnap_kept, State.updAtt_kept]

end Sys2Proof.Machine
end

section
/-!
PROOFS. Registers, the mailbox, trust, update, power and start-up go on.
-/

namespace Sys2Proof.Machine

/-! ### The snag log -/

theorem execSnagEvent_goesOn (s : State) : GoesOn s (execSnagEvent s) := by
  unfold execSnagEvent
  grind [GoesOn.of_kept, State.askFlush_kept, State.dropSnag_kept, State.enterSnag_kept, State.updEvr_kept]

theorem execEvrFlush_goesOn (r : Requester) (v : Half) (s : State) : GoesOn s (execEvrFlush r v s) := by
  unfold execEvrFlush
  grind [GoesOn.of_kept, State.evrCtrl_kept]

theorem execEvrClear_goesOn (r : Requester) (v : Half) (s : State) : GoesOn s (execEvrClear r v s) := by
  unfold execEvrClear
  grind [GoesOn.of_kept, State.evrCtrl_kept]

theorem execSnagFlush_goesOn (s : State) : GoesOn s (execSnagFlush s) := by
  unfold execSnagFlush
  grind [GoesOn.of_kept, foldl_kept, State.endFlush_kept, State.programImage_kept, State.updEvr_kept]

theorem execSnagFlushEnd_goesOn (s : State) : GoesOn s (execSnagFlushEnd s) := by
  unfold execSnagFlushEnd
  grind [GoesOn.of_kept, State.endFlush_kept]

theorem execEvrPartitionErase_goesOn (s : State) : GoesOn s (execEvrPartitionErase s) := by
  unfold execEvrPartitionErase
  grind [GoesOn.of_kept, foldl_kept, State.issue_kept, State.updEvr_kept]

/-! ### Registers -/

theorem execConsistencyCheckDone_goesOn (b : Blk) (s : State) : GoesOn s (execConsistencyCheckDone b s) := by
  unfold execConsistencyCheckDone
  grind [GoesOn.of_kept, State.claimBlock_kept2, State.refuseEnable_kept, State.reserveSlots_kept, State.updBlk_kept]

theorem execDrainEnd_goesOn (b : Blk) (s : State) : GoesOn s (execDrainEnd b s) := by
  unfold execDrainEnd
  grind [GoesOn.of_kept, State.releaseBlock_kept, State.updBlk_kept]

theorem execBlockEnable_goesOn (r : Requester) (b : Blk) (al : Nat) (w : Word) (s : State) :
    GoesOn s (execBlockEnable r b al w s) := by
  unfold execBlockEnable
  grind [goesOn_next, held_of_kept, State.regWrite_held]

theorem execBlockDisable_goesOn (r : Requester) (b : Blk) (al : Nat) (w : Word) (s : State) :
    GoesOn s (execBlockDisable r b al w s) := by
  unfold execBlockDisable
  grind [goesOn_next, held_of_kept, State.regWrite_held]

theorem execAtomicModeWrite_goesOn (r : Requester) (b : Blk) (w : Word) (s : State) :
    GoesOn s (execAtomicModeWrite r b w s) :=
  .of_held (State.regWrite_held ..)

theorem execStatusAck_goesOn (r : Requester) (b : Blk) (w : Word) (s : State) : GoesOn s (execStatusAck r b w s) :=
  .of_held (State.regWrite_held ..)

theorem execIndAddrWrite_goesOn (r : Requester) (b : Blk) (w : Word) (s : State) : GoesOn s (execIndAddrWrite r b w s) :=
  .of_held (State.regWrite_held ..)

theorem execIndDataWrite_goesOn (r : Requester) (b : Blk) (w : Bool × Word) (s : State) :
    GoesOn s (execIndDataWrite r b w s) :=
  .of_held (State.regWrite_held ..)

theorem execIndDataRead_goesOn (r : Requester) (b : Blk) (s : State) : GoesOn s (execIndDataRead r b s) := by
  unfold execIndDataRead
  grind [GoesOn.of_kept, State.answerRead_kept, State.readInd_kept, State.violation_kept]

theorem execEpochLoRead_goesOn (r : Requester) (s : State) : GoesOn s (execEpochLoRead r s) := by
  unfold execEpochLoRead
  grind [GoesOn.of_kept, State.answerRead_kept, State.updTop_kept]

theorem execBootCountLoRead_goesOn (r : Requester) (s : State) : GoesOn s (execBootCountLoRead r s) := by
  unfold execBootCountLoRead
  grind [GoesOn.of_kept, State.kept, State.answerRead_kept]

theorem execRegisterWrite_goesOn (r : Requester) (via : RegPath) (late : Bool) (a : Nat) (w : Word) (s : State) :
    GoesOn s (execRegisterWrite r via late a w s) := by
  unfold execRegisterWrite
  grind [goesOn_next, held_of_kept, State.bar2Write_kept, State.regWrite_held, State.violation_kept]

theorem execViolClear_goesOn (r : Requester) (w : Word) (s : State) : GoesOn s (execViolClear r w s) :=
  .of_held (State.regWrite_held ..)

theorem execVaultPartWrite_goesOn (r : Requester) (al : Nat) (w : Word) (s : State) :
    GoesOn s (execVaultPartWrite r al w s) :=
  .of_held (State.regWrite_held ..)

theorem execTimerStart_goesOn (r : Requester) (al n : Nat) (w : Word) (s : State) :
    GoesOn s (execTimerStart r al n w s) := by
  unfold execTimerStart
  grind [goesOn_next, held_of_kept, State.regWrite_held]

theorem execTimerStop_goesOn (r : Requester) (al n : Nat) (w : Word) (s : State) : GoesOn s (execTimerStop r al n w s) := by
  unfold execTimerStop
  grind [goesOn_next, held_of_kept, State.regWrite_held]

theorem execTimerExpiry_goesOn (n : Nat) (s : State) : GoesOn s (execTimerExpiry n s) := by
  unfold execTimerExpiry
  grind [GoesOn.of_kept, State.timerFires_kept]

theorem execPinmuxWrite_goesOn (r : Requester) (al g : Nat) (w : Word) (s : State) :
    GoesOn s (execPinmuxWrite r al g w s) := by
  unfold execPinmuxWrite
  grind [goesOn_next, State.regWrite_held]

theorem execTopReset_goesOn (r : Requester) (w : Word) (s : State) : GoesOn s (execTopReset r w s) :=
  .of_held (State.regWrite_held ..)

theorem execPstateRequest_goesOn (r : Requester) (w : Word) (s : State) : GoesOn s (execPstateRequest r w s) :=
  .of_held (State.regWrite_held ..)

/-! ### The mailbox -/

theorem execMbDoorbell_goesOn (r : Requester) (c : Nat) (w : Word) (s : State) : GoesOn s (execMbDoorbell r c w s) := by
  unfold execMbDoorbell
  grind [goesOn_next, held_of_kept, State.regWrite_held]

theorem execMbRspAck_goesOn (r : Requester) (c : Nat) (w : Word) (s : State) : GoesOn s (execMbRspAck r c w s) := by
  unfold execMbRspAck
  grind [goesOn_next, held_of_kept, State.regWrite_held]

theorem execMbNtfCons_goesOn (r : Requester) (w : Word) (s : State) : GoesOn s (execMbNtfCons r w s) :=
  .of_held (State.regWrite_held ..)

theorem execNotification_goesOn (code : Nat) (raised : Bool) (sd : Option SD) (port : Nat) (arg : List Byte) (s : State) :
    GoesOn s (execNotification code raised sd port arg s) := by
  unfold execNotification
  grind [GoesOn.of_kept, State.notify_kept]

theorem execResponsePosted_goesOn (c : Nat) (s : State) : GoesOn s (execResponsePosted c s) := by
  unfold execResponsePosted
  grind [GoesOn.of_kept, State.endWait_kept, State.signal_kept, State.updChan_kept]

theorem execNop_goesOn (c : Nat) (s : State) : GoesOn s (execNop c s) :=
  .runCmd fun _ _ => rfl

theorem execVersionGet_goesOn (c : Nat) (s : State) : GoesOn s (execVersionGet c s) :=
  .runCmd fun _ _ => rfl

theorem execArrayCommission_goesOn (c : Nat) (nqn array : List Byte) (pq : Bool) (k vsegs ssegs holdup : Nat) (s : State) :
    GoesOn s (execArrayCommission c nqn array pq k vsegs ssegs holdup s) := by
  unfold execArrayCommission
  refine .runCmd fun u r => ?_
  grind [Ans.st, Ans.no, State.commission_kept, State.drawMetaKey_kept, State.send_kept, State.sizeSheets_kept,
    State.splitAll_kept, State.waitFor_kept]

theorem execRtcSet_goesOn (c : Nat) (v : DWord) (s : State) : GoesOn s (execRtcSet c v s) := by
  unfold execRtcSet
  refine .runCmd fun u r => ?_
  grind [Ans.st, State.updPwr_kept]

theorem execVolCreate_goesOn (c : Nat) (s : State) : GoesOn s (execVolCreate c s) := by
  unfold execVolCreate
  refine .runCmd fun u r => ?_
  grind [Ans.st, Ans.no, State.makeVolume_kept]

theorem execVolDelete_goesOn (c root : Nat) (s : State) : GoesOn s (execVolDelete c root s) := by
  unfold execVolDelete
  refine .runCmd fun u r => ?_
  grind [State.deleteCmd_kept]

theorem execVolResize_goesOn (c root size : Nat) (s : State) : GoesOn s (execVolResize c root size s) := by
  unfold execVolResize
  refine .runCmd fun u r => ?_
  grind [Ans.st, Ans.no, foldl_kept, State.delta_kept, State.growTop_kept2, State.nsChanged_kept]

theorem execNsCreate_goesOn (c : Nat) (s : State) : GoesOn s (execNsCreate c s) := by
  unfold execNsCreate
  refine .runCmd fun u r => ?_
  grind [Ans.st, Ans.no, State.putNs_kept]

theorem execNsDelete_goesOn (c nsid : Nat) (s : State) : GoesOn s (execNsDelete c nsid s) := by
  unfold execNsDelete
  refine .runCmd fun u r => ?_
  grind [Ans.st, Ans.no, State.lostOver_kept, State.onNamespace_kept, State.putNs_kept]

theorem execNsAttach_goesOn (c nsid : Nat) (cntlids : List Nat) (s : State) : GoesOn s (execNsAttach c nsid cntlids s) := by
  unfold execNsAttach
  refine .runCmd fun u r => ?_
  grind [Ans.st, Ans.no, State.nsChanged_kept, State.onNamespace_kept, State.putNs_kept]

theorem execNsDetach_goesOn (c nsid : Nat) (cntlids : List Nat) (s : State) : GoesOn s (execNsDetach c nsid cntlids s) := by
  unfold execNsDetach
  refine .runCmd fun u r => ?_
  grind [Ans.st, Ans.no, State.nsChanged_kept, State.onNamespace_kept, State.putNs_kept]

theorem execNsQosSet_goesOn (c nsid group : Nat) (s : State) : GoesOn s (execNsQosSet c nsid group s) := by
  unfold execNsQosSet
  refine .runCmd fun u r => ?_
  grind [Ans.st, Ans.no, State.onNamespace_kept, State.putNs_kept, State.qosChanged_kept]

theorem execQosGroupSet_goesOn (c group us : Nat) (s : State) : GoesOn s (execQosGroupSet c group us s) := by
  unfold execQosGroupSet
  refine .runCmd fun u r => ?_
  grind [Ans.st, Ans.no, State.kept, State.qosChanged_kept]

theorem execSnapTake_goesOn (c : Nat) (s : State) : GoesOn s (execSnapTake c s) := by
  unfold execSnapTake
  refine .runCmd fun u r => ?_
  grind [Ans.st, Ans.no, State.takeSnap_kept, State.waitFor_kept]

theorem execSnapDelete_goesOn (c root : Nat) (s : State) : GoesOn s (execSnapDelete c root s) := by
  unfold execSnapDelete
  refine .runCmd fun u r => ?_
  grind [State.deleteCmd_kept]

theorem execCloneCreate_goesOn (c root : Nat) (s : State) : GoesOn s (execCloneCreate c root s) := by
  unfold execCloneCreate
  refine .runCmd fun u r => ?_
  grind [Ans.st, Ans.no, State.delta_kept, State.share_kept]

theorem execRootList_goesOn (c : Nat) (d : SD) (start addr len : Nat) (dmaOk : Bool) (s : State) :
    GoesOn s (execRootList c d start addr len dmaOk s) := by
  unfold execRootList
  refine .runCmd fun u r => ?_
  grind [Ans.st, Ans.no, State.dma_kept]

theorem execKdomCreate_goesOn (c kdom : Nat) (mode : DMode) (s : State) : GoesOn s (execKdomCreate c kdom mode s) := by
  unfold execKdomCreate
  refine .runCmd fun u r => ?_
  grind [Ans.st, Ans.no, State.draw_kept2, State.loadAtRest_kept, State.needAtRest_kept, State.sendKdom_kept,
    State.updDp_kept]

theorem execKdomDelete_goesOn (c kdom : Nat) (s : State) : GoesOn s (execKdomDelete c kdom s) := by
  unfold execKdomDelete
  refine .runCmd fun u r => ?_
  grind [Ans.st, Ans.no, State.removeKdom_kept, State.send_kept]

theorem execKdomModeSet_goesOn (c kdom : Nat) (mode : DMode) (s : State) : GoesOn s (execKdomModeSet c kdom mode s) := by
  unfold execKdomModeSet
  refine .runCmd fun u r => ?_
  grind [Ans.st, Ans.no, State.send_kept, State.updDp_kept]

theorem execKdomRotate_goesOn (c kdom : Nat) (s : State) : GoesOn s (execKdomRotate c kdom s) := by
  unfold execKdomRotate
  refine .runCmd fun u r => ?_
  grind [Ans.st, Ans.no, State.draw_kept2, State.loadAtRest_kept, State.needAtRest_kept, State.sendKdom_kept,
    State.updDp_kept]

theorem execKeyLoad_goesOn (c : Nat) (s : State) : GoesOn s (execKeyLoad c s) := by
  unfold execKeyLoad
  split
  · exact GoesOn.of_kept rfl
  · refine GoesOn.runCmd fun u r => ?_
    grind [Ans.st, Ans.no, State.loadPlain_kept]

theorem execKeyGenerate_goesOn (c slot usage : Nat) (klen npol : Bool) (s : State) :
    GoesOn s (execKeyGenerate c slot usage klen npol s) := by
  unfold execKeyGenerate
  refine .runCmd fun u r => ?_
  grind [Ans.st, Ans.no, State.drawKey_kept2, State.loadPlain_kept]

theorem execKeyZeroize_goesOn (c slot : Nat) (s : State) : GoesOn s (execKeyZeroize c slot s) := by
  unfold execKeyZeroize
  refine .runCmd fun u r => ?_
  grind [Ans.st, Ans.no, State.waitFor_kept, State.zeroize_kept]

theorem execPageOwnerSet_goesOn (c page owner : Nat) (s : State) : GoesOn s (execPageOwnerSet c page owner s) := by
  unfold execPageOwnerSet
  refine .runCmd fun u r => ?_
  grind [Ans.st, Ans.no, State.setPage_kept]

theorem execPageAssign_goesOn (c page sqBase sqSize cqBase cqSize : Nat) (intEn : Bool) (s : State) :
    GoesOn s (execPageAssign c page sqBase sqSize cqBase cqSize intEn s) := by
  unfold execPageAssign
  refine .runCmd fun u r => ?_
  grind [Ans.st, Ans.no, State.setPage_kept]

theorem execReplAttach_goesOn (c : Nat) (qpn : Option Nat) (base len : Nat) (s : State) :
    GoesOn s (execReplAttach c qpn base len s) := by
  unfold execReplAttach
  refine GoesOn.runCmd fun u r => ?_
  have no : ∀ e, (Ans.no e u).st.kept = u.kept := fun _ => rfl
  extract_lets d roots slot source id
  iterate 7 refine ite_st_kept (no _) ?_
  split
  · exact no _
  · extract_lets a s1
    have h1 : s1.kept = u.kept := (State.updQp_kept ..).trans (State.delta_kept ..)
    refine ite_st_kept h1 (ite_st_kept (no _) ?_)
    split
    · exact no _
    · next opened => exact (State.openWindow_kept _ _ _ _ _ _ _ opened).trans h1

theorem execReplDetach_goesOn (c id : Nat) (s : State) : GoesOn s (execReplDetach c id s) := by
  unfold execReplDetach
  refine .runCmd fun u r => ?_
  grind [Ans.st, Ans.no, State.updRdm, State.kept, foldl_kept, State.closeWindow_kept, State.delta_kept, State.qpError_kept]

theorem execReplStatus_goesOn (c id : Nat) (s : State) : GoesOn s (execReplStatus c id s) := by
  unfold execReplStatus
  refine .runCmd fun u r => ?_
  grind [Ans.st, Ans.no]

theorem execWindowOpen_goesOn (c qpn base len rights : Nat) (s : State) :
    GoesOn s (execWindowOpen c qpn base len rights s) := by
  unfold execWindowOpen
  refine .runCmd fun u r => ?_
  grind [Ans.st, Ans.no, State.openWindow_kept]

theorem execWindowRevoke_goesOn (c rkey : Nat) (s : State) : GoesOn s (execWindowRevoke c rkey s) := by
  unfold execWindowRevoke
  refine .runCmd fun u r => ?_
  grind [Ans.st, Ans.no, State.closeWindow_kept, State.raise_kept]

theorem execHealthList_goesOn (c port : Nat) (s : State) : GoesOn s (execHealthList c port s) := by
  unfold execHealthList
  refine .runCmd fun u r => ?_
  grind [Ans.st, Ans.no]

theorem execModuleList_goesOn (c : Nat) (s : State) : GoesOn s (execModuleList c s) :=
  .runCmd fun _ _ => rfl

theorem execModuleRemove_goesOn (c port : Nat) (s : State) : GoesOn s (execModuleRemove c port s) := by
  unfold execModuleRemove
  refine .runCmd fun u r => ?_
  grind [Ans.st, Ans.no, State.makeAbsent_kept]

theorem execModuleAdmit_goesOn (c port : Nat) (s : State) : GoesOn s (execModuleAdmit c port s) := by
  unfold execModuleAdmit
  refine .runCmd fun u r => ?_
  grind [Ans.st, Ans.no, State.updPort_kept, State.waitFor_kept]

theorem execLossList_goesOn (c : Nat) (d : SD) (cursor addr len : Nat) (dmaOk : Bool) (s : State) :
    GoesOn s (execLossList c d cursor addr len dmaOk s) := by
  unfold execLossList
  refine .runCmd fun u r => ?_
  grind [Ans.st, Ans.no, State.dma_kept]

theorem execRecoatStart_goesOn (c : Nat) (d : SD) (pq : Bool) (k : Nat) (s : State) :
    GoesOn s (execRecoatStart c d pq k s) := by
  unfold execRecoatStart
  refine .runCmd fun u r => ?_
  grind [Ans.st, Ans.no, State.delta_kept]

/-! ### Trust -/

theorem execStart_goesOn (ctx : Nat) (keyed : Option Nat) (s : State) : GoesOn s (execStart ctx keyed s) := by
  unfold execStart
  grind [GoesOn.of_kept, State.digDone_kept, State.updCtx_kept]

theorem execAbsorb_goesOn (ctx : Nat) (block : List Byte) (s : State) : GoesOn s (execAbsorb ctx block s) := by
  unfold execAbsorb
  grind [GoesOn.of_kept, State.digDone_kept, State.updCtx_kept]

theorem execTap_goesOn (ctx source len : Nat) (s : State) : GoesOn s (execTap ctx source len s) := by
  unfold execTap
  grind [GoesOn.of_kept, State.digDone_kept, State.updCtx_kept]

theorem execUntap_goesOn (ctx : Nat) (bytes : List Byte) (s : State) : GoesOn s (execUntap ctx bytes s) := by
  unfold execUntap
  grind [GoesOn.of_kept, State.digDone_kept, State.updCtx_kept]

theorem execFinal_goesOn (ctx : Nat) (pad : List Byte) (s : State) : GoesOn s (execFinal ctx pad s) := by
  unfold execFinal
  grind [GoesOn.of_kept, State.digDone_kept, State.updCtx_kept]

theorem execSqueeze_goesOn (ctx n : Nat) (s : State) : GoesOn s (execSqueeze ctx n s) := by
  unfold execSqueeze
  grind [GoesOn.of_kept, State.digDone_kept, State.updCtx_kept]

theorem execExtend_goesOn (i : Nat) (input : List Byte) (event subject : Nat) (unmatched : Bool) (s : State) :
    GoesOn s (execExtend i input event subject unmatched s) := by
  unfold execExtend
  grind [GoesOn.of_kept, State.digDone_kept, State.extendReg_kept, State.refuseExtend_kept]

theorem execExtendRequest_goesOn (reg event subject : Nat) (unmatched : Bool) (d : List Byte) (s : State) :
    GoesOn s (execExtendRequest reg event subject unmatched d s) := by
  unfold execExtendRequest
  grind [GoesOn.of_kept, State.extendFor_kept]

theorem execSave_goesOn (ctx : Nat) (wrapped : Bool) (s : State) : GoesOn s (execSave ctx wrapped s) := by
  unfold execSave
  grind [GoesOn.of_kept, State.digDone_kept, State.draw_kept2, State.updDig_kept]

theorem execRestore_goesOn (ctx : Nat) (blob : List Byte) (s : State) : GoesOn s (execRestore ctx blob s) := by
  unfold execRestore
  grind [GoesOn.of_kept, State.digDone_kept, State.updCtx_kept, State.updDig_kept]

theorem execBootRecordSign_goesOn (s : State) : GoesOn s (execBootRecordSign s) := by
  unfold execBootRecordSign
  grind [GoesOn.of_kept, State.signRecord_kept]

theorem execBootRecordTimeout_goesOn (s : State) : GoesOn s (execBootRecordTimeout s) :=
  .of_kept (ite_kept (State.signRecord_kept ..) rfl)

theorem execAttestQuote_goesOn (c : Nat) (nonce : List Byte) (addr len : Nat) (dmaOk : Bool) (s : State) :
    GoesOn s (execAttestQuote c nonce addr len dmaOk s) := by
  unfold execAttestQuote
  refine .runCmd fun u r => ?_
  grind [Ans.st, Ans.no, State.askTrust_kept, State.dma_kept, State.replyTrust_kept, State.signBody_kept, State.updDig_kept]

theorem execAttestRecordGet_goesOn (c addr len : Nat) (dmaOk : Bool) (s : State) :
    GoesOn s (execAttestRecordGet c addr len dmaOk s) := by
  unfold execAttestRecordGet
  refine .runCmd fun u r => ?_
  grind [Ans.st, Ans.no, State.dma_kept]

theorem execCertGet_goesOn (c addr len : Nat) (dmaOk : Bool) (s : State) : GoesOn s (execCertGet c addr len dmaOk s) := by
  unfold execCertGet
  refine .runCmd fun u r => ?_
  grind [Ans.st, Ans.no, State.dma_kept]

theorem execSecAlarm_goesOn (inputs : Nat) (busError : Bool) (s : State) : GoesOn s (execSecAlarm inputs busError s) := by
  unfold execSecAlarm
  grind [GoesOn.of_kept, State.raise_kept, State.snag_kept, State.updDig_kept]

/-! ### Firmware update -/

theorem execUpdatePush_goesOn (c : Option Nat) (image : List Byte) (dmaOk : Bool) (bad : List Nat) (s : State) :
    GoesOn s (execUpdatePush c image dmaOk bad s) := by
  unfold execUpdatePush
  cases c with
  | none => exact GoesOn.of_kept (State.pushPeer_kept s bad)
  | some c => exact GoesOn.runCmd fun u r => State.pushStart_kept u c r image dmaOk

theorem execUpdateStatus_goesOn (c : Nat) (peer : List Byte) (s : State) : GoesOn s (execUpdateStatus c peer s) :=
  .runCmd fun _ _ => rfl

theorem execUpdateActivate_goesOn (c : Option Nat) (temp : Int) (s : State) : GoesOn s (execUpdateActivate c temp s) := by
  unfold execUpdateActivate
  cases c with
  | none =>
    dsimp only
    repeat' split
    · exact goesOn_next.mpr ((held_of_kept (State.sendState4_kept _)).trans (State.fullReset_held ..))
    all_goals refine GoesOn.of_kept ?_
    all_goals grind [foldl_kept, State.settleModule_kept, State.moduleGoesOn_kept]
  | some c =>
    refine GoesOn.runCmd fun u r => ?_
    grind [Ans.st, Ans.no, State.startActivate_kept]

theorem execModuleConfirmTimeout_goesOn (s : State) : GoesOn s (execModuleConfirmTimeout s) := by
  unfold execModuleConfirmTimeout
  grind [GoesOn.of_kept, State.revertModule_kept, State.tell_kept, State.updUpd_kept]

theorem execRestartHelloTimeout_goesOn (s : State) : GoesOn s (execRestartHelloTimeout s) := by
  unfold execRestartHelloTimeout
  grind [GoesOn.of_kept, State.actEnd_kept, State.declare_kept]

theorem execActivationConfirmTimeout_goesOn (s : State) : GoesOn s (execActivationConfirmTimeout s) := by
  unfold execActivationConfirmTimeout
  grind [GoesOn.of_kept, State.actEnd_kept, State.holdPeer_kept]

theorem execHealthConfirm_goesOn (filled : Bool) (s : State) : GoesOn s (execHealthConfirm filled s) := by
  unfold execHealthConfirm
  grind [GoesOn.of_kept, State.confirm_kept, State.tell_kept]

theorem execTrialTimeout_goesOn (c : Nat) (s : State) : GoesOn s (execTrialTimeout c s) := by
  unfold execTrialTimeout
  grind [GoesOn.of_kept, State.notify_kept, State.updComp_kept]

theorem execPrimerRom_goesOn (rom : List Byte) (config : Nat) (counterOk : Bool) (acts : Nat)
    (bad badFall : List Nat) (s : State) : GoesOn s (execPrimerRom rom config counterOk acts bad badFall s) := by
  unfold execPrimerRom
  grind [GoesOn.of_kept, State.bringUp_kept, State.driveComp_kept2, State.failStart_kept, State.primerExtend_kept,
    State.primerRuns_kept, State.updDig_kept]

/-! ### Power states -/

theorem execPstateEntry_goesOn (prep : Bool) (s : State) : GoesOn s (execPstateEntry prep s) := by
  unfold execPstateEntry
  grind [GoesOn.of_kept, State.enter_kept, State.park_kept, State.prepareEntry_kept, State.refuseEntry_kept,
    State.updPwr_kept]

theorem execPark_goesOn (s : State) : GoesOn s (execPark s) := by
  unfold execPark
  grind [GoesOn.of_kept, State.park_kept, State.prepareEntry_kept, State.refuseEntry_kept]

theorem execPstateExit_goesOn (bad : List Nat) (codeOk : Bool) (s : State) : GoesOn s (execPstateExit bad codeOk s) := by
  unfold execPstateExit
  grind [goesOn_next, held_of_kept, State.endRequest_kept, State.fullReset_held, State.leave_kept, State.resume_kept,
    State.transitionEnded_kept]

theorem execWake_goesOn (src : Nat) (s : State) : GoesOn s (execWake src s) := by
  unfold execWake
  grind [GoesOn.of_kept, State.cancelPending_kept, State.startTransition_kept, State.updPwr_kept, State.wakeEvent_kept]

theorem execRegulatorTimeout_goesOn (r : Nat) (s : State) : GoesOn s (execRegulatorTimeout r s) := by
  unfold execRegulatorTimeout
  grind [GoesOn.of_kept, State.raise_kept, State.refuseEntry_kept, State.snag_kept, State.updPwr_kept]

theorem execAgeingReplan_goesOn (delays : List Int) (rings : List Nat) (reads : List (List Int)) (s : State) :
    GoesOn s (execAgeingReplan delays rings reads s) := by
  unfold execAgeingReplan
  grind [GoesOn.of_kept, foldl_kept, State.replanRail_kept, State.updPwr_kept]

theorem execSlackLow_goesOn (n r : Nat) (slack : Int) (s : State) : GoesOn s (execSlackLow n r slack s) := by
  unfold execSlackLow
  grind [GoesOn.of_kept, State.raise_kept, State.updPwr_kept]

theorem execPllLossOfLock_goesOn (s : State) : GoesOn s (execPllLossOfLock s) := by
  unfold execPllLossOfLock
  grind [goesOn_next, Held, memOk_iff, State.updUbl, State.kept, State.fullReset_held, State.sendRaw_kept,
    State.updPwr_kept]

theorem execPllRelock_goesOn (s : State) : GoesOn s (execPllRelock s) := by
  unfold execPllRelock
  grind [GoesOn.of_kept, State.updUbl, State.kept, State.updPwr_kept]

/-! ### Resets and start-up -/

theorem execResetN_goesOn (head : Nat) (s : State) : GoesOn s (execResetN head s) := by
  unfold execResetN
  grind [goesOn_next, Held, memOk_iff, State.kept, State.fullReset_held, State.updPwr_kept, State.updTop_kept]

theorem execPowerOnReset_goesOn (head : Nat) (s : State) : GoesOn s (execPowerOnReset head s) :=
  .of_held (State.powerOn_held ..)

theorem execPerstN_goesOn (s : State) : GoesOn s (execPerstN s) := by
  unfold execPerstN
  grind [GoesOn.of_kept, State.kept, foldl_kept, State.updBlk_kept, State.updTop_kept]

theorem execThermtrip_goesOn (s : State) : GoesOn s (execThermtrip s) := by
  unfold execThermtrip
  grind [GoesOn.of_kept, State.updPwr_kept]

theorem execFatalFault_goesOn (cls core : Nat) (s : State) : GoesOn s (execFatalFault cls core s) := by
  unfold execFatalFault
  grind [GoesOn.of_kept, State.updUbl, State.kept, State.sendRaw_kept, State.snag_kept]

theorem dump_held {s t : State} {x : Dump} (h : t.kept = s.kept) (hx : x.mirror = t.ubl.mirror) :
    Held s { t with vault := { t.vault with dump := some x, dumping := true } } := by
  refine (held_of_kept h).trans ⟨rfl, fun hm => ?_⟩
  rw [memOk_iff] at hm ⊢
  obtain ⟨mirror, landing, -⟩ := hm
  refine ⟨mirror, landing, fun y hy => ?_⟩
  cases hy
  exact hx ▸ mirror

theorem execPfail_goesOn (s : State) : GoesOn s (execPfail s) := by
  have asked : ((s.updPwr fun p => { p with pfail := 1, pfailReleased := false }).abortEntry.askFlush 0).kept = s.kept := by
    rw [State.askFlush_kept, State.abortEntry_kept, State.updPwr_kept]
  unfold execPfail
  split
  · exact GoesOn.of_kept rfl
  · dsimp only
    split
    · exact goesOn_next.mpr (dump_held asked rfl)
    · exact GoesOn.of_kept ((State.idlePorts_kept _).trans asked)

theorem execDumpEnd_goesOn (s : State) : GoesOn s (execDumpEnd s) := by
  unfold execDumpEnd
  grind [goesOn_next, Held, memOk_iff, State.kept, State.fullReset_held, State.idlePorts_kept, State.writeDump_kept]

theorem execPfailRelease_goesOn (s : State) : GoesOn s (execPfailRelease s) := by
  unfold execPfailRelease
  grind [goesOn_next, held_of_kept, State.fullReset_held, State.updPwr_kept]

theorem execStartPhase_goesOn (ok : Bool) (levels sheet peerSheet landing : Nat) (s : State) :
    GoesOn s (execStartPhase ok levels sheet peerSheet landing s) := by
  unfold execStartPhase
  grind [goesOn_next, held_of_kept, State.beginInit_kept, State.beginMailbox_kept, State.beginModules_kept,
    State.beginOwn_kept, State.beginRecover_held, State.beginServing_held, State.failStart_kept, State.raise_kept,
    State.seizeMine_kept]

theorem execStartHelloTimeout_goesOn (ck : Meta) (s : State) : GoesOn s (execStartHelloTimeout ck s) := by
  unfold execStartHelloTimeout
  grind [GoesOn.of_kept, State.updUbl, State.kept, State.declare_kept, State.updTop_kept]

theorem restoreStep_kept (s : State) (r : Table Nat) :
    ({ s with vault := { s.vault with restore := r } } : State).kept = s.kept := rfl

theorem execVaultRestore_goesOn (d : SD) (mirror : Option MirrorDump) (ck : Option Meta) (lost : List Nat) (s : State) :
    GoesOn s (execVaultRestore d mirror ck lost s) := by
  unfold execVaultRestore
  extract_lets put
  have hput : ∀ u n, (put u n).kept = u.kept := fun _ _ => rfl
  split
  · exact GoesOn.of_kept rfl
  · refine goesOn_next.mpr ((State.loseChunks_held s lost).trans (held_of_kept ?_))
    rw [hput, State.restoreMeta_kept]
    exact ite_kept (by rw [State.notify_kept, State.updTop_kept]) rfl
  · exact GoesOn.of_kept ((hput ..).trans (State.restoreJournal_kept ..))
  · split
    · exact GoesOn.of_kept rfl
    · refine GoesOn.of_kept ?_
      rw [hput, State.halfReads_kept, State.recoverSteps_kept]
  · split
    · exact GoesOn.of_kept rfl
    · dsimp only
      exact GoesOn.of_kept (ite_kept ((hput ..).trans (State.reenterAll_kept2 ..)) (State.reenterAll_kept2 ..))
  · exact GoesOn.of_kept ((restoreStep_kept ..).trans (State.restoreRest_kept s d))

end Sys2Proof.Machine
end

section
/-!
PROOFS. The queue and the steps: every command completes and leaves the queue to the step.
-/

namespace Sys2Proof.Machine

/-- Every command goes on: one lemma for each constructor. -/
theorem exec_goesOn (c : Instr) (s : State) : GoesOn s (exec c s) :=
  match c with
  | .capsuleReceived icrcOk psn c => execCapsuleReceived_goesOn icrcOk psn c s
  | .rdmaReadResponse icrcOk psnOk sd stamp data => execRdmaReadResponse_goesOn icrcOk psnOk sd stamp data s
  | .accept q => execAccept_goesOn q s
  | .write sd stamp => execWrite_goesOn sd stamp s
  | .read sd stamp => execRead_goesOn sd stamp s
  | .flush sd stamp => execFlush_goesOn sd stamp s
  | .compare sd stamp => execCompare_goesOn sd stamp s
  | .writeZeroes sd stamp => execWriteZeroes_goesOn sd stamp s
  | .datasetManagement sd stamp => execDatasetManagement_goesOn sd stamp s
  | .verify sd stamp => execVerify_goesOn sd stamp s
  | .orderingFence q data => execOrderingFence_goesOn q data s
  | .fencePointReached q cid => execFencePointReached_goesOn q cid s
  | .fenceSourceLost q cid => execFenceSourceLost_goesOn q cid s
  | .reservationRegister sd stamp => execReservationRegister_goesOn sd stamp s
  | .reservationReport sd stamp => execReservationReport_goesOn sd stamp s
  | .reservationAcquire sd stamp => execReservationAcquire_goesOn sd stamp s
  | .reservationRelease sd stamp => execReservationRelease_goesOn sd stamp s
  | .abort q => execAbort_goesOn q s
  | .getLogPage q => execGetLogPage_goesOn q s
  | .identify q => execIdentify_goesOn q s
  | .setFeatures q => execSetFeatures_goesOn q s
  | .getFeatures q => execGetFeatures_goesOn q s
  | .asynchronousEventRequest q => execAsynchronousEventRequest_goesOn q s
  | .asynchronousEvent cntlid e => execAsynchronousEvent_goesOn cntlid e s
  | .keepAlive q => execKeepAlive_goesOn q s
  | .keepAliveTimeout cntlid => execKeepAliveTimeout_goesOn cntlid s
  | .formatNvm q => execFormatNvm_goesOn q s
  | .sanitize q => execSanitize_goesOn q s
  | .formatPhaseDone bad => execFormatPhaseDone_goesOn bad s
  | .connect qp => execConnect_goesOn qp s
  | .propertySet q => execPropertySet_goesOn q s
  | .propertyGet q => execPropertyGet_goesOn q s
  | .disconnect q => execDisconnect_goesOn q s
  | .rdmaCmConnectRequest kind port mtu paths => execRdmaCmConnectRequest_goesOn kind port mtu paths s
  | .merge id => execMerge_goesOn id s
  | .fingerprint id => execFingerprint_goesOn id s
  | .lookupResult id => execLookupResult_goesOn id s
  | .laneResult id => execLaneResult_goesOn id s
  | .verifyCompare id => execVerifyCompare_goesOn id s
  | .packerDecision id => execPackerDecision_goesOn id s
  | .deltaRecorded ix => execDeltaRecorded_goesOn ix s
  | .pageCopy d root gran => execPageCopy_goesOn d root gran s
  | .packClose d kdom copy terzan => execPackClose_goesOn d kdom copy terzan s
  | .packAgeClose d kdom copy => execPackAgeClose_goesOn d kdom copy s
  | .packEncrypt => execPackEncrypt_goesOn s
  | .dustSheetRelease hdr => execDustSheetRelease_goesOn hdr s
  | .completionPosted sd stamp us => execCompletionPosted_goesOn sd stamp us s
  | .sectorInstall d mpid sector => execSectorInstall_goesOn d mpid sector s
  | .packRelease id => execPackRelease_goesOn id s
  | .packOpen id => execPackOpen_goesOn id s
  | .decode id stamp gran => execDecode_goesOn id stamp gran s
  | .readRetry id => execReadRetry_goesOn id s
  | .degradedRead id bad => execDegradedRead_goesOn id bad s
  | .epochBoundary => execEpochBoundary_goesOn s
  | .epochAck d epoch digest => execEpochAck_goesOn d epoch digest s
  | .mirrorFrame f check => execMirrorFrame_goesOn f check s
  | .mirrorAck d mseq => execMirrorAck_goesOn d mseq s
  | .releaseFrame f check => execReleaseFrame_goesOn f check s
  | .epochFrame d x => execEpochFrame_goesOn d x s
  | .flitError fseq => execFlitError_goesOn fseq s
  | .nak n => execNak_goesOn n s
  | .linkRetrain groups => execLinkRetrain_goesOn groups s
  | .linkLost => execLinkLost_goesOn s
  | .hello head level version array cert => execHello_goesOn head level version array cert s
  | .forwardCmd tag c => execForwardCmd_goesOn tag c s
  | .forwardData tag off b => execForwardData_goesOn tag off b s
  | .forwardCpl tag st dw0 => execForwardCpl_goesOn tag st dw0 s
  | .forwardAbort tag => execForwardAbort_goesOn tag s
  | .forwardAbortRsp tag caught => execForwardAbortRsp_goesOn tag caught s
  | .messageFrame kind d b => execMessageFrame_goesOn kind d b s
  | .heartbeatPeriod => execHeartbeatPeriod_goesOn s
  | .heartbeat path b => execHeartbeat_goesOn path b s
  | .faultTone => execFaultTone_goesOn s
  | .declarationDelay => execDeclarationDelay_goesOn s
  | .takeover d level gap => execTakeover_goesOn d level gap s
  | .battenStuck d => execBattenStuck_goesOn d s
  | .battenRecheck d level => execBattenRecheck_goesOn d level s
  | .breakAsserted => execBreakAsserted_goesOn s
  | .breakDeasserted => execBreakDeasserted_goesOn s
  | .fill => execFill_goesOn s
  | .handoverAbortTimeout => execHandoverAbortTimeout_goesOn s
  | .rehearsal => execRehearsal_goesOn s
  | .domainHandover chan d level => execDomainHandover_goesOn chan d level s
  | .breakRelease c => execBreakRelease_goesOn c s
  | .rdmaPacket icrcOk p => execRdmaPacket_goesOn icrcOk p s
  | .contextInstalled ix => execContextInstalled_goesOn ix s
  | .qpError ix cause => execQpError_goesOn ix cause s
  | .rdmaFlush ix => execRdmaFlush_goesOn ix s
  | .rdmaAtomicWrite ix => execRdmaAtomicWrite_goesOn ix s
  | .sendWithInvalidate icrcOk qpn psn port rkey => execSendWithInvalidate_goesOn icrcOk qpn psn port rkey s
  | .cnp ix path => execCnp_goesOn ix path s
  | .rateRaise ix path => execRateRaise_goesOn ix path s
  | .scrimPacket icrcOk qpn psn port x data => execScrimPacket_goesOn icrcOk qpn psn port x data s
  | .scrimComplete ix msn => execScrimComplete_goesOn ix msn s
  | .scrimAck ix msn => execScrimAck_goesOn ix msn s
  | .scrimNak ix msn bitmap => execScrimNak_goesOn ix msn bitmap s
  | .scrimTimeout ix msn => execScrimTimeout_goesOn ix msn s
  | .pathDown ix path => execPathDown_goesOn ix path s
  | .portLinkDown port => execPortLinkDown_goesOn port s
  | .consistencySetCut id => execConsistencySetCut_goesOn id s
  | .consistencySetShip id => execConsistencySetShip_goesOn id s
  | .controlWordChange id => execControlWordChange_goesOn id s
  | .replicationMessage id msn src wire => execReplicationMessage_goesOn id msn src wire s
  | .replSyncTimeout id => execReplSyncTimeout_goesOn id s
  | .resync id => execResync_goesOn id s
  | .offloadMessage p desc src aad tag run => execOffloadMessage_goesOn p desc src aad tag run s
  | .zeroizeDone slot => execZeroizeDone_goesOn slot s
  | .nonceSafe slot => execNonceSafe_goesOn slot s
  | .screedTick temps late => execScreedTick_goesOn temps late s
  | .loopDeadlineMiss => execLoopDeadlineMiss_goesOn s
  | .captureStart r loop => execCaptureStart_goesOn r loop s
  | .captureStop r loop => execCaptureStop_goesOn r loop s
  | .captureFull => execCaptureFull_goesOn s
  | .traceStart r => execTraceStart_goesOn r s
  | .traceStop r => execTraceStop_goesOn r s
  | .traceFull => execTraceFull_goesOn s
  | .invalidate r => execInvalidate_goesOn r s
  | .mapFlush r => execMapFlush_goesOn r s
  | .mapDisable r => execMapDisable_goesOn r s
  | .mapEnable r => execMapEnable_goesOn r s
  | .writeback r => execWriteback_goesOn r s
  | .invalidateDone => execInvalidateDone_goesOn s
  | .flushComplete => execFlushComplete_goesOn s
  | .evictionWritebackAck => execEvictionWritebackAck_goesOn s
  | .snapshotSealed d root => execSnapshotSealed_goesOn d root s
  | .pageFree d mpid => execPageFree_goesOn d mpid s
  | .secondCoatExamine d => execSecondCoatExamine_goesOn d s
  | .relink ix => execRelink_goesOn ix s
  | .hotIndexReload d ddom fp => execHotIndexReload_goesOn d ddom fp s
  | .fullIndexDeltaApply => execFullIndexDeltaApply_goesOn s
  | .mediaRawRead port src bits unc => execMediaRawRead_goesOn port src bits unc s
  | .mediaRawProgram port src st temp => execMediaRawProgram_goesOn port src st temp s
  | .mediaErase port src ok temp => execMediaErase_goesOn port src ok temp s
  | .mediaFold port src tmin tmax fail => execMediaFold_goesOn port src tmin tmax fail s
  | .ownerFence port src stopped => execOwnerFence_goesOn port src stopped s
  | .mediaDescriptorRead port src ok => execMediaDescriptorRead_goesOn port src ok s
  | .mediaTemperature port src hi lo ctl => execMediaTemperature_goesOn port src hi lo ctl s
  | .layerSplit port src => execLayerSplit_goesOn port src s
  | .mediaCommandCompletion ix => execMediaCommandCompletion_goesOn ix s
  | .commandTimeout ix => execCommandTimeout_goesOn ix s
  | .moduleFailed port cause => execModuleFailed_goesOn port cause s
  | .presenceDrop port => execPresenceDrop_goesOn port s
  | .mediaLinkDown port back => execMediaLinkDown_goesOn port back s
  | .linkUp port rate width new => execLinkUp_goesOn port rate width new s
  | .admission port => execAdmission_goesOn port s
  | .admissionTimeout port => execAdmissionTimeout_goesOn port s
  | .absentTimeout port => execAbsentTimeout_goesOn port s
  | .moduleReturn port temp => execModuleReturn_goesOn port temp s
  | .substitution ix ok temp => execSubstitution_goesOn ix ok temp s
  | .trowelPass d => execTrowelPass_goesOn d s
  | .foldComplete ix => execFoldComplete_goesOn ix s
  | .gcVictim d => execGcVictim_goesOn d s
  | .gcCopy d => execGcCopy_goesOn d s
  | .relocation ix => execRelocation_goesOn ix s
  | .stripeFreed d n => execStripeFreed_goesOn d n s
  | .eraseIssue port pseg => execEraseIssue_goesOn port pseg s
  | .stripeFormation d finish isMeta => execStripeFormation_goesOn d finish isMeta s
  | .wearLevelling port finish => execWearLevelling_goesOn port finish s
  | .refreshQueued port pseg => execRefreshQueued_goesOn port pseg s
  | .temperaturePoll port => execTemperaturePoll_goesOn port s
  | .healthEvent port code raised => execHealthEvent_goesOn port code raised s
  | .rebuildSlot d bad ok temp => execRebuildSlot_goesOn d bad ok temp s
  | .recoatCopy d => execRecoatCopy_goesOn d s
  | .recoatComplete d => execRecoatComplete_goesOn d s
  | .journalReplay d n row temp => execJournalReplay_goesOn d n row temp s
  | .blockEnable r b al w => execBlockEnable_goesOn r b al w s
  | .consistencyCheckDone b => execConsistencyCheckDone_goesOn b s
  | .blockDisable r b al w => execBlockDisable_goesOn r b al w s
  | .drainEnd b => execDrainEnd_goesOn b s
  | .atomicModeWrite r b w => execAtomicModeWrite_goesOn r b w s
  | .statusAck r b w => execStatusAck_goesOn r b w s
  | .indAddrWrite r b w => execIndAddrWrite_goesOn r b w s
  | .indDataRead r b => execIndDataRead_goesOn r b s
  | .indDataWrite r b w => execIndDataWrite_goesOn r b w s
  | .epochLoRead r => execEpochLoRead_goesOn r s
  | .bootCountLoRead r => execBootCountLoRead_goesOn r s
  | .registerWrite r via late a w => execRegisterWrite_goesOn r via late a w s
  | .violClear r w => execViolClear_goesOn r w s
  | .vaultPartWrite r al w => execVaultPartWrite_goesOn r al w s
  | .timerStart r al n w => execTimerStart_goesOn r al n w s
  | .timerStop r al n w => execTimerStop_goesOn r al n w s
  | .timerExpiry n => execTimerExpiry_goesOn n s
  | .pinmuxWrite r al g w => execPinmuxWrite_goesOn r al g w s
  | .topReset r w => execTopReset_goesOn r w s
  | .pgSqTail p v => execPgSqTail_goesOn p v s
  | .pgCqHead p v => execPgCqHead_goesOn p v s
  | .pgStatusAck p v => execPgStatusAck_goesOn p v s
  | .pgZeroize p v => execPgZeroize_goesOn p v s
  | .mbDoorbell r c w => execMbDoorbell_goesOn r c w s
  | .responsePosted c => execResponsePosted_goesOn c s
  | .mbRspAck r c w => execMbRspAck_goesOn r c w s
  | .notification code raised sd port arg => execNotification_goesOn code raised sd port arg s
  | .mbNtfCons r w => execMbNtfCons_goesOn r w s
  | .nop c => execNop_goesOn c s
  | .versionGet c => execVersionGet_goesOn c s
  | .arrayCommission c nqn array pq k vsegs ssegs holdup => execArrayCommission_goesOn c nqn array pq k vsegs ssegs holdup s
  | .rtcSet c v => execRtcSet_goesOn c v s
  | .volCreate c => execVolCreate_goesOn c s
  | .volDelete c root => execVolDelete_goesOn c root s
  | .volResize c root size => execVolResize_goesOn c root size s
  | .nsCreate c => execNsCreate_goesOn c s
  | .nsDelete c nsid => execNsDelete_goesOn c nsid s
  | .nsAttach c nsid cntlids => execNsAttach_goesOn c nsid cntlids s
  | .nsDetach c nsid cntlids => execNsDetach_goesOn c nsid cntlids s
  | .nsQosSet c nsid group => execNsQosSet_goesOn c nsid group s
  | .qosGroupSet c group us => execQosGroupSet_goesOn c group us s
  | .snapTake c => execSnapTake_goesOn c s
  | .snapDelete c root => execSnapDelete_goesOn c root s
  | .cloneCreate c root => execCloneCreate_goesOn c root s
  | .rootList c d start addr len dmaOk => execRootList_goesOn c d start addr len dmaOk s
  | .kdomCreate c kdom mode => execKdomCreate_goesOn c kdom mode s
  | .kdomDelete c kdom => execKdomDelete_goesOn c kdom s
  | .kdomModeSet c kdom mode => execKdomModeSet_goesOn c kdom mode s
  | .kdomRotate c kdom => execKdomRotate_goesOn c kdom s
  | .keyLoad c => execKeyLoad_goesOn c s
  | .keyGenerate c slot usage klen npol => execKeyGenerate_goesOn c slot usage klen npol s
  | .keyZeroize c slot => execKeyZeroize_goesOn c slot s
  | .pageOwnerSet c page owner => execPageOwnerSet_goesOn c page owner s
  | .pageAssign c page sqBase sqSize cqBase cqSize intEn => execPageAssign_goesOn c page sqBase sqSize cqBase cqSize intEn s
  | .replAttach c qpn base len => execReplAttach_goesOn c qpn base len s
  | .replDetach c id => execReplDetach_goesOn c id s
  | .replStatus c id => execReplStatus_goesOn c id s
  | .windowOpen c qpn base len rights => execWindowOpen_goesOn c qpn base len rights s
  | .windowRevoke c rkey => execWindowRevoke_goesOn c rkey s
  | .healthList c port => execHealthList_goesOn c port s
  | .moduleList c => execModuleList_goesOn c s
  | .moduleRemove c port => execModuleRemove_goesOn c port s
  | .moduleAdmit c port => execModuleAdmit_goesOn c port s
  | .lossList c d cursor addr len dmaOk => execLossList_goesOn c d cursor addr len dmaOk s
  | .recoatStart c d pq k => execRecoatStart_goesOn c d pq k s
  | .updatePush c image dmaOk bad => execUpdatePush_goesOn c image dmaOk bad s
  | .updateStatus c peer => execUpdateStatus_goesOn c peer s
  | .updateActivate c temp => execUpdateActivate_goesOn c temp s
  | .moduleConfirmTimeout => execModuleConfirmTimeout_goesOn s
  | .restartHelloTimeout => execRestartHelloTimeout_goesOn s
  | .healthConfirm filled => execHealthConfirm_goesOn filled s
  | .trialTimeout c => execTrialTimeout_goesOn c s
  | .attestQuote c nonce addr len dmaOk => execAttestQuote_goesOn c nonce addr len dmaOk s
  | .attestRecordGet c addr len dmaOk => execAttestRecordGet_goesOn c addr len dmaOk s
  | .certGet c addr len dmaOk => execCertGet_goesOn c addr len dmaOk s
  | .primerRom rom config counterOk acts bad badFall => execPrimerRom_goesOn rom config counterOk acts bad badFall s
  | .start ctx keyed => execStart_goesOn ctx keyed s
  | .absorb ctx block => execAbsorb_goesOn ctx block s
  | .tap ctx source len => execTap_goesOn ctx source len s
  | .untap ctx bytes => execUntap_goesOn ctx bytes s
  | .final ctx pad => execFinal_goesOn ctx pad s
  | .squeeze ctx n => execSqueeze_goesOn ctx n s
  | .extend ix input event subject unmatched => execExtend_goesOn ix input event subject unmatched s
  | .extendRequest reg event subject unmatched d => execExtendRequest_goesOn reg event subject unmatched d s
  | .save ctx wrapped => execSave_goesOn ctx wrapped s
  | .restore ctx blob => execRestore_goesOn ctx blob s
  | .bootRecordSign => execBootRecordSign_goesOn s
  | .bootRecordTimeout => execBootRecordTimeout_goesOn s
  | .secAlarm inputs busError => execSecAlarm_goesOn inputs busError s
  | .pstateRequest r w => execPstateRequest_goesOn r w s
  | .pstateEntry prep => execPstateEntry_goesOn prep s
  | .pstateExit bad codeOk => execPstateExit_goesOn bad codeOk s
  | .regulatorTimeout r => execRegulatorTimeout_goesOn r s
  | .wake src => execWake_goesOn src s
  | .park => execPark_goesOn s
  | .ageingReplan delays rings reads => execAgeingReplan_goesOn delays rings reads s
  | .slackLow n r slack => execSlackLow_goesOn n r slack s
  | .pllLossOfLock => execPllLossOfLock_goesOn s
  | .pllRelock => execPllRelock_goesOn s
  | .pfail => execPfail_goesOn s
  | .pfailRelease => execPfailRelease_goesOn s
  | .dumpEnd => execDumpEnd_goesOn s
  | .resetN head => execResetN_goesOn head s
  | .powerOnReset head => execPowerOnReset_goesOn head s
  | .perstN => execPerstN_goesOn s
  | .thermtrip => execThermtrip_goesOn s
  | .startPhase ok levels sheet peerSheet landing => execStartPhase_goesOn ok levels sheet peerSheet landing s
  | .startHelloTimeout ck => execStartHelloTimeout_goesOn ck s
  | .vaultRestore d mirror ck lost => execVaultRestore_goesOn d mirror ck lost s
  | .snagEvent => execSnagEvent_goesOn s
  | .evrFlush r v => execEvrFlush_goesOn r v s
  | .evrClear r v => execEvrClear_goesOn r v s
  | .snagFlush => execSnagFlush_goesOn s
  | .snagFlushEnd => execSnagFlushEnd_goesOn s
  | .evrPartitionErase => execEvrPartitionErase_goesOn s
  | .ubiusLinkDown => execUbiusLinkDown_goesOn s
  | .localAckTimeout ix rnr => execLocalAckTimeout_goesOn ix rnr s
  | .checkpoint d n => execCheckpoint_goesOn d n s
  | .fatalFault cls core => execFatalFault_goesOn cls core s
  | .activationConfirmTimeout => execActivationConfirmTimeout_goesOn s
  | .breakExpectationExpiry => execBreakExpectationExpiry_goesOn s

theorem exec_pending {c : Instr} {s t : State} (h : exec c s = .next t) : t.pending = s.pending :=
  ((exec_goesOn c s).held h).1

/-- Settles O40: `step` looks at the front of the queue. -/
theorem stepRunsTheFrontCommand : Obligations.StepRunsTheFrontCommand := by
  unfold Obligations.StepRunsTheFrontCommand
  intro c s rest hpending
  simp only [step, hpending]

/-- Settles O45: every command goes on, so it keeps the queue it runs on, which a step has already shortened. -/
theorem theQueueIsServedFirstInFirstOut : Obligations.TheQueueIsServedFirstInFirstOut := by
  unfold Obligations.TheQueueIsServedFirstInFirstOut
  refine ⟨fun c s t => exec_pending, fun c rest s t hpending hstep => ?_⟩
  rw [stepRunsTheFrontCommand c s rest hpending] at hstep
  exact exec_pending hstep

/-- Settles O46: going on is answering a next state, among other things. -/
theorem everyCommandCompletes : Obligations.EveryCommandCompletes := by
  unfold Obligations.EveryCommandCompletes
  intro c s
  obtain ⟨t, ht, -⟩ := exec_goesOn c s
  exact ⟨t, ht⟩

/-- A step takes the front command off the queue and adds none; the idle step leaves the queue empty. -/
theorem step_pending {s t : State} (h : step s = .next t) : t.pending = s.pending.tail := by
  cases hpending : s.pending with
  | nil =>
    simp only [step, hpending] at h
    cases h
    exact (held_of_kept s.tick_kept).1.trans hpending
  | cons c rest => exact theQueueIsServedFirstInFirstOut.2 c rest s t hpending h

/-- Settles O47: what waits after a step waited before it. -/
theorem theQueueStaysWellFormed : Obligations.TheQueueStaysWellFormed := by
  unfold Obligations.TheQueueStaysWellFormed
  intro s t hok hstep c hc
  rw [step_pending hstep] at hc
  exact hok c (List.mem_of_mem_tail hc)

end Sys2Proof.Machine
end

section
/-!
PROOFS. The front end: ordering fences and reservations.
-/

namespace Sys2Proof.Machine

/-! ### Ordering fences (R47 to R49) -/

/-- The front capsule of an open queue of this head is an admitted fence whose list is at hand and that nothing goes
before: it fails, or stands and takes its fence point where its entries are met (R47, R48). -/
theorem execOrderingFence_ready {s : State} {q : QId} {w : Waiting} (b : List Byte) (hw : s.fe.frontWait q = some w)
    (hop : w.cap.op = 0x84) (horig : w.cap.origin = none) (hqid : q.qid ≠ 0) (hfence : s.fe.fenced q = false)
    (hopen : s.feOpen = true) (hst : s.admitStatus w.cap = none) (hready : s.dataReady w = true)
    (hfirst : s.comesFirst w = false) :
    execOrderingFence q b s = if s.fenceFails w then .next (s.failFront w.cap stBadField)
      else
        let s1 := (s.takeWait w).updFe fun x => { x with fences := x.fences ++ [w.fence] }
        .next (if s1.fenceMet w.fence then s1.fencePoint w.fence else s1) := by
  simp [execOrderingFence, hw, hop, horig, hqid, hfence, hopen, hst, hready, hfirst]

/-- An admitted fence whose list is not at hand, and has not been asked for, asks for it (R47). -/
theorem execOrderingFence_fetch {s : State} {q : QId} {w : Waiting} (b : List Byte) (hw : s.fe.frontWait q = some w)
    (hop : w.cap.op = 0x84) (horig : w.cap.origin = none) (hqid : q.qid ≠ 0) (hfence : s.fe.fenced q = false)
    (hopen : s.feOpen = true) (hst : s.admitStatus w.cap = none) (hready : s.dataReady w = false)
    (hasked : w.asked = false) : execOrderingFence q b s = .next (s.fetchCap w) := by
  simp [execOrderingFence, hw, hop, horig, hqid, hfence, hopen, hst, hready, hasked]

/-! ### Reservation commands (R44, R269) -/

/-- A reservation command with no earlier one before it that does not conflict writes its effect, answers its status
and notifies. -/
theorem State.resvRun_effect {s : State} {d : SD} {n op : Nat} {c : Cmd} {e : ResvEff} (hc : s.live d n op = some c)
    (hfirst : s.resvEarlier d n c.cap.nsid = false) (he : e = (s.resvOf d c.cap.nsid).act c.cap c.resvData)
    (hst : e.st ≠ stResvConflict) :
    s.resvRun d n op = .next (e.notes.foldl (fun u x => u.resvNotify d x.1 x.2 c.cap.nsid)
      ((if e.changed = true then s.setResv d c.cap.nsid e.next else s).result d n e.st)) := by
  subst he
  simp [State.resvRun, hc, hfirst, hst]

/-- One in conflict, which leaves the reservation as it is and names nobody, fails and counts. -/
theorem State.resvRun_conflict {s : State} {d : SD} {n op : Nat} {c : Cmd} {e : ResvEff} (hc : s.live d n op = some c)
    (hfirst : s.resvEarlier d n c.cap.nsid = false) (he : e = (s.resvOf d c.cap.nsid).act c.cap c.resvData)
    (hst : e.st = stResvConflict) (hkept : e.changed = false) (hnotes : e.notes = []) :
    s.resvRun d n op = .next (s.resvFail c) := by
  subst he
  simp [State.resvRun, hc, hfirst, hst, hkept, hnotes]

/-! ### The reservation table (R268, R269) -/

/-- A Register whose CPTPL is 0 leaves PTPL alone. -/
theorem ptplOf_unchanged {c : Capsule} (h : bitsOf (c.cdw 10) 31 30 = 0) (r : Resv) : ptplOf c r = r := by
  simp [ptplOf, h]

/-- A host with no key registers: it joins with its new key, where there is room. -/
theorem Resv.register_new {r : Resv} {c : Capsule} (d : List Byte) (hact : bitsOf (c.cdw 10) 2 0 = 0)
    (hptpl : bitsOf (c.cdw 10) 31 30 = 0) (hkey : r.keyOf c.hostId = Option.none) (hroom : r.regs.length < 1024) :
    r.register c d = ⟨{ r with regs := r.regs ++ [⟨c.hostId, leAt d 8 8⟩], gen := (r.gen + 1) % 2 ^ 32 }, true, stOk, []⟩ := by
  simp [Resv.register, hact, hkey, Resv.enrol, Nat.not_le.mpr hroom, ptplOf_unchanged hptpl, Resv.ok]

/-- A registrant acquires a free namespace under one of the six types: it holds it. -/
theorem Resv.acquire_free {r : Resv} {c : Capsule} {d : List Byte} (hact : bitsOf (c.cdw 10) 2 0 = 0)
    (hie : bitOf (c.cdw 10) 3 = false) (hkey : r.keyOf c.hostId = some (leAt d 0 8)) (hfree : r.stands = false)
    (hpos : 0 < bitsOf (c.cdw 10) 15 8) (hsix : bitsOf (c.cdw 10) 15 8 ≤ 6) :
    r.acquire c d = ⟨{ r with holder := some c.hostId, rtype := bitsOf (c.cdw 10) 15 8 }, true, stOk, []⟩ := by
  have htype : ¬ (bitsOf (c.cdw 10) 15 8 = 0 ∨ bitsOf (c.cdw 10) 15 8 > 6) := by omega
  simp only [Resv.acquire]
  rw [if_neg (by simp [hkey, hie]), if_neg htype]
  simp [hact, hfree, Resv.ok]

/-- The holder releases under the type it holds: the reservation is free, and the others of a shared type are told. -/
theorem Resv.release_held {r : Resv} {c : Capsule} {d : List Byte} (hact : bitsOf (c.cdw 10) 2 0 = 0)
    (hie : bitOf (c.cdw 10) 3 = false) (hkey : r.keyOf c.hostId = some (leAt d 0 8)) (hstands : r.stands = true)
    (hholds : r.holds c.hostId = true) (htype : r.rtype = bitsOf (c.cdw 10) 15 8) :
    r.release c d = ⟨{ r with holder := Option.none, rtype := 0 }, true, stOk,
      if sharedType r.rtype = true then [(r.others c.hostId, 2)] else []⟩ := by
  simp only [Resv.release]
  rw [if_neg (by simp [hkey, hie])]
  simp [hact, hstands, hholds, ← htype, Resv.ok]

/-- Settles O22: a fence and a reservation command each take the one path that the premises of a case leave open. -/
theorem fencesAndReservations : Obligations.FencesAndReservations := by
  unfold Obligations.FencesAndReservations
  refine ⟨?stands, ?point, ?lost, ?register, ?report, ?acquire, ?release, ?fetch, ?bad, ?registerConflict,
    ?acquireConflict, ?releaseConflict, ?newHost, ?free, ?held⟩
  case stands =>
    intro s s1 q b w hw hop horig hqid hfence hopen hst hready hfirst hgood h1
    subst h1
    refine Done.eq ((execOrderingFence_ready b hw hop horig hqid hfence hopen hst hready hfirst).trans ?_)
    simp [hgood]
  case point =>
    intro s q n f hf hmet
    refine Done.eq (?_ : execFencePointReached q n s = _)
    simp only [execFencePointReached, hf, hmet]
    rfl
  case lost =>
    intro s q n f hf hlost
    refine Done.eq (?_ : execFenceSourceLost q n s = _)
    simp only [execFenceSourceLost, hf]
    exact if_pos hlost
  case register | acquire | release =>
    intro s s1 d n c e hc hfirst he hst h1
    subst h1
    exact Done.eq (State.resvRun_effect hc hfirst he hst)
  case report =>
    intro s d n c hc
    refine Done.eq (?_ : execReservationReport d n s = _)
    simp [execReservationReport, hc]
  case fetch =>
    intro s q b w hw hop horig hqid hfence hopen hst hready hasked
    exact Done.eq (execOrderingFence_fetch b hw hop horig hqid hfence hopen hst hready hasked)
  case bad =>
    intro s q b w hw hop horig hqid hfence hopen hst hready hfirst hbad
    refine Done.eq ((execOrderingFence_ready b hw hop horig hqid hfence hopen hst hready hfirst).trans ?_)
    exact if_pos hbad
  case registerConflict | acquireConflict | releaseConflict =>
    intro s d n c e hc hfirst he hst hkept hnotes
    exact Done.eq (State.resvRun_conflict hc hfirst he hst hkept hnotes)
  case newHost =>
    intro r c d hact hptpl hkey hroom
    exact Resv.register_new d hact hptpl hkey hroom
  case free =>
    intro r c d hact hie hkey hfree hpos hsix
    exact Resv.acquire_free hact hie hkey hfree hpos hsix
  case held =>
    intro r c d hact hie hkey hstands hholds htype
    exact Resv.release_held hact hie hkey hstands hholds htype

end Sys2Proof.Machine
end

section
/-!
PROOFS. Opening what was sealed (R78, R246, R247): the key stream of AES-GCM is as long as the data it covers, so that laying it
over the data twice gives the data back, and the fields of a pack image lie where reading takes them.
-/

namespace Sys2Proof.Machine

/-! ### Byte strings -/

@[simp] theorem leBytes_length (n v : Nat) : (leBytes n v).length = n := by
  induction n generalizing v with
  | zero => rfl
  | succ n ih => simp [leBytes, ih]

/-- The little-endian bytes of a number give it back modulo what they hold. -/
theorem leNat_leBytes (n v : Nat) : leNat (leBytes n v) = v % 256 ^ n := by
  induction n generalizing v with
  | zero => simp [leBytes, leNat, Nat.mod_one]
  | succ n ih => simp [leBytes, leNat, ih, Nat.pow_succ', Nat.mod_mul]

@[simp] theorem zeros_length (n : Nat) : (zeros n).length = n := List.length_replicate

@[simp] theorem fit_length (l : List Byte) (n : Nat) : (fit l n).length = n := by
  rw [fit, List.length_append, List.length_take, zeros_length]
  omega

/-- A string that has the length is not changed by fitting it. -/
theorem fit_of_length {l : List Byte} {n : Nat} (h : l.length = n) : fit l n = l := by
  rw [fit, ← h, List.take_length, Nat.sub_self]
  exact List.append_nil l

/-- A slice from the start of a part that stands first takes that part. -/
theorem slice_append_left {part after : List Byte} {len : Nat} (hlen : part.length = len) : slice (part ++ after) 0 len = part :=
  List.take_left' hlen

/-- A slice past the bytes before is a slice of what follows them. -/
theorem slice_append_right {before l : List Byte} {n : Nat} (h : before.length = n) (off len : Nat) :
    slice (before ++ l) (n + off) len = slice l off len := by
  rw [slice, slice, ← h, ← List.drop_drop, List.drop_left]

@[simp] theorem xorBytes_length (x y : List Byte) : (xorBytes x y).length = min x.length y.length :=
  List.length_zipWith

/-- The exclusive or with a string at least as long, taken twice, gives the bytes back. -/
theorem xorBytes_cancel {x k : List Byte} (h : x.length ≤ k.length) : xorBytes (xorBytes x k) k = x := by
  induction x generalizing k with
  | nil => rfl
  | cons b x ih =>
    cases k with
    | nil => exact absurd h (Nat.not_succ_le_zero _)
    | cons c k =>
      have tail : xorBytes (xorBytes x k) k = x := ih (Nat.le_of_succ_le_succ h)
      simp only [xorBytes, List.zipWith_cons_cons, BitVec.xor_assoc, BitVec.xor_self, BitVec.xor_zero] at tail ⊢
      rw [tail]

/-! ### The lengths of AES (FIPS 197) -/

/-- A list of `n` words of four numbers, as the key schedule holds them. -/
def AesWords (n : Nat) (ws : List (List Nat)) : Prop := ws.length = n ∧ ∀ w ∈ ws, w.length = 4

theorem AesWords.cons {n : Nat} {w : List Nat} {ws : List (List Nat)} (hw : w.length = 4) (hws : AesWords n ws) :
    AesWords (n + 1) (w :: ws) :=
  ⟨congrArg (· + 1) hws.1, List.forall_mem_cons.mpr ⟨hw, hws.2⟩⟩

theorem AesWords.reverse {n : Nat} {ws : List (List Nat)} (h : AesWords n ws) : AesWords n ws.reverse :=
  ⟨List.length_reverse.trans h.1, fun w hw => h.2 w (List.mem_reverse.mp hw)⟩

/-- `m` words taken from words are `4 * m` numbers. -/
theorem AesWords.flatten_length {n m off : Nat} {ws : List (List Nat)} (h : AesWords n ws) (hroom : off + m ≤ n) :
    ((ws.drop off).take m).flatten.length = 4 * m := by
  obtain ⟨hlen, hwords⟩ := h
  have four : ∀ w ∈ (ws.drop off).take m, w.length = 4 := fun w hw => hwords w (List.mem_of_mem_drop (List.mem_of_mem_take hw))
  rw [List.length_flatten, List.map_eq_replicate_iff.mpr four, List.sum_replicate_nat, List.length_take, List.length_drop, hlen]
  omega

/-- The words of a string of `4 * n` bytes. -/
theorem words4_words {n : Nat} {l : List Byte} (h : l.length = 4 * n) : AesWords n (words4 n l) := by
  induction n generalizing l with
  | zero => exact ⟨rfl, fun w hw => absurd hw List.not_mem_nil⟩
  | succ n ih =>
    have hword : ((l.take 4).map BitVec.toNat).length = 4 := by
      rw [List.length_map, List.length_take]
      omega
    have hrest : (l.drop 4).length = 4 * n := by
      rw [List.length_drop]
      omega
    exact .cons hword (ih hrest)

theorem aesNextWord_length {nk n i rcon : Nat} {ws : List (List Nat)} (hnk : 0 < nk) (hn : nk ≤ n) (hws : AesWords n ws) :
    (aesNextWord nk i rcon ws).length = 4 := by
  obtain ⟨hlen, hwords⟩ := hws
  have hold : (ws.getD (nk - 1) []).length = 4 := by
    rw [List.getD_eq_getElem?_getD, List.getElem?_eq_getElem (by omega), Option.getD_some]
    exact hwords _ (List.getElem_mem _)
  have hprev : (ws.headD []).length = 4 := by
    cases ws with
    | nil =>
      rw [List.length_nil] at hlen
      omega
    | cons w ws => exact hwords w List.mem_cons_self
  unfold aesNextWord
  generalize ws.getD (nk - 1) [] = old at hold
  generalize ws.headD [] = prev at hprev
  dsimp only
  split
  · simp [hold, hprev]
  · split <;> simp [hold, hprev]

/-- The key schedule goes on by words of four numbers. -/
theorem aesExpand_words {nk n k i rcon : Nat} {ws : List (List Nat)} (hnk : 0 < nk) (hn : nk ≤ n) (hws : AesWords n ws) :
    AesWords (n + k) (aesExpand nk k i rcon ws) := by
  induction k generalizing n i rcon ws with
  | zero => exact hws
  | succ k ih =>
    rw [show n + (k + 1) = n + 1 + k by omega]
    exact ih (by omega) (.cons (aesNextWord_length hnk hn hws) hws)

/-- A key of whole words has round keys of 16 numbers each. -/
theorem aesRoundKeys_length {key : List Byte} {nk : Nat} (hkey : key.length = 4 * nk) (hnk : 0 < nk) :
    ∀ k ∈ aesRoundKeys key, k.length = 16 := by
  have hdiv : key.length / 4 = nk := by omega
  have words : AesWords (4 * (nk + 7))
      (aesExpand nk (4 * (nk + 7) - nk) nk 1 (words4 nk key).reverse).reverse := by
    have h := (aesExpand_words (k := 4 * (nk + 7) - nk) (i := nk) (rcon := 1) hnk (Nat.le_refl nk)
      (words4_words hkey).reverse).reverse
    rwa [show nk + (4 * (nk + 7) - nk) = 4 * (nk + 7) by omega] at h
  unfold aesRoundKeys
  rw [hdiv]
  intro k hk
  obtain ⟨r, hr, rfl⟩ := List.mem_map.mp hk
  exact words.flatten_length (by have := List.mem_range.mp hr; omega)

@[simp] theorem aesShift_length (s : List Nat) : (aesShift s).length = 16 := by simp [aesShift]

@[simp] theorem aesMixWith_length (a b c d : Nat) (s : List Nat) : (aesMixWith a b c d s).length = 16 := by simp [aesMixWith]

@[simp] theorem aesAdd_length (s k : List Nat) : (aesAdd s k).length = min s.length k.length := by simp [aesAdd]

/-- The rounds keep a block of 16 numbers. -/
theorem aesRounds_length {ks : List (List Nat)} {s : List Nat} (hks : ∀ k ∈ ks, k.length = 16) (hs : s.length = 16) :
    (aesRounds ks s).length = 16 := by
  induction ks, s using aesRounds.induct with
  | case1 s => exact hs
  | case2 s k => simp [aesRounds, hks]
  | case3 s k ks hne ih =>
    rw [aesRounds]
    · exact ih (fun x hx => hks x (List.mem_cons_of_mem _ hx)) (by simp [hks])
    · exact hne

/-- AES takes a block of 16 bytes to one of 16 bytes. -/
theorem aesEnc_length {key block : List Byte} {nk : Nat} (hkey : key.length = 4 * nk) (hnk : 0 < nk)
    (hblock : block.length = 16) : (aesEnc key block).length = 16 := by
  have hkeys := aesRoundKeys_length hkey hnk
  unfold aesEnc
  split
  · exact hblock
  · next k ks heq =>
    rw [heq] at hkeys
    obtain ⟨hk, hks⟩ := List.forall_mem_cons.mp hkeys
    simp [aesRounds_length hks, hk, hblock]

/-! ### The key stream of GCM (SP 800-38D) -/

/-- The key stream of one block. -/
def gcmStream (key nonce : List Byte) (c : Nat) : List Byte := aesEnc key (nonce ++ beBytes 4 (c % 2 ^ 32))

theorem gcmStream_length {key nonce : List Byte} {nk : Nat} (hkey : key.length = 4 * nk) (hnk : 0 < nk)
    (hnonce : nonce.length = 12) (c : Nat) : (gcmStream key nonce c).length = 16 :=
  aesEnc_length hkey hnk (by simp [hnonce, beBytes])

/-- The first block is laid under the key stream of its counter value, and the rest under the values that follow. -/
theorem gcmCtrBlocks_flatten (key nonce l : List Byte) (c n : Nat) :
    (gcmCtrBlocks key nonce c (blocks16 (n + 1) l)).flatten =
      xorBytes (l.take 16) (gcmStream key nonce c) ++ (gcmCtrBlocks key nonce (c + 1) (blocks16 n (l.drop 16))).flatten := by
  cases l with
  | nil => cases n <;> rfl
  | cons b l => rfl

/-- A first block, full unless nothing follows it, is what is taken and dropped as 16 bytes. -/
theorem take_drop_block {x r : List Byte} (h : x.length = 16 ∨ x.length < 16 ∧ r = []) :
    (x ++ r).take 16 = x ∧ (x ++ r).drop 16 = r := by
  rcases h with h | ⟨h, rfl⟩
  · exact ⟨List.take_left' h, List.drop_left' h⟩
  · rw [List.append_nil]
    exact ⟨List.take_of_length_le (Nat.le_of_lt h), List.drop_eq_nil_of_le (Nat.le_of_lt h)⟩

section
variable {key nonce : List Byte} {nk : Nat} (hkey : key.length = 4 * nk) (hnk : 0 < nk) (hnonce : nonce.length = 12)
include hkey hnk hnonce

/-- The key stream covers the data: enciphering keeps the length. -/
theorem gcmCtrBlocks_length {l : List Byte} {n : Nat} (hn : l.length ≤ n) (c : Nat) :
    (gcmCtrBlocks key nonce c (blocks16 n l)).flatten.length = l.length := by
  induction n generalizing l c with
  | zero => rw [List.length_eq_zero_iff.mp (Nat.le_zero.mp hn)]; rfl
  | succ n ih =>
    have hrest : (l.drop 16).length ≤ n := by
      rw [List.length_drop]
      omega
    rw [gcmCtrBlocks_flatten, List.length_append, ih hrest, xorBytes_length, gcmStream_length hkey hnk hnonce,
      List.length_take, List.length_drop]
    omega

/-- The key stream laid over the data twice gives the data back, block by block. -/
theorem gcmCtrBlocks_cancel {l : List Byte} {n : Nat} (hn : l.length ≤ n) (c : Nat) :
    (gcmCtrBlocks key nonce c (blocks16 n (gcmCtrBlocks key nonce c (blocks16 n l)).flatten)).flatten = l := by
  induction n generalizing l c with
  | zero => rw [List.length_eq_zero_iff.mp (Nat.le_zero.mp hn)]; rfl
  | succ n ih =>
    have hrest : (l.drop 16).length ≤ n := by
      rw [List.length_drop]
      omega
    have hstream := gcmStream_length hkey hnk hnonce c
    have hcover : (l.take 16).length ≤ (gcmStream key nonce c).length := by
      rw [hstream]
      exact List.length_take_le 16 l
    rw [gcmCtrBlocks_flatten key nonce l]
    obtain ⟨htake, hdrop⟩ := take_drop_block (x := xorBytes (l.take 16) (gcmStream key nonce c))
      (r := (gcmCtrBlocks key nonce (c + 1) (blocks16 n (l.drop 16))).flatten) (by
        rw [← List.length_eq_zero_iff, gcmCtrBlocks_length hkey hnk hnonce hrest, xorBytes_length, hstream,
          List.length_take, List.length_drop]
        omega)
    rw [gcmCtrBlocks_flatten, htake, hdrop, xorBytes_cancel hcover, ih hrest, List.take_append_drop]

theorem gcmCrypt_length (data : List Byte) : (gcmCrypt key nonce data).length = data.length :=
  gcmCtrBlocks_length hkey hnk hnonce (Nat.le_refl _) 2

theorem gcmCrypt_gcmCrypt (data : List Byte) : gcmCrypt key nonce (gcmCrypt key nonce data) = data := by
  rw [gcmCrypt, blocksOf, gcmCrypt_length hkey hnk hnonce]
  exact gcmCtrBlocks_cancel hkey hnk hnonce (Nat.le_refl _) 2

theorem gcmTag_length (aad ct : List Byte) : (gcmTag key nonce aad ct).length = 16 := by
  simp [gcmTag, beBytes, aesEnc_length hkey hnk, hnonce]

/-- The ciphertext is as long as the plaintext, and the tag has 16 bytes. -/
theorem gcmEnc_lengths (aad pt : List Byte) :
    (gcmEnc key nonce aad pt).1.length = pt.length ∧ (gcmEnc key nonce aad pt).2.length = 16 :=
  ⟨gcmCrypt_length hkey hnk hnonce pt, gcmTag_length hkey hnk hnonce aad _⟩

/-- What GCM enciphers under a tag, it deciphers under the same key, nonce and additional data. -/
theorem gcmDec_gcmEnc (aad pt : List Byte) :
    gcmDec key nonce aad (gcmEnc key nonce aad pt).1 (gcmEnc key nonce aad pt).2 = some pt := by
  simp [gcmDec, gcmEnc, gcmCrypt_gcmCrypt hkey hnk hnonce]

end

/-! ### The fields of a pack image (Table 09.3) -/

theorem sidecarTail_length (nonce : List Byte) (slot kind : Nat) (rct : List Byte) :
    (sidecarTail nonce slot kind rct).length = 496 := by
  simp only [sidecarTail, List.length_append, fit_length, leBytes_length, zeros_length]

section
variable {nonce rct : List Byte} (slot kind : Nat)

theorem sidecarTail_nonce (hnonce : nonce.length = 12) : slice (sidecarTail nonce slot kind rct) 0 12 = nonce := by
  simp only [sidecarTail, fit_of_length hnonce, List.append_assoc]
  exact slice_append_left hnonce

theorem sidecarTail_slot (hnonce : nonce.length = 12) : slice (sidecarTail nonce slot kind rct) 12 2 = leBytes 2 slot := by
  simp only [sidecarTail, fit_of_length hnonce, List.append_assoc]
  rw [slice_append_right hnonce 0 2]
  exact slice_append_left (leBytes_length 2 slot)

theorem sidecarTail_rct (hrct : rct.length = 256) : slice (sidecarTail nonce slot kind rct) 240 256 = rct := by
  have hbefore : (fit nonce 12 ++ leBytes 2 slot ++ leBytes 1 kind ++ zeros 225).length = 240 := by
    simp only [List.length_append, fit_length, leBytes_length, zeros_length]
  rw [sidecarTail, fit_of_length hrct, slice_append_right hbefore 0 256, slice, List.drop_zero,
    List.take_of_length_le (Nat.le_of_eq hrct)]

end

section
variable {ct tag : List Byte} (hct : ct.length = 65536) (htag : tag.length = 16)
include hct htag

theorem imgTag_image (tail : List Byte) : imgTag (ct ++ tag ++ tail) = tag := by
  rw [imgTag, List.append_assoc, slice_append_right hct 0 16]
  exact slice_append_left htag

/-- The sidecar's tail follows the ciphertext and its tag. -/
theorem slice_image (tail : List Byte) (off len : Nat) :
    slice (ct ++ tag ++ tail) (65552 + off) len = slice tail off len :=
  slice_append_right (by simp [hct, htag]) off len

end

/-- The image of a pack with a full body: ciphertext, tag, and the tail of the sidecar. -/
theorem sealPack_eq {body : List Byte} (hbody : body.length = 65536) (key nonce : List Byte) (slot kind : Nat) (d : SD)
    (pack : Nat) (rct : List Byte) :
    sealPack key nonce slot kind d pack body rct =
      (gcmEnc key nonce (locBlock d pack ++ sidecarTail nonce slot kind rct) body).1 ++
        (gcmEnc key nonce (locBlock d pack ++ sidecarTail nonce slot kind rct) body).2 ++
        sidecarTail nonce slot kind rct := by
  simp only [sealPack, fit_of_length hbody]

section
variable {ct tag nonce rct : List Byte} {slot : Nat} (kind : Nat) (hct : ct.length = 65536) (htag : tag.length = 16)
include hct htag

theorem imgNonce_image (hnonce : nonce.length = 12) : imgNonce (ct ++ tag ++ sidecarTail nonce slot kind rct) = nonce :=
  (slice_image hct htag _ 0 12).trans (sidecarTail_nonce slot kind hnonce)

theorem imgSlot_image (hnonce : nonce.length = 12) (hslot : slot < 4096) :
    imgSlot (ct ++ tag ++ sidecarTail nonce slot kind rct) = slot := by
  rw [imgSlot, leAt, slice_image hct htag _ 12 2, sidecarTail_slot slot kind hnonce, leNat_leBytes]
  simp only [bitsOf, Nat.shiftRight_zero]
  omega

theorem imgRct_image (hrct : rct.length = 256) : imgRct (ct ++ tag ++ sidecarTail nonce slot kind rct) = rct :=
  (slice_image hct htag _ 240 256).trans (sidecarTail_rct slot kind hrct)

theorem slice_image_tail : slice (ct ++ tag ++ sidecarTail nonce slot kind rct) 65552 496 = sidecarTail nonce slot kind rct := by
  rw [slice_image hct htag _ 0 496, slice, List.drop_zero, List.take_of_length_le (Nat.le_of_eq (sidecarTail_length ..))]

end

/-- Settles O48: the image's fields are read where sealing laid them, so its tag verifies and its ciphertext deciphers to
the body. -/
theorem aSealedPackOpens : Obligations.ASealedPackOpens := by
  unfold Obligations.ASealedPackOpens
  intro s d pack slot kind nonce body rct hslot hstate hkey hnonce hbody hrct
  obtain ⟨hct, htag⟩ := gcmEnc_lengths (nk := 8) hkey (by decide) hnonce
    (locBlock d pack ++ sidecarTail nonce slot kind rct) body
  rw [hbody] at hct
  have hloaded : ¬ ((s.kslot slot).state = 0 ∨ (s.kslot slot).state = 3) := by omega
  rw [sealPack_eq hbody]
  simp only [State.openImage, imgSlot_image kind hct htag hnonce hslot, imgNonce_image kind hct htag hnonce,
    imgRct_image kind hct htag hrct, slice_image_tail kind hct htag, imgTag_image hct htag, if_neg hloaded]
  rw [List.append_assoc, List.take_left' hct, gcmDec_gcmEnc (nk := 8) hkey (by decide) hnonce]

end Sys2Proof.Machine
end

section
/-!
PROOFS. The write side of the datapath (R67 to R69, R91 to R106): each station acts where the premises of its case pass the
checks of its row.
-/

namespace Sys2Proof.Machine

/-! ### What the stations leave alone -/

theorem State.updGran_only (s : State) (id : Nat) (f : Gran → Gran) : Only [.dp] s (s.updGran id f) := by
  intro p hp
  cases p
  case dp => exact absurd (List.mem_singleton_self _) hp
  case msix => exact ⟨rfl, rfl, rfl⟩
  all_goals rfl

/-- Two changes of a granule that agree on it are the same change. -/
theorem State.updGran_congr {s : State} {i : Nat} {g : Gran} {f h : Gran → Gran} (hg : s.gran? i = some g) (hfh : f g = h g) :
    s.updGran i f = s.updGran i h := by
  simp only [State.gran?] at hg
  simp only [State.updGran, State.updDp, Table.upd, hg, hfh]

/-! ### The hot index answers (R98) -/

theorem execLookupResult_issued {s : State} {i : Nat} {g : Gran} {f : List Byte} {look : Look} (hg : s.gran? i = some g)
    (hf : g.fp = some f) (hissued : g.look = .issued)
    (hlook : (s.dp.lookup g.kdom g.sd f).elim .miss .hit = look) :
    execLookupResult i s = .next (s.updGran i fun g => { g with look := look }) := by
  simp only [execLookupResult, hg, hf]
  rw [if_neg (by simp [hissued])]
  refine congrArg _ (State.updGran_congr hg ?_)
  rw [← hlook]
  cases s.dp.lookup g.kdom g.sd f <;> rfl

/-! ### The merge (R67) -/

/-- Where every earlier piece passes its landing check, none is taken for spoilt. -/
theorem noPieceSpoilt {s : State} {bs : Nat} {pieces : List InFl} (h : ∀ y ∈ pieces, s.landedOk bs y = true) :
    pieces.filter (fun y => y.complete && !s.landedOk bs y) = [] := by
  rw [List.filter_eq_nil_iff]
  intro y hy
  simp [h y hy]

/-- With nothing over an unmapped base, the merge gives zeros, none of them bad. -/
theorem State.merged_unmapped {s : State} {g : Gran} {n : Namespace} {x : InFl} (hnblk : x.nblk = 0)
    (hover : s.overlay g.sd n g.nsid g.gran g.stamp g.unitIdx = [])
    (hlanded : ∀ y ∈ s.flights g.sd g.nsid g.gran g.stamp g.unitIdx, s.landedOk (lbaData n.lbaf) y = true)
    (hbase : MapEnt.ofWord (entryOf (s.metaOf g.sd) g.root g.gran) = .unmapped) :
    s.merged g n x = (zeros 4096, [], s) := by
  have base : s.mergeBase g.sd g.root g.gran = (zeros 4096, 0, s) := by simp only [State.mergeBase, hbase]
  have whole : fit (zeros 4096) 4096 = zeros 4096 := by
    simp only [fit, zeros, List.length_replicate, Nat.sub_self, List.replicate_zero, List.append_nil, List.take_replicate,
      Nat.min_self]
  have noneBad : ∀ l : List Nat, l.filter (fun _ => false) = [] :=
    fun l => List.filter_eq_nil_iff.mpr fun _ _ => Bool.false_ne_true
  simp only [State.merged, noPieceSpoilt hlanded, hover, hnblk, base, whole, Nat.zero_testBit, List.flatMap_nil,
    List.not_mem_nil, decide_false, Bool.or_self, Bool.false_and, List.range_zero, List.map_nil, List.append_nil, List.filter_nil,
    noneBad, applyBlocks, List.foldl_nil]

/-! ### The packer's decision (R69) -/

/-- A granule of a complete unit is decided next, and its delta has room at the Delta recording point. -/
structure DecidedNext (s : State) (i : Nat) (g : Gran) : Prop where
  gran : s.gran? i = some g
  undecided : g.dec = .none
  notWaiting : Pend.gran i ∉ s.dp.pend
  complete : s.unitComplete g = true
  inTurn : s.decideFirst g = false
  room : s.dp.pend.length < 4096
  powered : s.up .dp = true

/-- Such a granule passes the checks of the decision. -/
theorem DecidedNext.checks {s : State} {i : Nat} {g : Gran} (h : DecidedNext s i g) :
    ¬ (g.dec ≠ .none ∨ Pend.gran i ∈ s.dp.pend ∨ !s.unitComplete g ∨ s.decideFirst g ∨ s.dp.pend.length ≥ 4096 ∨
      !s.up .dp) := by
  simp [h.undecided, h.notWaiting, h.complete, h.inTurn, h.room, h.powered]

theorem DecidedNext.unmap {s : State} {i : Nat} {g : Gran} (h : DecidedNext s i g) (hunmap : g.unmap.isSome = true) :
    execPackerDecision i s = .next (s.toPend i) := by
  simp only [execPackerDecision, h.gran, if_neg h.checks, if_pos hunmap]

/-- Its bytes, its fingerprint, its lane's result and its lookup are at hand: they join. -/
structure Joined (s : State) (i : Nat) (g : Gran) (b f : List Byte) (l : Lane) : Prop extends DecidedNext s i g where
  carries : g.unmap = none
  bytes : g.bytes = some b
  fp : g.fp = some f
  result : g.result = some l
  lookup : s.lookReady g = true

/-- A granule that has lost blocks or is not all zero is no zero granule (R95). -/
theorem notZeroGranule {g : Gran} {b : List Byte} (h : g.bad ≠ 0 ∨ allZero b = false) : ¬ (g.bad = 0 ∧ allZero b = true) :=
  fun ⟨hbad, hzero⟩ => h.elim (fun hne => hne hbad) fun hdata => Bool.false_ne_true (hdata.symm.trans hzero)

section
variable {s : State} {i : Nat} {g : Gran} {b f : List Byte} {l : Lane}

theorem Joined.zero (h : Joined s i g b f l) (hbad : g.bad = 0) (hzero : allZero b = true) :
    execPackerDecision i s = .next ((((s.updGran i fun g => { g with dec := .zero }).count .dpSpecDiscarded).count
      .dpDedupZero).toPend i) := by
  simp only [execPackerDecision, h.gran, if_neg h.checks, h.carries, h.bytes, h.fp, h.result, h.lookup, hbad, hzero]
  rfl

/-- A hit stands where dedup is on, or where the target has been read and is equal. -/
theorem Joined.hit {loc : Nat} (h : Joined s i g b f l) (hdata : ¬ (g.bad = 0 ∧ allZero b = true)) (hlook : g.look = .hit loc)
    (hmode : s.modeOf g.kdom = .on ∨ s.modeOf g.kdom = .verify ∧ g.verify = some true) :
    execPackerDecision i s = .next ((((s.updGran i fun g => { g with dec := .hit loc }).updDp (·.hitHot g.kdom g.sd f)).count
      .dpSpecDiscarded).toPend i) := by
  simp only [execPackerDecision, h.gran, if_neg h.checks, h.carries, h.bytes, h.fp, h.result, h.lookup, if_neg hdata, hlook]
  rcases hmode with hmode | ⟨hmode, hverify⟩
  · rw [hmode]
    rfl
  · rw [hmode, hverify]
    rfl

/-- Where no hit stands, the held output is appended. -/
theorem Joined.miss {s1 : State} (h : Joined s i g b f l) (hdata : ¬ (g.bad = 0 ∧ allZero b = true))
    (hmiss : ∀ loc, g.look = .hit loc → ¬ (s.modeOf g.kdom = .on ∨ s.modeOf g.kdom = .verify ∧ g.verify = some true))
    (happend : s.appendGran i g f b l = some s1) : execPackerDecision i s = .next (s1.toPend i) := by
  simp only [execPackerDecision, h.gran, if_neg h.checks, h.carries, h.bytes, h.fp, h.result, h.lookup, if_neg hdata,
    Option.isSome_none, Bool.not_true, Bool.false_eq_true, if_false]
  split
  · next loc hlook hmode => exact absurd (.inl hmode) (hmiss loc hlook)
  · next loc hlook hmode hverify => exact absurd (.inr ⟨hmode, hverify⟩) (hmiss loc hlook)
  · rw [happend]
    rfl

end

/-- Settles O25: where the premises of a case hold, the checks of its row pass. -/
theorem writeSideOfTheDatapath : Obligations.WriteSideOfTheDatapath := by
  unfold Obligations.WriteSideOfTheDatapath
  refine ⟨?merge, ?fingerprint, ?found, ?missed, ?lane, ?verified, ?zero, ?delta, ?copy, ?mismatch, ?unmap, ?hit, ?append,
    ?unmapped⟩
  case merge =>
    intro s s1 i g n x b bad hg hn hx hbytes hup hpieces hmerged
    refine Done.eq (?_ : execMerge i s = _)
    simp only [execMerge, hg, hn, hx]
    rw [if_neg (by simp [hbytes, hup, hpieces]), hmerged]
  case fingerprint =>
    intro s i g b k hg hb hk hfp hunmap hup hroom
    refine ⟨_, (?_ : execFingerprint i s = _), rfl, s.updGran_only i _⟩
    simp only [execFingerprint, hg, hb, hk]
    rw [if_neg (by simp [hfp, hunmap, hup, hroom])]
  case found =>
    intro s i g f l hg hf hissued hl
    exact ⟨_, execLookupResult_issued hg hf hissued (by rw [hl]; rfl), rfl, s.updGran_only i _⟩
  case missed =>
    intro s i g f hg hf hissued hl
    exact ⟨_, execLookupResult_issued hg hf hissued (by rw [hl]; rfl), rfl, s.updGran_only i _⟩
  case lane =>
    intro s i g b hg hb hresult hunmap hlane hroom hup
    refine Done.eq (?_ : execLaneResult i s = _)
    simp only [execLaneResult, hg, hb]
    rw [if_neg (by simp [hresult, hunmap, hlane, hroom, hup])]
    cases avaEncode b (crc64 b) <;> rfl
  case verified =>
    intro s s0 i g l b f hg hlook hb hf hverify hmode hread
    refine Done.eq (?_ : execVerifyCompare i s = _)
    simp only [execVerifyCompare, hg, hlook, hb, hf]
    rw [if_neg (by simp [hverify, hmode]), hread]
    exact if_pos rfl
  case zero =>
    intro s i g b f l hg hdec hpend hunit hfirst hroom hup hunmap hb hf hl hready hbad hzero
    have joined : Joined s i g b f l := ⟨⟨hg, hdec, hpend, hunit, hfirst, hroom, hup⟩, hunmap, hb, hf, hl, hready⟩
    exact Done.eq (joined.zero hbad hzero)
  case delta =>
    intro s i id g hp hg hup hlog hturn hholds hfirst hroots
    refine Done.eq (?_ : execDeltaRecorded i s = _)
    have ready : (deltaRoots (s.metaOf g.sd) g.root g.stamp).all (fun r =>
        s.mapReady g.sd r g.gran && (s.mustCopy g.sd r g.gran).isNone) = true := by
      rw [List.all_eq_true]
      intro r hr
      obtain ⟨hready, hcopy⟩ := hroots r hr
      simp [hready, hcopy]
    simp only [execDeltaRecorded, hp, hg, hup, hlog, hturn, hfirst, ready]
    refine congrArg _ (if_pos ?_)
    cases hx : s.flightOf g with
    | none => rfl
    | some x => simp [hholds x hx]
  case copy =>
    intro s s1 s2 d root gran up mpid level hcopy hup hwrite hlog hvalid h1 h2
    subst h1 h2
    refine Done.eq (?_ : execPageCopy d root gran s = _)
    have valid : (!s.map.en || decide (s.map.busy = 1) || (List.range 16).all fun i => s.map.sectorValid d mpid i) = true := by
      rcases hvalid with h | h | h <;> simp only [h, decide_true, Bool.not_false, Bool.true_or, Bool.or_true]
    simp only [execPageCopy, hcopy, hup, hwrite, hlog, valid]
    rfl
  case mismatch =>
    intro s s0 s1 r i g l b f hg hlook hb hf hverify hmode hread hr h1
    subst h1
    refine Done.eq (?_ : execVerifyCompare i s = _)
    simp only [execVerifyCompare, hg, hlook, hb, hf]
    rw [if_neg (by simp [hverify, hmode]), hread]
    exact if_neg hr
  case unmap =>
    intro s i g hg hdec hpend hunit hfirst hroom hup hunmap
    have decided : DecidedNext s i g := ⟨hg, hdec, hpend, hunit, hfirst, hroom, hup⟩
    exact Done.eq (decided.unmap hunmap)
  case hit =>
    intro s i g b f l loc hg hdec hpend hunit hfirst hroom hup hunmap hb hf hl hready hdata hlook hmode
    have joined : Joined s i g b f l := ⟨⟨hg, hdec, hpend, hunit, hfirst, hroom, hup⟩, hunmap, hb, hf, hl, hready⟩
    exact Done.eq (joined.hit (notZeroGranule hdata) hlook hmode)
  case append =>
    intro s s1 i g b f l hg hdec hpend hunit hfirst hroom hup hunmap hb hf hl hready hdata hmiss happend
    have joined : Joined s i g b f l := ⟨⟨hg, hdec, hpend, hunit, hfirst, hroom, hup⟩, hunmap, hb, hf, hl, hready⟩
    refine Done.eq (joined.miss (notZeroGranule hdata) ?_ happend)
    intro loc hlook
    rcases hmiss loc hlook with hmode | ⟨hmode, hverify⟩
    · simp [hmode]
    · simp [hverify, hmode]
  case unmapped =>
    intro s g n x hnblk hover hlanded hbase
    exact State.merged_unmapped hnblk hover hlanded hbase

end Sys2Proof.Machine
end

section
/-!
PROOFS. The current hour (R165) is the same before and after a read: it is taken from the RTC and the physical segment records,
which no read and no recording of a loss changes.
-/

namespace Sys2Proof.Machine

/-- What the current hour is taken from (R165): the RTC's domain and the physical segment records. -/
def State.hourBase (s : State) : PwrState × Table PSegRec := (s.pwr, s.med.pseg)

theorem State.hour_of_base {s t : State} (h : t.hourBase = s.hourBase) : t.hour = s.hour := by
  obtain ⟨hpwr, hpseg⟩ := Prod.mk.inj h
  simp only [State.hour, hpwr, hpseg]

/-- A fold keeps the hour's base where each of its steps does. -/
theorem foldl_hourBase {α : Type} (l : List α) (f : State → α → State) (h : ∀ s a, (f s a).hourBase = s.hourBase)
    (s : State) : (l.foldl f s).hourBase = s.hourBase :=
  foldl_reads State.hourBase f h l s

/-! ### Counters, events and commands -/

@[simp] theorem State.count_hourBase (s : State) (c : Ctr) (n : Nat) : (s.count c n).hourBase = s.hourBase := rfl

@[simp] theorem State.raise_hourBase (s : State) (b : Blk) (bit : Nat) : (s.raise b bit).hourBase = s.hourBase := by
  simp only [State.hourBase, State.raise_pwr, State.raise_med]

@[simp] theorem State.snag_hourBase (s : State) (source code : Nat) (d : Option SD) (port : Nat) (arg : List Byte) :
    (s.snag source code d port arg).hourBase = s.hourBase := by
  simp only [State.hourBase, State.snag_pwr, State.snag_med]

@[simp] theorem State.notify_hourBase (s : State) (source code : Nat) (raised : Bool) (d : Option SD) (port : Nat)
    (arg : List Byte) : (s.notify source code raised d port arg).hourBase = s.hourBase := by
  simp only [State.hourBase, State.notify_pwr, State.notify_med]

@[simp] theorem State.updFe_hourBase (s : State) (f : FeState → FeState) : (s.updFe f).hourBase = s.hourBase := rfl

@[simp] theorem State.updDp_hourBase (s : State) (f : DpState → DpState) : (s.updDp f).hourBase = s.hourBase := rfl

@[simp] theorem State.updStats_hourBase (s : State) (port : Nat) (f : ModStats → ModStats) :
    (s.updStats port f).hourBase = s.hourBase := rfl

@[simp] theorem State.pin_hourBase (s : State) (port pseg : Nat) : (s.pin port pseg).hourBase = s.hourBase := rfl

@[simp] theorem State.unpin_hourBase (s : State) (port pseg : Nat) : (s.unpin port pseg).hourBase = s.hourBase := rfl

@[simp] theorem State.countRead_hourBase (s : State) (port pseg : Nat) : (s.countRead port pseg).hourBase = s.hourBase := rfl

@[simp] theorem State.noteHour_hourBase (s : State) : s.noteHour.hourBase = s.hourBase := by
  grind [State.noteHour, State.hourBase, State.raise_hourBase]

@[simp] theorem State.issue_hourBase (s : State) (c : MCmd) : (s.issue c).hourBase = s.hourBase := by
  grind [State.issue, State.hourBase, State.count_hourBase]

/-! ### Losses (R206 to R209) -/

/-- A delta that names no physical segment leaves the hour's base. -/
theorem State.delta_hourBase {s : State} {d : SD} {x : Delta} (h : s.med.applyDelta x = s.med) :
    (s.delta d x).hourBase = s.hourBase := by
  simp only [State.hourBase, State.delta, h]

@[simp] theorem State.victim_hourBase (s : State) (d : SD) (n prio : Nat) : (s.victim d n prio).hourBase = s.hourBase := by
  grind [State.victim, State.hourBase]

@[simp] theorem State.refresh_hourBase (s : State) (d : SD) (seg : Nat) : (s.refresh d seg).hourBase = s.hourBase := by
  grind [State.refresh, State.victim_hourBase]

@[simp] theorem State.dropIndex_hourBase (s : State) (d : SD) (r : RefRec) (loc : Nat) :
    (s.dropIndex d r loc).hourBase = s.hourBase := by
  grind [State.dropIndex, State.hourBase, State.delta_hourBase, MedState.applyDelta]

@[simp] theorem State.freePending_hourBase (s : State) (d : SD) (loc : Nat) : (s.freePending d loc).hourBase = s.hourBase := by
  grind [State.freePending, State.dropIndex_hourBase, State.delta_hourBase, MedState.applyDelta]

@[simp] theorem State.lose_hourBase (s : State) (d : SD) (loc cause blocks : Nat) :
    (s.lose d loc cause blocks).hourBase = s.hourBase := by
  grind [State.lose, State.dropIndex_hourBase, State.freePending_hourBase, State.notify_hourBase, State.raise_hourBase,
    State.count_hourBase, State.delta_hourBase, MedState.applyDelta]

@[simp] theorem State.losePack_hourBase (s : State) (d : SD) (pack cause : Nat) :
    (s.losePack d pack cause).hourBase = s.hourBase := by
  grind [State.losePack, foldl_hourBase, State.lose_hourBase]

@[simp] theorem State.loseRow_hourBase (s : State) (d : SD) (n : Nat) (t : Stripe) (row : Nat) (bad : List Nat) (cause : Nat) :
    (s.loseRow d n t row bad cause).hourBase = s.hourBase := by
  grind [State.loseRow, foldl_hourBase, State.losePack_hourBase, State.notify_hourBase, State.raise_hourBase,
    State.victim_hourBase, State.delta_hourBase, MedState.applyDelta]

/-! ### Reads (R77, R182, R200) -/

@[simp] theorem State.ladderFailed_hourBase (s : State) (port : Nat) : (s.ladderFailed port).hourBase = s.hourBase := rfl

@[simp] theorem State.ladderDone_hourBase (s : State) (d : SD) (port seg step : Nat) :
    (s.ladderDone d port seg step).hourBase = s.hourBase := by
  grind [State.ladderDone, State.noteRead, State.count_hourBase, State.updStats_hourBase, State.refresh_hourBase]

@[simp] theorem State.countReads_hourBase (s : State) (port pseg n : Nat) : (s.countReads port pseg n).hourBase = s.hourBase :=
  foldl_reads State.hourBase _ (fun t _ => State.countRead_hourBase t port pseg) _ s

@[simp] theorem State.readLadder_hourBase (s : State) (d : SD) (pack : Nat) (good : List Byte → Bool) :
    (s.readLadder d pack good).2.hourBase = s.hourBase := by
  have drawn : ({ s with draws := s.draws + 1 } : State).hourBase = s.hourBase := rfl
  grind [State.readLadder, State.noteHour_hourBase, State.countReads_hourBase, State.ladderDone_hourBase,
    State.ladderFailed_hourBase, State.count_hourBase, State.raise_hourBase]

@[simp] theorem State.rowSource_hourBase (s : State) (d : SD) (n : Nat) (t : Stripe) (row pos : Nat) :
    (s.rowSource d n t row pos).2.hourBase = s.hourBase := by
  grind [State.rowSource, State.readLadder_hourBase]

@[simp] theorem State.rebuildRow_hourBase (s : State) (d : SD) (n : Nat) (t : Stripe) (row pos : Nat) (bad : List Nat) :
    (s.rebuildRow d n t row pos bad).2.2.hourBase = s.hourBase := by
  unfold State.rebuildRow
  dsimp only
  generalize hz : List.foldl _ _ _ = z
  have hbase : z.2.2.hourBase = s.hourBase := by
    rw [← hz]
    refine foldl_reads (fun x : List (Nat × List Byte) × List Nat × State => x.2.2.hourBase) _ (fun x q => ?_) _ _
    have source := State.rowSource_hourBase x.2.2 d n t row q
    split
    · rfl
    · split
      · dsimp only
        split <;> rfl
      · rcases hsource : x.2.2.rowSource d n t row q with ⟨_ | img, u⟩ <;> rw [hsource] at source <;> exact source
  split <;> exact hbase

@[simp] theorem State.openRead_hourBase (s : State) (d : SD) (pack : Nat) (img : List Byte) :
    (s.openRead d pack img).2.hourBase = s.hourBase := by
  grind [State.openRead, State.count_hourBase, State.raise_hourBase]

@[simp] theorem State.readPack_hourBase (s : State) (d : SD) (pack : Nat) : (s.readPack d pack).2.hourBase = s.hourBase := by
  unfold State.readPack
  dsimp only
  repeat' split
  all_goals grind [State.openRead_hourBase, State.readLadder_hourBase, State.rebuildRow_hourBase, State.loseGone,
    State.loseRow_hourBase, State.count_hourBase]

/-! ### The map's sectors (R142 to R145) -/

@[simp] theorem State.enterHbm_hourBase (s : State) (d : SD) (mpid : Nat) : (s.enterHbm d mpid).hourBase = s.hourBase := by
  grind [State.enterHbm, State.hourBase]

@[simp] theorem State.fillPage_hourBase (s : State) (d : SD) (mpid : Nat) : (s.fillPage d mpid).hourBase = s.hourBase := by
  have trim : ∀ t : State, t.trimDdr.hourBase = t.hourBase := fun _ => rfl
  have put : ∀ (t : State) (m : MapState), ({ t with map := m } : State).hourBase = t.hourBase := fun _ _ => rfl
  grind [State.fillPage, State.enterHbm_hourBase, State.readPack_hourBase]

@[simp] theorem State.installSector_hourBase (s : State) (d : SD) (mpid k : Nat) (seen : Option (Nat × Nat)) :
    (s.installSector d mpid k seen).hourBase = s.hourBase := by
  grind [State.installSector, State.allocLine, State.hourBase]

@[simp] theorem State.takeEntry_hourBase (s : State) (d : SD) (root gran : Nat) :
    (s.takeEntry d root gran).2.hourBase = s.hourBase := by
  grind [State.takeEntry, State.touchPage, foldl_hourBase, State.hourBase]

/-! ### Granules of a read (R41, R81) -/

@[simp] theorem State.issueRead_hourBase (s : State) (i hour : Nat) (f : Fetch) : (s.issueRead i hour f).hourBase = s.hourBase := by
  grind [State.issueRead, State.issue_hourBase, State.noteHour_hourBase, State.countRead_hourBase]

@[simp] theorem State.freeFetch_hourBase (s : State) (i : Nat) : (s.freeFetch i).hourBase = s.hourBase := by
  grind [State.freeFetch, State.nextRead, State.issueRead_hourBase, State.updDp_hourBase, State.unpin_hourBase]

@[simp] theorem State.joinFetch_hourBase (s : State) (hour i : Nat) (f : Fetch) (user : Nat × Nat) :
    (s.joinFetch hour i f user).hourBase = s.hourBase := by
  unfold State.joinFetch
  dsimp only
  repeat' split
  all_goals simp only [State.issueRead_hourBase, State.updDp_hourBase]

@[simp] theorem State.fetchPack_hourBase (s : State) (hour : Nat) (d : SD) (pack : Nat) (spec : Bool) (user : Nat × Nat) :
    (s.fetchPack hour d pack spec user).1.hourBase = s.hourBase := by
  unfold State.fetchPack
  dsimp only
  repeat' split
  all_goals simp only [State.joinFetch_hourBase, State.issueRead_hourBase, State.updDp_hourBase, State.pin_hourBase]

@[simp] theorem State.compareGuess_hourBase (s : State) (hour : Nat) (d : SD) (stamp gran : Nat)
    (guess pack : Option Nat) (want : Bool) : (s.compareGuess hour d stamp gran guess pack want).hourBase = s.hourBase := by
  unfold State.compareGuess
  dsimp only
  repeat' split
  all_goals simp only [State.fetchPack_hourBase, State.freeFetch_hourBase, State.count_hourBase, State.updDp_hourBase]

@[simp] theorem State.mapFormat_hourBase (s : State) (d : SD) (root gran : Nat) :
    (s.mapFormat d root gran).hourBase = s.hourBase := by
  simp only [State.mapFormat, State.snag_hourBase, State.raise_hourBase]

@[simp] theorem State.updCmd_hourBase (s : State) (d : SD) (stamp : Nat) (f : Cmd → Cmd) :
    (s.updCmd d stamp f).hourBase = s.hourBase := rfl

@[simp] theorem State.result_hourBase (s : State) (d : SD) (stamp : Nat) (st : Status) :
    (s.result d stamp st).hourBase = s.hourBase := rfl

@[simp] theorem State.settleRead_hourBase (s : State) (d : SD) (stamp : Nat) : (s.settleRead d stamp).hourBase = s.hourBase := by
  grind [State.settleRead, State.result_hourBase, State.updCmd_hourBase, State.updFe_hourBase]

@[simp] theorem State.gotGran_hourBase (s : State) (d : SD) (stamp gran : Nat) (b : List Byte) (failed : Bool) :
    (s.gotGran d stamp gran b failed).hourBase = s.hourBase := by
  simp only [State.gotGran, State.settleRead_hourBase, State.updCmd_hourBase, State.updDp_hourBase]

@[simp] theorem State.resolveGran_hourBase (s : State) (hour : Nat) (r : RGran) : (s.resolveGran hour r).hourBase = s.hourBase := by
  unfold State.resolveGran
  dsimp only
  repeat' split
  all_goals simp only [State.takeEntry_hourBase, State.compareGuess_hourBase, State.mapFormat_hourBase,
    State.gotGran_hourBase, State.fetchPack_hourBase, State.updDp_hourBase]

end Sys2Proof.Machine
end

section
/-!
PROOFS. The read side of the datapath (R70, R77, R78, R81, R182, R247): each station of a fetch acts where the premises of its
case pass the checks of its row.
-/

namespace Sys2Proof.Machine

/-- Reads that resolve one after the other take the hour they began at. -/
theorem foldl_resolveGran_hour {s u : State} (l : List RGran) (h : u.hour = s.hour) :
    l.foldl (fun v r => v.resolveGran v.hour r) u = l.foldl (fun v r => v.resolveGran s.hour r) u := by
  induction l generalizing u with
  | nil => simp only [List.foldl_nil]
  | cons r l ih =>
    rw [List.foldl_cons, List.foldl_cons, h]
    exact ih ((State.hour_of_base (u.resolveGran_hourBase s.hour r)).trans h)

/-- An authoritative read that has failed within the ladder passes the checks of its next step. -/
theorem readRetry_checks {s : State} {f : Fetch} (hspec : f.spec = false) (hdropped : f.dropped = false)
    (hst : f.st.isSome = true) (hstep : f.step < 8) (hup : s.up .mlk = true) :
    ¬ (f.spec ∨ f.dropped ∨ f.st.isNone ∨ f.step ≥ 8 ∨ !s.up .mlk) := by
  simp [hspec, hdropped, Option.isNone_eq_false_iff.mpr hst, hstep, hup]

/-- An authoritative read beyond the ladder passes the checks of its reconstruction. -/
theorem degradedRead_checks {s : State} {f : Fetch} (hspec : f.spec = false) (hst : f.st.isSome = true) (hstep : f.step = 8)
    (hup : s.up .str = true) (hissue : s.mayIssue (.sd f.sd) = true) :
    ¬ (f.spec ∨ f.st.isNone ∨ f.step ≠ 8 ∨ !s.up .str ∨ !s.mayIssue (.sd f.sd)) := by
  simp [hspec, Option.isNone_eq_false_iff.mpr hst, hstep, hup, hissue]

/-- Settles O27: where the premises of a case hold, the checks of its row pass. -/
theorem readSideOfTheDatapath : Obligations.ReadSideOfTheDatapath := by
  unfold Obligations.ReadSideOfTheDatapath
  refine ⟨?install, ?release, ?opened, ?decoded, ?ladderFails, ?nextStep, ?rebuilt, ?dropped, ?lost⟩
  case install =>
    intro s s1 d m k root gran hwanted hk hup hinvalid h1
    subst h1
    refine Done.eq (?_ : execSectorInstall d m k s = _)
    have hour : ((s.fillPage d m).installSector d m k (some (root, gran / 512))).hour = s.hour :=
      State.hour_of_base ((State.installSector_hourBase ..).trans (State.fillPage_hourBase ..))
    simp only [execSectorInstall, hwanted]
    rw [if_neg (by simp [hup, hinvalid, hk]), foldl_resolveGran_hour _ hour]
  case release =>
    intro s i f b hf himage hst hspec hreleased hdropped hroom hup
    refine Done.eq (?_ : execPackRelease i s = _)
    simp [execPackRelease, hf, hup, hdropped, himage, hst, hspec, hreleased, hroom]
  case opened =>
    intro s i f b hf himage hreleased hplain hup
    refine Done.eq (?_ : execPackOpen i s = _)
    simp only [execPackOpen, hf, himage]
    rw [if_neg (by simp [hreleased, hplain, hup])]
    cases s.openImage f.sd f.pack b with
    | plain x y => rfl
    | slotEmpty => rfl
    | tagFail => rfl
  case decoded =>
    intro s i n g f b rct x w raw loc ch m hf hplain hx hw hent hpack huser hup hmore
    refine Done.eq (?_ : execDecode i n g s = _)
    simp only [execDecode, hf, hplain, hx, Option.bind_some, hw, hent]
    rw [if_neg (by simp [hpack, huser, hup])]
    split
    · next hnone => exact absurd (hmore.symm.trans hnone) (Option.some_ne_none m)
    · next m' hsome =>
      obtain rfl : m' = m := Option.some.inj (hsome.symm.trans hmore)
      cases decodeGranule raw (loc % 4096) b rct m' with
      | good out => rfl
      | format => rfl
      | check => rfl
  case ladderFails =>
    intro s i f hf hspec hdropped hst hstep hup
    refine Done.eq (?_ : execReadRetry i s = _)
    simp only [execReadRetry, hf]
    rw [if_neg (readRetry_checks hspec hdropped hst (by omega) hup), if_pos hstep]
  case nextStep =>
    intro s i f hf hspec hdropped hst hstep hup
    refine Done.eq (?_ : execReadRetry i s = _)
    simp only [execReadRetry, hf]
    rw [if_neg (readRetry_checks hspec hdropped hst (by omega) hup), if_neg (by omega)]
  case rebuilt =>
    intro s s1 s2 i bad f n pos x b gone hf hspec hst hstep hup hissue hstripe h1 hrow
    subst h1
    refine Done.eq (?_ : execDegradedRead i bad s = _)
    simp only [execDegradedRead, hf]
    rw [if_neg (degradedRead_checks hspec hst hstep hup hissue)]
    simp only [hstripe, hrow]
  case dropped =>
    intro s i f hf hdropped hcame hup
    refine Done.eq (?_ : execPackRelease i s = _)
    simp [execPackRelease, hf, hup, hdropped, hcame]
  case lost =>
    intro s s1 s2 i bad f n pos x gone hf hspec hst hstep hup hissue hstripe h1 hrow
    subst h1
    refine Done.eq (?_ : execDegradedRead i bad s = _)
    simp only [execDegradedRead, hf]
    rw [if_neg (degradedRead_checks hspec hst hstep hup hissue)]
    simp only [hstripe, hrow]

end Sys2Proof.Machine
end

section
/-!
PROOFS. What reset leaves (R438), and the cycles of one granule's paths (R85, R87).
-/

namespace Sys2Proof.Machine

/-! ### Reset (R438) -/

/-- A block's common registers right after reset: those of a block that is on for TOP and PWR, and of one that is off for the
rest. -/
theorem reset_blk (b : Blk) : State.reset.blk.get b = .reset (decide (b = .top ∨ b = .pwr)) := by
  cases b <;> rfl

/-- No counter is listed after reset, and one that is not listed reads 0. -/
theorem reset_counter (c : Ctr) : State.reset.counter c = 0 := rfl

/-- No channel is listed after reset, and one that is not listed is idle. -/
theorem reset_chan (c : Nat) : State.reset.chan c = Chan.reset := rfl

/-- Settles O42: field by field, from the value that reset gives each. -/
theorem resetLeavesCountersAndEventsClear : Obligations.ResetLeavesCountersAndEventsClear := by
  unfold Obligations.ResetLeavesCountersAndEventsClear
  refine ⟨reset_counter, fun b => ?events, fun b => ?enabled, rfl, rfl, rfl, rfl, fun c => ?channels, ?owned, rfl, rfl, rfl⟩
  case events => rw [reset_blk]; exact ⟨rfl, rfl⟩
  case enabled => rw [reset_blk]; rfl
  case channels => rw [reset_chan]; exact ⟨rfl, rfl⟩
  case owned => rfl

/-! ### The paths of one granule (R85, R87) -/

namespace Timing

/-- The tag of a pack is verified 537 cycles after its first beat is presented: its 512 beats over the fabric, then the tag. -/
theorem readTag_eq (j : Nat) : readTag j = j + 537 := by
  simp only [readTag, lastBeat, count]
  omega

theorem readFirstOutput_eq (j : Nat) : readFirstOutput j = j + 569 := by
  simp only [readFirstOutput, readFirstGranule, lastBeat, count]
  omega

theorem readLastOutput_eq (j : Nat) : readLastOutput j = j + 824 := by
  simp only [readLastOutput, readFirstOutput_eq, lastBeat, count]
  omega

theorem readResponse_eq (j : Nat) : readResponse j = j + 874 := by
  simp only [readResponse, readLastSent, readFirstSent, readChecked, readLastOutput_eq, lastBeat, beats, count]
  omega

theorem readReissued_eq (e : Nat) : readReissued e = e + 40 := by
  simp only [readReissued, readCompared, readEntry, count]

end Timing

/-- Settles O59: the counts of Table 03.4 add up to the cycles of the worked tables. -/
theorem pathsOfOneGranule : Obligations.PathsOfOneGranule := by
  unfold Obligations.PathsOfOneGranule
  exact ⟨rfl, rfl, rfl, rfl, rfl, rfl, rfl, rfl, rfl, fun _ => rfl, rfl, rfl, rfl, rfl, rfl, Timing.readReissued_eq,
    fun j => ⟨Timing.readTag_eq j, Timing.readFirstOutput_eq j, Timing.readLastOutput_eq j, Timing.readResponse_eq j⟩⟩

end Sys2Proof.Machine
end

section
/-!
PROOFS. The hot index (R89, R90, R97, R98): what a hit lies in.
-/

namespace Sys2Proof.Machine

theorem HotEnt.is_iff {e : HotEnt} {ddom : Nat} {d : SD} {fp : List Byte} :
    e.is ddom d fp = true ↔ e.valid = true ∧ e.tag = fTag fp ∧ e.ddom = ddom ∧ e.sd = d := by
  simp only [HotEnt.is, Bool.and_eq_true, decide_eq_true_eq]

/-- A lookup answers the LOC of an entry of the fingerprint's bucket that matches (R98). -/
theorem DpState.lookup_some {p : DpState} {ddom : Nat} {d : SD} {fp : List Byte} {l : Nat} (h : p.lookup ddom d fp = some l) :
    ∃ e ∈ Table.getD p.hot (bucketOf fp p.nb) [], e.is ddom d fp = true ∧ e.loc = l := by
  obtain ⟨e, hfound, hloc⟩ := Option.map_eq_some_iff.mp h
  exact ⟨e, List.mem_of_find?_eq_some hfound, List.find?_some (p := (HotEnt.is · ddom d fp)) hfound, hloc⟩

/-- Settles O57: the entry that answers is one that matches, and a match compares both domains. -/
theorem hitsStayInTheirDomains : Obligations.HitsStayInTheirDomains := by
  unfold Obligations.HitsStayInTheirDomains
  intro p ddom d fp l h
  obtain ⟨e, hmem, hmatch, hloc⟩ := DpState.lookup_some h
  obtain ⟨hvalid, htag, hddom, hsd⟩ := HotEnt.is_iff.mp hmatch
  exact ⟨e, hmem, hloc, hvalid, hddom, hsd, htag⟩

end Sys2Proof.Machine
end

section
/-!
PROOFS. Relinks (R108): recording an entry counts nothing and queues nothing, so that a relink that takes effect adds its one to
DP_COAT_RELINKED and leaves the Delta recording point. The addition is seen where the counters list each key once, and not where
they list one twice.
-/

namespace Sys2Proof.Machine

/-! ### The Delta recording point and the counters -/

/-- What waits at the Delta recording point, and the counters. -/
def State.tally (s : State) : List Pend × Table Word := (s.dp.pend, s.counters)

@[simp] theorem State.delta_tally (s : State) (d : SD) (x : Delta) : (s.delta d x).tally = s.tally := rfl

@[simp] theorem State.raise_tally (s : State) (b : Blk) (bit : Nat) : (s.raise b bit).tally = s.tally := by
  simp only [State.tally, State.raise_dp, State.raise_counters]

/-- A change of the map alone. -/
@[simp] theorem withMap_tally (s : State) (m : MapState) : ({ s with map := m } : State).tally = s.tally := rfl

/-! ### References (R103, R158) -/

@[simp] theorem State.addRef_tally (s : State) (d : SD) (loc : Nat) : (s.addRef d loc).tally = s.tally := by
  unfold State.addRef
  split
  · rfl
  · split
    · rfl
    · split
      · exact State.raise_tally ..
      · exact State.delta_tally ..

@[simp] theorem State.dropIndex_tally (s : State) (d : SD) (r : RefRec) (loc : Nat) : (s.dropIndex d r loc).tally = s.tally := by
  unfold State.dropIndex
  dsimp only
  split <;> rfl

@[simp] theorem State.freePending_tally (s : State) (d : SD) (loc : Nat) : (s.freePending d loc).tally = s.tally := by
  unfold State.freePending
  split
  · rfl
  · split
    · exact State.dropIndex_tally ..
    · split <;> rfl

@[simp] theorem State.subRef_tally (s : State) (d : SD) (loc : Nat) : (s.subRef d loc).tally = s.tally := by
  unfold State.subRef
  split
  · rfl
  · split
    · rfl
    · dsimp only
      split
      · exact State.freePending_tally ..
      · rfl

/-! ### Entries and their pages (R141, R153) -/

@[simp] theorem State.newPage_tally (s : State) (d : SD) (level : Nat) (ents : Table DWord) :
    (s.newPage d level ents).2.tally = s.tally := by
  simp only [State.newPage, State.enterHbm]
  split <;> rfl

@[simp] theorem State.growPath_tally (s : State) (d : SD) (gran l mpid : Nat) : (s.growPath d gran l mpid).tally = s.tally := by
  induction l generalizing s mpid with
  | zero => rfl
  | succ l ih =>
    unfold State.growPath
    split
    · exact ih ..
    · exact (ih ..).trans (State.newPage_tally ..)

@[simp] theorem State.writeEntry_tally (s : State) (d : SD) (root gran : Nat) (e : MapEnt) :
    (s.writeEntry d root gran e).tally = s.tally := by
  unfold State.writeEntry
  split
  · rfl
  · dsimp only
    split
    · exact State.growPath_tally ..
    · cases e.loc? <;> split <;>
        simp only [State.backRef, State.subRef_tally, State.delta_tally, State.addRef_tally, withMap_tally, State.growPath_tally]

/-! ### The cache and the hints (R144, R146, R152) -/

@[simp] theorem State.allocLine_tally (s : State) (d : SD) (mpid : Nat) (seen : Option (Nat × Nat)) :
    (s.allocLine d mpid seen).tally = s.tally := by
  unfold State.allocLine
  dsimp only
  split <;> rfl

@[simp] theorem State.dirtySector_tally (s : State) (d : SD) (mpid sector : Nat) (seen : Option (Nat × Nat)) :
    (s.dirtySector d mpid sector seen).tally = s.tally := by
  unfold State.dirtySector
  split
  · rfl
  · dsimp only
    split <;> exact State.allocLine_tally ..

@[simp] theorem State.dirtyPath_tally (s : State) (d : SD) (root gran before : Nat) :
    (s.dirtyPath d root gran before).tally = s.tally := by
  unfold State.dirtyPath
  split
  · rfl
  · exact foldl_reads State.tally _ (fun _ _ => State.dirtySector_tally ..) _ _

@[simp] theorem State.recordEntry_tally (s : State) (d : SD) (root gran : Nat) (e : MapEnt) :
    (s.recordEntry d root gran e).tally = s.tally :=
  (State.dirtyPath_tally ..).trans (State.writeEntry_tally ..)

/-! ### Counting (R88) -/

/-- A removed key reads as not listed, where no key is listed twice. -/
theorem Table.find_del {α : Type} {t : Table α} (hwf : t.wf = true) (n : Nat) : Table.find (Table.del t n) n = none := by
  induction t with
  | nil => rfl
  | cons p t ih =>
    cases t with
    | nil => grind [Table.del, Table.find]
    | cons q t => grind [Table.del, Table.find, Table.wf]

theorem State.counter_setCounter {s : State} (hwf : s.counters.wf = true) (c : Ctr) (v : Word) :
    (s.setCounter c v).counter c = v := by
  simp only [State.counter, State.setCounter, Table.getD]
  by_cases hzero : v = 0
  · rw [if_pos hzero, Table.find_del hwf, hzero, Option.getD_none]
  · rw [if_neg hzero, Table.find_put, Option.getD_some]

theorem State.count_counters {s u : State} (h : u.counters = s.counters) (c : Ctr) (n : Nat) :
    (u.count c n).counters = (s.count c n).counters := by
  have hread : u.counter c = s.counter c := by simp only [State.counter, h]
  simp only [State.count, State.setCounter, hread, h]

/-! ### A relink that takes effect (R108) -/

section
variable {s : State} {d : SD} {root gran x c : Nat} {r : RefRec}

/-- The relink of an unchanged entry to a copy that takes a reference leaves the recording point and is counted. -/
theorem State.relink_tally (hentry : (MapEnt.ofWord (entryOf (s.metaOf d) root gran)).loc? = some x)
    (hcopy : s.refOf d c = some r) (hok : r.hitOk = true) :
    (s.relink d root gran x c).tally =
      (s.dp.pend.filter (· ≠ .relink d root gran x c), (s.count .dpCoatRelinked).counters) := by
  simp only [State.relink, hentry, hcopy, hok, and_self, if_true]
  generalize hu : State.recordEntry _ _ _ _ _ = u
  obtain ⟨hpend, hcounters⟩ := Prod.mk.inj (hu ▸ State.recordEntry_tally ..)
  exact Prod.ext hpend (State.count_counters hcounters _ _)

/-- What MetadataUpkeep says of a relink that takes effect holds where the counters list no key twice. -/
theorem State.relink_counted (hwf : s.counters.wf = true)
    (hentry : (MapEnt.ofWord (entryOf (s.metaOf d) root gran)).loc? = some x) (hcopy : s.refOf d c = some r)
    (hok : r.hitOk = true) :
    (s.relink d root gran x c).counter .dpCoatRelinked = s.counter .dpCoatRelinked + 1 ∧
      Pend.relink d root gran x c ∉ (s.relink d root gran x c).dp.pend := by
  obtain ⟨hpend, hcounters⟩ := Prod.mk.inj (State.relink_tally hentry hcopy hok)
  refine ⟨?counted, by simp [hpend]⟩
  case counted =>
    calc (s.relink d root gran x c).counter .dpCoatRelinked
      _ = (s.count .dpCoatRelinked).counter .dpCoatRelinked := by simp only [State.counter, hcounters]
      _ = s.counter .dpCoatRelinked + 1 := State.counter_setCounter hwf _ _

end

/-! ### The refutation -/

/-- A live copy that takes references. -/
def relinkCopy : RefRec :=
  { fp := [], count := 1, ddom := 0, st := .live, fpBad := false, sat := false, raw := false, succ := none, zeroAt := 0
    size := 100, copyOf := none }

/-- A domain as a relink finds it: root 4 is one leaf page, its granule 0 is stored at LOC 50, and LOC 60 holds the copy. -/
def relinkMeta : Meta :=
  { Meta.empty with
    roots := [(4, { kind := 0, isSealed := false, deleting := false, kdom := 0, depth := 0, top := 0, parent := none, size := 64
                    point := 0, createEpoch := 0 })]
    pages := [(0, { level := 0, share := 1, ents := [(0, MapEnt.word (.stored false 50 none))] })]
    refs := [(60, relinkCopy)] }

/-- Refutes O5, by its last clause: where the counters list DP_COAT_RELINKED twice, with all ones first, the addition wraps
to 0 and drops the first listing only, so that the counter reads the second one's value, 5, and not 0. The keys of such a list do
not rise; where they do, the clause holds (`State.relink_counted`). -/
theorem not_metadataUpkeep : ¬ Obligations.MetadataUpkeep := by
  unfold Obligations.MetadataUpkeep
  rintro ⟨-, -, -, -, -, -, -, -, hrelink⟩
  let s : State := { State.reset with
    map := { MapState.reset with live := ⟨relinkMeta, Meta.empty⟩ }
    counters := [(Ctr.dpCoatRelinked.addr, BitVec.allOnes 32), (Ctr.dpCoatRelinked.addr, 5)] }
  have hentry : (MapEnt.ofWord (entryOf (s.metaOf .a) 4 0)).loc? = some 50 := by decide +kernel
  have hcopy : s.refOf .a 60 = some relinkCopy := rfl
  have hok : relinkCopy.hitOk = true := by decide
  obtain ⟨hcounted, -⟩ := hrelink s .a 4 0 50 60 _ hentry hcopy hok
  obtain ⟨-, hcounters⟩ := Prod.mk.inj (State.relink_tally hentry hcopy hok)
  rw [State.counter, hcounters] at hcounted
  exact absurd hcounted (by decide +kernel)

end Sys2Proof.Machine
end

section
/-!
PROOFS. The Avaraun codec: the symbol of a residue (R116), and the check of a raw granule (R125).
-/

namespace Sys2Proof.Machine

/-! ### Symbols (R116) -/

theorem zigzag_of_nonneg {r : Byte} (h : 0 ≤ r.toInt) : (zigzag r : Int) = 2 * r.toInt := by
  have hsigned := r.toInt_eq_toNat_cond
  rw [zigzag, if_pos h]
  split at hsigned <;> omega

theorem zigzag_of_neg {r : Byte} (h : r.toInt < 0) : (zigzag r : Int) = -2 * r.toInt - 1 := by
  have hsigned := r.toInt_eq_toNat_cond
  rw [zigzag, if_neg (by omega)]
  split at hsigned <;> omega

/-- A symbol fits a byte, since a residue lies from -128 to 127. -/
theorem zigzag_le (r : Byte) : zigzag r ≤ 255 := by
  have hlow : -128 ≤ r.toInt := r.le_toInt
  have hhigh : r.toInt < 128 := r.toInt_lt
  rcases Int.lt_or_le r.toInt 0 with hneg | hnonneg
  · have := zigzag_of_neg hneg
    omega
  · have := zigzag_of_nonneg hnonneg
    omega

/-- Settles O51, by the sign of the residue. -/
theorem residueSymbols : Obligations.ResidueSymbols := by
  unfold Obligations.ResidueSymbols
  intro x p
  exact ⟨zigzag_of_nonneg, zigzag_of_neg, zigzag_le _, BitVec.le_toInt _, Int.le_of_lt_add_one BitVec.toInt_lt⟩

/-! ### Raw granules (R125) -/

/-- Of 4,096 bytes or more, the first 4,096 are the granule, good exactly when the raw check table holds their CRC-64. -/
theorem rawDecode_of_le_length {bytes : List Byte} (h : 4096 ≤ bytes.length) (rct : List Byte) (off : Nat) :
    rawDecode bytes rct off =
      if rctFind rct off = some (crc64 (bytes.take 4096)) then .good (bytes.take 4096) else .check := by
  rw [rawDecode, if_neg (by omega)]
  cases rctFind rct off with
  | none => rw [if_neg (Option.some_ne_none _).symm]
  | some c => simp only [Option.some.injEq, eq_comm]

theorem decodeGranule_raw (off : Nat) (body rct more : List Byte) :
    decodeGranule true off body rct more = rawDecode (body.drop (16 * off) ++ more) rct (16 * off) := rfl

/-- Settles O52: a raw granule is decoded from its place in the body on, where 4,096 bytes are held. -/
theorem rawGranulesAreChecked : Obligations.RawGranulesAreChecked := by
  unfold Obligations.RawGranulesAreChecked
  intro off body rct more hheld
  rw [decodeGranule_raw, rawDecode_of_le_length hheld]

end Sys2Proof.Machine
end

section
/-!
PROOFS. The map cache (R144 to R150): an operation that MAP accepts goes on under its number and without a reason, and one that
ends raises OP_DONE.
-/

namespace Sys2Proof.Machine

/-! ### Parts that change -/

theorem State.updMap_only (s : State) (f : MapState → MapState) : Only [.map] s (s.updMap f) := by
  intro p hp
  cases p <;> simp_all [Part.same]

/-- An event changes its block's common registers and what is signalled. -/
theorem State.raise_only (s : State) (b : Blk) (bit : Nat) : Only [.blk, .msix] s (s.raise b bit) := by
  intro p hp
  cases p <;> simp_all [Part.same]

theorem State.raise_updMap_only (s : State) (f : MapState → MapState) (b : Blk) (bit : Nat) :
    Only [.map, .blk, .msix] s ((s.updMap f).raise b bit) :=
  ((s.updMap_only f).mono (by decide)).trans (((s.updMap f).raise_only b bit).mono (by decide))

/-! ### Operations (R148) -/

theorem State.updMap_updMap (s : State) (f g : MapState → MapState) : (s.updMap f).updMap g = s.updMap fun m => g (f m) := rfl

/-- An operation of an idle cache that nothing stands against is accepted. -/
theorem State.mapOp_accepted {s : State} (r : Requester) (op : Nat) {refuse : Nat} (go : State → State)
    (hpow : s.powered .map = true) (hena : (s.blk.get .map).enable = true) (hidle : s.map.busy = 0)
    (hrefuse : refuse = 0) :
    s.mapOp r op refuse go = go (s.updMap fun m => { m with lastOp := op, refused := false, reason := 0 }) := by
  simp [State.mapOp, State.updMap_updMap, hpow, hena, hidle, hrefuse]

/-- What completes by a change of MAP has changed MAP alone. -/
theorem Done.mapChanged {c : Instr} {s : State} {f : MapState → MapState} (hexec : exec c s = .next (s.updMap f)) :
    Done c s fun t => t = s.updMap f ∧ Only [.map] s t :=
  ⟨_, hexec, rfl, s.updMap_only f⟩

/-- What completes by a change of MAP and OP_DONE has raised that event. -/
theorem Done.mapEnded {c : Instr} {s : State} {f : MapState → MapState}
    (hexec : exec c s = .next ((s.updMap f).raise .map 0)) :
    Done c s fun t => t = (s.updMap f).raise .map 0 ∧ t.raisedBy s .map 0 ∧ Only [.map, .blk, .msix] s t :=
  ⟨_, hexec, rfl, s.raise_raisedBy_of _ .map 0 rfl, s.raise_updMap_only f .map 0⟩

/-! ### Clearing (R148) -/

@[simp] theorem MapState.clear_walk (m : MapState) : m.clear.walk = [] := rfl

/-- A cleared way holds nothing. -/
theorem MapState.clear_line {m : MapState} {e : Nat × List Line} (he : e ∈ m.clear.sets) {x : Line} (hx : x ∈ e.2) :
    x.tag = none ∧ x.valid = 0 ∧ x.dirty = 0 := by
  obtain ⟨_, _, rfl⟩ := List.mem_map.mp he
  obtain ⟨_, _, rfl⟩ := List.mem_map.mp hx
  exact ⟨rfl, rfl, rfl⟩

/-- Settles O4: nothing stands against an operation in its case, so MAP accepts it, and one that ends raises OP_DONE. -/
theorem mapCacheOperations : Obligations.MapCacheOperations := by
  unfold Obligations.MapCacheOperations
  refine ⟨?invalidate, ?flush, ?disable, ?enable, ?writeback, ?invalidated, ?flushed, ?evicted, ?clear⟩
  case invalidate =>
    intro r s hpow hena hidle hclean
    exact .mapChanged (congrArg Host.Outcome.next
      (State.mapOp_accepted r 1 _ hpow hena hidle (if_neg (not_not_intro hclean))))
  case flush =>
    intro r s hpow hena hidle
    exact .mapChanged (congrArg Host.Outcome.next (State.mapOp_accepted r 2 _ hpow hena hidle rfl))
  case disable =>
    intro r s hpow hena hidle hclean
    exact .mapEnded (congrArg Host.Outcome.next
      (State.mapOp_accepted r 3 _ hpow hena hidle (if_neg (not_not_intro hclean))))
  case enable =>
    intro r s hpow hena hidle hinv
    exact .mapEnded (congrArg Host.Outcome.next (State.mapOp_accepted r 4 _ hpow hena hidle (if_pos hinv)))
  case writeback =>
    intro r s hpow hena hidle hen
    exact .mapEnded (congrArg Host.Outcome.next (State.mapOp_accepted r 5 _ hpow hena hidle (if_pos hen)))
  case invalidated | flushed =>
    intro s hbusy
    exact .mapEnded (congrArg Host.Outcome.next (if_pos hbusy))
  case evicted => exact fun s => .mapChanged rfl
  case clear => exact fun m => ⟨m.clear_walk, fun _ he _ hx => m.clear_line he hx⟩

end Sys2Proof.Machine
end

section
/-!
PROOFS. The mailbox commands on volumes, namespaces and snapshots (R139, R154, R156, R262, R377): what a command names, and how a
request that it runs completes.
-/

namespace Sys2Proof.Machine

/-! ### What a command names -/

theorem ofRoot_ok {s : State} {n : Nat} {d : SD} (r : List Byte) (hdom : s.rootDom n = some d) :
    ofRoot n s r = .ok ⟨some d, [(1, n)]⟩ := by
  simp [ofRoot, hdom]

theorem onRoot_ok {s : State} {off : Nat} {r : List Byte} {d : SD} (hdom : s.rootDom (leAt r off 4) = some d) :
    onRoot off s r = .ok ⟨some d, [(1, leAt r off 4)]⟩ := by
  simp [onRoot, hdom]

theorem ofNs_ok {s : State} {n : Nat} {x : Namespace} (r : List Byte) (hns : s.ns? n = some x) :
    ofNs n s r = .ok ⟨some x.sd, [(1, x.root)]⟩ := by
  simp [ofNs, hns]

/-- The first of some roots that are all of one domain is of that domain. -/
theorem State.rootDom_headD {s : State} {l : List Nat} {d : SD} (hne : l ≠ []) (hdom : ∀ x ∈ l, s.rootDom x = some d) :
    s.rootDom (l.headD 0) = some d := by
  cases l with
  | nil => exact absurd rfl hne
  | cons x l => exact hdom x List.mem_cons_self

/-- The roots a SNAP_TAKE lists, all of one domain, are what it names (R154). -/
theorem State.snapNames_ok {s : State} {r : List Byte} {d : SD} (hne : snapSrc r ≠ []) (hlen : (snapSrc r).length ≤ 64)
    (hzero : leAt r 9 3 = 0) (hdom : ∀ x ∈ snapSrc r, s.rootDom x = some d) :
    s.snapNames r = .ok ⟨some d, (snapSrc r).map fun x => (1, x)⟩ := by
  have hknown : ((snapSrc r).any fun x => (s.rootDom x).isNone) = false :=
    List.any_eq_false.mpr fun x hx => by simp [hdom x hx]
  have hsame : ((snapSrc r).any fun x => decide (s.rootDom x ≠ some d)) = false :=
    List.any_eq_false.mpr fun x hx => by simp [hdom x hx]
  simp only [State.snapNames]
  rw [if_neg (by simp [hne, hzero, Nat.not_lt.mpr hlen]), State.rootDom_headD hne hdom]
  simp only [hknown, hsame]
  rfl

/-! ### How a request that its command runs completes -/

section
variable {s s1 : State} {c op : Nat} {ch : Bool} {r : List Byte} {d : Option SD} {objs : List (Nat × Nat)}
  {names : State → List Byte → Except Nat Names} {f : State → List Byte → Ans}

/-- A command whose rules answer at once. -/
theorem State.runCmd_answers {rsn : Nat} {data : List Byte} (htakes : s.takesCmd c op r d objs)
    (hnames : names s r = .ok ⟨d, objs⟩) (hrun : f s r = .done rsn data s1) :
    s.runCmd c op ch names f = .next (s1.answerCmd c op ch d r rsn data) := by
  rw [State.runCmd_takes htakes hnames, hrun]

/-- A command that runs on holds what it names. -/
theorem State.runCmd_runsOn (htakes : s.takesCmd c op r d objs) (hnames : names s r = .ok ⟨d, objs⟩)
    (hrun : f s r = .later s1) :
    s.runCmd c op ch names f = .next (s1.updMbx fun m => { m with running := m.running ++ objs }) := by
  rw [State.runCmd_takes htakes hnames, hrun]

end

/-! ### Volumes (R139, R140, R156) -/

/-- VOL_CREATE of parameters in range, at the root named or the first free one. -/
theorem execVolCreate_takes {c : Nat} {s : State} {r : List Byte} {n : Nat} {objs : List (Nat × Nat)}
    (htakes : s.takesCmd c 0x0101 r (some (SD.ofBit (leAt r 8 1))) ([(7, leAt r 8 1), (2, leAt r 9 1)] ++ objs))
    (hobjs : objs = if leAt r 20 4 = 0xFFFFFFFF then [] else [(1, leAt r 20 4)])
    (hsd : leAt r 8 1 ≤ 1) (hzero : leAt r 10 2 = 0) (hrest : leAt r 24 8 = 0) (hpos : 0 < leAt r 12 8)
    (hsize : leAt r 12 8 ≤ 2 ^ 38) (hkdom : (Table.find s.dp.kdoms (leAt r 9 1)).isSome = true)
    (hwant : leAt r 20 4 ≠ 0xFFFFFFFF → leAt r 20 4 ≤ 2097151 ∧ s.rootUsed (leAt r 20 4) = false)
    (hroot : (if leAt r 20 4 = 0xFFFFFFFF then s.freeRoot else some (leAt r 20 4)) = some n) :
    execVolCreate c s = .next ((s.makeVolume (SD.ofBit (leAt r 8 1)) n (leAt r 9 1) (leAt r 12 8)).answerCmd c 0x0101 true
      (some (SD.ofBit (leAt r 8 1))) r 0 (leBytes 4 n)) := by
  subst hobjs
  refine State.runCmd_answers htakes (if_neg (Nat.not_lt.mpr hsd)) ?_
  have hmax : leAt r 20 4 ≠ 0xFFFFFFFF → leAt r 20 4 ≤ 2097151 := fun hne => (hwant hne).1
  have hrange : ¬ (leAt r 10 2 ≠ 0 ∨ leAt r 24 8 ≠ 0 ∨ leAt r 12 8 = 0 ∨ leAt r 12 8 > 2 ^ 38 ∨
      (leAt r 20 4 ≠ 0xFFFFFFFF ∧ leAt r 20 4 > 2097151)) := by omega
  have hfree : ¬ (leAt r 20 4 ≠ 0xFFFFFFFF ∧ s.rootUsed (leAt r 20 4) = true) := fun ⟨hne, hused⟩ =>
    Bool.false_ne_true ((hwant hne).2.symm.trans hused)
  dsimp only
  rw [if_neg hrange, if_neg (by simp [Option.isSome_iff_ne_none.mp hkdom]), if_neg hfree, hroot]

/-- A root of the kind named that nothing stands in the way of is deleted once it is quiet. -/
theorem State.deleteCmd_waits {s : State} {n : Nat} {snap : Bool} {d : SD} {x : RootRec} (c : Nat)
    (hdom : s.rootDom n = some d) (hinfo : s.rootInfo d n = some x) (hkind : decide (x.kind = 1) = snap)
    (hlive : x.deleting = false) (hsealed : x.kind = 1 → x.isSealed = true) (hnamed : s.rootNamed d n = false)
    (hatt : s.attached d n = false) :
    s.deleteCmd c n snap = .later (s.waitFor c (.quiet n) (some d) [(1, n)]) := by
  simp only [State.deleteCmd, hdom, hinfo]
  rw [if_neg (by simp [hkind, hlive]), if_neg (by simp [hnamed, hatt]), if_neg (by simpa using hsealed)]

/-! ### Namespaces (R262) -/

theorem State.onNamespace_some {s : State} {n : Nat} {x : Namespace} (f : Namespace → Ans) (hns : s.ns? n = some x) :
    s.onNamespace n f = f x := by
  simp [State.onNamespace, hns]

/-- A command on a namespace whose rules answer at once. -/
theorem State.runCmd_onNamespace {s s1 : State} {c op n rsn : Nat} {ch : Bool} {r data : List Byte} {x : Namespace}
    {f : State → Namespace → Ans} (htakes : s.takesCmd c op r (some x.sd) [(1, x.root)]) (hns : s.ns? n = some x)
    (hrun : f s x = .done rsn data s1) :
    s.runCmd c op ch (ofNs n) (fun s _ => s.onNamespace n (f s)) =
      .next (s1.answerCmd c op ch (some x.sd) r rsn data) :=
  State.runCmd_answers htakes (ofNs_ok r hns) ((s.onNamespace_some (f s) hns).trans hrun)

/-- Settles O12: every request is one that its command runs, and the operands of its case pass each of the command's checks. -/
theorem mailboxVolumeCommands : Obligations.MailboxVolumeCommands := by
  unfold Obligations.MailboxVolumeCommands
  refine ⟨?createNamed, ?delete, ?resize, ?nsCreate, ?nsDelete, ?nsAttach, ?nsDetach, ?nsQos, ?snapTake, ?snapDelete,
    ?clone, ?list, ?createFree⟩
  case createNamed =>
    intro c s r n htakes hsd hzero hrest hpos hsize hkdom hwant hmax hunused
    have hnamed : leAt r 20 4 ≠ 0xFFFFFFFF := by omega
    exact Done.eq (execVolCreate_takes htakes (by rw [if_neg hnamed, hwant]) hsd hzero hrest hpos hsize hkdom
      (fun _ => hwant ▸ ⟨hmax, hunused⟩) (by rw [if_neg hnamed, hwant]))
  case createFree =>
    intro c s r n htakes hsd hzero hrest hpos hsize hkdom hwant hfree
    exact Done.eq (execVolCreate_takes htakes (if_pos hwant).symm hsd hzero hrest hpos hsize hkdom
      (absurd hwant) ((if_pos hwant).trans hfree))
  case delete =>
    intro c s r d n x htakes hdom hinfo hkind hlive hnamed hatt
    refine Done.eq (?_ : execVolDelete c n s = _)
    exact State.runCmd_runsOn htakes (ofRoot_ok r hdom)
      (State.deleteCmd_waits c hdom hinfo (decide_eq_false hkind) hlive (absurd · hkind) hnamed hatt)
  case snapDelete =>
    intro c s r d n x htakes hdom hinfo hkind hlive hsealed hnamed hatt
    refine Done.eq (?_ : execSnapDelete c n s = _)
    exact State.runCmd_runsOn htakes (ofRoot_ok r hdom)
      (State.deleteCmd_waits c hdom hinfo (decide_eq_true hkind) hlive (fun _ => hsealed) hnamed hatt)
  case resize =>
    intro c s r d n size x s2 g htakes hdom hroot hkind hlive hgrow hsize hg hs2
    subst hg hs2
    refine Done.eq (?_ : execVolResize c n size s = _)
    refine State.runCmd_answers htakes (ofRoot_ok r hdom) ?_
    simp only [hdom, hroot]
    rw [if_neg (by simp [hkind, hlive]), if_neg (by omega)]
  case nsCreate =>
    intro c s r d x n htakes hdom hroot hn hroom hpi hflag hzero hlive hsealed hnamed hwant hfree
    subst hn
    refine Done.eq (?_ : execNsCreate c s = _)
    refine State.runCmd_answers htakes (onRoot_ok hdom) ?_
    simp only [hdom, hroot]
    rw [if_neg (by omega), if_neg (by simp [hlive]), if_neg (by simpa using hsealed), if_neg (by simp [hnamed]),
      if_neg (by simpa using hfree), if_neg (Nat.not_lt.mpr hroom)]
  case nsDelete =>
    intro c s r n x htakes hns hnone
    refine Done.eq (?_ : execNsDelete c n s = _)
    exact State.runCmd_onNamespace htakes hns (if_pos (by simp [hnone]))
  case nsAttach =>
    intro c s r n x l htakes hns hids htarget
    refine Done.eq (?_ : execNsAttach c n l s = _)
    exact State.runCmd_onNamespace htakes hns (by rw [if_neg (by simp [hids]), if_neg (by simp [htarget])])
  case nsDetach =>
    intro c s r n x l htakes hns hids
    refine Done.eq (?_ : execNsDetach c n l s = _)
    exact State.runCmd_onNamespace htakes hns (if_neg (by simp [hids]))
  case nsQos =>
    intro c s r n g x htakes hns hgroup
    refine Done.eq (?_ : execNsQosSet c n g s = _)
    exact State.runCmd_onNamespace htakes hns (if_neg (by omega))
  case snapTake =>
    intro c s r d l p ids s1 hl htakes hne hlen hzero hdom hvols htaken
    subst hl
    refine Done.eq (?_ : execSnapTake c s = _)
    refine State.runCmd_runsOn htakes (State.snapNames_ok hne hlen hzero hdom) ?_
    simp only [State.rootDom_headD hne hdom, htaken]
    exact if_neg (ne_true_of_eq_false hvols)
  case clone =>
    intro c s r d n k x htakes hdom hroot hfree hkind hlive hsealed
    refine Done.eq (?_ : execCloneCreate c n s = _)
    refine State.runCmd_answers htakes (ofRoot_ok r hdom) ?_
    simp only [hdom, hroot, hfree]
    rw [if_neg (by simp [hkind, hlive]), if_neg (by simp [hsealed])]
  case list =>
    intro c s r d start addr len l htakes hl
    subst hl
    refine Done.eq (?_ : execRootList c d start addr len true s = _)
    exact State.runCmd_answers htakes rfl rfl

end Sys2Proof.Machine
end

section
/-!
PROOFS. The wait of an erase (R70, R177): a segment whose erase must wait is deferred, and counted where the counters list each key
once. Where they list one twice the addition is not seen, as with the relinks above.
-/

namespace Sys2Proof.Machine

/-! ### What a deferral changes -/

theorem State.updMed_only (s : State) (f : MedState → MedState) : Only [.med] s (s.updMed f) := by
  intro p hp
  cases p <;> simp_all [Part.same]

theorem State.count_only (s : State) (c : Ctr) (n : Nat) : Only [.counters] s (s.count c n) := by
  intro p hp
  cases p <;> simp_all [Part.same]

/-- The segment is noted as waiting, and its wait counted. -/
def State.defer (s : State) (p g : Nat) : State :=
  (s.updMed fun m => { m with deferred := m.deferred ++ [psegKey p g] }).count .medEraseDeferred

theorem State.defer_only (s : State) (p g : Nat) : Only [.med, .counters] s (s.defer p g) :=
  ((s.updMed_only _).mono (by decide)).trans ((State.count_only _ _ _).mono (by decide))

theorem State.defer_counter {s : State} (hwf : s.counters.wf = true) (p g : Nat) :
    (s.defer p g).counter .medEraseDeferred = s.counter .medEraseDeferred + 1 :=
  State.counter_setCounter hwf _ _

/-! ### An erase whose turn it is (R167, R274) -/

/-- A segment of this head on a present module is to be erased, nothing goes before it and nothing uses it. -/
structure EraseDue (s : State) (p g : Nat) (r : PSegRec) : Prop where
  seg : s.psegOf p g = some r
  wanted : r.st = .pendingErase ∨ (r.st = .erasing ∧
    (s.mlk.out.any fun o => decide (o.cmd.op = .erase ∧ o.cmd.port = p ∧ o.cmd.pseg = g)) = false)
  owned : s.owns r.sd = true
  present : s.present p = true
  media : s.up .med = true
  link : s.up .mlk = true
  turn : s.eraseTurn (psegKey p g) = true
  quiet : (s.mlk.out.any fun o => o.res.isNone && decide (o.cmd.port = p ∧ o.cmd.pseg = g ∧ o.cmd.op ≠ .descr ∧
    o.cmd.op ≠ .temp ∧ o.cmd.op ≠ .admin ∧ o.cmd.op ≠ .fence)) = false

section
variable {s : State} {p g : Nat} {r : PSegRec}

/-- Such a segment passes the checks of its row. -/
theorem EraseDue.checks (h : EraseDue s p g r) :
    ¬ ((r.st ≠ .pendingErase ∧ !(decide (r.st = .erasing) &&
        !(s.mlk.out.any fun o => o.cmd.op = .erase ∧ o.cmd.port = p ∧ o.cmd.pseg = g))) ∨
      !s.owns r.sd ∨ !s.present p ∨ !s.up .med ∨ !s.up .mlk ∨ !s.eraseTurn (psegKey p g) ∨
      (s.mlk.out.any fun o => o.res.isNone && decide (o.cmd.port = p ∧ o.cmd.pseg = g ∧ o.cmd.op ≠ .descr ∧
        o.cmd.op ≠ .temp ∧ o.cmd.op ≠ .admin ∧ o.cmd.op ≠ .fence))) := by
  rw [h.owned, h.present, h.media, h.link, h.turn, h.quiet]
  rcases h.wanted with hpending | ⟨herasing, hidle⟩
  · simp [hpending]
  · rw [hidle]
    simp [herasing]

/-- It must wait while no checkpoint covers its change or a read pins it (R70, R177). -/
theorem EraseDue.execEraseIssue_held (h : EraseDue s p g r)
    (hheld : s.map.ckpt.get r.sd < r.changed ∨ Table.getD s.med.pins (psegKey p g) 0 ≠ 0)
    (hnew : psegKey p g ∉ s.med.deferred) : execEraseIssue p g s = .next (s.defer p g) := by
  simp only [execEraseIssue, h.seg]
  rw [if_neg h.checks, if_pos hheld, if_neg hnew]
  rfl

/-- What MediaManagement says of an erase that must wait holds where the counters list no key twice. -/
theorem EraseDue.deferral_counted (h : EraseDue s p g r)
    (hheld : s.map.ckpt.get r.sd < r.changed ∨ Table.getD s.med.pins (psegKey p g) 0 ≠ 0)
    (hnew : psegKey p g ∉ s.med.deferred) (hwf : s.counters.wf = true) :
    Done (.eraseIssue p g) s fun t => t = s.defer p g ∧ t.psegOf p g = some r ∧ t.mlk = s.mlk ∧
      t.counter .medEraseDeferred = s.counter .medEraseDeferred + 1 ∧ Only [.med, .counters] s t :=
  ⟨_, h.execEraseIssue_held hheld hnew, rfl, h.seg, rfl, s.defer_counter hwf p g, s.defer_only p g⟩

end

/-! ### The refutation -/

/-- Segment 70 of the module at port 2, freed and awaiting its erase. -/
def pinnedSegment : PSegRec := { PSegRec.fresh false with st := .pendingErase }

/-- A head with MED and MLK enabled that owns domain A and sees the module at port 2: a read pins the segment awaiting
its erase, and the counters list MED_ERASE_DEFERRED twice. -/
def pinnedErase : State := { State.reset with
  blk := (State.reset.blk.set .med (.reset true)).set .mlk (.reset true)
  ubl := { UblState.reset with own := ⟨true, false⟩ }
  mlk := { MlkState.reset with ports := [(2, { Port.empty with state := 2 })] }
  med := { MedState.reset with pseg := [(psegKey 2 70, pinnedSegment)], pins := [(psegKey 2 70, 1)] }
  counters := [(Ctr.medEraseDeferred.addr, BitVec.allOnes 32), (Ctr.medEraseDeferred.addr, 5)] }

theorem pinnedErase_due : EraseDue pinnedErase 2 70 pinnedSegment where
  seg := by decide +kernel
  wanted := .inl rfl
  owned := by decide +kernel
  present := by decide +kernel
  media := by decide +kernel
  link := by decide +kernel
  turn := by decide +kernel
  quiet := by decide +kernel

/-- Refutes O30, by its clause on the erase that must wait: the counters list MED_ERASE_DEFERRED twice, with all ones first,
so that the addition wraps to 0 and drops the first listing only, and the counter reads the second one's value, 5, and not 0. The
keys of such a list do not rise; where they do, the clause holds (`EraseDue.deferral_counted`). -/
theorem not_mediaManagement : ¬ Obligations.MediaManagement := by
  unfold Obligations.MediaManagement
  rintro ⟨-, -, -, -, -, -, -, -, -, -, -, -, hdeferred, -⟩
  have due := pinnedErase_due
  have pinned : Table.getD pinnedErase.med.pins (psegKey 2 70) 0 ≠ 0 := by decide +kernel
  have new : psegKey 2 70 ∉ pinnedErase.med.deferred := by decide +kernel
  obtain ⟨t, -, rfl, -, -, hcounted, -⟩ := hdeferred pinnedErase 2 70 pinnedSegment due.seg due.wanted due.owned due.present
    due.media due.link due.turn due.quiet (.inr pinned) new
  exact absurd hcounted (by decide +kernel)

end Sys2Proof.Machine
end

section
/-!
PROOFS. The byte memories (R196, R286, R311, R312): every step keeps their canonical form.
-/

namespace Sys2Proof.Machine

/-- Settles O44: every command goes on, which includes that canonical memories stay so, and the idle step touches none. -/
theorem everyStepKeepsTheMemoriesCanonical : Obligations.EveryStepKeepsTheMemoriesCanonical := by
  unfold Obligations.EveryStepKeepsTheMemoriesCanonical
  intro s t hok hstep
  cases hpending : s.pending with
  | nil =>
    simp only [step, hpending] at hstep
    cases hstep
    exact (held_of_kept s.tick_kept).2 hok
  | cons c rest =>
    rw [stepRunsTheFrontCommand c s rest hpending] at hstep
    exact ((exec_goesOn c { s with pending := rest }).held hstep).2 hok

end Sys2Proof.Machine
end

section
/-!
PROOFS. Parity (R189, R200): multiplication by a constant respects the exclusive or, is associative and has inverses, so
the sums of a row give back what the images held leave out of them.
-/

namespace Sys2Proof.Machine

/-! ### The field of R189 -/

/-- Doubling shifts, and folds the bit shifted out into the polynomial. -/
theorem gfDouble_eq (p a : Nat) : gfDouble p a = (a <<< 1) % 2 ^ 8 ^^^ (if a.testBit 7 then p else 0) := by
  have top : a % 256 ≥ 128 ↔ a.testBit 7 = true := by
    rw [Nat.testBit_eq_decide_div_mod_eq, decide_eq_true_iff]
    omega
  simp only [gfDouble, top]
  split <;> simp

theorem xor_interchange (a b c d : Nat) : (a ^^^ b) ^^^ (c ^^^ d) = (a ^^^ c) ^^^ (b ^^^ d) := by ac_rfl

theorem gfDouble_xor (p a b : Nat) : gfDouble p (a ^^^ b) = gfDouble p a ^^^ gfDouble p b := by
  simp only [gfDouble_eq, Nat.shiftLeft_xor_distrib, Nat.xor_mod_two_pow, Nat.testBit_xor]
  rw [xor_interchange _ _ (b <<< 1 % 2 ^ 8)]
  cases a.testBit 7 <;> cases b.testBit 7 <;> simp

theorem gfMulAux_xor_left (p n a a' b : Nat) :
    gfMulAux p n (a ^^^ a') b = gfMulAux p n a b ^^^ gfMulAux p n a' b := by
  induction n generalizing a a' b with
  | zero => exact (Nat.xor_self 0).symm
  | succ n ih =>
    simp only [gfMulAux, gfDouble_xor, ih]
    rw [xor_interchange _ (gfMulAux p n (gfDouble p a) (b / 2))]
    split <;> simp

theorem gfMulAux_xor_right (p n a b b' : Nat) :
    gfMulAux p n a (b ^^^ b') = gfMulAux p n a b ^^^ gfMulAux p n a b' := by
  induction n generalizing a b b' with
  | zero => exact (Nat.xor_self 0).symm
  | succ n ih =>
    have low : (b ^^^ b') % 2 = b % 2 ^^^ b' % 2 := Nat.xor_mod_two_pow (n := 1)
    have high : (b ^^^ b') / 2 = b / 2 ^^^ b' / 2 := Nat.xor_div_two_pow (n := 1)
    simp only [gfMulAux, high, ih, low]
    rw [xor_interchange _ (gfMulAux p n (gfDouble p a) (b / 2))]
    rcases Nat.mod_two_eq_zero_or_one b with h | h <;> rcases Nat.mod_two_eq_zero_or_one b' with h' | h' <;> simp [h, h']

theorem gfMul_xor_left (p a a' b : Nat) : gfMul p (a ^^^ a') b = gfMul p a b ^^^ gfMul p a' b := by
  simp only [gfMul, Nat.xor_mod_two_pow (n := 8), gfMulAux_xor_left]

theorem gfMul_xor_right (p a b b' : Nat) : gfMul p a (b ^^^ b') = gfMul p a b ^^^ gfMul p a b' := by
  simp only [gfMul, Nat.xor_mod_two_pow (n := 8), gfMulAux_xor_right]

@[simp] theorem gfMul_mod_left (p a b : Nat) : gfMul p (a % 256) b = gfMul p a b := by simp [gfMul]

@[simp] theorem gfMul_mod_right (p a b : Nat) : gfMul p a (b % 256) = gfMul p a b := by simp [gfMul]

/-- Functions that respect the exclusive or and agree on the powers of two below a bound agree below it. -/
theorem eq_of_xor_hom {f g : Nat → Nat} (hf : ∀ a b, f (a ^^^ b) = f a ^^^ f b)
    (hg : ∀ a b, g (a ^^^ b) = g a ^^^ g b) {n : Nat} (h : ∀ i < n, f (2 ^ i) = g (2 ^ i)) {a : Nat} (ha : a < 2 ^ n) :
    f a = g a := by
  induction n generalizing a with
  | zero =>
    obtain rfl : a = 0 := by omega
    have hf0 := hf 0 0
    have hg0 := hg 0 0
    simp only [Nat.xor_self] at hf0 hg0
    rw [hf0, hg0]
  | succ n ih =>
    have below := fun {b : Nat} => ih (a := b) fun i hi => h i (by omega)
    rcases Nat.lt_or_ge a (2 ^ n) with hlow | hhigh
    · exact below hlow
    · have low : a ^^^ 2 ^ n < 2 ^ n := by
        rw [Nat.pow_succ] at ha
        have pos : 0 < 2 ^ n := Nat.two_pow_pos n
        have top : a / 2 ^ n = 1 := Nat.div_eq_of_lt_le (by omega) (by omega)
        apply Nat.lt_of_div_eq_zero pos
        rw [Nat.xor_div_two_pow, top, Nat.div_self pos, Nat.xor_self]
      have parts : a = 2 ^ n ^^^ (a ^^^ 2 ^ n) := by
        rw [Nat.xor_comm a, ← Nat.xor_assoc, Nat.xor_self, Nat.zero_xor]
      rw [parts, hf, hg, h n (by omega), below low]

/-- The same without a bound, of functions of the low byte. -/
theorem eq_of_xor_hom_byte {f g : Nat → Nat} (hf : ∀ a b, f (a ^^^ b) = f a ^^^ f b)
    (hg : ∀ a b, g (a ^^^ b) = g a ^^^ g b) (hfbyte : ∀ a, f (a % 256) = f a) (hgbyte : ∀ a, g (a % 256) = g a)
    (h : ∀ i < 8, f (2 ^ i) = g (2 ^ i)) (a : Nat) : f a = g a := by
  rw [← hfbyte, ← hgbyte]
  exact eq_of_xor_hom hf hg h (Nat.mod_lt _ (by decide))

/-- Multiplication is associative: both sides respect the exclusive or in each factor, so that powers of two tell. -/
theorem gfMul_assoc (a b c : Nat) : gfMul 0x1D (gfMul 0x1D a b) c = gfMul 0x1D a (gfMul 0x1D b c) := by
  have powers : ∀ i < 8, ∀ j < 8, ∀ k < 8, gfMul 0x1D (gfMul 0x1D (2 ^ i) (2 ^ j)) (2 ^ k) =
      gfMul 0x1D (2 ^ i) (gfMul 0x1D (2 ^ j) (2 ^ k)) := by decide +kernel
  refine eq_of_xor_hom_byte (f := fun a => gfMul 0x1D (gfMul 0x1D a b) c) (g := fun a => gfMul 0x1D a (gfMul 0x1D b c))
    (by simp [gfMul_xor_left]) (by simp [gfMul_xor_left]) (by simp) (by simp) (fun i hi => ?_) a
  refine eq_of_xor_hom_byte (f := fun b => gfMul 0x1D (gfMul 0x1D (2 ^ i) b) c)
    (g := fun b => gfMul 0x1D (2 ^ i) (gfMul 0x1D b c)) (by simp [gfMul_xor_left, gfMul_xor_right])
    (by simp [gfMul_xor_left, gfMul_xor_right]) (by simp) (by simp) (fun j hj => ?_) b
  exact eq_of_xor_hom_byte (f := fun c => gfMul 0x1D (gfMul 0x1D (2 ^ i) (2 ^ j)) c)
    (g := fun c => gfMul 0x1D (2 ^ i) (gfMul 0x1D (2 ^ j) c)) (by simp [gfMul_xor_right]) (by simp [gfMul_xor_right])
    (by simp) (by simp) (fun k hk => powers i hi j hj k hk) c

theorem gfMul_one (p a : Nat) : gfMul p a 1 = a % 256 := by simp [gfMul, gfMulAux]

theorem one_gfMul (b : Nat) : gfMul 0x1D 1 b = b % 256 := by
  have powers : ∀ i < 8, gfMul 0x1D 1 (2 ^ i) = 2 ^ i % 256 := by decide
  exact eq_of_xor_hom_byte (g := (· % 256)) (gfMul_xor_right _ _) (fun _ _ => Nat.xor_mod_two_pow (n := 8))
    (gfMul_mod_right _ _) (fun _ => Nat.mod_mod _ _) powers b

theorem gfDouble_lt {p : Nat} (hp : p < 256) (a : Nat) : gfDouble p a < 256 := by
  rw [gfDouble_eq]
  refine Nat.xor_lt_two_pow (n := 8) (Nat.mod_lt _ (by decide)) ?_
  split <;> omega

theorem gfMulAux_lt {p a : Nat} (hp : p < 256) (ha : a < 256) (n b : Nat) : gfMulAux p n a b < 256 := by
  induction n generalizing a b with
  | zero => exact Nat.zero_lt_succ _
  | succ n ih =>
    refine Nat.xor_lt_two_pow (n := 8) ?_ (ih (gfDouble_lt hp a) _)
    split <;> omega

theorem gfMul_lt {p : Nat} (hp : p < 256) (a b : Nat) : gfMul p a b < 256 :=
  gfMulAux_lt hp (Nat.mod_lt _ (by decide)) _ _

theorem gfPow_lt (a n : Nat) : gfPow 0x1D a n < 256 := by
  cases n with
  | zero => exact Nat.one_lt_succ_succ _
  | succ n => exact gfMul_lt (by decide) _ _

theorem gfPow_add (a m n : Nat) : gfPow 0x1D a (m + n) = gfMul 0x1D (gfPow 0x1D a m) (gfPow 0x1D a n) := by
  induction m with
  | zero => rw [Nat.zero_add, gfPow, one_gfMul, Nat.mod_eq_of_lt (gfPow_lt a n)]
  | succ m ih => rw [Nat.add_right_comm, gfPow, gfPow, ih, gfMul_assoc]

/-- The powers 0, 1, 3, 7, ... of `a`: each is the square of the one before, times `a`. -/
def gfSquares (a : Nat) : Nat → Nat
  | 0 => 1
  | n + 1 => gfMul 0x1D a (gfMul 0x1D (gfSquares a n) (gfSquares a n))

theorem gfSquares_eq (a n : Nat) : gfSquares a n = gfPow 0x1D a (2 ^ n - 1) := by
  induction n with
  | zero => rfl
  | succ n ih =>
    have next : 2 ^ (n + 1) - 1 = ((2 ^ n - 1) + (2 ^ n - 1)) + 1 := by
      have pos : 0 < 2 ^ n := Nat.two_pow_pos n
      rw [Nat.pow_succ]
      omega
    rw [next, gfPow, gfPow_add, ← ih, gfSquares]

/-- Every element but 0 has its power 254 as inverse (R200). -/
theorem gfInv_gfMul {c : Nat} (h0 : c ≠ 0) (h : c < 256) : gfMul 0x1D (gfInv 0x1D c) c = 1 := by
  have order : ∀ c < 256, c ≠ 0 → gfSquares c 8 = 1 := by decide +kernel
  have one : gfPow 0x1D c 1 = c := by rw [gfPow, gfPow, gfMul_one, Nat.mod_eq_of_lt h]
  calc gfMul 0x1D (gfInv 0x1D c) c = gfMul 0x1D (gfPow 0x1D c 254) (gfPow 0x1D c 1) := by rw [one, gfInv]
    _ = gfPow 0x1D c (254 + 1) := (gfPow_add c 254 1).symm
    _ = gfSquares c 8 := (gfSquares_eq c 8).symm
    _ = 1 := order c h h0

/-! ### Bytes and images -/

/-- A byte times a constant: what `gfScale` does to each byte (`gfScale_eq_map`). -/
def gfByte (c : Nat) (b : Byte) : Byte := BitVec.ofNat 8 (gfMul 0x1D c b.toNat)

theorem gfByte_toNat (c : Nat) (b : Byte) : (gfByte c b).toNat = gfMul 0x1D c b.toNat :=
  (BitVec.toNat_ofNat ..).trans (Nat.mod_eq_of_lt (gfMul_lt (by decide) _ _))

@[simp] theorem gfByte_one (b : Byte) : gfByte 1 b = b :=
  BitVec.eq_of_toNat_eq ((gfByte_toNat 1 b).trans ((one_gfMul _).trans (Nat.mod_eq_of_lt b.isLt)))

theorem gfByte_xor (c : Nat) (a b : Byte) : gfByte c (a ^^^ b) = gfByte c a ^^^ gfByte c b :=
  BitVec.eq_of_toNat_eq (by simp [gfByte_toNat, gfMul_xor_right])

theorem gfByte_xor_const (c c' : Nat) (b : Byte) : gfByte c b ^^^ gfByte c' b = gfByte (c ^^^ c') b :=
  BitVec.eq_of_toNat_eq (by simp [gfByte_toNat, gfMul_xor_left])

theorem gfByte_gfByte (c c' : Nat) (b : Byte) : gfByte c (gfByte c' b) = gfByte (gfMul 0x1D c c') b :=
  BitVec.eq_of_toNat_eq (by simp [gfByte_toNat, gfMul_assoc])

theorem gfScale_eq_map (c : Nat) (l : List Byte) : gfScale c l = l.map (gfByte c) := by
  unfold gfScale
  split
  · next h =>
    have same : gfByte 1 = id := funext gfByte_one
    rw [h, same, List.map_id]
  · rfl

@[simp] theorem gfScale_length (c : Nat) (l : List Byte) : (gfScale c l).length = l.length := by simp [gfScale_eq_map]

theorem gfScale_xorBytes (c : Nat) (x y : List Byte) : gfScale c (xorBytes x y) = xorBytes (gfScale c x) (gfScale c y) := by
  simp only [gfScale_eq_map, xorBytes, List.map_zipWith, List.zipWith_map, gfByte_xor]

theorem gfScale_xor_const (c c' : Nat) (l : List Byte) : xorBytes (gfScale c l) (gfScale c' l) = gfScale (c ^^^ c') l := by
  simp only [gfScale_eq_map, xorBytes, List.zipWith_map, List.zipWith_self, gfByte_xor_const]

theorem gfScale_gfInv {c : Nat} (h0 : c ≠ 0) (h : c < 256) (l : List Byte) : gfScale (gfInv 0x1D c) (gfScale c l) = l := by
  simp [gfScale_eq_map, gfByte_gfByte, gfInv_gfMul h0 h, Function.comp_def]

theorem xorBytes_comm (x y : List Byte) : xorBytes x y = xorBytes y x := List.zipWith_comm_of_comm BitVec.xor_comm

theorem xorBytes_assoc (x y z : List Byte) : xorBytes (xorBytes x y) z = xorBytes x (xorBytes y z) := by
  induction x generalizing y z with
  | nil => rfl
  | cons a x ih =>
    cases y with
    | nil => rfl
    | cons b y =>
      cases z with
      | nil => rfl
      | cons c z =>
        show (a ^^^ b ^^^ c) :: xorBytes (xorBytes x y) z = (a ^^^ (b ^^^ c)) :: xorBytes x (xorBytes y z)
        rw [BitVec.xor_assoc, ih]

theorem xorBytes_right_comm (x y z : List Byte) : xorBytes (xorBytes x y) z = xorBytes (xorBytes x z) y := by
  rw [xorBytes_assoc, xorBytes_comm y, ← xorBytes_assoc]

/-- A fill pack adds nothing to an image (R189). -/
theorem xorBytes_fillPack {d : List Byte} (h : d.length = imageLen) : xorBytes fillPack d = d := by
  rw [xorBytes_comm, xorBytes, fillPack, zeros, ← h]
  exact List.ext_getElem (by simp) fun i h1 h2 => by simp

/-! ### The sums of a row -/

/-- The exclusive or of `acc` and the terms of the numbered images `l`. -/
def rowSum (term : Nat × List Byte → List Byte) (acc : List Byte) (l : List (Nat × List Byte)) : List Byte :=
  l.foldl (fun a e => xorBytes a (term e)) acc

/-- A data image's term of Q (R189). -/
def termQ (e : Nat × List Byte) : List Byte := gfScale (gPow e.1) e.2

@[simp] theorem termQ_length (e : Nat × List Byte) : (termQ e).length = e.2.length := gfScale_length ..

/-- The data images of a row with their indices. -/
def numbered (imgs : List (List Byte)) : List (Nat × List Byte) := imgs.zipIdx.map fun y => (y.2, y.1)

theorem mem_numbered {imgs : List (List Byte)} {e : Nat × List Byte} : e ∈ numbered imgs ↔ imgs[e.1]? = some e.2 := by
  rw [numbered, List.mem_map]
  constructor
  · rintro ⟨y, hy, rfl⟩
    exact List.mem_zipIdx_iff_getElem?.mp hy
  · exact fun he => ⟨(e.2, e.1), List.mem_zipIdx_iff_getElem?.mpr he, rfl⟩

theorem numbered_nodup (imgs : List (List Byte)) : (numbered imgs).Nodup := by
  have indices : (numbered imgs).map Prod.fst = List.range' 0 imgs.length := by
    rw [numbered, List.map_map]
    exact List.zipIdx_map_snd 0 imgs
  have distinct : ((numbered imgs).map Prod.fst).Nodup := by rw [indices]; exact List.nodup_range' 1
  exact List.Pairwise.of_map Prod.fst (fun _ _ hne heq => hne (congrArg Prod.fst heq)) distinct

theorem numbered_images (imgs : List (List Byte)) : (numbered imgs).map Prod.snd = imgs := by
  rw [numbered, List.map_map]
  exact List.zipIdx_map_fst 0 imgs

theorem parityP_eq (imgs : List (List Byte)) : parityP imgs = rowSum Prod.snd fillPack (numbered imgs) := by
  rw [rowSum, ← List.foldl_map, numbered_images, parityP]

theorem parityQ_eq (imgs : List (List Byte)) : parityQ imgs = rowSum termQ fillPack (numbered imgs) := by
  rw [rowSum, numbered, List.foldl_map]
  rfl

theorem solveA_eq (p : List Byte) (avail : List (Nat × List Byte)) : solveA p avail = rowSum Prod.snd p avail := rfl

theorem solveB_eq (q : List Byte) (avail : List (Nat × List Byte)) : solveB q avail = rowSum termQ q avail := rfl

theorem rowSum_xorBytes (term : Nat × List Byte → List Byte) (a z : List Byte) (l : List (Nat × List Byte)) :
    rowSum term (xorBytes a z) l = xorBytes (rowSum term a l) z := by
  induction l generalizing a with
  | nil => rfl
  | cons e l ih =>
    show rowSum term (xorBytes (xorBytes a z) (term e)) l = xorBytes (rowSum term (xorBytes a (term e)) l) z
    rw [xorBytes_right_comm, ih]

/-- Adding what a predicate keeps to a sum over all leaves the sum over what it leaves out. -/
theorem rowSum_filter {term : Nat × List Byte → List Byte} {l : List (Nat × List Byte)} (keep : Nat × List Byte → Bool)
    {acc : List Byte} (hlen : ∀ e ∈ l, acc.length = (term e).length) :
    rowSum term (rowSum term acc l) (l.filter keep) = rowSum term acc (l.filter fun e => !keep e) := by
  induction l generalizing acc with
  | nil => rfl
  | cons e l ih =>
    have he : acc.length = (term e).length := hlen e (List.mem_cons_self ..)
    have htail : ∀ e ∈ l, acc.length = (term e).length := fun e' h => hlen e' (List.mem_cons_of_mem _ h)
    have hnext : (xorBytes acc (term e)).length = acc.length := by rw [xorBytes_length, he, Nat.min_self]
    cases hk : keep e with
    | true =>
      rw [List.filter_cons_of_pos hk, List.filter_cons_of_neg (by simp [hk])]
      show rowSum term (xorBytes (rowSum term (xorBytes acc (term e)) l) (term e)) (l.filter keep) = _
      rw [← rowSum_xorBytes, xorBytes_cancel (Nat.le_of_eq he), ih htail]
    | false =>
      rw [List.filter_cons_of_neg (by simp [hk]), List.filter_cons_of_pos (by simp [hk])]
      exact ih fun e' h => hnext.trans (htail e' h)

/-- The order of the terms does not matter. -/
theorem rowSum_perm {term : Nat × List Byte → List Byte} {l l' : List (Nat × List Byte)} (h : l.Perm l') (acc : List Byte) :
    rowSum term acc l = rowSum term acc l' :=
  h.foldl_eq' (fun _ _ _ _ _ => xorBytes_right_comm ..) acc

section
variable {imgs : List (List Byte)} (himgs : ∀ i ∈ imgs, i.length = imageLen) {keep : Nat × List Byte → Bool}
  {lost : List (Nat × List Byte)} (hlost : ((numbered imgs).filter fun e => !keep e).Perm lost)
include himgs hlost

/-- A parity of a row and the terms of the images held give the sum of the terms of the images lost (R200). -/
theorem rowSum_lost {term : Nat × List Byte → List Byte} (hterm : ∀ e, (term e).length = e.2.length) :
    rowSum term (rowSum term fillPack (numbered imgs)) ((numbered imgs).filter keep) = rowSum term fillPack lost := by
  have hlen : ∀ e ∈ numbered imgs, fillPack.length = (term e).length := fun e he => by
    rw [hterm, himgs e.2 (List.mem_of_getElem? (mem_numbered.mp he)), fillPack, zeros_length]
  rw [rowSum_filter keep hlen, rowSum_perm hlost]

theorem solveA_lost : solveA (parityP imgs) ((numbered imgs).filter keep) = rowSum Prod.snd fillPack lost := by
  rw [solveA_eq, parityP_eq, rowSum_lost himgs hlost fun _ => rfl]

theorem solveB_lost : solveB (parityQ imgs) ((numbered imgs).filter keep) = rowSum termQ fillPack lost := by
  rw [solveB_eq, parityQ_eq, rowSum_lost himgs hlost termQ_length]

end

/-! ### Reconstruction of a data image (R200) -/

/-- The other indices of a row that are not held. -/
def alsoLost (k : Nat) (avail : List (Nat × List Byte)) (x : Nat) : List Nat :=
  (List.range k).filter fun j => j ≠ x ∧ avail.all fun d => d.1 ≠ j

section
variable {k x : Nat} {avail : List (Nat × List Byte)} (hx : ∀ e ∈ avail, e.1 ≠ x)
include hx

theorem find_lost : avail.find? (fun d => d.1 = x) = none := by simpa using hx

theorem rebuildData_fromP (h : alsoLost k avail x = []) (p : List Byte) (q : Option (List Byte)) :
    rebuildData k avail (some p) q x = some (solveA p avail) := by
  unfold alsoLost at h
  simp only [rebuildData, find_lost hx, h]

theorem rebuildData_fromQ (h : alsoLost k avail x = []) (q : List Byte) :
    rebuildData k avail none (some q) x = some (gfScale (gfInv 0x1D (gPow x)) (solveB q avail)) := by
  unfold alsoLost at h
  simp only [rebuildData, find_lost hx, h]

theorem rebuildData_fromPQ {y : Nat} (h : alsoLost k avail x = [y]) (p q : List Byte) :
    rebuildData k avail (some p) (some q) x = some (xorBytes (solveA p avail)
      (gfScale (gfInv 0x1D (gPow x ^^^ gPow y)) (xorBytes (solveB q avail) (gfScale (gPow x) (solveA p avail))))) := by
  unfold alsoLost at h
  simp only [rebuildData, find_lost hx, h]

end

theorem gPow_ne_zero {x : Nat} (h : x < 22) : gPow x ≠ 0 := by
  have all : ∀ x < 22, gPow x ≠ 0 := by decide +kernel
  exact all x h

theorem gPow_xor_ne_zero {x y : Nat} (hx : x < 22) (hy : y < 22) (h : x ≠ y) : gPow x ^^^ gPow y ≠ 0 := by
  have all : ∀ x < 22, ∀ y < 22, x ≠ y → gPow x ^^^ gPow y ≠ 0 := by decide +kernel
  exact all x hx y hy h

theorem gPow_lt (x : Nat) : gPow x < 256 := gfPow_lt 2 x

/-! ### A row with lost images -/

section
variable {imgs : List (List Byte)} {x y : Nat} {dx dy : List Byte}

theorem alsoLost_numbered (keep : Nat → Prop) [DecidablePred keep] :
    alsoLost imgs.length ((numbered imgs).filter fun e => keep e.1) x =
      (List.range imgs.length).filter fun j => j ≠ x ∧ ¬ keep j := by
  refine List.filter_congr fun j hj => ?_
  have hheld : ∃ b, (j, b) ∈ numbered imgs := ⟨imgs[j]'(List.mem_range.mp hj), by simp [mem_numbered]⟩
  have hkept : (∀ e ∈ (numbered imgs).filter fun e => keep e.1, e.1 ≠ j) ↔ ¬ keep j := by
    simp only [List.mem_filter, decide_eq_true_iff]
    constructor
    · rintro h hj
      obtain ⟨b, hb⟩ := hheld
      exact h (j, b) ⟨hb, hj⟩ rfl
    · rintro hj e ⟨-, he⟩ rfl
      exact hj he
  simp only [List.all_eq_true, decide_eq_true_iff, hkept]

theorem alsoLost_one : alsoLost imgs.length ((numbered imgs).filter fun e => e.1 ≠ x) x = [] := by
  rw [alsoLost_numbered (· ≠ x)]
  simp

theorem alsoLost_two (hxy : x ≠ y) (hy : y < imgs.length) :
    alsoLost imgs.length ((numbered imgs).filter fun e => e.1 ≠ x ∧ e.1 ≠ y) x = [y] := by
  have honly : ∀ j, (j ≠ x ∧ ¬ (j ≠ x ∧ j ≠ y)) ↔ j = y := by grind
  rw [alsoLost_numbered fun j => j ≠ x ∧ j ≠ y]
  simp only [honly]
  rw [List.filter_eq, List.nodup_range.count, if_pos (List.mem_range.mpr hy)]
  rfl

theorem lost_perm_one (hx : imgs[x]? = some dx) :
    ((numbered imgs).filter fun e => !decide (e.1 ≠ x)).Perm [(x, dx)] := by
  refine (List.perm_ext_iff_of_nodup (List.Pairwise.filter _ (numbered_nodup imgs)) (List.pairwise_singleton _ _)).mpr ?_
  rintro ⟨j, b⟩
  simp only [List.mem_filter, mem_numbered, List.mem_singleton, Prod.mk.injEq]
  grind

theorem lost_perm_two (hxy : x ≠ y) (hx : imgs[x]? = some dx) (hy : imgs[y]? = some dy) :
    ((numbered imgs).filter fun e => !decide (e.1 ≠ x ∧ e.1 ≠ y)).Perm [(x, dx), (y, dy)] := by
  have hnodup : [(x, dx), (y, dy)].Nodup := by simp [hxy]
  refine (List.perm_ext_iff_of_nodup (List.Pairwise.filter _ (numbered_nodup imgs)) hnodup).mpr ?_
  rintro ⟨j, b⟩
  simp only [List.mem_filter, mem_numbered, List.mem_cons, List.not_mem_nil, Prod.mk.injEq]
  grind

/-- The other lost image from the sums of two (R200): g^x A takes the term of the lost image asked for out of B. -/
theorem solve_two {cx cy : Nat} (hc : cx ^^^ cy ≠ 0) (hcx : cx < 256) (hcy : cy < 256) (hlen : dx.length = dy.length) :
    gfScale (gfInv 0x1D (cx ^^^ cy))
      (xorBytes (xorBytes (gfScale cx dx) (gfScale cy dy)) (gfScale cx (xorBytes dx dy))) = dy := by
  have hrest : xorBytes (xorBytes (gfScale cx dx) (gfScale cy dy)) (gfScale cx (xorBytes dx dy)) =
      gfScale (cx ^^^ cy) dy := by
    rw [gfScale_xorBytes, ← xorBytes_assoc, xorBytes_comm (gfScale cx dx) (gfScale cy dy),
      xorBytes_cancel (by simp [hlen]), xorBytes_comm, gfScale_xor_const]
  rw [hrest, gfScale_gfInv hc (Nat.xor_lt_two_pow (n := 8) hcx hcy)]

end

/-- Settles O49: the sum of the terms lost is the lost image's own, which P gives as it stands and Q times g^x. -/
theorem oneLostSlotIsRecovered : Obligations.OneLostSlotIsRecovered := by
  unfold Obligations.OneLostSlotIsRecovered
  refine ⟨fun imgs x q d himgs hd => ?fromP, fun imgs x d hk himgs hd => ?fromQ⟩
  case fromP =>
    have hlen : d.length = imageLen := himgs d (List.mem_of_getElem? hd)
    refine (rebuildData_fromP (by simp) alsoLost_one ..).trans (congrArg some ?_)
    exact (solveA_lost himgs (lost_perm_one hd)).trans (xorBytes_fillPack hlen)
  case fromQ =>
    have hlen : (termQ (x, d)).length = imageLen := (termQ_length _).trans (himgs d (List.mem_of_getElem? hd))
    have hx : x < 22 := Nat.lt_of_lt_of_le (List.getElem?_eq_some_iff.mp hd).1 hk
    have hB : solveB (parityQ imgs) ((numbered imgs).filter fun e => e.1 ≠ x) = gfScale (gPow x) d :=
      (solveB_lost himgs (lost_perm_one hd)).trans (xorBytes_fillPack hlen)
    refine (rebuildData_fromQ (by simp) alsoLost_one _).trans (congrArg some ?_)
    exact (congrArg _ hB).trans (gfScale_gfInv (gPow_ne_zero hx) (gPow_lt x) d)

/-- Settles O50: A is the exclusive or of the two lost images and B that of their terms, and g^x and g^y differ. -/
theorem twoLostSlotsAreRecovered : Obligations.TwoLostSlotsAreRecovered := by
  unfold Obligations.TwoLostSlotsAreRecovered
  intro imgs x y d hk himgs hxy hy hd
  obtain ⟨dy, hdy⟩ : ∃ dy, imgs[y]? = some dy := ⟨_, List.getElem?_eq_getElem hy⟩
  have hx : x < 22 := Nat.lt_of_lt_of_le (List.getElem?_eq_some_iff.mp hd).1 hk
  have hdlen : d.length = imageLen := himgs d (List.mem_of_getElem? hd)
  have hdylen : dy.length = imageLen := himgs dy (List.mem_of_getElem? hdy)
  have hA : solveA (parityP imgs) ((numbered imgs).filter fun e => e.1 ≠ x ∧ e.1 ≠ y) = xorBytes d dy :=
    (solveA_lost himgs (lost_perm_two hxy hd hdy)).trans (congrArg (xorBytes · dy) (xorBytes_fillPack hdlen))
  have hB : solveB (parityQ imgs) ((numbered imgs).filter fun e => e.1 ≠ x ∧ e.1 ≠ y) =
      xorBytes (gfScale (gPow x) d) (gfScale (gPow y) dy) :=
    (solveB_lost himgs (lost_perm_two hxy hd hdy)).trans
      (congrArg (xorBytes · _) (xorBytes_fillPack ((termQ_length (x, d)).trans hdlen)))
  have hheld : ∀ e ∈ (numbered imgs).filter fun e => e.1 ≠ x ∧ e.1 ≠ y, e.1 ≠ x := fun e he =>
    (of_decide_eq_true (List.mem_filter.mp he).2).1
  refine (rebuildData_fromPQ hheld (alsoLost_two hxy hy) _ _).trans (congrArg some ?_)
  rw [hA, hB, solve_two (gPow_xor_ne_zero hx (Nat.lt_of_lt_of_le hy hk) hxy) (gPow_lt x) (gPow_lt y) (hdlen.trans hdylen.symm),
    xorBytes_cancel (Nat.le_of_eq (hdlen.trans hdylen.symm))]

end Sys2Proof.Machine
end

section
/-!
PROOFS. Rebuild, recoat and the replay of the stripe journal (R194, R195, R203 to R205, R210, R211): what each row does
once nothing holds it back.
-/

namespace Sys2Proof.Machine

/-! ### Rebuild (R203 to R205) -/

/-- The member rebuild takes, with the row its cursor gives: where the cursor stands, or the first missing member of the stripe
that comes next (R204). -/
def State.rebuildPick (s : State) (d : SD) : Option (Nat × Stripe × Nat × Nat) :=
  (if (s.metaOf d).rebuild.x = 0 then none
    else (s.stripe? d ((s.metaOf d).rebuild.x - 1)).bind fun y =>
      if s.rebuildable d ((s.metaOf d).rebuild.x - 1) y = true ∧ (s.metaOf d).rebuild.y ∈ y.missing then
        some ((s.metaOf d).rebuild.x - 1, y, (s.metaOf d).rebuild.y, (s.metaOf d).rebuild.z) else none) <|>
  (s.rebuildNext d).bind fun z => z.2.missing.head?.map fun pos => (z.1, z.2, pos, 0)

/-- What rebuild does with a row of the member at position `pos` of a stripe, from the state in which its target `tgt` is
allocated; `check` is the module's answer to the program (R203, R205). -/
def State.rebuildInto (s : State) (d : SD) (n : Nat) (x : Stripe) (pos row : Nat) (tgt : Nat × Nat) (check : MCmd × MSt)
    (bad : List Nat) (ok : Bool) (temp : Int) : Res :=
  if x.rows ≤ row then .next (s.rebuilt d n pos (x.members.getD pos 0) tgt)
  else if check.2.cls = .owner then .next (s.ownerReject ⟨check.1, none, false, none⟩ check.2)
  else if !ok ∨ check.2 ≠ .ok then .next ((s.retire d tgt.1 tgt.2).delta d (.cursor 0 ⟨n + 1, pos, 0⟩))
  else match s.rebuildRow d n x row pos bad with
    | (none, gone, s2) => .next (s2.loseGone d n x row gone)
    | (some img, _, s2) =>
      let s3 := ((s2.writeSlot d tgt.1 tgt.2 row img temp).count .strPacksRebuilt).updMed fun m =>
        { m with rebuildSpent := m.rebuildSpent + 1 }
      .next (if x.rows ≤ row + 1 then s3.rebuilt d n pos (x.members.getD pos 0) tgt
        else s3.delta d (.cursor 0 ⟨n + 1, pos, row + 1⟩))

/-- Rebuild has a member to go on with and a target for it, and nothing holds it back. -/
structure RebuildDue (s : State) (d : SD) (n : Nat) (x : Stripe) (pos at0 : Nat) (tgt : Nat × Nat) : Prop where
  owned : s.owns d = true
  stripes : s.up .str = true
  media : s.up .med = true
  room : s.logFull d = false
  credit : s.rebuildUrgent d = true ∨ s.med.rebuildSpent < bitsOf s.cfg.strRebuild.value.toNat 11 0
  issue : s.mayIssue (.sd d) = true
  picked : s.rebuildPick d = some (n, x, pos, at0)
  target : (s.rebuildTarget d (x.members.getD pos 0) <|> s.otherSeg d x (x.finish || s.partFolded d n x)) = some tgt

section
variable {s s1 : State} {d : SD} {n : Nat} {x : Stripe} {pos at0 row : Nat} {tgt : Nat × Nat}

theorem RebuildDue.checks (h : RebuildDue s d n x pos at0 tgt) : ¬ (!s.owns d ∨ !s.up .str ∨ !s.up .med ∨ s.logFull d ∨
    (!s.rebuildUrgent d ∧ s.med.rebuildSpent ≥ bitsOf s.cfg.strRebuild.value.toNat 11 0) ∨ !s.mayIssue (.sd d)) := by
  rw [h.owned, h.stripes, h.media, h.room, h.issue]
  rcases h.credit with hurgent | hspent
  · simp [hurgent]
  · simp [Nat.not_le.mpr hspent]

/-- Rebuild goes on with the row of its cursor, and at row 0 of a target that is new (R203). -/
theorem RebuildDue.exec_eq (h : RebuildDue s d n x pos at0 tgt)
    (hrow : row = if (s.rebuildTarget d (x.members.getD pos 0)).isSome = true then at0 else 0)
    (h1 : s1 = s.allocSeg d (x.members.getD pos 0) tgt.1 tgt.2) (bad : List Nat) (ok : Bool) (temp : Int) :
    execRebuildSlot d bad ok temp s = s1.rebuildInto d n x pos row tgt
      (s1.targetCheck d tgt.1 tgt.2 (x.finish || s.partFolded d n x) row) bad ok temp := by
  have hpick := h.picked
  unfold State.rebuildPick at hpick
  unfold execRebuildSlot
  rw [if_neg h.checks]
  simp only [hpick, ← hrow, h.target]
  rw [h1]
  rfl

end

/-- With the credit spent rebuild goes on for a stripe of class 1 or 2 only (R205). -/
theorem execRebuildSlot_spent {s : State} {d : SD} (hurgent : s.rebuildUrgent d = false)
    (hspent : bitsOf s.cfg.strRebuild.value.toNat 11 0 ≤ s.med.rebuildSpent) (bad : List Nat) (ok : Bool) (temp : Int) :
    execRebuildSlot d bad ok temp s = .next s :=
  if_pos (by simp [hurgent, hspent])

/-! ### Recoat (R210) -/

/-- Nothing holds a recoat back: its blocks run, and neither garbage collection nor rebuild goes before it. -/
structure RecoatDue (s : State) (d : SD) : Prop where
  owned : s.owns d = true
  media : s.up .med = true
  cipher : s.up .cip = true
  room : s.logFull d = false
  stock : s.urgent d = false
  rebuilt : s.rebuildUrgent d = false
  credit : bitsOf s.cfg.strRecoat.value.toNat 11 0 ≠ 0

section
variable {s s1 : State} {d : SD} {n : Nat} {x : Stripe} {p l : Nat} {r : RefRec}

theorem RecoatDue.checks (h : RecoatDue s d) (hcursor : (s.metaOf d).recoat.x ≠ 0) :
    ¬ ((s.metaOf d).recoat.x = 0 ∨ !s.owns d ∨ !s.up .med ∨ !s.up .cip ∨ s.logFull d ∨ s.urgent d ∨ s.rebuildUrgent d ∨
      bitsOf s.cfg.strRecoat.value.toNat 11 0 = 0) := by
  simp [hcursor, h.owned, h.media, h.cipher, h.room, h.stock, h.rebuilt, h.credit]

theorem RecoatDue.exec_take (h : RecoatDue s d) (hcursor : (s.metaOf d).recoat.x = 1) (hnext : s.recoatNext d = some n) :
    execRecoatCopy d s = .next (s.recoatTake d n) := by
  unfold execRecoatCopy
  rw [if_neg (h.checks (by omega)), if_pos hcursor, hnext]

theorem RecoatDue.exec_end (h : RecoatDue s d) (hcursor : 2 ≤ (s.metaOf d).recoat.x)
    (hx : s.stripe? d ((s.metaOf d).recoat.x - 2) = some x)
    (hnone : s.nextCopy d x ((s.metaOf d).recoat.y * 4096 + (s.metaOf d).recoat.z) = none) :
    execRecoatCopy d s = .next ((s.updVictim d ((s.metaOf d).recoat.x - 2) fun v =>
      { v with stage := 2 }).delta d (.cursor 3 ⟨1, 0, 0⟩)) := by
  unfold execRecoatCopy
  rw [if_neg (h.checks (by omega)), if_neg (by omega)]
  simp only [hx, hnone]

theorem RecoatDue.exec_copy (h : RecoatDue s d) (hcursor : 2 ≤ (s.metaOf d).recoat.x)
    (hx : s.stripe? d ((s.metaOf d).recoat.x - 2) = some x)
    (hnext : s.nextCopy d x ((s.metaOf d).recoat.y * 4096 + (s.metaOf d).recoat.z) = some (p, l, r))
    (hspent : s.needsPack d r.ddom r.size = false ∨ s.med.recoatSpent < bitsOf s.cfg.strRecoat.value.toNat 11 0)
    (hcopy : s.copyGran d ((s.metaOf d).recoat.x - 2) l r = some s1) :
    execRecoatCopy d s = .next (((s1.updMed fun m =>
      { m with recoatSpent := m.recoatSpent + (s1.copyPacks d - s.copyPacks d) }).count .strRecoatPacks
        (s1.copyPacks d - s.copyPacks d)).delta d
      (.cursor 3 ⟨(s.metaOf d).recoat.x, (p + 1) / 4096, (p + 1) % 4096⟩)) := by
  have hpack : ¬ (s.needsPack d r.ddom r.size ∧ s.med.recoatSpent ≥ bitsOf s.cfg.strRecoat.value.toNat 11 0) := by
    rcases hspent with hheld | hspent
    · simp [hheld]
    · exact fun hboth => absurd hspent (Nat.not_lt.mpr hboth.2)
  unfold execRecoatCopy
  rw [if_neg (h.checks (by omega)), if_neg (by omega)]
  simp only [hx, hnext]
  rw [if_neg hpack, hcopy]

end

/-- The new shape is in force and no stripe of an older GEN is left (R211). -/
theorem execRecoatComplete_done {s : State} {d : SD} (hrun : s.recoating d = true) (hown : s.owns d = true)
    (hshape : (s.metaOf d).shapeNext = none)
    (hall : ∀ x ∈ (s.metaOf d).stripes, x.2.st = .freed ∨ x.2.gen = (s.metaOf d).shape.gen) :
    execRecoatComplete d s = .next (((s.delta d (.cursor 3 ⟨0, 0, 0⟩)).raise .str 5).notify 0x10 0x0204 true (some d) 0xFF
      (leBytes 1 (s.metaOf d).shape.gen)) := by
  unfold execRecoatComplete
  refine congrArg Host.Outcome.next (if_pos ⟨hrun, hown, by simp [hshape], ?_⟩)
  simpa using hall

/-! ### The replay of the stripe journal (R194, R195) -/

/-- The data indices of a row whose record does not match. -/
def mismatches (imgs : List Regen) : List Nat :=
  imgs.zipIdx.filterMap fun y => if y.1 = .mismatch then some y.2 else none

theorem mismatches_eq_nil {imgs : List Regen} (h : .mismatch ∉ imgs) : mismatches imgs = [] := by
  refine List.filterMap_eq_nil_iff.mpr fun y hy => if_neg fun heq => h ?_
  exact heq ▸ List.fst_mem_of_mem_zipIdx hy

/-- Row `row` of stripe `n` is open in its domain's journal, the first in stripe and row order, and nothing holds it back. -/
structure ReplayDue (s : State) (d : SD) (n row : Nat) (x : Stripe) : Prop where
  stripe : s.stripe? d n = some x
  opened : s.rowOpen d n row = true
  first : ∀ r ∈ s.str.journal.get d, s.rowOpen d r.stripe r.row = true → n < r.stripe ∨ (n = r.stripe ∧ row ≤ r.row)
  owned : s.owns d = true
  stripes : s.up .str = true
  media : s.up .med = true

section
variable {s s0 s2 : State} {d : SD} {n row : Nat} {x : Stripe} {imgs : List Regen}

theorem ReplayDue.checks (h : ReplayDue s d n row x) :
    ¬ (!s.rowOpen d n row ∨ !((s.str.journal.get d).all fun r => !s.rowOpen d r.stripe r.row ||
        decide (n < r.stripe ∨ (n = r.stripe ∧ row ≤ r.row))) ∨ !s.owns d ∨ !s.up .str ∨ !s.up .med) := by
  have hfirst : ((s.str.journal.get d).all fun r => !s.rowOpen d r.stripe r.row ||
      decide (n < r.stripe ∨ (n = r.stripe ∧ row ≤ r.row))) = true := by
    rw [List.all_eq_true]
    intro r hr
    cases hopen : s.rowOpen d r.stripe r.row
    · rfl
    · simpa using h.first r hr hopen
  rw [hfirst, h.opened, h.owned, h.stripes, h.media]
  decide

/-- A row whose records all match gets its parity; another is lost where more of it is gone than its parity covers. -/
theorem ReplayDue.exec_eq (h : ReplayDue s d n row x) {bad : List Nat} {temp : Int} (himgs : s.rowImages d n x row = (imgs, s0))
    (hbad : bad = mismatches imgs) (h2 : s2 = s0.replayData d n x row imgs bad temp) :
    execJournalReplay d n row temp s = .next (((if bad.isEmpty then s2.replayParity d x row imgs temp
      else if (s2.replayGone d x row bad).length > x.p then s2.loseRow d n x row (s2.replayGone d x row bad) 1
      else s2).journal d (rowClose n row s.top.epoch)).count .strRowsReplayed) := by
  subst hbad h2
  simp only [execJournalReplay, h.stripe]
  rw [if_neg h.checks, himgs]
  rfl

end

/-- Settles O31: each case is one path of its row once nothing holds the row back. -/
theorem rebuildAndRecoat : Obligations.RebuildAndRecoat := by
  unfold Obligations.RebuildAndRecoat
  refine ⟨?remapped, ?programmed, ?spent, ?taken, ?complete, ?replayed, ?lost, ?retired, ?rejected, ?copiedAll, ?copied,
    ?mismatched⟩
  case remapped =>
    intro s s1 d bad ok temp cur n x pos at0 row tgt hown hstr hmed hlog hcredit hissue hcur hpick hrow htgt h1 hpast
    subst hcur
    refine Done.eq (((RebuildDue.mk hown hstr hmed hlog hcredit hissue hpick htgt).exec_eq hrow h1 bad ok temp).trans ?_)
    exact if_pos hpast
  case programmed =>
    intro s s1 s2 s3 d bad ok temp cur n x pos at0 row tgt c img gone hown hstr hmed hlog hcredit hissue hcur hpick hrow htgt h1
      hcheck hleft hok hrebuilt h3
    subst hcur h3
    refine Done.eq (((RebuildDue.mk hown hstr hmed hlog hcredit hissue hpick htgt).exec_eq hrow h1 bad ok temp).trans ?_)
    simp [State.rebuildInto, Nat.not_le.mpr hleft, hcheck, hok, hrebuilt, MSt.cls]
  case spent =>
    intro s d bad ok temp hurgent hspent
    exact Done.eq (execRebuildSlot_spent hurgent hspent bad ok temp)
  case taken =>
    intro s d n hcursor hown hmed hcip hlog hstock hrebuilt hcredit hnext
    exact Done.eq ((RecoatDue.mk hown hmed hcip hlog hstock hrebuilt hcredit).exec_take hcursor hnext)
  case complete =>
    intro s d hrun hown hshape hall
    exact Done.eq (execRecoatComplete_done hrun hown hshape hall)
  case replayed =>
    intro s s0 d n row temp x imgs hx hopen hfirst hown hstr hmed himgs hmatch
    exact Done.eq ((ReplayDue.mk hx hopen hfirst hown hstr hmed).exec_eq himgs (mismatches_eq_nil hmatch).symm rfl)
  case lost =>
    intro s s1 s2 d bad ok temp cur n x pos at0 row tgt c gone hown hstr hmed hlog hcredit hissue hcur hpick hrow htgt h1
      hcheck hleft hok hrebuilt
    subst hcur
    refine Done.eq (((RebuildDue.mk hown hstr hmed hlog hcredit hissue hpick htgt).exec_eq hrow h1 bad ok temp).trans ?_)
    simp [State.rebuildInto, Nat.not_le.mpr hleft, hcheck, hok, hrebuilt, MSt.cls]
  case retired =>
    intro s s1 d bad ok temp cur n x pos at0 row tgt c st hown hstr hmed hlog hcredit hissue hcur hpick hrow htgt h1 hcheck
      hleft hst hfails
    subst hcur
    refine Done.eq (((RebuildDue.mk hown hstr hmed hlog hcredit hissue hpick htgt).exec_eq hrow h1 bad ok temp).trans ?_)
    have hgiven : !ok ∨ st ≠ .ok := by simpa using hfails
    rw [State.rebuildInto, if_neg (Nat.not_le.mpr hleft), hcheck, if_neg hst, if_pos hgiven]
  case rejected =>
    intro s s1 d bad ok temp cur n x pos at0 row tgt c st hown hstr hmed hlog hcredit hissue hcur hpick hrow htgt h1 hcheck
      hleft hst
    subst hcur
    refine Done.eq (((RebuildDue.mk hown hstr hmed hlog hcredit hissue hpick htgt).exec_eq hrow h1 bad ok temp).trans ?_)
    rw [State.rebuildInto, if_neg (Nat.not_le.mpr hleft), hcheck, if_pos hst]
  case copiedAll =>
    intro s d x hcursor hown hmed hcip hlog hstock hrebuilt hcredit hx hnone
    exact Done.eq ((RecoatDue.mk hown hmed hcip hlog hstock hrebuilt hcredit).exec_end hcursor hx hnone)
  case copied =>
    intro s s1 d x p l r hcursor hown hmed hcip hlog hstock hrebuilt hcredit hx hnext hspent hcopy
    exact Done.eq ((RecoatDue.mk hown hmed hcip hlog hstock hrebuilt hcredit).exec_copy hcursor hx hnext hspent hcopy)
  case mismatched =>
    intro s s0 s2 d n row temp x imgs bad hx hopen hfirst hown hstr hmed himgs hbad hsome h2
    refine Done.eq (((ReplayDue.mk hx hopen hfirst hown hstr hmed).exec_eq himgs hbad h2).trans ?_)
    rw [if_neg fun hnil => hsome (List.isEmpty_iff.mp hnil)]

end Sys2Proof.Machine
end

section
/-!
PROOFS. Media commands (R218 to R223, R228, R462): a module answers a command that fails a check and changes nothing, and
executes one that passes them all; MLK takes completions and timeouts from its list.
-/

namespace Sys2Proof.Machine

/-! ### A module takes a command (R214, R462) -/

theorem State.modCmd_drawn (s : State) (n p : Nat) (src : MSrc) (op : MOp) :
    ({ s with draws := n } : State).modCmd p src op = s.modCmd p src op := by
  cases src <;> rfl

section
variable {s : State} {p h : Nat} {src : MSrc} {op : MOp} {m : Module} {c : MCmd}

/-- A command that passes every check of its module is executed and answered. -/
theorem State.modRun_ok (f : Module → Nat → MCmd → Module × MRes) (hmod : s.mod? p = some m)
    (hcmd : s.modCmd p src op = some (h, c)) (hok : moduleCheck m h c = .ok) :
    s.modRun p src op f = (s.updMod p fun _ => (f m h c).1).modAnswer src (f m h c).2 := by
  simp only [State.modRun, hmod, hcmd, hok]

/-- A command that fails a check is answered with the status of that check, and its module stays as it is. -/
theorem State.modRun_rejected (f : Module → Nat → MCmd → Module × MRes) (hmod : s.mod? p = some m)
    (hcmd : s.modCmd p src op = some (h, c)) (hbad : moduleCheck m h c ≠ .ok) :
    s.modRun p src op f = s.modAnswer src ⟨moduleCheck m h c, 0, []⟩ := by
  simp only [State.modRun, hmod, hcmd]

/-- A row that runs a command its module accepts completes with what the module makes of it. -/
theorem Done.modRun {i : Instr} {s0 : State} {f : Module → Nat → MCmd → Module × MRes} {m1 : Module} {r : MRes}
    (hexec : exec i s0 = .next (s.modRun p src op f)) (hmod : s.mod? p = some m)
    (hcmd : s.modCmd p src op = some (h, c)) (hok : moduleCheck m h c = .ok) (hf : f m h c = (m1, r)) :
    Done i s0 fun t => t = (s.updMod p fun _ => m1).modAnswer src r := by
  refine .eq (hexec.trans (congrArg Host.Outcome.next ?_))
  rw [State.modRun_ok f hmod hcmd hok, hf]

/-! ### Reads (R219) -/

/-- What a module answers to the read of a slot: nothing has been programmed there, an image, or no defined state. -/
def Module.readRes (m : Module) (c : MCmd) (bits : Nat) (unc : Bool) (n : Nat) : MRes :=
  match Table.find m.tags c.pseg, Table.find m.slots (slotKey c.pseg c.pidx) with
  | some _, some (.image b) => if unc then ⟨.uncorrectable, 0, []⟩ else ⟨.ok, min bits 0xFFFF, b⟩
  | some _, some .torn => tornRead bits n
  | _, _ => ⟨.erased, 0, []⟩

theorem Module.readRes_image {x : Dom} {b : List Byte} (bits : Nat) (unc : Bool) (n : Nat)
    (htag : Table.find m.tags c.pseg = some x) (hslot : Table.find m.slots (slotKey c.pseg c.pidx) = some (.image b)) :
    m.readRes c bits unc n = if unc = true then ⟨.uncorrectable, 0, []⟩ else ⟨.ok, min bits 0xFFFF, b⟩ := by
  simp only [Module.readRes, htag, hslot]

theorem Module.readRes_torn {x : Dom} (bits : Nat) (unc : Bool) (n : Nat) (htag : Table.find m.tags c.pseg = some x)
    (hslot : Table.find m.slots (slotKey c.pseg c.pidx) = some .torn) :
    m.readRes c bits unc n = tornRead bits n := by
  simp only [Module.readRes, htag, hslot]

theorem Module.readRes_erased (bits : Nat) (unc : Bool) (n : Nat)
    (hnone : Table.find m.tags c.pseg = none ∨ Table.find m.slots (slotKey c.pseg c.pidx) = none) :
    m.readRes c bits unc n = ⟨.erased, 0, []⟩ := by
  unfold Module.readRes
  rcases hnone with htag | hslot
  · rw [htag]
  · cases htag : Table.find m.tags c.pseg <;> rw [hslot]

/-- A read that passes its checks draws a value and answers what the slot holds. -/
theorem Done.mediaRead {bits : Nat} {unc : Bool} {r : MRes} (hmod : s.mod? p = some m)
    (hcmd : s.modCmd p src .read = some (h, c)) (hok : moduleCheck m h c = .ok)
    (hres : m.readRes c bits unc s.draws = r) :
    Done (.mediaRawRead p src bits unc) s fun t =>
      t = ({ s with draws := s.draws + 1 }.updMod p fun _ => m).modAnswer src r :=
  .modRun (s := { s with draws := s.draws + 1 }) rfl hmod ((s.modCmd_drawn _ p src .read).trans hcmd) hok
    (congrArg (Prod.mk m) hres)

/-! ### Owner Fence (R228) -/

/-- A fence with the epoch and the head the module holds is answered again. -/
theorem execOwnerFence_again {d : SD} (l : List (Nat × Nat)) (hmod : s.mod? p = some m)
    (hcmd : s.modCmd p src .fence = some (h, c)) (hok : moduleCheck m h c = .ok) (hdom : c.dom = .sd d)
    (heq : c.oepoch = m.oepoch.get d ∧ m.oport.get d = some h) :
    execOwnerFence p src l s = .next (s.modAnswer src ⟨.ok, (m.oepoch.get d).toNat, []⟩) := by
  simp only [execOwnerFence, hmod, hcmd, hok, hdom]
  exact if_pos heq

/-- A new fence, with no fold or erase of the domain in flight, is recorded and ends the older commands of the domain. -/
theorem execOwnerFence_new {d : SD} (hmod : s.mod? p = some m) (hcmd : s.modCmd p src .fence = some (h, c))
    (hok : moduleCheck m h c = .ok) (hdom : c.dom = .sd d) (hnew : ¬(c.oepoch = m.oepoch.get d ∧ m.oport.get d = some h)) :
    execOwnerFence p src [] s = .next (((s.updMod p fun _ =>
      { m with oepoch := m.oepoch.set d c.oepoch, oport := m.oport.set d (some h) }).modAnswer src
        ⟨.ok, (m.oepoch.get d).toNat, []⟩).updMlk fun x => { x with
      out := x.out.map fun o =>
        if o.cmd.port = p ∧ o.cmd.dom = .sd d ∧ o.res.isNone = true ∧ o.queue.isSome = true ∧ o.cmd.op ≠ .fence ∧
          o.cmd.oepoch < c.oepoch then { o with res := some fencedRes } else o
      late := x.late.filter fun l => decide (¬(l.port = p ∧ l.dom = .sd d ∧ l.op ≠ .fence ∧ l.oepoch < c.oepoch)) }) := by
  simp only [execOwnerFence, hmod, hcmd, hok, hdom]
  exact if_neg hnew

end

/-! ### Completions and timeouts at MLK (R222, R223) -/

theorem execMediaCommandCompletion_some {s : State} {i : Nat} {o : Out} {r : MRes} (hout : s.mlk.out[i]? = some o)
    (hres : o.res = some r) :
    execMediaCommandCompletion i s =
      .next (((s.updMlk fun m => { m with out := m.out.eraseIdx i }).complete o r).submitNext o.cmd.port) := by
  simp only [execMediaCommandCompletion, hout, hres]

theorem execCommandTimeout_submitted {s : State} {i : Nat} {o : Out} (hout : s.mlk.out[i]? = some o) (hloc : o.loc = false)
    (hqueue : o.queue.isSome = true) :
    execCommandTimeout i s = .next (((s.updMlk fun m => { m with
      out := m.out.eraseIdx i, late := m.late ++ (if o.res.isNone = true then [o.cmd] else []) }).complete o
        ⟨.internal, 0, []⟩).submitNext o.cmd.port) := by
  have hsubmitted : ¬ (o.loc = true ∨ o.queue.isNone = true) := by
    rw [hloc, Option.isNone_eq_false_iff.mpr hqueue]; decide
  simp only [execCommandTimeout, hout]
  exact if_neg hsubmitted

/-- Settles O28: a command its module accepts runs as its row says, and a row of MLK finds its command in the list. -/
theorem moduleCommands : Obligations.ModuleCommands := by
  unfold Obligations.ModuleCommands
  refine ⟨?readImage, ?programmed, ?erased, ?folded, ?fenced, ?descriptor, ?temperature, ?split, ?completion, ?timeout, ?readTorn,
    ?readErased, ?programFailed, ?eraseFailed, ?foldFailed, ?fencedAgain, ?splitLarge, ?splitAgain, ?rejected⟩
  case readImage =>
    intro s p src m h c bits unc b x hmod hcmd hok htag hslot
    exact .mediaRead hmod hcmd hok (Module.readRes_image bits unc _ htag hslot)
  case readTorn =>
    intro s p src m h c bits unc x hmod hcmd hok htag hslot
    exact .mediaRead hmod hcmd hok (Module.readRes_torn bits unc _ htag hslot)
  case readErased =>
    intro s p src m h c bits unc hmod hcmd hok hnone
    exact .mediaRead hmod hcmd hok (Module.readRes_erased bits unc _ hnone)
  case programmed | programFailed =>
    intro s p src m h c tp hmod hcmd hok
    exact .modRun rfl hmod hcmd hok rfl
  case erased | eraseFailed =>
    intro s p src m h c tp hmod hcmd hok
    exact .modRun rfl hmod hcmd hok rfl
  case folded =>
    intro s p src m h c lo hi hmod hcmd hok
    exact .modRun rfl hmod hcmd hok rfl
  case foldFailed =>
    intro s p src m h c lo hi k l hmod hcmd hok hk hl
    subst hl
    refine .modRun rfl hmod hcmd hok ?_
    simp only [Option.bind_some, hk, if_true, Option.isSome_some]
  case fenced =>
    intro s p src m h c d hmod hcmd hok hdom hnew
    exact .eq (execOwnerFence_new hmod hcmd hok hdom hnew)
  case fencedAgain =>
    intro s p src m h c d l hmod hcmd hok hdom hepoch hport
    exact .eq (execOwnerFence_again l hmod hcmd hok hdom ⟨hepoch, hport⟩)
  case descriptor =>
    intro s p src m h c hmod hcmd hok
    exact .modRun rfl hmod hcmd hok rfl
  case temperature =>
    intro s p src m h c a b x hmod hcmd hok
    exact .modRun rfl hmod hcmd hok rfl
  case split =>
    intro s p src m h c hmod hcmd hok hsplit hfit
    refine .modRun rfl hmod hcmd hok ?_
    simp only [hsplit]
    exact if_neg (Nat.not_lt.mpr hfit)
  case splitLarge =>
    intro s p src m h c hmod hcmd hok hsplit hlarge
    refine .modRun rfl hmod hcmd hok ?_
    simp only [hsplit]
    exact if_pos hlarge
  case splitAgain =>
    intro s p src m h c x hmod hcmd hok hsplit
    refine .modRun rfl hmod hcmd hok ?_
    simp only [hsplit]
  case completion =>
    intro s i o r hout hres
    exact .eq (execMediaCommandCompletion_some hout hres)
  case timeout =>
    intro s i o hout hloc hqueue
    exact .eq (execCommandTimeout_submitted hout hloc hqueue)
  case rejected =>
    intro s p src op f m h c hmod hcmd hbad
    exact State.modRun_rejected f hmod hcmd hbad

end Sys2Proof.Machine
end

section
/-!
PROOFS. The modules of a head (R199, R201, R213, R224, R226): link-up, the steps of an admission, and what fails a module.
-/

namespace Sys2Proof.Machine

/-! ### The state of a port -/

@[simp] theorem State.updPort_port (s : State) (p : Nat) (f : Port → Port) : (s.updPort p f).port p = f (s.port p) :=
  Table.getD_put _ _ _ _

@[simp] theorem State.raise_port (s : State) (b : Blk) (bit p : Nat) : (s.raise b bit).port p = s.port p := by
  unfold State.port; rw [State.raise_mlk]

theorem State.refuse_port (s : State) (p cause : Nat) :
    (s.refuse p cause).port p = { s.port p with state := 5, cause := cause, step := 0 } := by
  unfold State.refuse; rw [State.raise_port, State.updPort_port]

theorem State.refuse_raisedBy (s : State) (p cause : Nat) : (s.refuse p cause).raisedBy s .mlk 1 :=
  s.raise_raisedBy_of _ .mlk 1 rfl

/-! ### Link-up (R213, R226) -/

/-- The state in which another module has taken the place of the one before, where one has. -/
def State.plugged (s : State) (p : Nat) (new : Option Module) : State :=
  match new with
  | some m => s.updMlk fun x => { x with mods := Table.put x.mods p m }
  | none => s

/-- The port has its rate and width, and its admission goes on to the descriptor. -/
def State.linkedAt (s : State) (p r w : Nat) : State :=
  (s.updPort p fun x => { x with rate := r, width := w, step := 2, descrFails := 0 }).updMed fun m =>
    { m with temps := Table.del m.temps p }

/-- A powered port that waits for its link, with a module in it, reaches link-up. -/
theorem execLinkUp_linked {s : State} {p : Nat} {m : Module} (new : Option Module) (r w : Nat) (hp : p < 48)
    (hstate : (s.port p).state = 1) (hpower : (s.port p).power = true) (hstep : (s.port p).step ≤ 1)
    (hup : s.up .mlk = true) (hmod : (s.plugged p new).mod? p = some m) :
    execLinkUp p r w new s = .next (if r < 6 ∨ w < 2 then ((s.plugged p new).linkedAt p r w).raise .mlk 4
      else (s.plugged p new).linkedAt p r w) := by
  have hchecks : ¬ (p ≥ 48 ∨ (s.port p).state ≠ 1 ∨ !(s.port p).power ∨ (s.port p).step > 1 ∨ !s.up .mlk) := by
    simp [hstate, hpower, hup, hp, hstep]
  have hpresent : ¬ ((s.plugged p new).mod? p).isNone = true := by simp [hmod]
  exact (if_neg hchecks).trans (if_neg hpresent)

/-! ### The steps of an admission (R218, R226, R229) -/

/-- Module `m` is in admission on port `p`, at step `n`, and MLK works. -/
structure Admitting (s : State) (p : Nat) (m : Module) (n : Nat) : Prop where
  admitting : (s.port p).state = 1
  link : s.up .mlk = true
  mod : s.mod? p = some m
  step : (s.port p).step = n

section
variable {s : State} {p : Nat} {m : Module}

theorem Admitting.checks {n : Nat} (h : Admitting s p m n) : ¬ ((s.port p).state ≠ 1 ∨ !s.up .mlk) := by
  simp [h.admitting, h.link]

theorem Admitting.exec_describe (h : Admitting s p m 2) :
    execAdmission p s = .next ((s.admitStep p 3).issue (MCmd.mk0 p .descr .vault .descr)) := by
  unfold execAdmission
  rw [if_neg h.checks]
  simp only [h.mod, h.step]

theorem Admitting.exec_known (h : Admitting s p m 4) {x : Serial}
    (hserial : s.med.serials.find? (fun y => decide (y.serial = m.serial)) = some x) :
    execAdmission p s = .next (if m.split = some (x.vsegs, x.ssegs) then s.admitStep p 5 else s.refuse p 5) := by
  unfold execAdmission
  rw [if_neg h.checks]
  simp only [h.mod, h.step, hserial]

theorem Admitting.exec_split (h : Admitting s p m 4)
    (hserial : s.med.serials.find? (fun y => decide (y.serial = m.serial)) = none) (harray : s.med.commissioned = true)
    (hown : s.owns .a = true) :
    execAdmission p s = .next ((s.admitStep p 40).issue
      { MCmd.mk0 p .admin .vault .admin with pseg := s.med.vsegs, tpseg := s.med.ssegs }) := by
  unfold execAdmission
  rw [if_neg h.checks]
  simp only [h.mod, h.step, hserial, harray, hown]
  rfl

theorem Admitting.exec_fence (h : Admitting s p m 5) :
    execAdmission p s = .next (if s.owned.isEmpty = true then s.admitStep p 6
      else s.owned.foldl (fun s d => s.fence d p) (s.admitStep p 50)) := by
  unfold execAdmission
  rw [if_neg h.checks]
  simp only [h.mod, h.step]
  exact (apply_ite Host.Outcome.next _ _ _).symm

theorem Admitting.exec_measure (h : Admitting s p m 6) {s0 s1 : State}
    (h0 : s0 = s.extendModule p m.desc (slice m.desc 1184 16)
      ((s.med.serials.find? (fun y => decide (y.serial = m.serial))).bind (·.image)))
    (h1 : s1 = if s0.markedErase p = true then s0.eraseMarked p else s0) :
    execAdmission p s = .next (((s1.loadCard p).admitStep p 7).issue (MCmd.mk0 p .temp .vault .temp)) := by
  subst h0 h1
  unfold execAdmission
  rw [if_neg h.checks]
  simp only [h.mod, h.step]

end

/-! ### What fails a module (R199, R224) -/

section
variable {s : State} {p : Nat}

/-- A module in admission or in service fails on a fatal status or the loss of its link, and one in service on three
timeouts within a second. -/
theorem execModuleFailed_fails {c : Nat} (hstate : (s.port p).state = 1 ∨ (s.port p).state = 2)
    (hcause : c = 2 ∨ c = 3 ∨ c = 1 ∧ (s.port p).state = 2 ∧
      3 ≤ ((s.port p).timeouts.filter fun t => decide (s.pwr.rtc.toNat - t ≤ 1000000)).length) :
    execModuleFailed p c s = .next (s.failModule p c) :=
  congrArg Host.Outcome.next (if_pos ⟨by simpa using hstate, hcause⟩)

/-- A module in admission or in service whose link is up passes the checks of MEDIA_LINK_DOWN. -/
theorem mediaLinkDown_checks (hstate : (s.port p).state = 1 ∨ (s.port p).state = 2) (hrate : (s.port p).rate ≠ 0) :
    ¬ ((s.port p).state ∉ [1, 2] ∨ (s.port p).rate = 0) := by
  simp [hstate, hrate]

/-- A module that does not return from its absence, or from the activation of an update, fails. -/
theorem execAbsentTimeout_fails
    (hstate : (s.port p).state = 3 ∨ (s.port p).state ∈ [1, 5] ∧
      ((Table.find s.upd.mods p).any fun x => decide (x.state = 4 ∨ x.state = 5)) = true) :
    execAbsentTimeout p s = .next (s.failModule p 4) :=
  congrArg Host.Outcome.next (if_pos hstate)

end

/-- Settles O29: each premise passes the checks of its row, or gives the step at which its admission stands. -/
theorem moduleAdmission : Obligations.ModuleAdmission := by
  unfold Obligations.ModuleAdmission
  refine ⟨?linked, ?describe, ?late, ?absent, ?dropped, ?fatal, ?linkLost, ?retrained, ?replaced, ?known, ?split, ?fence,
    ?measure, ?updated, ?droppedAbsent, ?timeouts⟩
  case linked =>
    intro s s1 p r w m hp hstate hpower hstep hup hmod h1
    subst h1
    exact .eq (execLinkUp_linked none r w hp hstate hpower hstep hup hmod)
  case replaced =>
    intro s s1 p r w m hp hstate hpower hstep hup h1
    subst h1
    exact .eq (execLinkUp_linked (some m) r w hp hstate hpower hstep hup (Table.find_put _ _ _))
  case describe =>
    intro s p m hstate hup hmod hstep
    exact .eq (Admitting.mk hstate hup hmod hstep).exec_describe
  case known =>
    intro s p m x hstate hup hmod hstep hserial
    exact .eq ((Admitting.mk hstate hup hmod hstep).exec_known hserial)
  case split =>
    intro s p m hstate hup hmod hstep hserial harray hown
    exact .eq ((Admitting.mk hstate hup hmod hstep).exec_split hserial harray hown)
  case fence =>
    intro s p m hstate hup hmod hstep
    exact .eq (Admitting.mk hstate hup hmod hstep).exec_fence
  case measure =>
    intro s s0 s1 p m hstate hup hmod hstep h0 h1
    exact .eq ((Admitting.mk hstate hup hmod hstep).exec_measure h0 h1)
  case late =>
    intro s p hstate hstep
    exact .of_next rfl (if_pos ⟨hstate, hstep⟩) ⟨rfl, s.refuse_port p 8, s.refuse_raisedBy p 8⟩
  case absent =>
    intro s p hstate
    exact .eq (execAbsentTimeout_fails (.inl hstate))
  case updated =>
    intro s p x hstate hupd hx
    exact .eq (execAbsentTimeout_fails (.inr ⟨by simpa using hstate, by simpa [hupd] using hx⟩))
  case dropped =>
    intro s p hstate
    exact .of_next rfl (by rw [if_neg hstate]) rfl
  case droppedAbsent =>
    intro s p hstate
    exact .of_next rfl (by rw [if_pos hstate]) rfl
  case fatal =>
    intro s p c hstate hcause
    exact .eq (execModuleFailed_fails hstate (hcause.imp_right .inl))
  case timeouts =>
    intro s p hstate htimeouts
    exact .eq (execModuleFailed_fails (.inr hstate) (.inr (.inr ⟨rfl, hstate, htimeouts⟩)))
  case linkLost =>
    intro s p hstate hrate
    exact .eq (if_neg (mediaLinkDown_checks hstate hrate))
  case retrained =>
    intro s s1 p r w hstate hrate h1
    subst h1
    exact .eq (if_neg (mediaLinkDown_checks hstate hrate))

end Sys2Proof.Machine
end

section
/-!
PROOFS. The cipher engine: zeroizing a slot that a stream is bound to (R241) ends the stream, which is counted and sets an event.
-/

namespace Sys2Proof.Machine

/-! ### What a zeroize changes (R241) -/

theorem State.updCip_only (s : State) (f : CipState → CipState) : Only [.cip] s (s.updCip f) := by
  intro p hp
  cases p <;> simp_all [Part.same]

/-- Posting completions raises events of pages and none of a block. -/
@[simp] theorem State.postEnded_blk (s : State) (p : Nat) : (s.postEnded p).blk = s.blk := by
  unfold State.postEnded
  exact foldl_reads State.blk _ (fun s ⟨x, o⟩ => s.putCpl_blk p x.int (cplBytes x.didx o)) _ _

/-- The streams that a zeroize of the slot cuts off are those bound to it (R240). -/
theorem State.boundTo_eq_zero {s : State} {slot : Nat} :
    s.boundTo slot = 0 ↔ (s.cip.streams.filter fun x => x.res.isNone && decide (x.slot = slot)).isEmpty = true := by
  simp [State.boundTo, imp_not_comm]

/-- Streams cut off set ZEROIZED of CIP_STATUS (R241). -/
theorem State.cutStreams_raisedBy {s : State} {slot : Nat} (hbound : s.boundTo slot ≠ 0) :
    (s.cutStreams slot).raisedBy s .cip 4 := by
  simp only [State.cutStreams, if_neg (mt State.boundTo_eq_zero.mpr hbound), State.raisedBy]
  rw [foldl_reads State.blk _ State.postEnded_blk]
  exact State.raise_raisedBy_of s _ .cip 4 rfl

theorem State.cutStreams_unbound {s : State} {slot : Nat} (hfree : s.boundTo slot = 0) : s.cutStreams slot = s := by
  simp only [State.cutStreams, if_pos (State.boundTo_eq_zero.mp hfree)]

/-- Step 1 of R241: both registers of the slot are cleared, and its zeroize is under way. -/
def State.clearSlot (s : State) (slot : Nat) : State :=
  (s.setSlot slot { KSlot.empty with state := 3 }).updCip fun c =>
    { c with zeroizing := if slot ∈ c.zeroizing then c.zeroizing else c.zeroizing ++ [slot] }

theorem State.clearSlot_only (s : State) (slot : Nat) : Only [.cip] s (s.clearSlot slot) :=
  (s.updCip_only _).trans (State.updCip_only _ _)

theorem State.zeroize_loaded {s : State} {slot : Nat} (hloaded : (s.kslot slot).state ≠ 0) :
    s.zeroize slot = (s.clearSlot slot).cutStreams slot :=
  if_neg hloaded

/-- What CipherPages says a zeroize changes holds where no stream is bound to the slot. -/
theorem State.zeroize_only {s : State} {slot : Nat} (hloaded : (s.kslot slot).state ≠ 0) (hfree : s.boundTo slot = 0) :
    Only [.cip] s (s.zeroize slot) := by
  rw [State.zeroize_loaded hloaded, State.cutStreams_unbound (show (s.clearSlot slot).boundTo slot = 0 from hfree)]
  exact s.clearSlot_only slot

theorem State.zeroize_raisedBy {s : State} {slot : Nat} (hloaded : (s.kslot slot).state ≠ 0) (hbound : s.boundTo slot ≠ 0) :
    (s.zeroize slot).raisedBy s .cip 4 := by
  rw [State.zeroize_loaded hloaded]
  exact State.cutStreams_raisedBy (s := s.clearSlot slot) hbound

/-- An event is a change of the common registers, for its SEQ goes one further (R356). -/
theorem State.raisedBy.not_only {s t : State} {b : Blk} {bit : Nat} {ps : List Part} (hraised : t.raisedBy s b bit)
    (hps : .blk ∉ ps) : ¬ Only ps s t := by
  intro honly
  obtain ⟨hseq, -⟩ := hraised
  have hblk : t.blk = s.blk := honly .blk hps
  rw [hblk] at hseq
  bv_omega

/-! ### The refutation -/

/-- Slot 33 of page 2 holds a key, and a CTR stream over one block is bound to it. -/
def busySlot : State := { State.reset with
  cip := { CipState.reset with
    slots := [(33, { KSlot.empty with state := 1, usage := usageOf 2, key := zeros 16 })]
    streams := [{ page := 2, didx := 0, dst := 0x1000, int := false, dstOk := true, slot := 33, mode := 2, dec := false
                  key := zeros 16, nonce := [], aad := [], tag := [], len := 16, long := false, srcOk := true
                  todo := zeros 16, chain := zeros 16, ctr := 0, ghash := 0, count := 0, out := [], res := none }] } }

/-- Refutes O3, by its clause on zeroizing a slot that is not empty, which says that CIP alone changes. A stream bound to the
slot ends with KEY_ZEROIZED (R241 step 3), which is counted and sets ZEROIZED of CIP_STATUS, a change of the common registers.
Where no stream is bound CIP alone changes (`State.zeroize_only`). -/
theorem not_cipherPages : ¬ Obligations.CipherPages := by
  unfold Obligations.CipherPages
  rintro ⟨-, -, -, -, -, -, -, hzeroize, -⟩
  have hloaded : (busySlot.kslot 33).state ≠ 0 := by decide +kernel
  have hbound : busySlot.boundTo 33 ≠ 0 := by decide +kernel
  obtain ⟨-, -, -, honly⟩ := hzeroize busySlot 33 hloaded
  exact (State.zeroize_raisedBy hloaded hbound).not_only (by decide) honly

end Sys2Proof.Machine
end

section
/-!
PROOFS. The mailbox commands on key domains, key slots and pages (R91, R94, R236, R239, R241, R249): the operands of each case
pass the checks of its command.
-/

namespace Sys2Proof.Machine

/-- Settles O13: every request is one that its command runs, and the operands of its case pass each of the command's checks. -/
theorem mailboxKeyCommands : Obligations.MailboxKeyCommands := by
  unfold Obligations.MailboxKeyCommands
  refine ⟨?create, ?delete, ?mode, ?rotate, ?load, ?generate, ?zeroize, ?owner, ?assign⟩
  case create =>
    intro c s r k slot m s1 s4 htakes hrange hnew hplace hload
    refine Done.eq (?_ : execKdomCreate c k m s = _)
    refine State.runCmd_answers htakes rfl ?_
    simp only [hplace, hload]
    rw [if_neg (Nat.not_lt.mpr hrange), if_neg (by simp [hnew])]
  case delete =>
    intro c s r k x htakes hknown hunnamed
    refine Done.eq (?_ : execKdomDelete c k s = _)
    refine State.runCmd_answers htakes rfl ?_
    dsimp only
    rw [if_neg (by simp [hknown]), if_neg (by simp [hunnamed])]
  case mode =>
    intro c s r k x m htakes hknown
    refine Done.eq (?_ : execKdomModeSet c k m s = _)
    exact State.runCmd_answers htakes rfl (if_neg (by simp [hknown]))
  case rotate =>
    intro c s r k slot x s1 s3 htakes hknown hplace hload
    refine Done.eq (?_ : execKdomRotate c k s = _)
    refine State.runCmd_answers htakes rfl ?_
    simp only [hknown, hplace, hload]
  case load =>
    intro c s r n hn htakes hidle hbars hklen hlen hpad
    subst hn
    refine Done.eq (?_ : execKeyLoad c s = _)
    obtain ⟨hasked, -⟩ := id htakes
    unfold execKeyLoad
    rw [if_neg (by simp [hasked, hidle]), State.runCmd_takes htakes rfl]
    simp only [hbars]
    rw [if_neg (by simp only [hpad, hlen]; simpa using hklen)]
    generalize gcmDec _ _ _ _ _ = opened
    cases opened <;> rfl
  case generate =>
    intro c s r slot usage klen np htakes hbars
    refine Done.eq (?_ : execKeyGenerate c slot usage klen np s = _)
    refine State.runCmd_answers htakes rfl ?_
    simp only [hbars]
  case zeroize =>
    intro c s r slot htakes hrange howner
    refine Done.eq (?_ : execKeyZeroize c slot s = _)
    refine State.runCmd_runsOn htakes rfl ?_
    simp [howner, Nat.not_lt.mpr hrange]
  case owner =>
    intro c s r p o htakes hrange hvalue howner hempty hidle
    refine Done.eq (?_ : execPageOwnerSet c p o s = _)
    refine State.runCmd_answers htakes rfl ?_
    dsimp only
    rw [if_neg (by simp; omega), if_neg (by simp [howner, hempty, hidle])]
  case assign =>
    intro c s r p a n b m i htakes hrange howner hsq hcq
    refine Done.eq (?_ : execPageAssign c p a n b m i s = _)
    refine State.runCmd_answers htakes rfl ?_
    dsimp only
    rw [if_neg (by simp [hsq, hcq]; omega), if_neg (by simp [howner])]

end Sys2Proof.Machine
end

section
/-!
PROOFS. What one scr-cycle does with no command waiting (R233, R245, R308, R421, R461).
-/

namespace Sys2Proof.Machine

/-! ### The timers (R461) -/

theorem State.timerTick_counts {s : State} {k : Nat} {x : Timer} (hx : s.top.timers[k]? = some x) (hen : x.en = true)
    (hcount : 1 < x.count) :
    s.timerTick k = s.updTop fun y => { y with timers := updAt y.timers k fun z => { z with count := z.count - 1 } } := by
  have hzero : x.count ≠ 0 := by bv_omega
  have hone : x.count ≠ 1 := by bv_omega
  simp only [State.timerTick, hx, hen]
  rw [if_neg (by simpa using hzero), if_neg hone]

theorem State.timerTick_fires {s : State} {k : Nat} {x : Timer} (hx : s.top.timers[k]? = some x) (hen : x.en = true)
    (hcount : x.count = 1) : s.timerTick k = s.timerFires k := by
  simp [State.timerTick, hx, hen, hcount]

/-- A timer changes TOP, and its event the common registers and the vectors. -/
theorem State.timerTick_only (s : State) (k : Nat) : Only [.top, .blk, .msix] s (s.timerTick k) := by
  unfold State.timerTick
  split
  · exact Only.refl _ s
  · split
    · exact Only.refl _ s
    · split
      · exact ((s.updTop_only _).mono (by decide)).trans ((State.raise_only _ .top k).mono (by decide))
      · exact (s.updTop_only _).mono (by decide)

/-- A fold changes what each of its steps changes. -/
theorem foldl_only {α : Type} {ps : List Part} {f : State → α → State} (h : ∀ s a, Only ps s (f s a)) (l : List α)
    (s : State) : Only ps s (l.foldl f s) :=
  foldl_ind (Only ps s) l f s (Only.refl ps s) fun t a ht => ht.trans (h t a)

theorem State.fabTick_only (s : State) : Only [.top] s s.fabTick := by
  intro p hp
  cases p <;> simp_all [Part.same, State.fabTick]

/-! ### The link (R308) and the shared pool (R233) -/

theorem State.linkTick_up {s : State} (hpow : s.powered .ubl = true) (hup : s.ubl.up = true) :
    s.linkTick = if ({ s with link := s.link.cycle s.ubl.lanes true } : State).mirrorFull = true then
      { s with link := s.link.cycle s.ubl.lanes true } else
      ({ s with link := s.link.cycle s.ubl.lanes true } : State).landHeld := by
  simp only [State.linkTick, hpow, hup]
  cases ({ s with link := s.link.cycle s.ubl.lanes true } : State).mirrorFull <;> rfl

/-- With the link down its flits are all that goes: no host beat is held for mirror credit. -/
theorem State.linkTick_only {s : State} (hdown : s.ubl.up = false) : Only [.link] s s.linkTick := by
  unfold State.linkTick
  dsimp only
  rw [if_neg (fun hup : s.ubl.up = true ∧ _ => Bool.false_ne_true (hdown.symm.trans hup.1))]
  split
  · exact Only.refl _ s
  · intro p hp
    cases p <;> simp_all [Part.same]

/-- The 60 core positions go to the streams, those out of data end, and a rewrite is no longer pending once no stream holds the
slot's older register (R233, R240). -/
theorem State.poolTick_runs {s : State} (hbound : s.cip.streams ≠ []) :
    s.poolTick = ((s.updCip (poolBlocks 60 [])).endStreams).updCip fun c => { c with slots := c.slots.map fun x =>
      (x.1, if x.2.state = 2 ∧ ((s.updCip (poolBlocks 60 [])).endStreams).oldHeld x.1 = false then
        { x.2 with state := 1, oldKey := [] } else x.2) } := by
  have hnone : ¬ s.cip.streams.isEmpty = true := by simpa using hbound
  simp only [State.poolTick, if_neg hnone, Bool.not_eq_true']

theorem State.poolTick_only {s : State} (hnone : s.cip.streams = []) : Only [.cip] s s.poolTick := by
  simp only [State.poolTick, hnone]
  exact s.updCip_only _

theorem State.poolTick_ready {s : State} (hnone : s.cip.streams = []) : s.poolTick.cip.ready = s.cip.ready := by
  simp [State.poolTick, hnone]

theorem State.poolTick_streams {s : State} (hnone : s.cip.streams = []) : s.poolTick.cip.streams = [] := by
  simp [State.poolTick, hnone]

/-! ### The cycle -/

/-- The clock of the always-on domain advances, and CIP has its drawn values ready (R245, R421). -/
def State.clockTick (s : State) : State := { s with pwr := s.pwr.rtcTick, cip := { s.cip with ready := 64 } }

/-- The shared pool runs while CIP works under power (R233). -/
def State.cipTick (s : State) : State := if s.works .cip ∧ s.powered .cip then s.poolTick else s

/-- The fabric and the timers run while TOP's domain is powered. -/
def State.topTick (s : State) : State :=
  if s.powered .top then (List.range 8).foldl State.timerTick s.fabTick else s

theorem State.tick_eq (s : State) : s.tick = s.clockTick.cipTick.linkTick.topTick := rfl

theorem State.clockTick_only (s : State) : Only [.pwr, .cip] s s.clockTick := by
  intro p hp
  cases p <;> simp_all [Part.same, State.clockTick]

/-- With no stream bound the pool changes key slots alone. -/
theorem State.cipTick_idle {s : State} (hnone : s.cip.streams = []) :
    s.cipTick.cip.ready = s.cip.ready ∧ s.cipTick.cip.streams = [] ∧ Only [.cip] s s.cipTick := by
  unfold State.cipTick
  split
  · exact ⟨State.poolTick_ready hnone, State.poolTick_streams hnone, State.poolTick_only hnone⟩
  · exact ⟨rfl, hnone, Only.refl _ s⟩

theorem State.topTick_only (s : State) : Only [.top, .blk, .msix] s s.topTick := by
  unfold State.topTick
  split
  · exact (s.fabTick_only.mono (by decide)).trans (foldl_only State.timerTick_only _ _)
  · exact Only.refl _ s

/-- With the link down and no stream bound CIP has its drawn values ready and few parts change. -/
theorem State.tick_idle {s : State} (hdown : s.ubl.up = false) (hnone : s.cip.streams = []) :
    s.tick.cip.ready = 64 ∧ s.tick.cip.streams = [] ∧ Only [.pwr, .cip, .top, .link, .blk, .msix] s s.tick := by
  rw [State.tick_eq]
  have hclock := s.clockTick_only
  obtain ⟨hready, hstreams, hpool⟩ := State.cipTick_idle (s := s.clockTick) hnone
  have hstill : s.clockTick.cipTick.ubl.up = false := (congrArg UblState.up (hpool .ubl (by decide))).trans hdown
  have hlink := State.linkTick_only hstill
  have htop := s.clockTick.cipTick.linkTick.topTick_only
  have hcip : s.clockTick.cipTick.linkTick.topTick.cip = s.clockTick.cipTick.cip :=
    (htop .cip (by decide)).trans (hlink .cip (by decide))
  refine ⟨hcip ▸ hready, hcip ▸ hstreams, ?_⟩
  exact (((hclock.mono (by decide)).trans (hpool.mono (by decide))).trans (hlink.mono (by decide))).trans
    (htop.mono (by decide))

theorem step_idle {s : State} (hempty : s.pending = []) : step s = .next s.tick := by simp only [step, hempty]

/-- Settles O41: the step on an empty queue is the cycle, whose parts each change what they concern. -/
theorem emptyQueueLetsACyclePass : Obligations.EmptyQueueLetsACyclePass := by
  unfold Obligations.EmptyQueueLetsACyclePass
  refine ⟨?step, ?quiet, ?counts, ?fires, ?link, ?pool, ?rtc⟩
  case step =>
    intro s hempty
    refine ⟨s.tick, step_idle hempty, rfl, ?_⟩
    rw [step_pending (step_idle hempty), hempty]
    rfl
  case quiet => exact fun s hempty hdown hnone => ⟨s.tick, step_idle hempty, State.tick_idle hdown hnone⟩
  case counts => exact fun s k x => State.timerTick_counts
  case fires => exact fun s k x => State.timerTick_fires
  case link => exact fun s => State.linkTick_up
  case pool => exact fun s => State.poolTick_runs
  case rtc =>
    intro p
    refine ⟨fun hless => if_neg (Nat.not_le.mpr hless), fun hfull => ?_⟩
    rw [PwrState.rtcTick, if_pos hfull]
    exact ⟨rfl, rfl⟩

end Sys2Proof.Machine
end

section
/-!
PROOFS. Admin and fabrics commands: what the front command of an admin queue answers, and to whom an event goes.
-/

namespace Sys2Proof.Machine

/-! ### Events for host controllers (R271) -/

/-- A choice between two states changes what either changes. -/
theorem ite_only {ps : List Part} {p : Prop} [Decidable p] {s a b : State} (ha : Only ps s a) (hb : Only ps s b) :
    Only ps s (if p then a else b) := by
  split <;> assumption

theorem State.updFe_only (s : State) (f : FeState → FeState) : Only [.fe] s (s.updFe f) := by
  intro p hp
  cases p <;> simp_all [Part.same]

/-- A response capsule is FE's alone, and so is the error log it may join. -/
theorem State.respond_only (s : State) (r : Response) : Only [.fe] s (s.respond r) := by
  unfold State.respond
  split
  · exact ite_only (s.updFe_only _) (Only.refl _ s)
  · exact ite_only (Only.refl _ s) (ite_only (s.updFe_only _) ((s.updFe_only _).trans (State.updFe_only _ _)))

theorem State.asyncTo_only (s : State) (n : Nat) (e : AEvent) : Only [.fe] s (s.asyncTo n e) := by
  unfold State.asyncTo
  split
  case h_1 => exact Only.refl _ s
  case h_2 h _ =>
    refine ite_only (Only.refl _ s) ?_
    cases h.aers with
    | nil => exact ite_only (Only.refl _ s) (s.updFe_only _)
    | cons cid rest => exact (s.updFe_only _).trans (State.respond_only _ _)

/-! ### Abort (R56, R270) -/

section
variable {s : State} {q : QId} {c : Capsule} {h : HostCtl}

/-- The command that an Abort names, of its host controller, by queue and command identifier, and not the peer's. -/
def Capsule.abortTarget (c : Capsule) (q : QId) : Capsule → Bool := fun x =>
  decide (x.q = ⟨q.cntlid, bitsOf (c.cdw 10) 15 0⟩ ∧ x.cid = bitsOf (c.cdw 10) 31 16 ∧ x.origin = none)

theorem execAbort_limit (hfront : s.adminFront q 0x08 = some (c, h)) (hfull : 4 ≤ h.aborts) :
    execAbort q s = .next (s.adminDone c stAbortLimit 0 []) := by
  simp [execAbort, hfront, hfull]

theorem execAbort_adminQueue (hfront : s.adminFront q 0x08 = some (c, h)) (hroom : h.aborts < 4)
    (hqid : bitsOf (c.cdw 10) 15 0 = 0) : execAbort q s = .next (s.abortDone c false) := by
  simp [execAbort, hfront, Nat.not_le.mpr hroom, hqid]

/-- The Abort of a command that the peer executes asks the peer, and completes with its answer. -/
theorem execAbort_forwarded {f : Fwd} (hfront : s.adminFront q 0x08 = some (c, h)) (hroom : h.aborts < 4)
    (hqid : bitsOf (c.cdw 10) 15 0 ≠ 0) (hfwd : (s.fe.fwd.find? fun f => c.abortTarget q f.cap) = some f) :
    execAbort q s = .next ((((s.takeAdmin q).updHost q.cntlid fun y => { y with aborts := y.aborts + 1 }).updFe fun x =>
      { x with fwd := x.fwd.map fun y => if y.tag = f.tag then { y with abort := some (c.q, c.cid) } else y }).send
      (.fwdAbort f.tag)) := by
  unfold Capsule.abortTarget at hfwd
  simp only [execAbort, hfront, hfwd]
  rw [if_neg (Nat.not_le.mpr hroom), if_neg hqid]

/-- The Abort of a command that this head executes answers whether it was caught. -/
theorem execAbort_own (hfront : s.adminFront q 0x08 = some (c, h)) (hroom : h.aborts < 4)
    (hqid : bitsOf (c.cdw 10) 15 0 ≠ 0) (hfwd : (s.fe.fwd.find? fun f => c.abortTarget q f.cap) = none) :
    execAbort q s = .next (((s.catchCmd (c.abortTarget q)).getD s).abortDone c (s.catchCmd (c.abortTarget q)).isSome) := by
  unfold Capsule.abortTarget at hfwd ⊢
  simp only [execAbort, hfront, hfwd]
  rw [if_neg (Nat.not_le.mpr hroom), if_neg hqid]
  generalize s.catchCmd _ = caught
  cases caught <;> rfl

/-! ### Property Set (R256) -/

/-- Property Set of CC stores the value, and where it clears EN the I/O queues of the host controller end. -/
theorem execPropertySet_cc (hfront : s.adminFront q 0x7F = some (c, h)) (htype : c.fctype = 0)
    (hcc : leAt c.sqe 44 4 = 0x14) :
    execPropertySet q s =
      let s1 := (s.updHost q.cntlid fun h => { h with cc := leAt c.sqe 48 4 }).adminDone c stOk 0 []
      let io := s1.fe.queues.filter fun x => decide (x.q.cntlid = q.cntlid ∧ x.q.qid ≠ 0)
      if bitOf h.cc 0 = true ∧ bitOf (leAt c.sqe 48 4) 0 = false then
        .next (io.foldl (fun u x => u.updFe fun f => f.dropQueue x.q) (io.foldl (fun u x => u.qpError x.qp none) s1))
      else .next s1 := by
  simp only [execPropertySet, hfront, Bool.not_eq_true']
  rw [if_neg (not_not.mpr htype), if_neg (not_not.mpr hcc)]

end

/-- Settles O23: the front command of an admin queue takes the one path that the premises of a case leave open. -/
theorem adminCommands : Obligations.AdminCommands := by
  unfold Obligations.AdminCommands
  refine ⟨?caught, ?logPage, ?identify, ?keepFeature, ?getFeature, ?eventWaits, ?event, ?keepAlive, ?keepAliveTimeout,
    ?setCc, ?getProperty, ?notCaught, ?forwardedAbort, ?abortLimit, ?queueCounts, ?keepAliveTimer, ?persistence,
    ?peerPersistence, ?keptEvent, ?clearEnable, ?noProperty⟩
  case caught =>
    intro s q c h s1 p hfront hroom hqid hp hfwd hcatch
    obtain rfl : p = c.abortTarget q := hp
    refine Done.eq ((execAbort_own hfront hroom hqid hfwd).trans ?_)
    rw [hcatch]
    rfl
  case logPage =>
    intro s s1 q c h st b hfront hpage hlog h1
    subst h1
    refine Done.eq (?_ : execGetLogPage q s = _)
    simp only [execGetLogPage, hfront, hlog]
    exact if_neg fun hno => hpage.elim (fun hidle => by simp [hidle] at hno) hno.2
  case identify =>
    intro s q c h st b hfront hident
    refine Done.eq (?_ : execIdentify q s = _)
    simp only [execIdentify, hfront, hident]
  case keepFeature =>
    intro s q c h hfront hfid
    refine Done.eq (?_ : execSetFeatures q s = _)
    rcases hfid with hfid | hfid <;> simp only [execSetFeatures, hfront, hfid]
  case getFeature =>
    intro s q c h v b hfront hown hfeat
    refine Done.eq (?_ : execGetFeatures q s = _)
    simp only [execGetFeatures, hfront, hfeat]
    exact if_neg fun hpeer => hown hpeer.1 hpeer.2
  case eventWaits =>
    intro s q c h hfront hkept hroom
    refine Done.eq (?_ : execAsynchronousEventRequest q s = _)
    simp only [execAsynchronousEventRequest, hfront, hkept]
    exact if_neg (Nat.not_le.mpr hroom)
  case event => exact fun s n e => ⟨_, rfl, rfl, s.asyncTo_only n e⟩
  case keepAlive =>
    intro s q c h hfront
    refine Done.eq (?_ : execKeepAlive q s = _)
    simp only [execKeepAlive, hfront]
  case keepAliveTimeout =>
    intro s n h hhost hkato
    refine Done.eq (?_ : execKeepAliveTimeout n s = _)
    simp only [execKeepAliveTimeout, hhost, if_neg hkato]
  case setCc =>
    intro s q c h hfront htype hcc hstays
    exact Done.eq ((execPropertySet_cc hfront htype hcc).trans (if_neg hstays))
  case getProperty =>
    intro s q c h v hfront htype hprop
    refine Done.eq (?_ : execPropertyGet q s = _)
    simp only [execPropertyGet, hfront, hprop]
    exact if_neg (not_not.mpr htype)
  case notCaught =>
    intro s q c h p hfront hroom hp hno
    obtain rfl : p = c.abortTarget q := hp
    by_cases hqid : bitsOf (c.cdw 10) 15 0 = 0
    · exact Done.eq (execAbort_adminQueue hfront hroom hqid)
    · obtain ⟨hfwd, hcatch⟩ := hno.resolve_left hqid
      refine Done.eq ((execAbort_own hfront hroom hqid hfwd).trans ?_)
      rw [hcatch]
      rfl
  case forwardedAbort =>
    intro s q c h f p hfront hroom hqid hp hfwd
    obtain rfl : p = c.abortTarget q := hp
    exact Done.eq (execAbort_forwarded hfront hroom hqid hfwd)
  case abortLimit => exact fun s q c h hfront hfull => Done.eq (execAbort_limit hfront hfull)
  case queueCounts =>
    intro s q c h hfront hfid
    refine Done.eq (?_ : execSetFeatures q s = _)
    simp only [execSetFeatures, hfront, hfid]
  case keepAliveTimer =>
    intro s q c h hfront hfid hmin hmax
    refine Done.eq (?_ : execSetFeatures q s = _)
    simp only [execSetFeatures, hfront, hfid]
    exact if_neg (by omega)
  case persistence =>
    intro s q c h x hfront hfid hns
    refine Done.eq (?_ : execSetFeatures q s = _)
    simp only [execSetFeatures, hfront, hfid, hns]
    cases s.owns x.sd <;> rfl
  case peerPersistence =>
    intro s q c h x hfront hfid hns hpeer
    refine Done.eq (?_ : execGetFeatures q s = _)
    simp [execGetFeatures, hfront, hfid, hns, hpeer]
  case keptEvent =>
    intro s q c h e l hfront hkept
    refine Done.eq (?_ : execAsynchronousEventRequest q s = _)
    simp only [execAsynchronousEventRequest, hfront, hkept]
  case clearEnable =>
    intro s s1 q c h l hfront htype hcc hon hoff h1 hl
    subst hl h1
    exact Done.eq ((execPropertySet_cc hfront htype hcc).trans (if_pos ⟨hon, hoff⟩))
  case noProperty =>
    intro s q c h hfront htype hprop
    refine Done.eq (?_ : execPropertyGet q s = _)
    simp only [execPropertyGet, hfront, hprop]
    exact if_neg (not_not.mpr htype)

end Sys2Proof.Machine
end

section
/-!
PROOFS. Format NVM and Sanitize: what opens a progress record, and how its phases move on.
-/

namespace Sys2Proof.Machine

/-- A phase whose part here is done: the follower reports it, and the leader, once the peer has reported, moves the record on
(R273, R274). -/
theorem execFormatPhaseDone_quiet {s s0 : State} {p : Progress} {bad : List Nat} (hopen : s.fe.progress = some p)
    (hquiet : s.phaseQuiet p bad = true) (h0 : s0 = if p.phase = 4 then s.markBad bad else s) :
    execFormatPhaseDone bad s =
      if s0.fe.recordPeer = true then .next (s0.tellDone p)
      else if s0.noMirror = false ∧ s0.fe.peerDone = false then .next s
      else
        let p1 := { p with phase := p.nextPhase, cursor := 0, prog := (Config.progress s0.draws).toNat }
        let s1 := ({ s0 with draws := s0.draws + 1 } : State).updFe fun f => { f with peerDone := false }
        .next (if p.nextPhase = 5 then (s1.closeRecord p1).tellPeer p1
          else ((s1.setProgress (some p1)).tellPeer p1).phaseWork p1 false) := by
  subst h0
  simp only [execFormatPhaseDone, hopen, Bool.not_eq_true']
  exact if_neg (by simp [hquiet])

/-- Settles O24: a record opens where no check refuses it, and a phase that is done ends by the head's role in it. -/
theorem formatAndSanitize : Obligations.FormatAndSanitize := by
  unfold Obligations.FormatAndSanitize
  refine ⟨?format, ?sanitize, ?leader, ?follower, ?beside⟩
  case format =>
    intro s q c h l v hfront hv hnone hl hscope hfit hzero hses hwritable hkeys
    subst hv hl
    refine Done.eq (?_ : execFormatNvm q s = _)
    simp only [execFormatNvm, hfront]
    rw [if_neg (by simp [hnone]), if_neg (ne_true_of_eq_false hscope), if_neg (by simp [hfit, hzero]),
      if_neg (Nat.not_lt.mpr hses), if_neg (ne_true_of_eq_false hwritable), if_neg hkeys]
  case sanitize =>
    intro s q c h hfront hnone hact
    refine Done.eq (?_ : execSanitize q s = _)
    simp only [execSanitize, hfront]
    rw [if_neg (by simp [hnone]), if_neg (by omega)]
  case leader =>
    intro s s0 s1 p p1 bad hopen hquiet h0 hleads hpeer hp1 h1
    subst hp1 h1
    refine Done.eq ((execFormatPhaseDone_quiet hopen hquiet h0).trans ?_)
    rw [if_neg (ne_true_of_eq_false hleads), if_neg (by rcases hpeer with hpeer | hpeer <;> simp [hpeer])]
  case follower =>
    intro s s0 p bad hopen hquiet h0 hfollows
    exact Done.eq ((execFormatPhaseDone_quiet hopen hquiet h0).trans (if_pos hfollows))
  case beside =>
    intro s q c h hfront hbusy
    refine Done.eq (?_ : execSanitize q s = _)
    simp only [execSanitize, hfront]
    exact if_pos hbusy

end Sys2Proof.Machine
end

section
/-!
PROOFS. Byte memories and windows: what a run of bytes written reads back as, and what a packet refused by the window
check leaves alone.
-/

namespace Sys2Proof.Machine

/-! ### Runs of bytes (R286, R311) -/

theorem Memory.read_writeAll {m : Memory} (hm : m.wf = true) (off : Nat) (b : List Byte) (a : Nat) :
    (m.writeAll off b).read a = if off ≤ a ∧ a < off + b.length then b.getD (a - off) 0 else m.read a := by
  induction b generalizing m off with
  | nil => rw [if_neg (by simp)]; rfl
  | cons x xs ih =>
    rw [Memory.writeAll, ih (Memory.write_wf _ _ _ hm), Memory.read_write _ _ _ _ hm, List.length_cons]
    by_cases hin : off + 1 ≤ a ∧ a < off + 1 + xs.length
    · rw [if_pos hin, if_pos (by omega), show a - off = (a - (off + 1)) + 1 by omega, List.getD_cons_succ]
    · rw [if_neg hin]
      by_cases ha : a = off
      · rw [if_pos ha, if_pos (by omega), ha, Nat.sub_self, List.getD_cons_zero]
      · rw [if_neg ha, if_neg (by omega)]

theorem Memory.readN_eq_map (m : Memory) (n len : Nat) : m.readN n len = (List.range' n len).map m.read := by
  induction len generalizing n with
  | zero => rfl
  | succ len ih => rw [Memory.readN, ih, List.range'_succ, List.map_cons]

theorem Memory.readN_writeAll {m : Memory} (hm : m.wf = true) (off : Nat) (b : List Byte) :
    (m.writeAll off b).readN off b.length = b := by
  rw [Memory.readN_eq_map]
  refine List.ext_getElem (by simp) fun i hi hb => ?_
  rw [List.getElem_map, List.getElem_range', Memory.read_writeAll hm, if_pos (by omega)]
  simp [hb]

/-- Settles O58: byte by byte along the run, each write reads back and leaves the others. -/
theorem landingReadsBack : Obligations.LandingReadsBack :=
  ⟨fun _ off b a hm => Memory.read_writeAll hm off b a,
   fun m off b hm => ⟨Memory.readN_writeAll hm off b, m.writeAll_wf off b hm⟩⟩

/-- Settles O43: the mirror and the landing area are empty at reset, and no dump is held. -/
theorem resetIsCanonical : Obligations.ResetIsCanonical := by
  refine ⟨fun m hm => ?_, fun c hc => absurd hc List.not_mem_nil⟩
  have hm : m ∈ [([] : Memory), []] := hm
  simp only [List.mem_cons, List.not_mem_nil, or_false, or_self] at hm
  rw [hm]
  rfl

/-! ### Windows (R286 to R288) -/

theorem State.windowCheck_eq_none {s : State} {qp k right off len : Nat} :
    s.windowCheck qp k right off len = none ↔
      ∀ i w, s.window? k = some (i, w) → w.qp ≠ qp ∨ bitOf w.rights right = false ∨ w.len < off + len := by
  unfold State.windowCheck
  cases hw : s.window? k with
  | none => simp
  | some iw =>
    obtain ⟨i, w⟩ := iw
    simp only [Option.some.injEq, Prod.mk.injEq, ite_eq_right_iff, reduceCtorEq, imp_false, not_and_or,
      Bool.not_eq_true, Nat.not_le]
    exact ⟨fun h i' w' hw' => hw'.2 ▸ h, fun h => h i w ⟨rfl, rfl⟩⟩

theorem State.refuseAccess_landing (s : State) (i psn : Nat) : (s.refuseAccess i psn).rdm.landing = s.rdm.landing :=
  congrArg (·.2.2.1) (s.refuseAccess_kept i psn)

/-- Settles O54: the window check by the window that the rkey names, and each refused request by `refuseAccess`. -/
theorem windowsRefuseWhatTheyDoNotAllow : Obligations.WindowsRefuseWhatTheyDoNotAllow := by
  unfold Obligations.WindowsRefuseWhatTheyDoNotAllow
  refine ⟨fun s qp k right off len => State.windowCheck_eq_none, ?write, ?read, ?flush, ?atomicWrite⟩
  case write =>
    intro s i psn k off data h
    have hrefused : s.request i psn (.write k off data) = s.refuseAccess i psn := by simp only [State.request, h]
    exact ⟨hrefused, hrefused ▸ s.refuseAccess_landing i psn⟩
  case read =>
    intro s i psn k off len h
    simp only [State.request, h]
    rfl
  case flush =>
    intro s i psn k off len p h
    simp only [State.request, h]
    rfl
  case atomicWrite =>
    intro s i psn k off data h
    have hrefused : s.request i psn (.atomicWrite k off data) = s.refuseAccess i psn := by simp only [State.request, h]
    exact ⟨hrefused, hrefused ▸ s.refuseAccess_landing i psn⟩

end Sys2Proof.Machine
end

section
/-!
PROOFS. RDM: contexts, packets, congestion, timeouts and scrim mode.
-/

namespace Sys2Proof.Machine

/-! ### Contexts (R280) -/

theorem Table.find_upd {α : Type} (t : Table α) (n m : Nat) (f : α → α) :
    Table.find (Table.upd t n f) m = if m = n then (Table.find t n).map f else Table.find t m := by
  unfold Table.upd
  by_cases hm : m = n
  · subst hm
    cases ht : Table.find t m <;> simp [ht]
  · rw [if_neg hm]
    split
    · exact Table.find_put_other _ _ _ _ hm
    · rfl

theorem Table.upd_congr {α : Type} {t : Table α} {n : Nat} {v : α} {f g : α → α} (h : Table.find t n = some v)
    (hfg : f v = g v) : Table.upd t n f = Table.upd t n g := by
  simp [Table.upd, h, hfg]

theorem State.qp?_updQp (s : State) (i j : Nat) (f : Qp → Qp) :
    (s.updQp i f).qp? j = if j = i then (s.qp? i).map f else s.qp? j :=
  Table.find_upd ..

/-- Two changes of a context that agree on it are one. -/
theorem State.updQp_congr {s : State} {i : Nat} {q : Qp} {f g : Qp → Qp} (hq : s.qp? i = some q) (hfg : f q = g q) :
    s.updQp i f = s.updQp i g := by
  have hqps : Table.upd s.rdm.qps i f = Table.upd s.rdm.qps i g := Table.upd_congr hq hfg
  simp only [State.updQp, State.updRdm, hqps]

@[simp] theorem State.count_qp? (s : State) (c : Ctr) (n i : Nat) : (s.count c n).qp? i = s.qp? i := rfl

/-! ### Congestion (R279) -/

section
variable {s : State} {i : Nat} {q : Qp}

theorem execCnp_some (path : Nat) (hq : s.qp? i = some q) :
    execCnp i path s = .next ((s.count .rdmCnpReceived).updQp i fun q => q.mapRate path (cutRate s.cfg.rdmCc.value)) := by
  simp only [execCnp, hq]

theorem execRateRaise_some (path : Nat) (hq : s.qp? i = some q) :
    execRateRaise i path s = .next (s.updQp i fun q' =>
      q'.mapRate path (raiseRate s.cfg.rdmCc.value (s.portRate (q.portOf path)))) :=
  congrArg Host.Outcome.next (State.updQp_congr hq rfl)

end

/-- Settles O60: either row changes the context named by the rate law of `Qp.mapRate`, and a change of one context
leaves the others. -/
theorem ratesStayWithinTheirBounds : Obligations.RatesStayWithinTheirBounds := by
  unfold Obligations.RatesStayWithinTheirBounds
  refine ⟨fun s i path q hq => ⟨_, execCnp_some path hq, ?_, fun j hj => ?_⟩,
    fun s i path q hq => ⟨_, execRateRaise_some path hq, ?_, fun j hj => ?_⟩⟩
  · rw [State.qp?_updQp, if_pos rfl, State.count_qp?, hq]
    rfl
  · rw [State.qp?_updQp, if_neg hj, State.count_qp?]
  · rw [State.qp?_updQp, if_pos rfl, hq]
    rfl
  · rw [State.qp?_updQp, if_neg hj]

end Sys2Proof.Machine
end

section
/-!
PROOFS. Three statements that a list of counters with rising keys would keep, and one without refutes: what a count does to
the counter (R88), where its addition wraps to 0.
-/

namespace Sys2Proof.Machine

/-! ### Counting (R88) -/

theorem State.counter_count {s : State} (hwf : s.counters.wf = true) (c : Ctr) : (s.count c).counter c = s.counter c + 1 :=
  State.counter_setCounter hwf _ _

/-- Counters that list one twice, with all ones first: the keys do not rise. -/
def Ctr.listedTwice (c : Ctr) : Table Word := [(c.addr, BitVec.allOnes 32), (c.addr, 5)]

/-- There the addition wraps to 0, which drops the first listing alone, and the second one is read. -/
theorem State.counter_count_listedTwice {s t : State} {c : Ctr} (hs : s.counters = c.listedTwice)
    (ht : t.counters = (s.count c).counters) : t.counter c ≠ s.counter c + 1 := by
  have hread : s.counter c = BitVec.allOnes 32 := by simp [State.counter, hs, Ctr.listedTwice, Table.getD, Table.find]
  have hwrap : (BitVec.allOnes 32 + BitVec.ofNat 32 1 : Word) = 0 := by decide
  have hdrop : t.counters = [(c.addr, 5)] := by
    rw [ht, State.count, State.setCounter, hread, hwrap, if_pos rfl, hs]
    simp [Ctr.listedTwice, Table.del]
  rw [hread, State.counter, hdrop]
  simp [Table.getD, Table.find]

/-! ### CNP (R279) -/

/-- What RdmaPackets says of a CNP holds where the counters list no key twice. -/
theorem execCnp_counted {s : State} {i path : Nat} {q : Qp} (hwf : s.counters.wf = true) (hq : s.qp? i = some q) :
    ∃ t, execCnp i path s = .next t ∧ t.counter .rdmCnpReceived = s.counter .rdmCnpReceived + 1 :=
  ⟨_, execCnp_some path hq, s.counter_count hwf _⟩

/-- A queue pair at INDEX 5, for the refutation. -/
def idleQp : Qp := Qp.new 1 .native 0 4096 0 []

/-- Refutes O37, by its clause on CNP, which says that the counter of CNPs is one higher: the counters list it twice, and the
addition wraps (`State.counter_count_listedTwice`). Where their keys rise, the clause holds (`execCnp_counted`). -/
theorem not_rdmaPackets : ¬ Obligations.RdmaPackets := by
  unfold Obligations.RdmaPackets
  rintro ⟨-, -, -, -, -, -, -, -, -, -, hcnp, -⟩
  let s : State := { State.reset with
    counters := Ctr.rdmCnpReceived.listedTwice
    rdm := { RdmState.reset with qps := [(5, idleQp)] } }
  obtain ⟨t, -, rfl, -, hcounted, -⟩ := hcnp s 5 0 idleQp rfl
  exact State.counter_count_listedTwice rfl rfl hcounted

/-! ### A rehearsal put off (R329) -/

theorem execRehearsal_busy {s : State} (hhead : s.top.head = 0) (hhours : s.cfg.ublRehearse.value ≠ 0)
    (hdue : s.ubl.nextRehearse ≤ s.pwr.rtc.toNat) (hpaired : s.paired = true) (hbusy : s.rehearsalBusy = true) :
    execRehearsal s =
      .next ((s.updUbl fun u => { u with nextRehearse := s.pwr.rtc.toNat + 3600000000 }).count .ublRehearsalPostponed) := by
  have hhours : s.cfg.ublRehearse.value.toNat ≠ 0 := fun h => hhours (BitVec.eq_of_toNat_eq h)
  simp [execRehearsal, hhead, hhours, Nat.not_lt.mpr hdue, hpaired, hbusy]

/-- What HandoverAndRehearsal says of a rehearsal that is put off holds where the counters list no key twice. -/
theorem execRehearsal_counted {s : State} (hwf : s.counters.wf = true) (hhead : s.top.head = 0)
    (hhours : s.cfg.ublRehearse.value ≠ 0) (hdue : s.ubl.nextRehearse ≤ s.pwr.rtc.toNat) (hpaired : s.paired = true)
    (hbusy : s.rehearsalBusy = true) :
    ∃ t, execRehearsal s = .next t ∧ t.counter .ublRehearsalPostponed = s.counter .ublRehearsalPostponed + 1 :=
  ⟨_, execRehearsal_busy hhead hhours hdue hpaired hbusy, State.counter_setCounter (s := s.updUbl _) hwf _ _⟩

/-- Refutes O35, by its clause on a rehearsal that is put off an hour, which says that UBL_REHEARSAL_POSTPONED is one higher:
a handover is under way, the counters list it twice, and the addition wraps (`State.counter_count_listedTwice`). Where
their keys rise, the clause holds (`execRehearsal_counted`). -/
theorem not_handoverAndRehearsal : ¬ Obligations.HandoverAndRehearsal := by
  unfold Obligations.HandoverAndRehearsal
  rintro ⟨-, -, -, -, hpostponed, -⟩
  let s : State := { State.reset with
    counters := Ctr.ublRehearsalPostponed.listedTwice
    cfg := { CfgRegs.reset with ublRehearse := ⟨24, none, none⟩ }
    ubl := { UblState.reset with up := true, peerServing := true, handover := some ⟨.a, true, 0, 0, none⟩ } }
  have hhours : s.cfg.ublRehearse.value ≠ 0 := by decide
  obtain ⟨t, hexec, -, hcounted, -⟩ := hpostponed s rfl hhours (Nat.zero_le _) rfl rfl
  obtain rfl : _ = t := Host.Outcome.next.inj ((execRehearsal_busy rfl hhours (Nat.zero_le _) rfl rfl).symm.trans hexec)
  exact State.counter_count_listedTwice rfl rfl hcounted

/-! ### A missed sample (R333) -/

@[simp] theorem State.capture_counters (s : State) (n : Nat) (b : List Byte) : (s.capture n b).counters = s.counters := by
  unfold State.capture
  split <;> rfl

theorem State.missLoop_counters (s : State) (n : Nat) : (s.missLoop n).counters = (s.count .scrMissed).counters := by
  simp only [State.missLoop, State.capture_counters, State.raise_counters]
  exact State.count_counters rfl _ _

/-- What ScreedAndTheCaptureBuffer says of a missed sample's count holds where the counters list no key twice. -/
theorem State.missLoop_counted {s : State} (hwf : s.counters.wf = true) (n : Nat) :
    (s.missLoop n).counter .scrMissed = s.counter .scrMissed + 1 := by
  rw [← s.counter_count hwf, State.counter, s.missLoop_counters, State.counter]

/-- Refutes O1, by its clause on a missed sample, which says that SCR_MISSED is one higher: the counters list it twice, and
the addition wraps (`State.counter_count_listedTwice`). Where their keys rise, the clause holds
(`State.missLoop_counted`). -/
theorem not_screedAndTheCaptureBuffer : ¬ Obligations.ScreedAndTheCaptureBuffer := by
  unfold Obligations.ScreedAndTheCaptureBuffer
  rintro ⟨-, -, -, -, -, -, -, -, -, hmiss⟩
  let s : State := { State.reset with counters := Ctr.scrMissed.listedTwice }
  obtain ⟨-, -, hcounted, -⟩ := hmiss s 0 rfl
  exact State.counter_count_listedTwice rfl (s.missLoop_counters 0) hcounted

end Sys2Proof.Machine
end

section
/-!
PROOFS. The control law (R339) and the events of a block (R356).
-/

namespace Sys2Proof.Machine

/-! ### The control law (R339) -/

theorem clampI_between (x : Int) {lo hi : Int} (h : lo ≤ hi) : lo ≤ clampI x lo hi ∧ clampI x lo hi ≤ hi := by
  unfold clampI
  split
  · exact ⟨le_refl _, h⟩
  · split <;> omega

theorem ite_between {p : Prop} [Decidable p] {a b lo hi : Int} (ha : lo ≤ a ∧ a ≤ hi) (hb : lo ≤ b ∧ b ≤ hi) :
    lo ≤ (if p then a else b) ∧ (if p then a else b) ≤ hi := by
  split <;> assumption

theorem Loop.law_out (l : Loop) (y x : Int) (h : sWord (l.w 6) ≤ sWord (l.w 7)) :
    sWord (l.w 6) ≤ (l.law y x).out ∧ (l.law y x).out ≤ sWord (l.w 7) :=
  clampI_between _ h

/-- The integrator is clamped, unless the wind-up rule keeps its start. -/
theorem Loop.law_integ (l : Loop) (y x : Int) (h : sWord (l.w 8) ≤ sWord (l.w 9))
    (hold : sWord (l.w 8) ≤ sWord (l.w 12) ∧ sWord (l.w 12) ≤ sWord (l.w 9)) :
    sWord (l.w 8) ≤ (l.law y x).integ ∧ (l.law y x).integ ≤ sWord (l.w 9) :=
  ite_between hold (clampI_between _ h)

/-- Settles O2: output and integrator are each clamped, or kept. -/
theorem controlLawStaysInLimits : Obligations.ControlLawStaysInLimits := by
  unfold Obligations.ControlLawStaysInLimits
  intro l y x hout hint hlo hhi
  obtain ⟨hmin, hmax⟩ := l.law_out y x hout
  exact ⟨hmin, hmax, l.law_integ y x hint ⟨hlo, hhi⟩⟩

/-! ### Events (R356) -/

theorem BlkSt.mem_ack {k : BlkSt} {a : Byte} {e : Event} :
    e ∈ (k.ack a).events ↔ e ∈ k.events ∧ e.aged = false ∧ 128 ≤ (a - e.seq).toNat := by
  simp only [BlkSt.ack, List.mem_filter, Bool.not_eq_true', Bool.or_eq_false_iff, decide_eq_false_iff_not, Nat.not_lt]

theorem BlkSt.raise_seq (k : BlkSt) (bit : Nat) : (k.raise bit).seq = k.seq + 1 := rfl

theorem BlkSt.mem_raise_new (k : BlkSt) (bit : Nat) : (⟨bit, k.seq + 1, false⟩ : Event) ∈ (k.raise bit).events :=
  List.mem_append_right _ (List.mem_singleton_self _)

/-- Raising an event keeps every other, which may become aged. -/
theorem BlkSt.raise_keeps {k : BlkSt} {bit : Nat} {e : Event} (he : e ∈ k.events) (hbit : e.bit ≠ bit) :
    ∃ f ∈ (k.raise bit).events, f.bit = e.bit ∧ f.seq = e.seq := by
  refine ⟨_, List.mem_append_left _ (List.mem_map_of_mem (List.mem_filter.mpr ⟨he, decide_eq_true hbit⟩)), ?_, ?_⟩ <;>
    split <;> rfl

/-- An event is the whole circle less one ahead of the SEQ before it. -/
theorem seq_behind (q : Byte) : (q - (q + 1)).toNat = 255 := by
  bv_omega

/-- Settles O56: raising an event replaces its own entry of the list, and an acknowledgement filters it. -/
theorem eventsStayUntilAcknowledged : Obligations.EventsStayUntilAcknowledged := by
  unfold Obligations.EventsStayUntilAcknowledged
  refine ⟨fun k bit => ⟨k.raise_seq bit, ⟨_, k.mem_raise_new bit, rfl, rfl, rfl⟩, fun e he hbit => k.raise_keeps he hbit⟩,
    fun k a e => BlkSt.mem_ack, fun k bit => ⟨_, BlkSt.mem_ack.mpr ⟨k.mem_raise_new bit, rfl, ?_⟩, rfl, rfl⟩⟩
  rw [seq_behind]
  decide

end Sys2Proof.Machine
end

section
/-!
PROOFS. The digest engine, the measurement registers and their log, exports and the alarm.
-/

namespace Sys2Proof.Machine

/-! ### What a digest operation changes (R380) -/

theorem State.digDone_only (s : State) (rsn : Nat) (b : List Byte) : Only [.dig] s (s.digDone rsn b) := s.updDig_only _

theorem State.updCtx_digDone_only (s : State) (c : Nat) (f : DCtx → DCtx) (rsn : Nat) (b : List Byte) :
    Only [.dig] s ((s.updCtx c f).digDone rsn b) :=
  (s.updDig_only _).trans (State.updDig_only _ _)

/-- Settles O6: the context's number and the state it needs pass the checks of the row. -/
theorem digestEngineOperations : Obligations.DigestEngineOperations := by
  unfold Obligations.DigestEngineOperations
  refine ⟨?start, ?absorb, ?tap, ?untap, ?final, ?squeeze, ?keyed⟩
  case start => exact fun s c hc => ⟨_, if_neg (Nat.not_le.mpr hc), rfl, s.updCtx_digDone_only _ _ _ _⟩
  case absorb => exact fun s c b hc => ⟨_, if_neg (Nat.not_le.mpr hc), rfl, s.updCtx_digDone_only _ _ _ _⟩
  case tap =>
    intro s c src n hc hsrc
    exact ⟨_, if_neg (by omega), rfl, s.updCtx_digDone_only _ _ _ _⟩
  case untap =>
    intro s c x b htap
    refine ⟨_, (?_ : execUntap c b s = _), rfl, s.updCtx_digDone_only _ _ _ _⟩
    simp only [execUntap, htap]
  case final =>
    intro s c p hc hpad
    refine ⟨_, (?_ : execFinal c p s = _), rfl, s.updCtx_digDone_only _ _ _ _⟩
    simp only [execFinal]
    rw [if_neg (Nat.not_le.mpr hc), if_neg (Nat.not_lt.mpr hpad)]
  case squeeze =>
    intro s c n hc hn hfinished
    refine ⟨_, (?_ : execSqueeze c n s = _), rfl, s.updCtx_digDone_only _ _ _ _⟩
    simp only [execSqueeze, hfinished]
    rw [if_neg (by omega)]
    rfl
  case keyed => exact fun s c n hc => ⟨_, if_neg (Nat.not_le.mpr hc), rfl, s.updCtx_digDone_only _ _ _ _⟩

/-! ### Extends (R386, R400) -/

section
variable {s : State}

theorem State.logExtend_room (e : LogEnt) (hroom : s.dig.log.length < 1024) :
    s.logExtend e = s.updDig fun g => { g with log := g.log ++ [e] } :=
  if_pos hroom

theorem State.logExtend_full (e : LogEnt) (hfull : 1024 ≤ s.dig.log.length) :
    (s.logExtend e).dig = { s.dig with logFull := true } := by
  unfold State.logExtend
  rw [if_neg (Nat.not_lt.mpr hfull)]
  cases hmark : s.dig.logFull with
  | true => rw [if_pos rfl, ← hmark]
  | false => exact (State.raise_dig ..).trans rfl

/-- An entry of the log, or its mark, leaves the registers and their counts. -/
theorem State.logExtend_regs (s : State) (e : LogEnt) :
    (s.logExtend e).dig.m = s.dig.m ∧ (s.logExtend e).dig.counts = s.dig.counts := by
  rcases Nat.lt_or_ge s.dig.log.length 1024 with h | h
  · rw [State.logExtend_room e h]
    exact ⟨rfl, rfl⟩
  · rw [State.logExtend_full e h]
    exact ⟨rfl, rfl⟩

variable (i : Nat) (b : List Byte) (ev sub : Nat) (un : Bool)

/-- The register and its count, extended by a block. -/
def State.measured (s : State) (i : Nat) (b : List Byte) : State :=
  s.updDig fun g => { g with
    m := updAt g.m i fun m => extendValue m b
    counts := updAt g.counts i fun n => if n = BitVec.allOnes 32 then n else n + 1 }

theorem State.extendReg_eq : s.extendReg i b ev sub un =
    ((s.measured i b).logExtend ⟨i, ev, sub, un, b.take 64⟩).digDone 0 [] := rfl

theorem State.extendReg_m : (s.extendReg i b ev sub un).dig.m = updAt s.dig.m i fun m => extendValue m b :=
  ((s.measured i b).logExtend_regs _).1

theorem State.extendReg_counts : (s.extendReg i b ev sub un).dig.counts =
    updAt s.dig.counts i fun n => if n = BitVec.allOnes 32 then n else n + 1 :=
  ((s.measured i b).logExtend_regs _).2

theorem State.extendReg_reason : (s.extendReg i b ev sub un).dig.last.reason = 0 := rfl

theorem State.extendReg_room (hroom : s.dig.log.length < 1024) :
    s.extendReg i b ev sub un =
      ((s.measured i b).updDig fun g => { g with log := g.log ++ [⟨i, ev, sub, un, b.take 64⟩] }).digDone 0 [] := by
  rw [State.extendReg_eq, State.logExtend_room (s := s.measured i b) _ hroom]

theorem State.extendReg_full (hfull : 1024 ≤ s.dig.log.length) :
    (s.extendReg i b ev sub un).dig = { (s.measured i b).dig with logFull := true, last := ⟨0, []⟩ } := by
  rw [State.extendReg_eq, State.digDone, State.updDig_dig, State.logExtend_full (s := s.measured i b) _ hfull]

end

/-- Settles O53: an extend by whether its entry finds room in the log; register and count change in both cases. -/
theorem theMeasurementLogKeepsTheFirstExtends : Obligations.TheMeasurementLogKeepsTheFirstExtends := by
  unfold Obligations.TheMeasurementLogKeepsTheFirstExtends
  refine ⟨?room, ?full, ?register, fun s cause => ⟨rfl, rfl⟩⟩
  case room =>
    intro s i b ev sub un hroom
    rw [State.extendReg_room i b ev sub un hroom]
    exact ⟨rfl, rfl⟩
  case full =>
    intro s i b ev sub un hfull
    rw [State.extendReg_full i b ev sub un hfull]
    exact ⟨rfl, rfl⟩
  case register =>
    intro s i b ev sub un m n hm hn hmax
    rw [State.extendReg_m, State.extendReg_counts, updAt_getElem?, updAt_getElem?, hm, hn]
    exact ⟨rfl, congrArg some (if_neg hmax)⟩

/-- An allowed request of Terzan for an extend is made as asked, with the core's own note of register 5, and answered with 0
(R387). -/
theorem execExtendRequest_allowed {s : State} {i ev : Nat} (sub : Nat) (un : Bool) (d : List Byte)
    (hsafe : s.dig.alarmed = false) (hmay : s.mayExtend i ev = true) :
    execExtendRequest i ev sub un d s =
      .next ((((s.askTrust (LogEnt.bytes ⟨i, ev, sub, un, d⟩)).updDig fun g =>
        { g with m5 := g.m5 || decide (i = 5) }).extendReg i (extendInput d) ev sub un).replyTrust [0, 0]) := by
  let s0 := s.askTrust (LogEnt.bytes ⟨i, ev, sub, un, d⟩)
  have hsafe : s0.dig.alarmed = false := hsafe
  have hmay : s0.mayExtend i ev = true := hmay
  have hnote : (if i = 5 then s0.updDig fun g => { g with m5 := true } else s0) =
      s0.updDig fun g => { g with m5 := g.m5 || decide (i = 5) } := by
    by_cases h : i = 5
    · rw [if_pos h]
      simp only [h, decide_true, Bool.or_true]
    · rw [if_neg h]
      simp only [h, decide_false, Bool.or_false]
      rfl
  have hasked : s0.extendAsked i ev sub un d =
      (s0.updDig fun g => { g with m5 := g.m5 || decide (i = 5) }).extendReg i (extendInput d) ev sub un := by
    simp only [State.extendAsked, hsafe, hmay, hnote]
    rfl
  have hreply : leBytes 2 0 = [0, 0] := by decide
  calc execExtendRequest i ev sub un d s
    _ = .next ((s0.extendAsked i ev sub un d).replyTrust (leBytes 2 (s0.extendAsked i ev sub un d).dig.last.reason)) := rfl
    _ = _ := by rw [hasked, State.extendReg_reason, hreply]

/-! ### The boot record (R396, R398) -/

theorem State.signRecord_first {s : State} (hfirst : s.dig.recordSigned = false) (hsafe : s.dig.alarmed = false) :
    s.signRecord = ((s.signBody (s.recordBody false [])).2.updDig fun g =>
      { g with record := (s.signBody (s.recordBody false [])).1, recordSigned := true }).raise .dig 1 :=
  if_neg (by simp [hfirst, hsafe])

/-- An event of DIG raised over a change of DIG. -/
theorem State.raise_dig_over {s u : State} (h : Only [.dig] s u) (bit : Nat) :
    (u.raise .dig bit).raisedBy s .dig bit ∧ Only [.dig, .blk, .msix] s (u.raise .dig bit) :=
  ⟨State.raise_raisedBy_of _ _ _ _ (h .blk (by decide)), (h.mono (by decide)).trans ((State.raise_only _ _ _).mono (by decide))⟩

theorem State.signBody_only (s : State) (body : List Byte) : Only [.dig] s (s.signBody body).2 := s.updDig_only _

theorem State.snag_only (s : State) (source code : Nat) (sd : Option SD) (port : Nat) (arg : List Byte) :
    Only [.evr, .counters, .draws, .blk, .msix] s (s.snag source code sd port arg) := by
  intro p hp
  cases p <;> simp_all [Part.same]

theorem State.draw_only (s : State) : Only [.draws] s s.draw.2 := by
  intro p hp
  cases p <;> simp_all [Part.same, State.draw]

/-- Settles O7: each row's checks pass; what it does then is said once, by `extendReg`, `signRecord` or the row itself. -/
theorem measurementAndAlarm : Obligations.MeasurementAndAlarm := by
  unfold Obligations.MeasurementAndAlarm
  refine ⟨?extend, ?request, ?save, ?restore, ?alarm, ?sign, ?signLate, ?saveWrapped, ?effect⟩
  case extend =>
    intro s i b ev sub un hsafe hi hlen
    refine Done.eq (?_ : execExtend i b ev sub un s = _)
    simp only [execExtend, hsafe, hlen]
    exact if_neg (Nat.not_le.mpr hi)
  case request => exact fun s i d ev sub un hsafe hmay => Done.eq (execExtendRequest_allowed sub un d hsafe hmay)
  case save =>
    intro s c hc hraw
    refine ⟨_, (?_ : execSave c false s = _), rfl, s.digDone_only _ _⟩
    simp only [execSave, hraw]
    exact if_neg (Nat.not_le.mpr hc)
  case restore =>
    intro s c b hc hlen
    refine ⟨_, (?_ : execRestore c b s = _), rfl, s.updCtx_digDone_only _ _ _ _⟩
    simp only [execRestore, hlen]
    exact if_neg (Nat.not_le.mpr hc)
  case alarm =>
    intro s n be hin
    refine ⟨_, (if_neg (by simpa [or_iff_not_imp_left] using hin) : execSecAlarm n be s = _), _, rfl, rfl, ?_⟩
    exact ((s.updDig_only _).mono (by decide)).trans
      (((State.raise_only _ _ _).mono (by decide)).trans ((State.snag_only _ _ _ _ _ _).mono (by decide)))
  case sign =>
    intro s b hb hcore hm5 hphase hports hfirst hsafe
    subst hb
    refine Done.of_next (u := s.signRecord) (?_ : execBootRecordSign s = _) (State.signRecord_first hfirst hsafe) ⟨rfl, ?_⟩
    · exact congrArg Host.Outcome.next (if_pos ⟨hcore, hm5, hphase, congrArg (!·) hports⟩)
    · exact State.raise_dig_over ((s.signBody_only _).trans (State.updDig_only _ _)) 1
  case signLate =>
    intro s b hb hcore hfirst hsafe
    subst hb
    refine Done.of_next (u := s.signRecord) (?_ : execBootRecordTimeout s = _) (State.signRecord_first hfirst hsafe) ⟨rfl, ?_⟩
    · exact congrArg Host.Outcome.next (if_pos hcore)
    · exact State.raise_dig_over ((s.signBody_only _).trans (State.updDig_only _ _)) 1
  case saveWrapped =>
    intro s c hc hroom
    refine ⟨_, (?_ : execSave c true s = _), rfl, ?_⟩
    · simp only [execSave]
      rw [if_neg (Nat.not_le.mpr hc), if_neg (by simp), if_neg (Nat.not_le.mpr hroom)]
    · exact ((s.draw_only).mono (by decide)).trans
        (((State.updDig_only _ _).mono (by decide)).trans ((State.digDone_only _ _ _).mono (by decide)))
  case effect =>
    intro s i b ev sub un hroom
    rw [State.extendReg_m, updAt_getElem?, State.extendReg_room i b ev sub un hroom]
    exact ⟨rfl, rfl, rfl, ((s.updDig_only _).trans (State.updDig_only _ _)).trans (State.digDone_only _ _ _)⟩

end Sys2Proof.Machine
end

section
/-!
PROOFS. Heartbeats, declarations, the takeover of a domain and the break line.
-/

namespace Sys2Proof.Machine

theorem State.updUbl_only (s : State) (f : UblState → UblState) : Only [.ubl] s (s.updUbl f) := by
  intro p hp
  cases p <;> simp_all [Part.same]

/-! ### Heartbeats (R318 to R320) -/

/-- A frame on a path that can bring one, with the identifier and the check of Table 13.6. -/
structure HeartbeatArrives (s : State) (path : HbPath) (b : List Byte) : Prop where
  len : b.length = 24
  head : leAt b 0 1 = 0x48
  check : crcOk b 16 = true
  on : s.powered .ubl = true
  up : path = .link → s.ubl.up = true

theorem HeartbeatArrives.checks {s : State} {path : HbPath} {b : List Byte} (h : HeartbeatArrives s path b) :
    ¬ (b.length ≠ 24 ∨ leAt b 0 1 ≠ 0x48 ∨ (!crcOk b 16) = true ∨ (path = .link ∧ (!s.ubl.up) = true) ∨
      (!s.powered .ubl) = true) := by
  have hup := h.up
  simp_all [h.len, h.head, h.check, h.on]

theorem execHeartbeatPeriod_on {s : State} (hon : s.powered .ubl = true) :
    execHeartbeatPeriod s =
      let s2 := ((s.updUbl fun u =>
        { u with hbLink := s.ubl.hbLink.tick, hbPair := s.ubl.hbPair.tick, pairOk := s.ubl.hbPair.seen }).count .ublHbMisses
        (b2n (!s.ubl.hbLink.seen) + b2n (!s.ubl.hbPair.seen))).beat
      .next (if 3 ≤ s.ubl.hbLink.tick.misses ∧ 3 ≤ s.ubl.hbPair.tick.misses then s2.declare 0 else s2) :=
  if_neg (by simp [hon])

/-! ### The batten and break lines (R321, R322, R325) -/

theorem execBattenStuck_waiting {s : State} {d : SD}
    (hwaits : (s.ubl.takeover.any fun x => decide (x.sd = d ∧ x.step = 2)) = true) :
    execBattenStuck d s = .next ((s.seeBatten d true).raise .ubl 7) :=
  congrArg Host.Outcome.next (if_pos hwaits)

theorem execBreakAsserted_first {s : State} (hbreak : s.ubl.breakIn = false) :
    execBreakAsserted s =
      let s1 := (s.updMlk fun m => { m with
        out := m.out.map fun o => if o.res.isNone then { o with res := some fencedRes, loc := true } else o
        late := m.late ++ submitted m.out }).count .mlkFenced (s.mlk.out.filter fun o => o.res.isNone).length
      let s2 := (s1.updUbl fun u => { u with breakIn := true, breakOut := false, battenOut := ⟨false, false⟩ }).raise .ubl 6
      if s2.ubl.expectBreak ∨ !s2.upd.core0 ∨ !s2.powered .ubl then .next s2
      else .next (((s2.owned.foldl State.leaveDomain (s2.snag 13 0x100C).portsDown).sayState 3).requestState 2) :=
  if_neg (by simp [hbreak])

theorem expected_or_off {expected core on : Bool} (hexpected : expected = false) (hcore : core = true) (hon : on = true) :
    ¬ (expected = true ∨ (!core) = true ∨ (!on) = true) := by
  simp [hexpected, hcore, hon]

/-- Settles O34: each premise decides the tests of its row, and a takeover goes on from the step it has reached. -/
theorem heartbeatsAndDeclaration : Obligations.HeartbeatsAndDeclaration := by
  unfold Obligations.HeartbeatsAndDeclaration
  refine ⟨?heartbeat, ?notValid, ?clash, ?period, ?failed, ?tone, ?delay, ?delayBroken, ?takeBreak, ?takeBatten, ?takeFence,
    ?takeRows, ?takeEnd, ?stuck, ?recheck, ?recheckOnly, ?broken, ?released, ?expiry, ?fill, ?release, ?takeInstall,
    ?takeFails, ?takeUnits, ?brokenOff⟩
  case heartbeat =>
    intro s s0 s1 path b h q hlen hhead hcheck hon hup hother hh hq hnew hnewer h0 h1
    subst h0 h1 hq hh
    refine Done.eq (?_ : execHeartbeat path b s = _)
    simp only [execHeartbeat]
    rw [if_neg (HeartbeatArrives.checks ⟨hlen, hhead, hcheck, hon, hup⟩), if_neg hother, if_neg (by omega)]
  case notValid =>
    intro s path b hbad
    exact Done.eq (if_pos (by simpa using hbad.imp id (Or.imp id Or.inl)) : execHeartbeat path b s = _)
  case clash =>
    intro s path b hlen hhead hcheck hon hup hsame
    refine Done.eq (?_ : execHeartbeat path b s = _)
    simp only [execHeartbeat]
    rw [if_neg (HeartbeatArrives.checks ⟨hlen, hhead, hcheck, hon, hup⟩), if_pos hsame]
  case period =>
    intro s s1 hon hheard h1
    subst h1
    exact Done.eq ((execHeartbeatPeriod_on hon).trans (congrArg Host.Outcome.next (if_neg (by omega))))
  case failed =>
    intro s s1 hon hlink hpair h1
    subst h1
    exact Done.eq ((execHeartbeatPeriod_on hon).trans (congrArg Host.Outcome.next (if_pos ⟨hlink, hpair⟩)))
  case tone => exact fun s hon => Done.eq (congrArg Host.Outcome.next (if_pos hon))
  case delay =>
    intro s hdelay hbreak
    refine Done.eq (?_ : execDeclarationDelay s = _)
    simp [execDeclarationDelay, hdelay, hbreak]
  case delayBroken =>
    intro s hdelay hbreak
    refine Done.of_next (t := s.updUbl fun u => { u with delay := false, rehearsing := false })
      (?_ : execDeclarationDelay s = _) rfl ⟨rfl, s.updUbl_only _⟩
    simp [execDeclarationDelay, hdelay, hbreak]
  case takeBreak =>
    intro s d x level gap htake hstep hbreak
    refine Done.eq (?_ : execTakeover d level gap s = _)
    simp only [execTakeover, htake, hstep, hbreak]
    rfl
  case takeBatten =>
    intro s d x level gap htake hstep hbreak
    refine Done.eq (?_ : execTakeover d level gap s = _)
    simp only [execTakeover, htake, hstep, hbreak]
    cases level <;> rfl
  case takeFence =>
    intro s d x level gap htake hstep hbreak
    refine Done.eq (?_ : execTakeover d level gap s = _)
    simp only [execTakeover, htake, hstep, hbreak]
    rfl
  case takeRows =>
    intro s d x level gap htake hstep hbreak
    refine Done.eq (?_ : execTakeover d level gap s = _)
    simp only [execTakeover, htake, hstep, hbreak]
    rfl
  case takeEnd =>
    intro s d x level gap htake hstep hbreak
    refine Done.eq (?_ : execTakeover d level gap s = _)
    simp only [execTakeover, htake, hstep, hbreak]
    rfl
  case stuck =>
    intro s d hwaits
    exact ⟨_, execBattenStuck_waiting hwaits, rfl, State.raise_raisedBy_of _ _ _ _ rfl, by simp [State.seeBatten]⟩
  case recheck =>
    intro s d hhead hout
    refine Done.eq (?_ : execBattenRecheck d true s = _)
    exact congrArg Host.Outcome.next (if_pos ⟨rfl, hhead, hout⟩)
  case recheckOnly =>
    intro s d level hkeeps
    refine Done.eq (?_ : execBattenRecheck d level s = _)
    refine congrArg Host.Outcome.next (if_neg ?_)
    rintro ⟨hlevel, hhead, hout⟩
    simp [hlevel, hhead, hout] at hkeeps
  case broken =>
    intro s s1 s2 hbreak h1 h2 hkeeps
    subst h1 h2
    exact Done.eq ((execBreakAsserted_first hbreak).trans
      (if_pos (hkeeps.imp_right (Or.imp (congrArg (!·)) (congrArg (!·))))))
  case released => exact fun s => ⟨_, rfl, rfl, s.updUbl_only _⟩
  case expiry => exact fun s => Done.eq rfl
  case fill =>
    intro s s1 s2 s3 hup hun hfill howned hbreak h1 h2 h3
    subst h1 h2 h3
    refine Done.eq (?_ : execFill s = _)
    exact if_neg (by simp [hup, hun, hfill, howned, hbreak])
  case release =>
    intro s c r htakes hup
    refine Done.eq (?_ : execBreakRelease c s = _)
    refine (State.runCmd_takes htakes rfl).trans ?_
    simp [hup]
  case takeInstall =>
    intro s s1 d x level gap htake hstep hbreak hunits h1
    subst h1
    refine Done.eq (?_ : execTakeover d level gap s = _)
    simp only [execTakeover, htake, hstep, hbreak]
    rw [if_neg Bool.false_ne_true]
    rcases hexpect : s.ubl.expectUnits.get d with _ | ⟨k, hi⟩
    · rfl
    · refine if_neg ?_
      rintro ⟨hrehearsal, hdiffer⟩
      simp [hexpect, hrehearsal] at hunits
      exact hdiffer.elim (absurd hunits.1.symm) (absurd hunits.2.symm)
  case takeFails =>
    intro s d x level gap k hi htake hstep hbreak hrehearsal hexpect hdiffer
    refine Done.eq (?_ : execTakeover d level gap s = _)
    simp only [execTakeover, htake, hstep, hbreak, hexpect]
    rw [if_neg Bool.false_ne_true, if_pos ⟨hrehearsal, hdiffer⟩]
  case takeUnits =>
    intro s s1 d x level gap ok htake hstep hbreak hunits
    refine Done.eq (?_ : execTakeover d level gap s = _)
    simp only [execTakeover, htake, hstep, hbreak, hunits]
    rfl
  case brokenOff =>
    intro s s1 s2 s3 hbreak h1 h2 hexpect hcore hon h3
    subst h1 h2 h3
    exact Done.eq ((execBreakAsserted_first hbreak).trans (if_neg (expected_or_off hexpect hcore hon)))

end Sys2Proof.Machine
end

section
/-!
PROOFS. The snag log: entry of events, CLEAR and FLUSH, the programs of a flush and the erases of the partition.
-/

namespace Sys2Proof.Machine

/-! ### Entry (R430, R431) -/

section
variable {s : State} {x y : Snag}

theorem State.enterSnag_new (hroom : s.evr.log.length < 8191)
    (hnew : ∀ y, s.evr.log.getLast? = some y → x.repeats y = false) :
    s.enterSnag x = (s.updEvr fun e =>
      { e with log := e.log ++ [{ x with rnum := e.nextRnum }], nextRnum := e.nextRnum + 1 }).count .evrMark := by
  refine (if_neg ?notAgain).trans ((if_neg (by omega)).trans (if_neg (by omega)))
  cases hlast : s.evr.log.getLast? with
  | none => exact Bool.false_ne_true
  | some y => exact ne_true_of_eq_false (hnew y hlast)

theorem State.enterSnag_again (hlast : s.evr.log.getLast? = some y) (hsame : x.repeats y = true) :
    s.enterSnag x = (s.updEvr fun e => { e with log := e.log.dropLast ++ [y.fold x] }).count .evrMark := by
  simp only [State.enterSnag, hlast, hsame]
  rfl

theorem execSnagEvent_next {xs : List Snag} (hinq : s.evr.inq = x :: xs) :
    execSnagEvent s =
      let s1 := s.updEvr fun e => { e with inq := xs }
      if s.evr.flushing then .next s1.dropSnag
      else .next (if x.code ∈ flushCodes then (s1.enterSnag x).askFlush 1 else s1.enterSnag x) := by
  simp only [execSnagEvent, hinq]

end

/-! ### CLEAR and FLUSH (R432, R433) -/

section
variable {s : State}

theorem State.updEvr_only (s : State) (f : EvrState → EvrState) : Only [.evr] s (s.updEvr f) := by
  intro p hp
  cases p <;> simp_all [Part.same]

theorem State.clearLog_only (s : State) : Only [.evr, .counters] s s.clearLog := by
  intro p hp
  cases p <;> simp_all [Part.same, State.clearLog]

theorem State.evrCtrl_clear (r : Requester) (hidle : s.evr.flushing = false) : s.evrCtrl r 1 = s.clearLog := by
  simp [State.evrCtrl, hidle, show bitOf 1 0 = true from rfl, show bitOf 1 1 = false from rfl]

/-- A flush that a module of the vault set can take freezes the log. -/
theorem State.askFlush_freezes (cause : Nat) (hidle : s.evr.flushing = false) (hworks : s.works .evr = true)
    (hports : s.flushPorts ≠ []) :
    s.askFlush cause = s.updEvr fun e => { e with flushing := true, image := s.flushImage cause, issued := false } := by
  unfold State.askFlush
  rw [if_neg (by simp [hidle]), if_neg (by simp [hworks, hports])]
  rfl

theorem State.evrCtrl_flush (r : Requester) (hidle : s.evr.flushing = false) : s.evrCtrl r 2 = s.askFlush 2 := by
  simp [State.evrCtrl, hidle, show bitOf 2 0 = false from rfl, show bitOf 2 1 = true from rfl]

/-- CLEAR with FLUSH: the clearing is held back while the flush runs. -/
theorem State.evrCtrl_both (r : Requester) (hidle : s.evr.flushing = false) (hruns : (s.askFlush 2).evr.flushing = true) :
    s.evrCtrl r 3 = (s.askFlush 2).updEvr fun e => { e with heldClear := true } := by
  simp [State.evrCtrl, hidle, show bitOf 3 0 = true from rfl, show bitOf 3 1 = true from rfl, hruns]

end

/-! ### The partition (R434) -/

/-- The erase of a segment goes to every module of the vault set that holds it. -/
def State.eraseSegment (s : State) (g : Nat) : State :=
  (s.presentPorts.filter fun p => decide (p % 2 = s.top.head % 2)).foldl (fun u p =>
    match u.mod? p with
    | some m => if m.holds g = true then u.issue (MCmd.vaultErase p g) else u
    | none => u) (s.updEvr fun e => { e with erasing := true })

/-- A segment is due to be erased: the one segment once it is full, or the next one where a module of the vault set holds it. -/
def State.eraseDue (s : State) (g : Nat) : Prop :=
  (s.evrSegs = 1 ∧ 1024 ≤ s.evr.used ∧ g = 0) ∨ (s.evrSegs ≠ 1 ∧ g = (s.evr.used / 1024 + 1) % s.evrSegs ∧
    (s.presentPorts.any fun p => decide (p % 2 = s.top.head % 2 ∧ (s.mod? p).any (fun m => m.holds g) = true)) = true)

theorem execEvrPartitionErase_due {s : State} {g : Nat} (hidle : s.evr.flushing = false) (hfree : s.vaultBusy .erase = false)
    (hnone : s.evr.erasing = false) (hdue : s.eraseDue g) : execEvrPartitionErase s = .next (s.eraseSegment g) := by
  have hchecks : ¬ (s.evr.flushing = true ∨ s.vaultBusy .erase = true) := by simp [hidle, hfree]
  have herasing : ¬ s.evr.erasing = true := by simp [hnone]
  refine (if_neg hchecks).trans ((if_neg herasing).trans ?_)
  rcases hdue with ⟨hone, hfull, rfl⟩ | ⟨hmany, rfl, hheld⟩
  · exact (if_pos hone).trans (congrArg Host.Outcome.next (if_pos hfull))
  · exact (if_neg hmany).trans (congrArg Host.Outcome.next (if_pos hheld))

theorem execEvrPartitionErase_ended {s : State} (hidle : s.evr.flushing = false) (hfree : s.vaultBusy .erase = false)
    (herasing : s.evr.erasing = true) :
    execEvrPartitionErase s =
      .next (s.updEvr fun e => { e with erasing := false, used := if s.evrSegs = 1 then 0 else e.used }) := by
  have hchecks : ¬ (s.evr.flushing = true ∨ s.vaultBusy .erase = true) := by simp [hidle, hfree]
  exact (if_neg hchecks).trans (if_pos herasing)

theorem execSnagFlush_starts {s : State} (hruns : s.evr.flushing = true) (hnew : s.evr.issued = false) :
    execSnagFlush s =
      let l := if s.flushRoom then s.flushPorts.filter fun p => s.slotsErased p s.flushPlace else []
      if l.isEmpty then .next (s.endFlush false)
      else .next (l.foldl (fun u p => u.programImage u.evr.image s.flushPlace p) (s.updEvr fun e => { e with issued := true })) :=
  if_neg (by simp [hruns, hnew])

/-- Settles O19: the input queue's head, a write of EVR_CTRL by its bits, and each row of a flush once its checks pass. -/
theorem snagLogCommands : Obligations.SnagLogCommands := by
  unfold Obligations.SnagLogCommands
  refine ⟨?entered, ?dropped, ?clear, ?flush, ?program, ?programmed, ?erase, ?flushClear, ?erased, ?new, ?again, ?done⟩
  case entered =>
    intro s s1 x xs hinq hidle h1
    subst h1
    exact Done.eq ((execSnagEvent_next hinq).trans (if_neg (ne_true_of_eq_false hidle)))
  case dropped => exact fun s x xs hinq hruns => Done.eq ((execSnagEvent_next hinq).trans (if_pos hruns))
  case clear =>
    intro r s hidle
    refine ⟨_, (?_ : execEvrClear r 1 s = .next s.clearLog), rfl, s.clearLog_only⟩
    rw [← State.evrCtrl_clear r hidle]
    rfl
  case flush =>
    intro r s hidle hworks hports
    refine ⟨_, (?_ : execEvrFlush r 2 s = _), rfl, s.updEvr_only _⟩
    rw [← State.askFlush_freezes 2 hidle hworks hports, ← State.evrCtrl_flush r hidle]
    rfl
  case program =>
    intro s l hruns hnew hl
    subst hl
    refine Done.eq ((execSnagFlush_starts hruns hnew).trans ?_)
    exact (apply_ite Host.Outcome.next _ _ _).symm
  case programmed =>
    intro s hruns hissued hfree
    refine Done.eq (?_ : execSnagFlushEnd s = _)
    exact if_neg (by simp [hruns, hissued, hfree])
  case erase => exact fun s g hidle hfree hnone hdue => Done.eq (execEvrPartitionErase_due hidle hfree hnone hdue)
  case flushClear =>
    intro r s hidle hworks hports
    have hfrozen := State.askFlush_freezes 2 hidle hworks hports
    refine ⟨_, (?_ : execEvrFlush r 3 s = _), rfl, s.updEvr_only _⟩
    refine congrArg Host.Outcome.next ((State.evrCtrl_both r hidle (by rw [hfrozen]; rfl)).trans ?_)
    rw [hfrozen]
    rfl
  case erased =>
    exact fun s hidle hfree herasing => ⟨_, execEvrPartitionErase_ended hidle hfree herasing, rfl, s.updEvr_only _⟩
  case new => exact fun s x hroom hnew => State.enterSnag_new hroom hnew
  case again => exact fun s x y hlast hsame => State.enterSnag_again hlast hsame
  case done =>
    intro s hissued hheld
    simp only [State.endFlush, State.updEvr, hissued, hheld, if_true]
    rfl

end Sys2Proof.Machine
end

section
/-!
PROOFS. Power states, regulators and the root PLL.
-/

namespace Sys2Proof.Machine

theorem State.updPwr_only (s : State) (f : PwrState → PwrState) : Only [.pwr] s (s.updPwr f) := by
  intro p hp
  cases p <;> simp_all [Part.same]

/-! ### Entries (R416, R422) -/

section
variable {s : State}

/-- An entry in flight goes on: nothing has reset the chip or failed its power. -/
structure Entering (s : State) : Prop where
  inflight : s.pwr.inflight = true
  target : s.pwr.target ≠ 0
  current : s.pwr.current = 0
  locked : s.pwr.pllHeld = false
  power : s.pwr.pfail = 0

theorem Entering.checks (h : Entering s) : ¬ ((!s.pwr.inflight) = true ∨ s.pwr.target = 0 ∨ s.pwr.current ≠ 0 ∨
    s.pwr.pllHeld = true ∨ s.pwr.pfail ≠ 0) := by
  simp [h.inflight, h.target, h.current, h.locked, h.power]

theorem Entering.exec_prepared (h : Entering s) (hprepared : s.pwr.prepared = true) (prep : Bool) :
    execPstateEntry prep s = .next (s.enter s.pwr.target) :=
  (if_neg h.checks).trans (if_pos hprepared)

theorem Entering.exec_prepares (h : Entering s) (hnew : s.pwr.prepared = false) (htarget : s.pwr.target ≠ 3)
    (hrow : (s.prepareEntry s.pwr.target).entryRow s.pwr.target = none) :
    execPstateEntry true s =
      .next ((s.prepareEntry s.pwr.target).updPwr fun p => { p with prepared := true }) := by
  refine (if_neg h.checks).trans ((if_neg (ne_true_of_eq_false hnew)).trans ((if_neg fun hx => htarget hx.1).trans
    ((if_neg Bool.false_ne_true).trans ((if_neg fun hx => htarget hx.1).trans ?_))))
  simp only [hrow]

/-! ### Requests (R415) -/

/-- A write of another state than P0 to PWR_PSTATE_REQ in P0, with no transition in flight, starts the transition. -/
theorem execPstateRequest_starts {r : Requester} {v : Word} (hon : s.powered .pwr = true) (hcurrent : s.pwr.current = 0)
    (hv : v.toNat < 4) (hv0 : v ≠ 0) (hidle : s.pwr.inflight = false) :
    execPstateRequest r v s = .next (s.startTransition (v.toNat % 4)) := by
  have hex : s.regExists r .pwr 0x100 = true := by
    simp [State.regExists, aliasOf, State.readCommon, State.readOwn, State.readPwr]
  have hrest : bitsOf v.toNat 15 2 = 0 := by simp only [bitsOf, Nat.shiftRight_eq_div_pow]; omega
  have hnew : v.toNat % 4 ≠ 0 := by
    rw [Nat.mod_eq_of_lt hv]
    exact fun hx => hv0 (BitVec.eq_of_toNat_eq hx)
  refine congrArg Host.Outcome.next ((State.regWrite_plain (b := .pwr) false v hon hon (by decide) hex rfl).trans ?_)
  show s.writePstate r v = _
  simp [State.writePstate, State.requestState, hrest, hcurrent, hidle, hnew]

/-! ### Exits and wakes (R416, R420) -/

@[simp] theorem State.cancelPending_inflight (s : State) : s.cancelPending.pwr.inflight = s.pwr.inflight := by
  unfold State.cancelPending State.endRequest
  split <;> simp [State.updPwr]

@[simp] theorem State.cancelPending_current (s : State) : s.cancelPending.pwr.current = s.pwr.current := by
  unfold State.cancelPending State.endRequest
  split <;> simp [State.updPwr]

/-- A source that wakes the present state is latched, if it was not. -/
theorem State.wakeEvent_wakes {x : Nat} (hidle : s.pwr.inflight = false) (hwakes : wakesIn x s.pwr.current = true) :
    x ∈ (s.wakeEvent x).pwr.wakes := by
  simp only [State.wakeEvent, hidle, hwakes, Bool.false_eq_true, false_and, if_false, Bool.not_true, false_or]
  split
  · assumption
  · simp

theorem State.wakeEvent_pwr (s : State) (x : Nat) : ∃ l, (s.wakeEvent x).pwr = { s.pwr with wakes := l } := by
  unfold State.wakeEvent
  dsimp only
  split_ifs <;> exact ⟨_, rfl⟩

theorem execWake_exits {x : Nat} (hlow : 4 ≤ x) (hhigh : x ≤ 8) (htimer : x ≠ 5 ∨ s.pwr.wakeTime ≤ s.pwr.rtc)
    (hwakes : wakesIn x s.pwr.current = true) (hcurrent : s.pwr.current ≠ 0) (hP3 : s.pwr.current ≠ 3)
    (hidle : s.pwr.inflight = false) (hlocked : s.pwr.pllHeld = false) :
    execWake x s = .next ((s.wakeEvent x).cancelPending.startTransition 0) := by
  have hfires : (decide (4 ≤ x ∧ x ≤ 8) && (decide (x ≠ 5) || decide (s.pwr.rtc ≥ s.pwr.wakeTime))) = true := by
    simpa [hlow, hhigh] using htimer
  obtain ⟨l, hl⟩ := s.wakeEvent_pwr x
  have hlatched : (s.wakeEvent x).pwr.wakes.isEmpty = false :=
    List.isEmpty_eq_false_iff.mpr (List.ne_nil_of_mem (State.wakeEvent_wakes hidle hwakes))
  have hcurrent' : (s.wakeEvent x).pwr.current ≠ 0 := by rwa [hl]
  have hidle' : (s.wakeEvent x).pwr.inflight = false := by rwa [hl]
  have hlocked' : (s.wakeEvent x).pwr.pllHeld = false := by rwa [hl]
  simp only [execWake, hfires, hP3, Bool.not_true, Bool.false_eq_true, if_false, hlatched, hlocked', false_or,
    State.cancelPending_inflight, State.cancelPending_current, hidle', hcurrent']

end

/-! ### Regulators (R417, R419) -/

theorem execRegulatorTimeout_powered {s : State} {r : Nat} (hr : r < 4) (hon : s.powered .pwr = true) :
    execRegulatorTimeout r s =
      if r ∉ s.pwr.avsTry then .next (s.updPwr fun p => { p with avsTry := p.avsTry ++ [r] })
      else
        let s1 := ((s.updPwr fun p => { p with avsTry := p.avsTry.filter (· ≠ r) }).raise .pwr 5).snag 1 0x1008 none 0xFF
          (leBytes 1 r)
        .next (if s1.pwr.inflight ∧ s1.pwr.target ≠ 0 ∧ s1.pwr.prepared then s1.refuseEntry rsnRegulator 0xF0 0 else s1) :=
  if_neg (by simp [hon, hr])

/-- Settles O8: each premise passes the checks of its row. -/
theorem powerStateCommands : Obligations.PowerStateCommands := by
  unfold Obligations.PowerStateCommands
  refine ⟨?request, ?enter, ?prepare, ?exit, ?wake, ?park, ?retry, ?replan, ?slack, ?unlocked, ?relocked, ?nak⟩
  case request =>
    intro r v s hon hcurrent hv hv0 hidle
    exact ⟨_, execPstateRequest_starts hon hcurrent hv hv0 hidle, rfl, rfl, rfl, s.updPwr_only _⟩
  case enter =>
    intro s p hin htarget hcurrent hlocked hpower hprepared
    exact Done.eq (Entering.exec_prepared ⟨hin, htarget, hcurrent, hlocked, hpower⟩ hprepared p)
  case prepare =>
    intro s s1 h1 hin htarget hcurrent hlocked hpower hnew hrow
    subst h1
    exact Done.eq (Entering.exec_prepares ⟨hin, by omega, hcurrent, hlocked, hpower⟩ hnew (by omega) hrow)
  case exit =>
    intro s bad ok hin hcurrent hlocked hcode htarget
    refine Done.eq (?_ : execPstateExit bad ok s = _)
    refine (if_neg (by simp [hin, hcurrent, hlocked])).trans ((if_neg ?_).trans (congrArg Host.Outcome.next (if_pos htarget)))
    exact fun ⟨hP3, hbad⟩ => by simp [hcode hP3] at hbad
  case wake =>
    intro s x hlow hhigh htimer hwakes hcurrent hP3 hidle hlocked
    exact ⟨_, execWake_exits hlow hhigh htimer hwakes hcurrent hP3 hidle hlocked, rfl, rfl, rfl⟩
  case park =>
    intro s hin htarget hcurrent hlocked hnew hfirst
    refine ⟨_, (?_ : execPark s = _), rfl, rfl, rfl, rfl, rfl⟩
    exact (if_neg (by simp [hin, htarget, hcurrent, hlocked, hnew])).trans (if_pos (by simp [hfirst]))
  case retry =>
    intro s r hr hon hfirst
    exact ⟨_, (execRegulatorTimeout_powered hr hon).trans (if_pos hfirst), rfl, s.updPwr_only _⟩
  case replan =>
    intro s ds rs reads hcurrent hidle hlocked hcore hdue
    refine Done.eq (?_ : execAgeingReplan ds rs reads s = _)
    exact if_neg (by simp [hcurrent, hidle, hlocked, hcore, hdue])
  case slack =>
    intro s n r x hn hr hx hon hlocked
    refine ⟨_, (if_neg (by simp [hn, hr, hx, hon, hlocked]) : execSlackLow n r x s = _), rfl,
      State.raise_raisedBy_of _ _ _ _ rfl, ?_⟩
    exact ((s.updPwr_only _).mono (by decide)).trans ((State.raise_only _ _ _).mono (by decide))
  case unlocked =>
    intro s hlocked hP3
    refine ⟨_, (if_neg (by simp [hlocked, hP3]) : execPllLossOfLock s = _), rfl, rfl, rfl, rfl, rfl, rfl⟩
  case relocked =>
    intro s hheld
    refine ⟨_, congrArg Host.Outcome.next (if_pos hheld), rfl, ?_⟩
    exact ((s.updPwr_only _).mono (by decide)).trans ((State.updUbl_only _ _).mono (by decide))
  case nak =>
    intro s s1 r hr hon hagain h1
    subst h1
    exact Done.eq ((execRegulatorTimeout_powered hr hon).trans (if_neg (not_not.mpr hagain)))

end Sys2Proof.Machine
end

section
/-!
PROOFS. Resets, the fatal fault, power fail, the phases of the start and the restore of a domain.
-/

namespace Sys2Proof.Machine

/-! ### PERST_N (R438) -/

/-- A fold of updates of blocks' common registers that keep a field of each keeps it of every block. -/
theorem State.foldl_updBlk_keeps {α : Type} (read : BlkSt → α) {f : BlkSt → BlkSt} (hf : ∀ k, read (f k) = read k)
    (s : State) (l : List Blk) (b' : Blk) :
    read ((l.foldl (fun u b => u.updBlk b f) s).blk.get b') = read (s.blk.get b') := by
  refine foldl_reads (fun u : State => read (u.blk.get b')) _ (fun u b => ?_) l s
  simp only [State.updBlk, PerBlk.get_set]
  split
  next h => rw [h]; exact hf _
  · rfl

/-- What PERST_N leaves of a block's common registers. -/
def BlkSt.headCleared (k : BlkSt) : BlkSt := { k with style := k.style.set .head 0, indAddr := k.indAddr.set .head 0 }

/-- What PERST_N leaves of the interrupts. -/
def State.msixCleared (s : State) : State :=
  ({ s with msix := [], msixPending := [] } : State).updTop fun x => { x with intEn := 0 }

theorem State.msixCleared_only (s : State) : Only [.msix, .top] s s.msixCleared := by
  intro p hp
  cases p <;> simp_all [Part.same, State.msixCleared, State.updTop]

/-! ### Power fail (R445) -/

theorem execDumpEnd_dumping {s : State} {x : Dump} (hdumping : s.vault.dumping = true) (hdump : s.vault.dump = some x) :
    execDumpEnd s =
      let s1 := ({ s.writeDump x with
        vault := { s.vault with dumping := false, dump := some { x with ended := true } } } : State).idlePorts
      .next (if s1.pwr.pfailReleased = true then s1.fullReset 0x80 else s1) := by
  simp only [execDumpEnd, hdumping, hdump]
  rfl

/-- Settles O9: the resets by what `fullReset` sets, the others by the premises of their rows. -/
theorem resetsAndFaults : Obligations.ResetsAndFaults := by
  unfold Obligations.ResetsAndFaults
  refine ⟨?resetN, ?powerOn, ?perst, fun s => ⟨_, rfl, rfl, s.updPwr_only _⟩, ?fatal, ?pfail, ?dumpEnd, ?released, ?idle, ?early,
    fun s => ⟨rfl, rfl, rfl, rfl⟩⟩
  case resetN =>
    intro s h hdump
    exact ⟨_, if_neg hdump, rfl, rfl, rfl, rfl, rfl, rfl, rfl, rfl, rfl⟩
  case powerOn =>
    intro s h
    exact ⟨_, rfl, rfl, rfl, rfl, rfl, rfl, rfl, rfl, rfl, rfl, rfl⟩
  case perst =>
    intro s s1 h1
    have hkeeps {α : Type} (read : BlkSt → α) (hread : ∀ k : BlkSt, read k.headCleared = read k) (b : Blk) :
        read (s1.blk.get b) = read (s.blk.get b) := by
      rw [h1]
      exact s.foldl_updBlk_keeps read hread Blk.all b
    have hblk : Only [.blk] s s1 := h1 ▸ foldl_only (fun u b => u.updBlk_only b BlkSt.headCleared) Blk.all s
    refine ⟨_, congrArg Host.Outcome.next (congrArg State.msixCleared h1.symm), rfl,
      fun b => ⟨hkeeps (·.seq) (fun _ => rfl) b, hkeeps (·.events) (fun _ => rfl) b, hkeeps (·.enable) (fun _ => rfl) b⟩, ?_⟩
    exact (hblk.mono (by decide)).trans (s1.msixCleared_only.mono (by decide))
  case fatal =>
    intro s c k hcore hlocked
    refine ⟨_, (if_neg (by simp [hcore, hlocked]) : execFatalFault c k s = _), rfl, ?_⟩
    exact congrArg UblState.tone (State.snag_only _ _ _ _ _ _ .ubl (by decide))
  case pfail =>
    intro s s1 hpower hlocked hphase hcurrent h1
    subst h1
    exact Done.eq ((if_neg (by simp [hpower, hlocked])).trans (if_pos ⟨hphase, hcurrent⟩) : execPfail s = _)
  case dumpEnd =>
    intro s s1 x hdumping hdump h1
    subst h1
    exact Done.eq (execDumpEnd_dumping hdumping hdump)
  case released =>
    intro s hidle
    have hnot : s.pwr.pfail ≠ 1 := by omega
    exact ⟨_, congrArg Host.Outcome.next ((if_neg hnot).trans (if_pos hidle)), rfl, rfl, rfl⟩
  case idle =>
    intro s hpower hlocked hnot
    exact Done.eq ((if_neg (by simp [hpower, hlocked])).trans (if_neg hnot) : execPfail s = _)
  case early =>
    intro s hdump
    exact ⟨_, congrArg Host.Outcome.next (if_pos hdump), rfl, s.updPwr_only _⟩

/-! ### The phases of the start (R441 to R443) -/

/-- A phase may end: the start goes on and nothing has reset the chip or failed its power. -/
structure Starting (s : State) : Prop where
  alive : s.top.failed = false
  locked : s.pwr.pllHeld = false
  power : s.pwr.pfail = 0
  core : s.upd.core0 = true

section
variable {s : State} {lv a b c : Nat}

theorem Starting.checks (h : Starting s) (hphase : s.top.phase < 6) : ¬ (s.top.failed = true ∨ s.pwr.pllHeld = true ∨
    s.pwr.pfail ≠ 0 ∨ (!s.upd.core0) = true ∨ s.top.phase ≥ 6) := by
  simp [h.alive, h.locked, h.power, h.core, hphase]

theorem Starting.exec_fails (h : Starting s) (hphase : s.top.phase < 6) :
    execStartPhase false lv a b c s = .next s.failStart :=
  (if_neg (h.checks hphase)).trans (if_pos rfl)

/-- What follows the phase that has ended. -/
theorem Starting.exec_ends (h : Starting s) (hphase : s.top.phase < 6) : execStartPhase true lv a b c s =
    match s.top.phase with
    | 0 => .next (if s.upd.bootRel then s.beginInit a b c else s)
    | 1 => .next s.beginMailbox
    | 2 => .next s.beginModules
    | 3 =>
      if s.mlk.ports.any fun (_, p) => decide (p.state = 1 ∧ p.step ≠ 4) then .next s
      else if s.ubl.headClash then .next (s.raise .ubl 14).failStart
      else .next (s.beginOwn lv)
    | 4 => .next (if s.mine.all fun d => s.ubl.battenOut.get d && s.fencedAll d then s.beginRecover else s.seizeMine lv)
    | _ => .next (if s.vault.restore.isEmpty then s.beginServing else s) :=
  (if_neg (h.checks hphase)).trans (if_neg Bool.false_ne_true)

end

/-! ### Loops at the start (R342) -/

theorem State.setLoop_only (s : State) (n : Nat) (l : Loop) : Only [.scr] s (s.setLoop n l) := by
  intro p hp
  cases p <;> simp_all [Part.same, State.setLoop]

theorem State.qosLoop_only (s : State) (g : Nat) : Only [.scr] s (s.qosLoop g) := by
  unfold State.qosLoop
  split
  · exact .refl _ s
  · exact ite_only (.refl _ s) (ite_only (s.setLoop_only _ _) (s.setLoop_only _ _))

theorem State.startLoops_only (s : State) : Only [.scr] s s.startLoops := by
  refine Only.trans ?_ (foldl_only (fun u g => u.qosLoop_only g) _ _)
  exact (s.setLoop_only _ _).trans (foldl_only (fun u n => u.setLoop_only n _) _ _)

/-! ### The restore of a domain (R446) -/

/-- The step a domain's restore is at is taken in phase 5. -/
theorem restoreStep_eq {s : State} {d : SD} {n : Nat} (hphase : s.top.phase = 5)
    (hstep : Table.find s.vault.restore d.num = some n) :
    (if s.top.phase = 5 then Table.find s.vault.restore d.num else none) = some n :=
  (if_pos hphase).trans hstep

/-- Settles O10: each phase by what follows it, each step of a restore by its number. -/
theorem startUpCommands : Obligations.StartUpCommands := by
  unfold Obligations.StartUpCommands
  refine ⟨?mailbox, ?serving, ?hello, ?journal, ?init, ?modules, ?own, ?recover, ?fails, ?recovered, ?rest, ?phase6⟩
  case mailbox =>
    intro s lv a b c halive hlocked hpower hcore hphase
    refine Done.eq ((Starting.exec_ends ⟨halive, hlocked, hpower, hcore⟩ (by omega)).trans ?_)
    simp only [hphase]
  case serving =>
    intro s lv a b c halive hlocked hpower hcore hphase hrestored
    refine Done.eq ((Starting.exec_ends ⟨halive, hlocked, hpower, hcore⟩ (by omega)).trans ?_)
    simp only [hphase, hrestored, List.isEmpty_nil, if_true]
  case hello =>
    intro s s1 ck hphase hdown hlink hpair hpeer h1
    subst h1
    exact Done.eq (if_neg (by simp [hphase, hdown, hlink, hpair, hpeer]) : execStartHelloTimeout ck s = _)
  case journal =>
    intro s d m ck l hphase hstep
    refine ⟨_, (?_ : execVaultRestore d m ck l s = _), _, rfl, rfl⟩
    simp only [execVaultRestore, restoreStep_eq hphase hstep]
  case init =>
    intro s lv a b c halive hlocked hpower hcore hphase hrel
    refine Done.eq ((Starting.exec_ends ⟨halive, hlocked, hpower, hcore⟩ (by omega)).trans ?_)
    simp only [hphase, hrel, if_true]
  case modules =>
    intro s lv a b c halive hlocked hpower hcore hphase
    refine Done.eq ((Starting.exec_ends ⟨halive, hlocked, hpower, hcore⟩ (by omega)).trans ?_)
    simp only [hphase]
  case own =>
    intro s lv a b c halive hlocked hpower hcore hphase hsettled hclash
    refine Done.eq ((Starting.exec_ends ⟨halive, hlocked, hpower, hcore⟩ (by omega)).trans ?_)
    simp only [hphase, hsettled, hclash, Bool.false_eq_true, if_false]
  case recover =>
    intro s lv a b c halive hlocked hpower hcore hphase hfenced
    refine Done.eq ((Starting.exec_ends ⟨halive, hlocked, hpower, hcore⟩ (by omega)).trans ?_)
    simp only [hphase, hfenced, if_true]
  case fails =>
    intro s lv a b c halive hlocked hpower hcore hphase
    exact Done.eq (Starting.exec_fails ⟨halive, hlocked, hpower, hcore⟩ hphase)
  case recovered =>
    intro s d m ck l hphase hstep hclosed
    refine ⟨_, (?_ : execVaultRestore d m ck l s = _), _, rfl, rfl⟩
    simp only [execVaultRestore, restoreStep_eq hphase hstep, hclosed, Bool.false_eq_true, if_false]
  case rest =>
    intro s d m ck l hphase hstep
    refine ⟨_, (?_ : execVaultRestore d m ck l s = _), _, rfl, rfl⟩
    simp only [execVaultRestore, restoreStep_eq hphase hstep]
  case phase6 =>
    intro s
    have honly {u : State} {p : Part} (hp : p ∉ [Part.scr]) := u.startLoops_only p hp
    exact ⟨congrArg TopState.phase (honly (p := .top) (by decide)), congrArg PwrState.ethUp (honly (p := .pwr) (by decide)),
      congrArg UblState.hbState (honly (p := .ubl) (by decide)), congrArg VaultState.dump (honly (p := .vault) (by decide))⟩

end Sys2Proof.Machine
end

section
/-!
PROOFS. Scrim messages and paths, and the consistency sets of replication.
-/

namespace Sys2Proof.Machine

/-! ### Scrim mode (R293 to R296) -/

section
variable {s : State} {i msn p : Nat} {q : Qp}

theorem execScrimTimeout_sent {m : TMsg} (hqp : s.qp? i = some q)
    (hmsg : q.tmsgs.find? (fun m => decide (m.msn = msn)) = some m) :
    execScrimTimeout i msn s =
      if m.timeouts + 1 ≥ 7 then .next (s.qpError i (some .retryExceeded))
      else .next ((s.updQp i fun q => { q with tmsgs := q.tmsgs.map fun x =>
        if x.msn = msn then { x with timeouts := x.timeouts + 1 } else x }).resend i q m [m.npktM1]) := by
  simp only [execScrimTimeout, hqp, hmsg]

/-- A path of a scrim queue pair that is up goes down. -/
theorem State.dropPath_up (hqp : s.qp? i = some q) (hscrim : q.kind = .scrim) (herr : q.err = false)
    (hup : (q.paths.any fun x => decide (x.idx = p) && x.up) = true) :
    s.dropPath i p =
      let q1 := { q with paths := q.paths.map fun x => if x.idx = p then { x with up := false } else x }
      let s1 := (s.updQp i fun _ => q1).raise .rdm 3
      if q1.paths.any (·.up) then
        q.tmsgs.foldl (fun s m => s.resend i q1 m ((List.range (m.npktM1 + 1)).filter fun k => m.paths.getD k 0 = p)) s1
      else s1.qpError i (some .retryExceeded) := by
  simp only [State.dropPath, hqp]
  exact if_neg (by simpa [hscrim, herr] using hup)

end

/-- Settles O38: each row by the queue pair and the message it finds. -/
theorem scrimMode : Obligations.ScrimMode := by
  unfold Obligations.ScrimMode
  refine ⟨?packet, ?complete, ?ack, ?nak, ?timeout, ?seventh, ?path, ?lastPath⟩
  case packet =>
    intro s n psn port x b hon hport
    exact Done.eq (congrArg Host.Outcome.next (if_pos (by simp [hon, hport])) : execScrimPacket true n psn port x b s = _)
  case complete =>
    intro s i msn q m hqp herr hmsg hnew hall
    refine Done.eq (?_ : execScrimComplete i msn s = _)
    simp only [execScrimComplete, hqp, hmsg]
    refine (if_neg (by simp [herr, hnew, hall])).trans ?_
    exact congrArg (fun u : State => Host.Outcome.next (u.tx (.scrimAck i msn))) (State.updQp_congr hqp rfl)
  case ack =>
    intro s i msn q hqp herr hsent
    refine Done.eq (?_ : execScrimAck i msn s = _)
    simp only [execScrimAck, hqp, herr, Bool.false_eq_true, if_false, hsent, if_true]
  case nak =>
    intro s i msn bitmap q m hqp herr hmsg
    refine Done.eq (?_ : execScrimNak i msn bitmap s = _)
    simp only [execScrimNak, hqp, herr, Bool.false_eq_true, if_false, hmsg]
  case timeout =>
    intro s i msn q m hqp hmsg hfew
    exact Done.eq ((execScrimTimeout_sent hqp hmsg).trans (if_neg (by omega)))
  case seventh =>
    intro s i msn q m hqp hmsg hmany
    exact Done.eq ((execScrimTimeout_sent hqp hmsg).trans (if_pos (by omega)))
  case path =>
    intro s s1 i p q q1 hqp hscrim herr hup hq1 hs1 hother
    subst hq1 hs1
    exact Done.eq (congrArg Host.Outcome.next ((State.dropPath_up hqp hscrim herr hup).trans (if_pos hother)))
  case lastPath =>
    intro s s1 i p q q1 hqp hscrim herr hup hq1 hs1 hother
    subst hq1 hs1
    exact Done.eq (congrArg Host.Outcome.next
      ((State.dropPath_up hqp hscrim herr hup).trans (if_neg (ne_true_of_eq_false hother))))

/-! ### Replication: the source (R299 to R302) -/

section
variable {s : State} {id : Nat} {a : Attach}

/-- A source that is still attached and whose queue pair is good ships the oldest set that is cut, or what it has ahead. -/
theorem execConsistencySetShip_live {q : Qp} (hatt : Table.find s.rdm.atts id = some a) (hsource : a.source = true)
    (hon : a.detached = false) (howns : s.owns a.sd = true) (hqp : s.qp? a.qp = some q) (herr : q.err = false) :
    execConsistencySetShip id s =
      match a.cuts.find? (·.2 > a.shipped) with
      | some (n, cut) =>
        if !s.setSealed a cut then .next s
        else
          let (rs, s) := if a.resync then s.resyncRecs a n cut
            else (s.entryRecs n ((s.replEntries a).filter fun x => x.1.stamp < cut), s)
          let fin : Rec := ⟨4, true, 0, 0, cut, 0, n, []⟩
          match s.sendMsgs id (packRecs [] (rs ++ [fin])) with
          | none => .next s
          | some s1 =>
            let s2 := s1.sendFlush id cut
            let s3 := (s2.postWr a.qp (.atomicWrite id n)).sendCtl a.qp (.word a.qp (s2.npsn a.qp) n)
            .next (s3.updAtt id fun a => { a with shipped := cut, resync := false })
      | none =>
        let es := (s.replEntries a).filter fun x => x.1.stamp < s.replLimit a
        match a.sync, es.getLast? with
        | true, some (e, _, _) =>
          (match s.sendMsgs id (packRecs [] (s.entryRecs a.set es)) with
          | none => .next s
          | some s1 => .next ((s1.sendFlush id e.stamp).updAtt id fun a => { a with shipped := e.stamp }))
        | _, _ => .next s := by
  simp only [execConsistencySetShip, hatt, hqp]
  exact if_neg (by simp [hsource, hon, howns, herr])

/-! ### Replication: the target (R298 to R300) -/

/-- A message of a target attachment whose key slot is filled is opened. -/
theorem execReplicationMessage_keyed {msn : Nat} {src wire : List Byte} (hatt : Table.find s.rdm.atts id = some a)
    (htarget : a.source = false) (hon : a.detached = false) (howns : s.owns a.sd = true)
    (hempty : (s.kslot a.slot).state ≠ 0) (hold : (s.kslot a.slot).state ≠ 3) :
    execReplicationMessage id msn src wire s =
      match (if wire.length < 32 ∨ (s.kslot a.slot).usage ≠ 1 then none
        else gcmDec (s.kslot a.slot).key (slice wire (wire.length - 32) 12) (replAad id msn src)
          (wire.take (wire.length - 32)) (slice wire (wire.length - 32 + 16) 16)) with
      | none =>
        .next ((((s.count .cipTagFail).raise .cip 0).raise .rdm 6).updAtt id (fun a => { a with detached := true }) |>.notify
          12 0x0402 true (some a.sd) 0xFF (leBytes 4 id))
      | some b =>
        match recsOf (fun i => ((a.roots[i]?).bind (s.rootNs a.sd)).map fun x => lbaData x.2.lbaf) (b.length / 32 + 2) b with
        | none => .next s
        | some rs =>
          match (s.count .cipMsgDone).takeRecs a rs with
          | none => .next s
          | some (a1, s1) => .next (s1.updAtt id fun _ => a1) := by
  simp only [execReplicationMessage, hatt]
  exact (if_neg (by simp [htarget, hon, howns])).trans (if_neg (by simp [hempty, hold]))

end

/-- Settles O39: each row by the attachment it finds. -/
theorem replication : Obligations.Replication := by
  unfold Obligations.Replication
  refine ⟨?cut, ?young, ?ship, ?word, ?empty, ?unauthentic, ?degrade, ?below, ?resync, ?ahead, ?taken⟩
  case cut =>
    intro s id a p ids s1 hatt hsource hon howns hrun hmark hage hsnap
    refine Done.eq (?_ : execConsistencySetCut id s = _)
    simp only [execConsistencySetCut, hatt]
    refine (if_neg (by simp [hsource, hon, howns, hrun, hmark, hage])).trans ?_
    simp only [hsnap]
  case young =>
    intro s id a hatt hasync hage
    refine Done.eq (?_ : execConsistencySetCut id s = _)
    simp only [execConsistencySetCut, hatt]
    exact if_pos (by simp [hasync, hage])
  case ship =>
    intro s id a m cut q s0 s1 s2 rs hatt hsource hon howns hqp herr hcut hsealed hrecs hsent h2
    subst h2
    refine Done.eq ((execConsistencySetShip_live hatt hsource hon howns hqp herr).trans ?_)
    simp only [hcut, hsealed, Bool.not_true, Bool.false_eq_true, if_false, hrecs, hsent]
  case word =>
    intro s s1 id a w v p ids hatt htarget hon howns hwin hv hnew hsnap
    subst hv
    refine Done.eq (?_ : execControlWordChange id s = _)
    simp only [execControlWordChange, hatt, hwin]
    refine (if_neg (by simp [htarget, hon, howns, hnew])).trans ?_
    simp only [hsnap]
  case empty =>
    intro s id msn src wire a hatt htarget hon howns hempty
    refine Done.eq (?_ : execReplicationMessage id msn src wire s = _)
    simp only [execReplicationMessage, hatt]
    exact (if_neg (by simp [htarget, hon, howns])).trans (if_pos hempty)
  case unauthentic =>
    intro s id msn src wire pt a hatt htarget hon howns hfilled hold hpt hnone
    refine Done.eq ((execReplicationMessage_keyed hatt htarget hon howns hfilled hold).trans ?_)
    simp only [← hpt, hnone]
  case degrade =>
    intro s id a hatt hsource hon hsync hdegrade hheld
    refine Done.eq (?_ : execReplSyncTimeout id s = _)
    simp only [execReplSyncTimeout, hatt]
    refine if_neg ?_
    simp only [hsource, hon, hsync, hdegrade, Bool.not_true, Bool.false_eq_true, false_or, Bool.not_eq_true']
    exact ne_false_of_eq_true (by simpa [and_assoc] using hheld)
  case below =>
    intro s id a hatt hbelow
    refine Done.eq (?_ : execResync id s = _)
    simp only [execResync, hatt]
    exact if_pos (by simp [hbelow])
  case resync =>
    intro s id a p ids s1 hatt hsource hon hasync hnew howns hfull hsnap
    refine Done.eq (?_ : execResync id s = _)
    simp only [execResync, hatt]
    refine (if_neg (by simp [hsource, hon, hasync, hnew, howns, Nat.not_lt.mpr hfull])).trans ?_
    simp only [hsnap]
  case ahead =>
    intro s s1 id a q e x y hatt hsource hon howns hqp herr hnone hsync hlast hsent
    refine Done.eq ((execConsistencySetShip_live hatt hsource hon howns hqp herr).trans ?_)
    simp only [hnone, hsync, hlast, hsent]
  case taken =>
    intro s s1 id msn src wire pt b a a1 rs hatt htarget hon howns hfilled hold hpt hopen hrecs htaken
    refine Done.eq ((execReplicationMessage_keyed hatt htarget hon howns hfilled hold).trans ?_)
    simp only [← hpt, hopen, hrecs, htaken]

end Sys2Proof.Machine
end

section
/-!
PROOFS. Control registers written as plain, and the claim of a general timer.
-/

namespace Sys2Proof.Machine

/-! ### Control registers (R350 to R353) -/

/-- A plain write of a control register that exists sets it (R352): no bit of it is reserved, so it is no violation. -/
theorem State.regWrite_control {s : State} {r : Requester} {b : Blk} {off mask : Nat} (late : Bool) {w : Word}
    (htop : s.powered .top = true) (hb : s.powered b = true) (hoff : off < 0x40000) (hex : s.regExists r b off = true)
    (hctl : ctlMask b off = some mask) (hplain : (s.blk.get b).style.get r = 0) (hw : w.toNat < 65536)
    (hreserved : w.toNat &&& (0xFFFF ^^^ mask) = 0) :
    s.regWrite r late (regAddr b 0 off) w = s.ctlSet r late b off (w.toNat &&& mask) := by
  have hnum := b.num_lt
  have hmod : regAddr b 0 off % 2 ^ 20 = off := by unfold regAddr; omega
  have hchan : ¬ (b = .mbx ∧ off ≥ 0x40000) := by omega
  have h1 : ¬ (0x02000000 ≤ regAddr b 0 off ∧ regAddr b 0 off < 0x02001500) := by unfold regAddr; omega
  have h2 : ¬ (0x02010000 ≤ regAddr b 0 off ∧ regAddr b 0 off < 0x02010040) := by unfold regAddr; omega
  unfold State.regWrite
  rw [blkOf_regAddr b (by omega)]
  simp only [htop, hmod, hb, hex, hchan, aliasOf_own b hoff, hctl]
  simp [h1, h2, State.ctlWrite, styled, hplain, Nat.mod_eq_of_lt hw, hreserved]

/-! ### Timers (R362) -/

theorem State.regExists_timer {s : State} (r : Requester) {n : Nat} (hn : n < 8) (hthere : n < s.top.timers.length) :
    s.regExists r .top (0x400 + 0x10 * n) = true := by
  interval_cases n <;>
    simp [State.regExists, aliasOf, State.readCommon, State.readOwn, State.readTop, rowIdx, hthere]

/-- What EnableAndClaims says of TIMER_START holds where the timer is there. -/
theorem execTimerStart_there {s : State} {r : Requester} {n : Nat} {w : Word} (htop : s.powered .top = true) (hn : n < 8)
    (hthere : n < s.top.timers.length) (hw : w = 0x8000 ∨ w = 0xC000) (hplain : (s.blk.get .top).style.get r = 0)
    (hfree : s.claimHolder (1 + n) = 0 ∨ s.claimHolder (1 + n) = r.code) :
    execTimerStart r 0 n w s = .next ((s.claim (1 + n) r.code).2.updTop fun x =>
      { x with timers := updAt x.timers n fun y => { y with en := true, periodic := bitOf w.toNat 14, count := y.load } }) := by
  have hmask : ctlMask .top (0x400 + 0x10 * n) = some 0xC000 := by interval_cases n <;> rfl
  have hrow (v : Nat) : s.ctlSet r false .top (0x400 + 0x10 * n) v = s.writeTimer r n v := by interval_cases n <;> rfl
  have hwrite : s.regWrite r false (regAddr .top 0 (0x400 + 0x10 * n)) w = s.writeTimer r n w.toNat := by
    rw [State.regWrite_control false htop htop (by omega) (State.regExists_timer r hn hthere) hmask hplain
      (by rcases hw with rfl | rfl <;> decide) (by rcases hw with rfl | rfl <;> decide), hrow]
    rcases hw with rfl | rfl <;> rfl
  have hen : bitOf (s.ctlNew r .top 0 (0x400 + 0x10 * n) w) 15 = true := by
    rcases hw with rfl | rfl <;> simp [State.ctlNew, styled, hplain] <;> rfl
  have hbit : bitOf w.toNat 15 = true := by rcases hw with rfl | rfl <;> rfl
  simp only [execTimerStart, Nat.mod_eq_of_lt hn, hen, if_true, hwrite, State.writeTimer, hbit]
  simp only [State.claim, if_pos hfree, if_true]

/-- Refutes O18, by its clause on the start of a timer: in a state whose TOP holds no timers the register does not exist, so
the write is a violation and claims nothing. Where the timer is there, the clause holds (`execTimerStart_there`). -/
theorem not_enableAndClaims : ¬ Obligations.EnableAndClaims := by
  unfold Obligations.EnableAndClaims
  rintro ⟨-, -, -, -, hstart, -⟩
  let s : State := { State.reset with top := { State.reset.top with timers := [] } }
  obtain ⟨t, hexec, hclaimed, -⟩ := hstart .cluster 0 s 0x8000 rfl (by decide) (.inl rfl) rfl (.inl rfl)
  have hviolation : t.top.violations = 1 := by
    rw [← Host.Outcome.next.inj hexec]
    decide
  have hnone : t.top.violations = 0 := congrArg (·.top.violations) hclaimed
  exact absurd (hviolation.symm.trans hnone) (by decide)

end Sys2Proof.Machine
end

section
/-!
PROOFS. The channels of the mailbox: doorbells, responses, acknowledgements and the ring of notifications.
-/

namespace Sys2Proof.Machine

/-! ### Writes of a channel page (R366, R371) -/

section
variable {s : State} {r : Requester} {c : Nat} {w : Word}

/-- A write of a register of a channel page that exists reaches the page. -/
theorem State.regWrite_chan {off : Nat} (hc : c ≤ 63) (hoff : off < 0x1000) (htop : s.powered .top = true)
    (hmbx : s.powered .mbx = true) (hex : s.regExists r .mbx (0x40000 + 0x1000 * c + off) = true) :
    s.regWrite r false (chanAddr c off) w = s.writeChan r c off w := by
  have hblk : blkOf (chanAddr c off) = some .mbx := by
    unfold blkOf
    rw [show chanAddr c off / 2 ^ 20 = 2 by unfold chanAddr; omega]
    rfl
  have hmod : chanAddr c off % 2 ^ 20 = 0x40000 + 0x1000 * c + off := by unfold chanAddr; omega
  have h1 : ¬ (0x02000000 ≤ chanAddr c off ∧ chanAddr c off < 0x02001500) := by unfold chanAddr; omega
  have h2 : ¬ (0x02010000 ≤ chanAddr c off ∧ chanAddr c off < 0x02010040) := by unfold chanAddr; omega
  have hpage : (0x40000 + 0x1000 * c + off - 0x40000) / 0x1000 = c := by omega
  have hreg : (0x40000 + 0x1000 * c + off) % 0x1000 = off := by omega
  have hchan : True ∧ 0x40000 + 0x1000 * c + off ≥ 0x40000 := ⟨trivial, by omega⟩
  unfold State.regWrite
  simp only [h1, h2, htop, hmbx, hblk, hmod, hex, hpage, Bool.not_true, Bool.false_eq_true, or_self, if_false]
  refine (if_pos hchan).trans ?_
  rw [hreg]

/-- MB_RSP_ACK (R370). -/
theorem execMbRspAck_page (hc : c < 63) (htop : s.powered .top = true) (hmbx : s.powered .mbx = true)
    (hex : s.regExists r .mbx (0x40000 + 0x1000 * c + 0x24) = true) : execMbRspAck r c w s = .next (s.ackChan r c w) := by
  have hpage : s.writeChan r c 0x24 w = s.ackChan r c w := by simp [State.writeChan, show c ≠ 63 by omega]
  simp only [execMbRspAck, if_pos hc, State.regWrite_chan (by omega) (by decide) htop hmbx hex, hpage]

/-- MB_NTF_CONS (R378). -/
theorem execMbNtfCons_page (htop : s.powered .top = true) (hmbx : s.powered .mbx = true)
    (hex : s.regExists r .mbx 0x7F024 = true) : execMbNtfCons r w s = .next (s.writeCons r w) := by
  have hpage : s.writeChan r 63 0x24 w = s.writeCons r w := by simp [State.writeChan]
  exact congrArg Host.Outcome.next ((State.regWrite_chan (c := 63) le_rfl (by decide) htop hmbx hex).trans hpage)

/-- MB_DOORBELL (R368, R371). -/
theorem execMbDoorbell_page (hc : c ≤ 63) (htop : s.powered .top = true) (hmbx : s.powered .mbx = true)
    (hex : s.regExists r .mbx (0x40000 + 0x1000 * c + 8) = true) : execMbDoorbell r c w s = .next (s.doorbell r c w) := by
  have hpage : s.writeChan r c 8 w = s.doorbell r c w := rfl
  simp only [execMbDoorbell, if_pos (show c < 64 by omega), State.regWrite_chan hc (by decide) htop hmbx hex, hpage]

end

/-! ### Notifications (R378, R379) -/

theorem State.signal_only (s : State) (v : Nat) : Only [.msix] s (s.signal v) := by
  unfold State.signal
  refine ite_only ?_ ?_ <;>
  · intro p hp
    cases p <;> simp_all [Part.same]

theorem State.updMbx_only (s : State) (f : MbxState → MbxState) : Only [.mbx] s (s.updMbx f) := by
  intro p hp
  cases p <;> simp_all [Part.same]

section
variable {s : State} (source code : Nat) (raised : Bool) (sd : Option SD) (port : Nat) (arg : List Byte)

theorem State.snag_epoch48 : (s.snag source code sd port arg).epoch48 = s.epoch48 :=
  congrArg (fun t : TopState => t.epoch.toNat % 2 ^ 48) (s.snag_only source code sd port arg .top (by decide))

/-- A notification takes the next place of a ring with room. -/
theorem State.notify_room (hroom : (s.mbx.prod + 128 - s.mbx.cons) % 128 < 64) :
    s.notify source code raised sd port arg =
      let s1 := ((s.snag source code sd port arg).updMbx fun m => { m with
        ntf := Table.put m.ntf (m.prod % 64) (ntfBytes code raised sd port s.epoch48 arg)
        prod := (m.prod + 1) % 128 }).raise .mbx 0
      if s.mbx.ntfInt then s1.signal 79 else s1 := by
  have hnot : ¬ ((s.mbx.prod + 128 - s.mbx.cons) % 128 ≥ 64) := by omega
  simp only [State.notify, State.snag_mbx, if_neg hnot, State.snag_epoch48, State.updMbx]

/-- It counts as lost where the ring is full. -/
theorem State.notify_full (hfull : 64 ≤ (s.mbx.prod + 128 - s.mbx.cons) % 128) :
    s.notify source code raised sd port arg = ((s.snag source code sd port arg).updMbx fun m => { m with
      lost := if m.lost = BitVec.allOnes 32 then m.lost else m.lost + 1 }).raise .mbx 1 := by
  simp only [State.notify, State.snag_mbx, if_pos (show _ ≥ 64 from hfull), State.updMbx]

theorem State.snag_updMbx_raise_only (f : MbxState → MbxState) (bit : Nat) :
    Only [.mbx, .blk, .msix, .evr, .counters, .draws] s (((s.snag source code sd port arg).updMbx f).raise .mbx bit) :=
  (((s.snag_only source code sd port arg).mono (by decide)).trans ((State.updMbx_only _ f).mono (by decide))).trans
    ((State.raise_only _ _ _).mono (by decide))

theorem State.notify_only :
    Only [.mbx, .blk, .msix, .evr, .counters, .draws] s (s.notify source code raised sd port arg) := by
  by_cases hroom : (s.mbx.prod + 128 - s.mbx.cons) % 128 < 64
  · rw [State.notify_room _ _ _ _ _ _ hroom]
    have honly := State.snag_updMbx_raise_only (s := s) source code sd port arg
    exact ite_only ((honly _ _).trans ((State.signal_only _ _).mono (by decide))) (honly _ _)
  · rw [State.notify_full _ _ _ _ _ _ (Nat.not_lt.mp hroom)]
    exact State.snag_updMbx_raise_only _ _ _ _ _ _ _

theorem State.notify_mbx_room (hroom : (s.mbx.prod + 128 - s.mbx.cons) % 128 < 64) :
    (s.notify source code raised sd port arg).mbx = { s.mbx with
      ntf := Table.put s.mbx.ntf (s.mbx.prod % 64) (ntfBytes code raised sd port s.epoch48 arg)
      prod := (s.mbx.prod + 1) % 128 } := by
  rw [State.notify_room _ _ _ _ _ _ hroom]
  dsimp only
  split
  · rw [State.signal_only _ _ .mbx (by decide)]
    simp
  · simp

theorem State.notify_mbx_full (hfull : 64 ≤ (s.mbx.prod + 128 - s.mbx.cons) % 128) (hcount : s.mbx.lost ≠ BitVec.allOnes 32) :
    (s.notify source code raised sd port arg).mbx = { s.mbx with lost := s.mbx.lost + 1 } := by
  rw [State.notify_full _ _ _ _ _ _ hfull]
  simp only [State.raise_mbx, State.updMbx_mbx, State.snag_mbx, if_neg hcount]

end

/-- Settles O36: the writes reach their channel's page, and each row acts by the channel's state. -/
theorem mailboxChannels : Obligations.MailboxChannels := by
  unfold Obligations.MailboxChannels
  refine ⟨?doorbell, ?badDoorbell, ?posted, ?ack, ?notified, ?lost, ?cons, ?badCons, ?again, ?badAck, ?banks⟩
  case doorbell =>
    intro s s1 r c w hc htop hmbx hex htakes hidle hexpected h1
    subst h1
    refine Done.eq ((execMbDoorbell_page (by omega) htop hmbx hex).trans (congrArg Host.Outcome.next ?_))
    exact if_neg (by simp [htakes, hidle, hexpected, show c ≠ 63 by omega])
  case badDoorbell =>
    intro s r c w hc htop hmbx hex hbad
    have hrefused : s.doorbell r c w = (s.violation (violSource r) true (chanAddr c 0x008)).raise .mbx 2 :=
      if_pos (by simpa using hbad)
    have honly : Only [.top, .blk, .msix] s ((s.violation (violSource r) true (chanAddr c 0x008)).raise .mbx 2) :=
      ((s.violation_only _ _ _).mono (by decide)).trans ((State.raise_only _ _ _).mono (by decide))
    refine ⟨_, (execMbDoorbell_page hc htop hmbx hex).trans (congrArg Host.Outcome.next hrefused), rfl,
      honly .mbx (by decide), State.raise_raisedBy_of _ _ _ _ rfl, honly⟩
  case posted =>
    intro s s0 s1 c b h0 hc hready hbusy hworks h1
    subst h1
    refine Done.eq (?_ : execResponsePosted c s = _)
    simp only [execResponsePosted, ← h0, hready]
    exact if_neg (by simp [hc, hbusy, hworks])
  case ack =>
    intro s r c w hc htop hmbx hex hdone hsame
    refine Done.eq ((execMbRspAck_page hc htop hmbx hex).trans (congrArg Host.Outcome.next ?_))
    exact if_pos (by simp [hdone, hsame])
  case notified =>
    intro s code raised sd port arg hworks
    refine ⟨_, congrArg Host.Outcome.next (if_pos hworks), rfl, fun hroom => ?_, State.notify_only _ _ _ _ _ _⟩
    rw [State.notify_mbx_room _ _ _ _ _ _ hroom]
    exact ⟨rfl, Table.find_put _ _ _, rfl⟩
  case lost =>
    intro s code raised sd port arg hworks hfull hcount
    exact ⟨_, congrArg Host.Outcome.next (if_pos hworks), State.notify_mbx_full _ _ _ _ _ _ hfull hcount,
      State.notify_only _ _ _ _ _ _⟩
  case cons =>
    intro s r w htop hmbx hex hin
    refine Done.eq ((execMbNtfCons_page htop hmbx hex).trans (congrArg Host.Outcome.next ?_))
    simp [State.writeCons, Nat.not_lt.mpr hin]
  case badCons =>
    intro s r w htop hmbx hex hbeyond
    have hrefused : s.writeCons r w = s.violation (violSource r) true 0x0027F024 := by
      simp [State.writeCons, hbeyond]
    exact ⟨_, (execMbNtfCons_page htop hmbx hex).trans (congrArg Host.Outcome.next hrefused), rfl, rfl, s.violation_only _ _ _⟩
  case again =>
    intro s r c w hc htop hmbx hex hidle hsame
    refine Done.eq ((execMbRspAck_page hc htop hmbx hex).trans (congrArg Host.Outcome.next ?_))
    exact (if_neg (by simp [hidle])).trans (if_pos (by simp [hidle, hsame]))
  case badAck =>
    intro s r c w hc htop hmbx hex hbad
    refine Done.eq ((execMbRspAck_page hc htop hmbx hex).trans (congrArg Host.Outcome.next ?_))
    have hnot (n : Nat) (hn : n = 2 ∨ n = 0) :
        ¬ ((s.chan c).state = n ∧ decide (w.toNat % 256 = (s.chan c).rseq.toNat) = true) := by
      simp only [decide_eq_true_eq]
      omega
    exact (if_neg (hnot 2 (.inl rfl))).trans (if_neg (hnot 0 (.inr rfl)))
  case banks =>
    intro x b
    refine ⟨fun heven => ?_, fun hodd => ?_⟩
    · simp [Chan.setBank, heven]
    · simp [Chan.setBank, hodd]

end Sys2Proof.Machine
end

section
/-!
PROOFS. Mailbox commands: the general ones, those of replication, modules and recoat, and what precedes a command's own
rules.
-/

namespace Sys2Proof.Machine

/-- Settles O11: every request is one that its command runs, and its operands pass the command's checks. -/
theorem mailboxGeneralCommands : Obligations.MailboxGeneralCommands := by
  unfold Obligations.MailboxGeneralCommands
  refine ⟨?nop, ?version, ?rtc, ?qos, ?commission⟩
  case nop =>
    intro c s r htakes
    exact Done.eq (State.runCmd_answers htakes rfl rfl : execNop c s = _)
  case version =>
    intro c s r htakes
    exact Done.eq (State.runCmd_answers htakes rfl rfl : execVersionGet c s = _)
  case rtc =>
    intro c s r v htakes
    exact Done.eq (State.runCmd_answers htakes rfl rfl : execRtcSet c v s = _)
  case qos =>
    intro c s r g us htakes hg
    exact Done.eq (State.runCmd_answers htakes rfl (if_neg (by omega)) : execQosGroupSet c g us s = _)
  case commission =>
    intro c s r nqn array pq k v g h v' g' h' htakes hnew hup hpeer hshape hv hg hv' hg' hh'
    subst hv' hg' hh'
    refine Done.eq (State.runCmd_runsOn htakes rfl ?_ : execArrayCommission c nqn array pq k v g h s = _)
    exact (if_neg (by simp [hnew])).trans ((if_neg (by simp [hup, hpeer])).trans (if_neg (by simp [hshape]; omega)))

/-! ### Repetition, ownership and held objects (R373, R375, R376) -/

section
variable {s : State} {c op : Nat} {r : List Byte} {names : State → List Byte → Except Nat Names}
  {f : State → List Byte → Ans}

/-- A request whose identifier is recorded does not act. -/
theorem State.runCmd_recorded {x : RidRec} (hasked : s.asked c op = some r) (hrid : ridOf r ≠ 0)
    (hrec : s.recorded (ridOf r) = some x) : s.runCmd c op true names f =
      if x.op = op ∧ x.params = paramDigest r then .next (s.updChan c fun y => { y with ready := some x.resp })
      else .next (s.reply c rsnExists []) := by
  have hfound : (if True ∧ ridOf r ≠ 0 then s.recorded (ridOf r) else none) = some x := (if_pos ⟨trivial, hrid⟩).trans hrec
  simp only [State.runCmd, hasked, hfound]

/-- A request without an identifier that names a domain is checked for the domain, then for the objects. -/
theorem State.runCmd_named {d : SD} {objs : List (Nat × Nat)} (ch : Bool) (hasked : s.asked c op = some r)
    (hrid : ridOf r = 0) (hnames : names s r = .ok ⟨some d, objs⟩) : s.runCmd c op ch names f =
      if s.inGap d || decide (s.top.phase < 6) then .next s
      else if !s.owns d then .next (s.reply c rsnNotOwned (leBytes 1 (s.ownerHead d)))
      else if objs.any (· ∈ s.mbx.running) then .next (s.reply c rsnBusy [])
      else match f s r with
        | .done rsn data s1 => .next (s1.answerCmd c op ch (some d) r rsn data)
        | .later s1 => .next (s1.updMbx fun m => { m with running := m.running ++ objs }) := by
  have hnone : (if ch = true ∧ ridOf r ≠ 0 then s.recorded (ridOf r) else none) = none := if_neg fun h => h.2 hrid
  simp only [State.runCmd, hasked, hnone, hnames]
  rfl

end

/-- Settles O55: by the record found, and else by the domain and the root of the namespace. -/
theorem mailboxRepetitionOwnershipAndConcurrency : Obligations.MailboxRepetitionOwnershipAndConcurrency := by
  unfold Obligations.MailboxRepetitionOwnershipAndConcurrency
  have hnames {s : State} {n : Nat} {x : Namespace} (r : List Byte) (hns : s.ns? n = some x) :
      ofNs n s r = .ok ⟨some x.sd, [(1, x.root)]⟩ := by
    simp only [ofNs, hns]
  refine ⟨?same, ?other, ?foreign, ?held, ?gap⟩
  case same =>
    intro s c n r x hasked hrid hrec hop hparams
    exact (State.runCmd_recorded hasked hrid hrec : execNsDelete c n s = _).trans (if_pos ⟨hop, hparams⟩)
  case other =>
    intro s c n r x hasked hrid hrec hdiffers
    refine (State.runCmd_recorded hasked hrid hrec : execNsDelete c n s = _).trans (if_neg ?_)
    exact fun ⟨hop, hparams⟩ => hdiffers.elim (· hop) (· hparams)
  case foreign =>
    intro s c n r x hasked hrid hns hgap hphase howner
    refine (State.runCmd_named true hasked hrid (hnames r hns) : execNsDelete c n s = _).trans ?_
    rw [if_neg (by simp [hgap, hphase]), if_pos (by simp [howner])]
    simp only [State.ownerHead, howner, Bool.false_eq_true, if_false]
  case held =>
    intro s c n r x hasked hrid hns hgap hphase howner hheld
    refine (State.runCmd_named true hasked hrid (hnames r hns) : execNsDelete c n s = _).trans ?_
    rw [if_neg (by simp [hgap, hphase]), if_neg (by simp [howner]), if_pos (by simp [hheld])]
  case gap =>
    intro s c n r x hasked hrid hns hgap
    exact (State.runCmd_named true hasked hrid (hnames r hns) : execNsDelete c n s = _).trans (if_pos (by simp [hgap]))

/-! ### Replication, windows, modules and recoat (R184, R199, R210, R226, R286, R288) -/

/-- The parameters of a REPL_ATTACH request (Table 16.9) are in range, and what they name is there. -/
structure AttachAllowed (s : State) (r : List Byte) (d : SD) (qpn i : Nat) : Prop where
  domain : leAt r 8 1 ≤ 1
  named : d = SD.ofBit (leAt r 8 1)
  sync : leAt r 9 1 ≤ 1
  degrade : leAt r 10 1 ≤ 1
  reserved : leAt r 28 4 = 0
  roots : replRoots r ≠ []
  few : (replRoots r).length ≤ 64
  known : ((replRoots r).any fun x => (Table.find (s.metaOf d).roots x).isNone) = false
  free : (replRoots r).any (s.attached d) = false
  slot : leAt r 12 2 ≤ 4095
  page : (s.upage (leAt r 12 2 / 16)).owner = 3
  filled : (s.kslot (leAt r 12 2)).state ≠ 0
  held : (s.kslot (leAt r 12 2)).state ≠ 3
  usage : (s.kslot (leAt r 12 2)).usage = 1
  queue : s.replQp qpn = some i

/-- The record of the attachment a REPL_ATTACH request makes. -/
def State.newAttach (s : State) (r : List Byte) (d : SD) (i base len : Nat) (source : Bool) : Attach :=
  { source := source, sd := d, roots := replRoots r, sync := decide (leAt r 9 1 = 1), degrade := decide (leAt r 10 1 = 1)
    slot := leAt r 12 2, array := slice r 16 8, qp := i, set := 1, cuts := [], age := 0, mark := (s.fe.stamp.get d).toNat
    interval := if leAt r 14 2 = 0 then 15625 else leAt r 14 2 * 1000
    backlog := if leAt r 24 2 = 0 then 32 else leAt r 24 2
    syncTo := if leAt r 26 2 = 0 then 2000 else leAt r 26 2
    shipped := (s.fe.stamp.get d).toNat, durable := (s.fe.stamp.get d).toNat, acked := (0, 0), snaps := []
    resync := false, msn := 0, applied := [], gather := [], word := 0
    win := if source = true then (0, 0) else (base, len), detached := false }

/-- The attachment recorded under a number, with the end of its queue pair. -/
def State.putAttach (s : State) (d : SD) (i id : Nat) (a : Attach) : State :=
  ((s.updRdm fun x => { x with atts := Table.put x.atts id a }).delta d (.attach id (some a))).updQp i fun q =>
    { q with att := some id }

section
variable {s : State} {c qpn i : Nat} {r : List Byte} {d : SD}

/-- An allowed request is answered: a source once it is recorded, a target once its window is open too. -/
theorem execReplAttach_answers {base len : Nat} {source : Bool} {s2 : State} (h : AttachAllowed s r d qpn i)
    (htakes : s.takesCmd c 0x0401 r (some d) ([(7, leAt r 8 1), (3, leAt r 12 2)] ++ (replRoots r).map fun x => (1, x)))
    (hsource : decide (slice r 16 8 ≠ fit s.ubl.array 8) = source)
    (hends : source = true ∧ s2 = s.putAttach d i (s.freeAtt d) (s.newAttach r d i base len source) ∨
      source = false ∧
      ((replRoots r).any fun x => match s.rootNs d x with
        | some (_, n) => !n.attached.isEmpty
        | none => true) = false ∧
      s.windowOk base len 15 = true ∧
      ∃ k, (s.putAttach d i (s.freeAtt d) (s.newAttach r d i base len source)).openWindow i base len 15 = some (k, s2)) :
    execReplAttach c (some qpn) base len s = .next (s2.answerCmd c 0x0401 true (some d) r 0 (leBytes 4 (s.freeAtt d))) := by
  have hnames : (if leAt r 8 1 > 1 then Except.error rsnRange
      else .ok ⟨some (SD.ofBit (leAt r 8 1)), [(7, leAt r 8 1), (3, leAt r 12 2)] ++ (replRoots r).map fun x => (1, x)⟩ :
        Except Nat Names) = .ok ⟨some d, [(7, leAt r 8 1), (3, leAt r 12 2)] ++ (replRoots r).map fun x => (1, x)⟩ := by
    rw [if_neg (Nat.not_lt.mpr h.domain), h.named]
  refine State.runCmd_answers htakes hnames ?_
  obtain ⟨hdomain, hnamed, hsync, hdegrade, hreserved, hroots, hfew, hknown, hfree, hslot, hpage, hfilled, hheld, husage,
    hqueue⟩ := h
  subst hnamed
  have hrange : ¬ (leAt r 9 1 > 1 ∨ leAt r 10 1 > 1 ∨ (replRoots r).isEmpty = true ∨ (replRoots r).length > 64 ∨
      leAt r 28 4 ≠ 0) := by
    simp only [not_or, List.isEmpty_iff]
    exact ⟨by omega, by omega, hroots, by omega, not_not.mpr hreserved⟩
  have hthere : ¬ (((replRoots r).any fun x => (Table.find (s.metaOf (SD.ofBit (leAt r 8 1))).roots x).isNone) = true) :=
    ne_true_of_eq_false hknown
  have hfree' : ¬ ((replRoots r).any (s.attached (SD.ofBit (leAt r 8 1))) = true) := ne_true_of_eq_false hfree
  have hslot' : ¬ (leAt r 12 2 > 4095 ∨ (s.upage (leAt r 12 2 / 16)).owner ≠ 3) := by omega
  have hfilled' : ¬ ((s.kslot (leAt r 12 2)).state = 0 ∨ (s.kslot (leAt r 12 2)).state = 3) := by simp [hfilled, hheld]
  simp only [if_neg hrange, if_neg hthere, if_neg hfree', if_neg hslot', if_neg hfilled', if_neg (not_not.mpr husage),
    Option.bind_some, hqueue, hsource]
  rcases hends with ⟨rfl, rfl⟩ | ⟨rfl, hhosts, hok, k, hopen⟩
  · simp only [Bool.not_true, Bool.false_and, Bool.false_eq_true, if_false, if_true]
    rfl
  · simp only [State.putAttach, State.newAttach, Bool.false_eq_true, if_false] at hopen
    simp only [Bool.not_false, Bool.true_and]
    refine (if_neg (ne_true_of_eq_false hhosts)).trans ?_
    simp only [Bool.false_eq_true, if_false, hok, Bool.not_true, hopen]

end

/-- Settles O14: every request is one that its command runs, and its operands pass the command's checks. -/
theorem mailboxReplicationAndModuleCommands : Obligations.MailboxReplicationAndModuleCommands := by
  unfold Obligations.MailboxReplicationAndModuleCommands
  refine ⟨?source, ?detach, ?status, ?wopen, ?revoke, ?health, ?modules, ?remove, ?admission, ?loss, ?recoat, ?target⟩
  case source =>
    intro c s r d l i qpn base len id src a s1 hsrc hother htakes hdomain hd hsync hdegrade hreserved hl hroots hfew hknown
      hfree hslot hpage hfilled hheld husage hqp hid ha h1
    subst hl hsrc hid ha h1
    exact Done.eq (execReplAttach_answers ⟨hdomain, hd, hsync, hdegrade, hreserved, hroots, hfew, hknown, hfree, hslot,
      hpage, hfilled, hheld, husage, hqp⟩ htakes (decide_eq_true hother) (.inl ⟨rfl, rfl⟩))
  case detach =>
    intro c s r n a s1 htakes hatt h1
    subst h1
    refine Done.eq (State.runCmd_answers htakes (by simp only [ofAtt, hatt]; rfl) ?_ : execReplDetach c n s = _)
    simp only [hatt, Bool.decide_and, Bool.decide_eq_true]
  case status =>
    intro c s r n a htakes hatt
    refine Done.eq (State.runCmd_answers htakes (by simp only [ofAtt, hatt]; rfl) ?_ : execReplStatus c n s = _)
    simp only [hatt]
  case wopen =>
    intro c s r qpn i base len rights k s1 htakes hqp hok hopen
    refine Done.eq (State.runCmd_answers htakes rfl ?_ : execWindowOpen c qpn base len rights s = _)
    simp only [hqp, hok, hopen, Bool.not_true, Bool.false_eq_true, if_false]
  case revoke =>
    intro c s r k htakes hk hthere
    have hknown : ¬ (k ≥ 2 ^ 24 ∨ (Table.find s.rdm.windows (bitsOf k 23 8)).isNone = true) := by
      rintro (hk' | hnone)
      · omega
      · exact ne_true_of_eq_false (Option.isNone_eq_false_iff.mpr hthere) hnone
    cases hwin : s.window? k with
    | none =>
      refine Done.eq (State.runCmd_answers htakes rfl ((if_neg hknown).trans ?_) : execWindowRevoke c k s = _)
      simp only [hwin]
    | some iw =>
      refine Done.eq (State.runCmd_answers htakes rfl ((if_neg hknown).trans ?_) : execWindowRevoke c k s = _)
      simp only [hwin]
  case health =>
    intro c s r p htakes hp
    refine Done.eq (State.runCmd_answers htakes rfl ?_ : execHealthList c p s = _)
    exact if_neg (by omega)
  case modules =>
    intro c s r htakes
    exact Done.eq (State.runCmd_answers htakes rfl rfl : execModuleList c s = _)
  case remove =>
    intro c s r p htakes hp hpresent
    refine Done.eq (State.runCmd_answers htakes rfl ?_ : execModuleRemove c p s = _)
    exact (if_neg (by omega)).trans (if_neg (by simp [hpresent]))
  case admission =>
    intro c s r p htakes hp hnot2 hnot3
    refine Done.eq (State.runCmd_runsOn htakes rfl ?_ : execModuleAdmit c p s = _)
    exact (if_neg (by omega)).trans (if_neg (by simp [hnot2, hnot3]))
  case loss =>
    intro c s r d cur addr len l htakes hl
    subst hl
    exact Done.eq (State.runCmd_answers htakes rfl rfl : execLossList c d cur addr len true s = _)
  case recoat =>
    intro c s r d pq k g htakes hshape hidle hg
    subst hg
    refine Done.eq (State.runCmd_answers htakes rfl ?_ : execRecoatStart c d pq k s = _)
    exact (if_neg (by simp [hshape])).trans (if_neg (by simp [hidle]))
  case target =>
    intro c s r d l i qpn base len id k src a s1 s2 hsrc hown hhosts htakes hdomain hd hsync hdegrade hreserved hl hroots
      hfew hknown hfree hslot hpage hfilled hheld husage hqp hid ha h1 hok hopen
    subst hl hsrc hid ha h1
    exact Done.eq (execReplAttach_answers ⟨hdomain, hd, hsync, hdegrade, hreserved, hroots, hfew, hknown, hfree, hslot,
      hpage, hfilled, hheld, husage, hqp⟩ htakes (decide_eq_false (not_not.mpr hown)) (.inr ⟨rfl, hhosts, hok, k, hopen⟩))

end Sys2Proof.Machine
end

section
/-!
PROOFS. Firmware update: pushes, activations and their steps, trials and the primer ROM; and the mailbox commands of the
measurement part.
-/

namespace Sys2Proof.Machine

/-! ### Pushes and activations (R406, R409) -/

section
variable {s : State} {c : Nat} {r : List Byte}

/-- A push that head 0 may start, of an image of the length its header gives: the header is checked, and the image sent. -/
theorem State.pushStart_fits {img : List Byte} (hlen : img.length = leAt r 24 4) (hhead : s.top.head = 0)
    (hpaired : s.paired = true) (hphase : 6 ≤ s.top.phase) (hact : s.upd.act = none)
    (htrial : (s.comp (leAt r 8 1)).state ≠ 4) (haligned : leAt r 16 8 % 16 = 0) (hzero : allZero (slice r 9 7) = true)
    (hreserved : leAt r 28 4 = 0) (hcomp : imgComp img = leAt r 8 1) (hwhole : img.length = hdrLen + imgLength img) :
    s.pushStart c r img true = match s.checkHeader img with
      | some e => .done e (pushData 0 0 0) s
      | none =>
        let s1 := s.updUpd fun u => { u with push := some ⟨imgComp img, c, imgVersion img, img⟩ }
        .later ((if imgComp img = 0x10 then s1 else s1.updComp (imgComp img) fun k => { k with staged := [] }).send
          (.message 20 .a img)) := by
  unfold State.pushStart
  dsimp only
  rw [fit_of_length hlen, if_neg (not_not.mpr hhead), if_neg (by simp [hpaired, hphase]), if_neg (by simp [hact, htrial]),
    if_neg (by simp [haligned, hzero, hreserved]), if_neg (by simp)]
  cases s.checkHeader img with
  | some e => rfl
  | none =>
    dsimp only
    rw [if_neg (not_not.mpr hcomp), if_neg (by omega), if_neg (by omega)]

/-- An activation that nothing refuses begins: of module firmware with the first staged port, of the peer by asking it. -/
theorem State.startActivate_begins {comp target : Nat} (hcomp : comp ∈ [1, 2, 3, 0x10])
    (hidle : s.activateBusy comp = false) (hpaired : s.paired = true) (hphase : 6 ≤ s.top.phase) :
    s.startActivate c comp target =
      if comp = 0x10 then
        let ports := if target = 0xFF then s.stagedPorts else if target ∈ s.stagedPorts then [target] else []
        match ports with
        | [] => .no rsnNotFound s
        | p :: ps => .later ((s.updUpd fun u => { u with act := some ⟨comp, p, 1, ps, c⟩ }).beginModule p)
      else if target ≠ 1 - s.top.head then .no rsnRange s
      else
        let theirs := ([SD.a, SD.b].filter fun d => !s.owns d).map SD.num
        .later ((s.updUpd fun u => { u with act := some ⟨comp, target, 1, theirs, c⟩ }).actAsk) :=
  (if_neg (not_not.mpr hcomp)).trans ((if_neg (ne_true_of_eq_false hidle)).trans (if_neg (by simp [hpaired, hphase])))

theorem execUpdateActivate_some (x : Int) : execUpdateActivate (some c) x s =
    s.runCmd c 0x0703 true (onArray fun _ => [(9, 0)]) fun s r =>
      if !allZero (slice r 10 6) then .no rsnRange s else s.startActivate c (leAt r 8 1) (leAt r 9 1) := rfl

theorem execUpdatePush_some (img : List Byte) (ok : Bool) (bad : List Nat) : execUpdatePush (some c) img ok bad s =
    s.runCmd c 0x0701 true (onArray fun _ => [(9, 0)]) fun s r => s.pushStart c r img ok := rfl

/-- UPDATE_ACTIVATE with its reserved bytes 0 begins an activation that nothing refuses. -/
theorem execUpdateActivate_begins {x : Int} {s1 : State} (htakes : s.takesCmd c 0x0703 r none [(9, 0)])
    (hzero : allZero (slice r 10 6) = true) (hbegins : s.startActivate c (leAt r 8 1) (leAt r 9 1) = .later s1) :
    execUpdateActivate (some c) x s = .next (s1.updMbx fun m => { m with running := m.running ++ [(9, 0)] }) :=
  (execUpdateActivate_some x).trans (State.runCmd_runsOn htakes rfl ((if_neg (by simp [hzero])).trans hbegins))

end

/-- Settles O15: every request is one that its command runs, and its operands pass the command's checks. -/
theorem mailboxUpdateAndTrustCommands : Obligations.MailboxUpdateAndTrustCommands := by
  unfold Obligations.MailboxUpdateAndTrustCommands
  refine ⟨?push, ?status, ?activate, ?quote, ?record, ?cert, fun s img ok bad => Done.eq rfl, ?modules, ?goesOn, ?resets⟩
  case push =>
    intro c s r img s1 htakes hlen hhead hpaired hphase hact htrial haligned hzero hreserved hcomp hwhole h1
    subst h1
    refine Done.eq ((execUpdatePush_some img true []).trans ((State.runCmd_takes htakes rfl).trans ?_))
    rw [State.pushStart_fits hlen hhead hpaired hphase hact htrial haligned hzero hreserved hcomp hwhole]
    cases s.checkHeader img <;> rfl
  case status =>
    intro c s r peer htakes
    exact Done.eq (State.runCmd_answers htakes rfl rfl : execUpdateStatus c peer s = _)
  case activate =>
    intro c s r x htakes hzero hcomp htarget hidle hpaired hphase
    have hhead : leAt r 8 1 ∈ [1, 2, 3, 0x10] := by
      rcases hcomp with h | h | h <;> simp [h]
    refine Done.eq (execUpdateActivate_begins (x := x) htakes hzero ((State.startActivate_begins hhead hidle hpaired hphase).trans ?_))
    rw [if_neg (by omega), if_neg (not_not.mpr htarget), htarget]
  case quote =>
    intro c s r nonce addr len x b htakes hcalm hnonce hlen hx hb
    subst hx hb
    refine Done.eq (State.runCmd_answers htakes rfl ?_ : execAttestQuote c nonce addr len true s = _)
    exact (if_neg (by simp [hcalm])).trans ((if_neg (by omega)).trans ((if_neg (by omega)).trans (if_neg (by simp))))
  case record =>
    intro c s r addr len htakes hcalm hsigned hlen
    refine Done.eq (State.runCmd_answers htakes rfl ?_ : execAttestRecordGet c addr len true s = _)
    exact (if_neg (by simp [hcalm])).trans ((if_neg (by simp [hsigned])).trans ((if_neg (by omega)).trans (if_neg (by simp))))
  case cert =>
    intro c s r addr len htakes hlen
    refine Done.eq (State.runCmd_answers htakes rfl ?_ : execCertGet c addr len true s = _)
    exact (if_neg (by omega)).trans (if_neg (by simp))
  case modules =>
    intro c s r x p ps htakes hzero hcomp hidle hpaired hphase hports
    have hhead : leAt r 8 1 ∈ [1, 2, 3, 0x10] := by simp [hcomp]
    refine Done.eq (execUpdateActivate_begins (x := x) htakes hzero
      ((State.startActivate_begins hhead (hcomp ▸ hidle) hpaired hphase).trans ?_))
    rw [if_pos hcomp]
    simp only [hports, hcomp]
  case goesOn =>
    intro s s1 x hcalm h1
    subst h1
    refine Done.eq ((if_neg hcalm : execUpdateActivate none x s = _).trans ?_)
    split <;> simp_all
  case resets =>
    intro s x hholds hbroken
    exact Done.eq (if_pos ⟨hholds, hbroken⟩ : execUpdateActivate none x s = _)

/-! ### Steps of an update (R407, R408, R410, R411) -/

/-- Settles O16: each row by the activation or the component it finds. -/
theorem updateSteps : Obligations.UpdateSteps := by
  unfold Obligations.UpdateSteps
  refine ⟨?revert, ?hello, ?unconfirmed, ?healthy, ?trial, ?primer, ?runs, fun s c htrial => if_pos htrial⟩
  case revert =>
    intro s a x hact hcomp hstep hmod hstate
    refine Done.eq (?_ : execModuleConfirmTimeout s = _)
    simp only [execModuleConfirmTimeout, hact]
    exact if_pos ⟨hcomp, hstep, by rw [hmod, ← hstate]; rfl⟩
  case hello =>
    intro s hstep
    exact Done.eq (congrArg Host.Outcome.next (if_pos hstep) : execRestartHelloTimeout s = _)
  case unconfirmed =>
    intro s hstep
    exact Done.eq (congrArg Host.Outcome.next (if_pos hstep) : execActivationConfirmTimeout s = _)
  case healthy =>
    intro s s1 s2 f hcore hfilled hversion hphase hadmitted hsigned h1 h2
    have hok : ((!s.ubl.up || f) && !s.ubl.versionRefused && (decide (s.top.phase ≥ 4) &&
        s.mlk.ports.all fun x => decide (x.2.state ≠ 1)) && s.dig.recordSigned) = true := by
      simp only [hadmitted, hversion, hsigned]
      simpa [hphase] using hfilled
    refine Done.eq (?_ : execHealthConfirm f s = _)
    simp only [execHealthConfirm, hok, hcore, if_true, true_and, ← h1, ← h2]
    cases [1, 2, 3].any fun c => decide ((s2.comp c).state = 4) <;> rfl
  case trial =>
    intro s c htrial
    exact Done.eq (congrArg Host.Outcome.next (if_pos htrial) : execTrialTimeout c s = _)
  case primer =>
    intro s s1 s2 s3 s4 s6 rom cfg ok n bad bf hphase hcore halive hlocked h1 htrust hterzan htrustRuns hterzanRuns
    subst h1
    refine Done.eq ((if_neg (by simp [hphase, hcore, halive, hlocked]) : execPrimerRom rom cfg ok n bad bf s = _).trans ?_)
    simp only [htrust, hterzan, Bool.not_true, Bool.false_eq_true, or_self, if_false, htrustRuns, hterzanRuns]
  case runs =>
    intro s s1 s3 s4 n bad bf cfg p hp h1 hdriven hup
    subst hp h1
    simp only [State.primerRuns, hdriven, Bool.not_true, Bool.false_eq_true, if_false, hup]

end Sys2Proof.Machine
end
